-- ==== Sys2Proof/Word.lean ====
section
/-! DEFINITION. The words of the Kivon: a register is 32 bits and a table word 128 bits (R5). -/
namespace Sys2Proof

/-- A 32-bit register word (R5). -/
abbrev Word := BitVec 32

/-- A 128-bit table, descriptor or SRAM word (R5, R371). -/
abbrev Word128 := BitVec 128

/-- One byte of a stream, buffer or page. -/
abbrev Byte := BitVec 8

/-- Sparse data by key: the keys strictly rise, and no entry holds the value that an unlisted key reads as. -/
abbrev Sparse (α : Type) := List (Nat × α)

end Sys2Proof
end

