-- ==== Sys2Proof/Syntax.lean ====
section
/-! DEFINITION. The commands the block takes, one constructor per row of the spec's table of operations and events, and the
data their operands carry. A command is a write or read of a register by a fabric master (R363), a command of a ring,
mailbox or two-wire bus, or a happening that the device sees: what the outside world or a measurement contributes to it is
its operand. -/
namespace Sys2Proof

/-- A complex number. -/
structure Cx where
  re : Int := 0
  im : Int := 0
deriving DecidableEq, Repr

/-- One attempt at trimming a slice (R80, R88): the codes it needs and the residuals measured after trimming, in codes. -/
structure Trial where
  offset : Int := 0
  gain   : Int := 0
  skew   : Int := 0
  bw     : Int := 16
  rOffset : Nat := 0
  rGain   : Nat := 0
  rSkew   : Nat := 0
  rBw     : Nat := 0
deriving DecidableEq, Repr

/-- The attempts measured on one slice of one band. -/
structure SliceTrial where
  band  : Nat
  slice : Nat
  tries : List Trial
deriving DecidableEq, Repr

/-- What the converters of a port measured over one complete frame, by lane (R75, R79): RMS in 1/8 LSB, clips, the gain code that
the loop of FAST has settled on, where an update of the slow loop of TRACK falls in the frame the RMS it has averaged (R70), and by
lane and band the DC estimates. -/
structure LaneMeasure where
  rms   : List Nat := []
  clips : List Nat := []
  gain  : List Nat := []
  slow  : List Nat := []
  dc    : List Int := []
deriving DecidableEq, Repr

/-- A table directory entry (R344). -/
structure TblEnt where
  num    : Nat
  typ    : Nat := 0
  region : Nat := 0
  perDir : Bool := false
  words  : Nat := 0
  base   : Nat := 0
deriving DecidableEq, Repr

/-- The STRUCT section (R343); index p of a list is port p. -/
structure StructSec where
  mode    : Nat := 0
  ports   : Nat := 0
  group   : Nat := 0
  n0      : Nat := 0
  n1      : Nat := 0
  dpSrc   : Nat := 0
  baudMax : List Nat := [0, 0]
  bandB   : List Nat := [0, 0]
  perm    : List (List Nat) := [[], []]
  pwrMap  : Nat := 0
  dir     : List TblEnt := []
  hash    : List Nat := []
deriving DecidableEq, Repr

/-- A register setting of a region, as the loader writes it: byte address, byte enables, data. -/
structure Setting where
  addr : Nat
  be   : Nat
  data : Nat
deriving DecidableEq, Repr

/-- A signed object of R316: boot image, firmware section or image. The key class is 0 for Plilum's keys and 1 for the
customer's; `keyHash` is the SHA-256 of the public key that comes with it, `sigOk` says that its signature verifies, `hash` is the hash of what it holds. -/
structure SignedObj where
  cls     : Nat := 0
  keySlot : Nat := 0
  svn     : Nat := 0
  keyHash : Nat := 0
  sigOk   : Bool := true
  hash    : List Nat := []
deriving DecidableEq, Repr

/-- What the bytes of a TABLES section say: words by table, settings, groups, window, and the slots of added and of through tributaries. The
spec gives the section no layout (assumption log). -/
structure TablesSec where
  tables   : List (Nat × List Nat) := []
  settings : List Setting := []
  /-- decoder groups the FECPOOL region names, cipher groups the CIPHER region names (one bit each) -/
  groups   : Nat := 0
  /-- FECPOOL: the window W; GLOBAL: the sequencers that run are settings -/
  window   : Nat := 32
  /-- what a CLIENT section names for add-drop in through mode (R225): an added tributary's slots, and those passed through -/
  addSlots  : List Nat := []
  thruSlots : List Nat := []
deriving DecidableEq, Repr, Inhabited

/-- A section of a container (R339) and what its bytes hold. `hashOk` says that they have the entry's hash. -/
structure Section extends TablesSec where
  typ      : Nat
  region   : Nat
  offset   : Nat
  len      : Nat
  hash     : List Nat
  hashOk   : Bool
  /-- bytes of the entry not listed are zero -/
  rsvdOk   : Bool := true
  /-- its bytes -/
  body     : List Nat := []
  struct   : Option StructSec := none
  /-- CALDEF: the value of CAL_TRIG, and the port block with its port number -/
  trig     : Nat := 0
  calPort  : Nat := 0
  calBlock : Option (List (Nat × Nat)) := none
  /-- the content of a FW section passes the checks of a container of its own (R341) -/
  fwOk     : Bool := true
  fw       : SignedObj := {}
deriving DecidableEq, Repr

/-- A signed container (R338 to R340) as read from flash. `keyHash` is the hash of the public key in SIG and `sigOk` says
that the signature verifies under it. -/
structure Image where
  magic    : Nat
  version  : Nat
  keyClass : Nat
  keySlot  : Nat
  len      : Nat
  part     : Nat
  step     : Nat
  svn      : Nat
  sigOff   : Nat
  sigLen   : Nat
  rsvdOk   : Bool
  keyHash  : Nat
  sigOk    : Bool
  sects    : List Section
deriving DecidableEq, Repr

/-- The estimates a receiver computed over one window (R133), in the units of its registers; `iqc` lists skew, gain and phase
of X and Y (R109), `noise` the noise variance of each subcarrier, in 2^−16 of the square of half the spacing of the constellation (R123).
`cd` is the residual that the equaliser shows beside the dispersion applied. -/
structure Estimates where
  snr : List Int := []
  noise : List Nat := []
  gmi : List Nat := []
  cd  : Int := 0
  dgd : Nat := 0
  pdl : Nat := 0
  sop : Nat := 0
  nl  : Nat := 0
  iqc : List (Int × Int × Int) := []
deriving DecidableEq, Repr

/-- What a client lane measured since the device swath boundary before (CLI_LANE_STAT, CLI_LANE_PRBS). -/
structure PrbsMeasure where
  lane   : Nat
  lock   : Bool
  errors : Nat := 0
deriving DecidableEq, Repr

/-- What an ODU carries in one OTUCn frame, or what stands in for it (R223, R246): Local Fault ordered sets replace the stream of an Ethernet
client. -/
inductive OduKind where
  | signal | ais | lck | oci | localFault
deriving DecidableEq, Repr

/-- Overhead of an OTN layer in one frame (R220): TTI bytes, BEI, BIAE, BDI, IAE, and STAT in G.709's codes (1 normal). -/
structure LayerOh where
  tti  : List Nat := List.replicate 64 0
  bei  : Nat := 0
  biae : Bool := false
  bdi  : Bool := false
  iae  : Bool := false
  stat : Nat := 0
deriving DecidableEq, Repr

/-- An ODUk or ODUflex in one OTUCn frame (R220, R243): its tributary port number, the slots it holds, its overhead, that which passes unchanged (R221),
the payload type, CSF and the bytes of its payload. -/
structure OduSig where
  trib  : Nat
  slots : List Nat := []
  kind  : OduKind := .signal
  pm    : LayerOh := {}
  tcm   : List LayerOh := List.replicate 6 {}
  pass  : List Nat := []
  typ   : Nat := 0
  csf   : Bool := false
  data  : List Nat := []
deriving DecidableEq, Repr

/-- An OTUCn frame (R220, R221): its multiframe number, SM of every slice, GCC0 to GCC2, overhead that passes unchanged, ODUCn PM and TCM1 to TCM6,
OMFI, the tributary of every slot in the multiplex structure identifier, and the ODUs. -/
structure OtuFrame where
  mfas : Nat := 0
  sm   : List LayerOh := []
  gcc  : List (List Nat) := [[], [], []]
  pass : List Nat := []
  pm   : LayerOh := {}
  tcm  : List LayerOh := List.replicate 6 {}
  kind : OduKind := .signal
  omfi : Nat := 0
  msi  : List Nat := []
  odus : List OduSig := []
deriving DecidableEq, Repr

/-- A block of 257 bits of a client stream (R241): made entirely of Idle, an alignment marker, or of an uncorrectable codeword. -/
structure EthBlock where
  bits   : List Nat
  idle   : Bool := false
  marker : Bool := false
  bad    : Bool := false
deriving DecidableEq, Repr

/-- What a client brings to one OTUCn frame: its tributary, its ODU as G.709 maps it, and for 800GbE and 1.6TbE the blocks of its stream and how
many of them the frame takes (R241). -/
structure ClientSig where
  trib   : Nat
  odu    : OduSig := { trib := 0 }
  blocks : List EthBlock := []
  room   : Nat := 0
deriving DecidableEq, Repr

/-- What a client group measured since the device swath boundary before: codewords corrected and uncorrectable, symbols
corrected, Remote Fault received, spread in 0.1 ns; of a FlexO group the GID received, and whether dLOF, dLOM, a PHY mismatch or a defect of
the OTUCx or ODUCx is found (R238, R239, R246, R248). -/
structure GroupMeasure where
  group : Nat
  ccw   : Nat := 0
  ucw   : Nat := 0
  sym   : Nat := 0
  rf    : Bool := false
  skew  : Nat := 0
  gid   : Option Nat := none
  lof   : Bool := false
deriving DecidableEq, Repr

/-- A codeword whose last LLR is written (R178 to R180): the core clock, and the words of its slot that read UNCORR. -/
structure RxCodeword where
  port  : Nat
  now   : Nat
  bad   : List Nat := []
deriving DecidableEq, Repr

/-- What G.709 and G.798 detect on an OTN entity over a frame: defects raised (1) or cleared (0), BIP-8 errors, BEI received,
and a trace accepted, as 16 words (R222, R223); of entity 0 the slice, of entity 1 the tributaries that dMSIM or dLOOMFI affects, and the errored
blocks of a second that ended. Trace mismatch and degradation follow from the trace and the errored blocks. -/
structure OtnMeasure where
  entity : Nat
  defects : List (Nat × Bool) := []
  bip    : Nat := 0
  bei    : Nat := 0
  tti    : List Nat := []
  slice  : Nat := 0
  tribs  : List Nat := []
  second : Option Nat := none
deriving DecidableEq, Repr

/-- What correlator 0 estimates of the packet it receives over a frame (R266): the chip of the packet at which the frame begins, the
complex amplitude of a chip level of +1 at each subcarrier on X and Y, and the symbols of the packet despread so far, from symbol 80 on. -/
structure SedgeField where
  chip : Nat := 0
  gain : List (Cx × Cx) := []
  hard : List Nat := []
deriving DecidableEq, Repr

/-- A frame as received: what the converters measured over it, the dispersion step of its swath, what OTN processing finds in it, and
tributaries in whose OPU CSF starts or ends. `field` holds X and Y of every subcarrier at 2 samples per symbol, as dispersion compensation
delivers them, 256 to half the spacing of the constellation, and `adc` the samples of the four lanes; a frame whose `field` is not given
has `header` as its 512 header bytes, and its data symbols are not followed. `joint` says that a transmit frame of the other port begins in
the same core clock. -/
structure RxFrame where
  header : List Nat := []
  field  : List (List Cx × List Cx) := []
  adc    : List (List Int) := []
  sedge  : SedgeField := {}
  lanes  : LaneMeasure := {}
  cdStep : Int := 0
  otn    : List OtnMeasure := []
  csf    : List (Nat × Bool) := []
  joint  : Bool := false
deriving DecidableEq, Repr

/-- A programmed page of flash (R392 to R394): its t, metadata, data bytes; the bits of its codeword that have flipped in the cells
since, numbered from the first bit of data byte 0; and the three TCODE bytes where they differ from t / 8. -/
structure FlashPage where
  t     : Nat := 112
  part  : Nat := 0
  final : Bool := false
  gen   : Nat := 0
  lblk  : Nat := 0
  lpage : Nat := 0
  data  : List Nat := []
  flips : List Nat := []
  tcode : List Nat := []
deriving DecidableEq, Repr

/-- A physical block of flash: the bad-block marker reads 0xFF, and its programmed pages. -/
structure FlashBlock where
  good  : Bool := true
  pages : Sparse FlashPage := []
deriving DecidableEq, Repr

/-- What a scan finds (R390, R391, R399): a parameter page that reads, geometry (blocks in the store, chip enables − 1, PPB code,
spare bytes), the timing mode, the blocks that differ from what the model holds, and the time in µs. -/
structure FlashScan where
  found  : Bool
  blocks : Nat := 0
  ces    : Nat := 0
  ppb    : Nat := 0
  spare  : Nat := 0
  mode   : Nat := 0
  held   : List (Nat × FlashBlock) := []
  time   : Nat := 0
deriving DecidableEq, Repr

/-- What an operation on the flash came to: whether it failed, and for each page read the bits that flipped in the reading. `time` is the
time in µs. -/
structure FlashResult where
  failed : Bool := false
  pages  : List (List Nat) := []
  time   : Nat := 0
deriving DecidableEq, Repr

/-- What a start-up finds (R313, R315, R501): an OTP field that is uncorrectable, for each partition read the bits that flip in its pages, whether
programming OTP fails, the strap balls (I2C_ADDR), and TEST_MODE high. `jnl`, `lms` and `appr` count the flash operations
that a store in progress of the journal, of a leaf reservation, of the approval record had begun when the reset came; the last of them is cut
short (R103). `boots` and `images` are the bytes in the boot partitions and the image slots of a store that no mount has shown to the model. -/
structure Boot where
  jnl     : Nat := 0
  lms     : Nat := 0
  appr    : Nat := 0
  otpBad  : Bool := false
  boots   : List (List Nat) := [[], []]
  images  : List (Nat × List Nat) := []
  flips   : List (Nat × List (List Nat)) := []
  otpFail : Bool := false
  strap   : Nat := 0
  test    : Bool := false
deriving DecidableEq, Repr



/-- The commands: one constructor per row of the table of operations and events. -/
inductive Instr where
  /-- POR (R458). Power-on: rails come up in order; the device resets and starts up. -/
  | por (b : Boot)
  /-- RESET_N (R501). A filtered low pulse on RESET_N resets the device and samples the straps on its rise. -/
  | resetN (b : Boot)
  /-- SRST (R384). Soft reset of the device, keeping the PCIe link if KEEP_LINK is set. -/
  | srst (b : Boot)
  /-- VDD_STBY_LOSS (R501). Loss of VDD_STBY resets the standby domain and the retained shutdown record. -/
  | vddStbyLoss
  /-- REGISTER_WRITE (R513). Write to a register that has no row of its own, judged field by field under the access codes. With `more` it
  is a beat of 128 bits with that many beats of its burst to come (R367). -/
  | registerWrite (m a be data : Nat) (more : Option Nat := none)
  /-- LATCHED_READ (R512). Read of an _LO register that copies its partner into the reading master's latch; `more` as in REGISTER_WRITE. -/
  | latchedRead (m a : Nat) (more : Option Nat := none)
  /-- READ_CLEAR (R8). Read of an RC field that returns and clears its value. -/
  | readClear (m a : Nat)
  /-- ACTION_INSERT (R38). Write of SWC_INS_GO inserts an action descriptor after the ordered tests. -/
  | actionInsert (m d : Nat)
  /-- ACTION_REMOVE (R52). Write of SWC_REM removes a pending action from the inserting bank. -/
  | actionRemove (m h : Nat)
  /-- TSW_LOAD (R33). Write of SWC_TSW_LOAD_LO loads the start transmit swath while the transmitter is disabled. -/
  | tswLoad (p sw : Nat)
  /-- RESULT_POP (R57). Read of SWC_RES_1 returns the result value and removes the head entry of the result queue. -/
  | resultPop (m : Nat)
  /-- ACTION_STAGE (R36). At the start of frame P minus 2, the executor stages the actions keyed to frame position P. -/
  | actionStage (d : Nat) (bad : List (Nat × Nat))
  /-- CAL_EXECUTE (R48). At a frame boundary of a port-direction, the executor resolves, orders and executes or defers the staged actions. `joint` says that the
  boundary falls in the core clock of the CAL_EXECUTE before it, of another port-direction (R467). -/
  | calExecute (d : Nat) (joint : Bool := false)
  /-- SIDEBAND_TRANSFER (R14). A trim, VGA or sensor transfer over the converter sideband is CRC-checked and retried up to 3 times. -/
  | sidebandTransfer (p k fails : Nat)
  /-- CONVERTER_UNLOCK (R65). Loss of synthesiser or LO lock mutes the DACs, zeroes the ADC samples and holds the AGC. -/
  | converterUnlock (p : Nat) (syn lo : Bool)
  /-- CONVERTER_LOCK (R65). The synthesiser and LO acquire lock, and the one-swath hold starts. -/
  | converterLock (p : Nat)
  /-- MUTE_RELEASE (R65). After lock has held for one swath, the hardware mute is released at the next transmit frame boundary. -/
  | muteRelease (p : Nat)
  /-- AGC_REFAST_EXPIRY (R73). The refast timer expires and returns the AGC from FROZEN to FAST. -/
  | agcRefastExpiry (p : Nat)
  /-- FOREGROUND (R87). CAL_CMD FOREGROUND starts a full calibration of the port's powered bands. -/
  | foreground (p : Nat)
  /-- RESTORE (R96). CAL_CMD RESTORE copies staging to live and quick-checks every slice. -/
  | restore (p : Nat)
  /-- SNAPSHOT (R93). CAL_CMD SNAPSHOT copies the live copy into the staging copy. -/
  | snapshot (p : Nat)
  /-- FOREGROUND_DONE (R87). Foreground calibration completes, and the port enters READY or UNCAL. -/
  | foregroundDone (p : Nat) (slices : List SliceTrial) (words : List (Nat × Nat × Nat)) (failed : Bool)
  /-- RESTORE_DONE (R96). Restore completes, the port enters READY and every band is queued for a sweep. -/
  | restoreDone (p : Nat) (checks redo : List SliceTrial) (words : List (Nat × Nat × Nat))
  /-- SNAPSHOT_DONE (R93). The snapshot copy completes after any running sweep step. -/
  | snapshotDone (p : Nat)
  /-- SWEEP_START (R92). The lowest queued band starts a background sweep. -/
  | sweepStart (p : Nat)
  /-- SWEEP_STEP_DONE (R90). One sweep step ends and the spare hands the position back. -/
  | sweepStepDone (p : Nat) (tries : List Trial)
  /-- SWEEP_END (R90). Re-estimated band words replace the live band words at the next frame boundary, and T_LAST is taken. -/
  | sweepEnd (p : Nat) (words : List (Nat × Nat))
  /-- CAL_PERIOD_TRIGGER (R91). PERIOD seconds after a band's last sweep, the band is queued. -/
  | calPeriodTrigger (p band : Nat)
  /-- JOURNAL_STORE (R101). CAL_JNL_CMD STORE starts writing the staging copies to a journal slot. -/
  | journalStore
  /-- JOURNAL_LOAD (R102). CAL_JNL_CMD LOAD starts reading both journal slots. -/
  | journalLoad
  /-- JOURNAL_STORE_DONE (R101). The commit page is read back, or the store ends with a failure. -/
  | journalStoreDone (failAt : Option Nat) (time : Nat := 0)
  /-- JOURNAL_LOAD_DONE (R102). The newest valid record is copied into staging, and FOUND is set. -/
  | journalLoadDone (r : FlashResult := {})
  /-- RECEIVER_ENABLE (R126). EN written 1 moves the receiver from OFF to BEACON. -/
  | receiverEnable (p : Nat)
  /-- RECEIVER_DISABLE (R126). EN written 0 moves the receiver to OFF. -/
  | receiverDisable (p : Nat)
  /-- LOS_DECLARE (R130). Every lane's RMS stays below the threshold for FRAMES frames, and LOS is declared. -/
  | losDeclare (p : Nat)
  /-- LOS_CLEAR (R130). A lane stays at or above the threshold for FRAMES frames, and LOS clears. -/
  | losClear (p : Nat)
  /-- FREQ_ESTIMATE_DONE (R119). The coarse frequency estimate over 16 swaths completes. -/
  | freqEstimateDone (p : Nat) (fo : Int)
  /-- CD_SCAN_END (R129). The blind dispersion scan ends and passes or fails. -/
  | cdScanEnd (p : Nat) (coarse fine : List Nat)
  /-- EQ_CONVERGED (R126). Every subcarrier reaches a stable pilot SNR, and the receiver moves to FRAME. -/
  | eqConverged (p : Nat)
  /-- ACQ_TIMER_EXPIRY (R127). The FREQ, EQ, FRAME or FEC timer expires, and the attempt fails. -/
  | acqTimerExpiry (p : Nat)
  /-- FEC_LOCK_DECLARE (R130). A run of 256 frames within UNC_MAX declares FEC lock. -/
  | fecLockDeclare (p : Nat)
  /-- FEC_LOCK_LOSS (R130). LOSS consecutive bad runs of 256 frames lose FEC lock. -/
  | fecLockLoss (p : Nat)
  /-- FO_OUT_OF_RANGE (R126). A frequency estimate beyond 5 GHz in LOCKED ends lock. -/
  | foOutOfRange (p : Nat) (fo : Int)
  /-- CYCLE_SLIP (R118). A cycle slip confirmed by the next pilot is corrected by rotating symbols back: the last `n` data symbols of subcarrier
  `j`, by `k` quarter turns. -/
  | cycleSlip (p : Nat) (j n k : Nat := 0)
  /-- EQ_SINGULAR (R115). Both equaliser outputs converge on one polarisation, and the Y output is re-initialised. -/
  | eqSingular (p : Nat) (j : Nat := 0)
  /-- ESTIMATE_LATCH (R132). The receiver estimates are latched at the end of each window. -/
  | estimateLatch (p : Nat) (e : Estimates)
  /-- FTUNE_SEND (R120). Every 100 µs Bracken sends an FTUNE step to the LO laser. -/
  | ftuneSend (p : Nat)
  /-- FO_ALARM (R120). |FO| above ALARM for 16 consecutive swaths sets EV_RXD_FO_RANGE. -/
  | foAlarm (p : Nat)
  /-- TRANSMITTER_MODE_WRITE (R154). A write of TXD_CTRL.MODE starts BEACON or PAYLOAD, or requests a stop. -/
  | transmitterModeWrite (p mode : Nat)
  /-- TRANSMITTER_STOP (R154). The transmitter leaves PAYLOAD at the next transmit frame boundary. -/
  | transmitterStop (p : Nat)
  /-- ADJ_MISMATCH_SWAP (R165). After 2 mismatching frames, the receiver swaps to the bank that holds the received ADJ_ID. -/
  | adjMismatchSwap (p : Nat)
  /-- REPORT_RECEIVE (R160). A far-end report is received and shown in TXD_FER registers. -/
  | reportReceive (p : Nat) (b : List Nat)
  /-- REPORT_MISS (R160). No report arrives for 3 intervals, and EV_TXD_RPT_MISS is set. -/
  | reportMiss (p : Nat)
  /-- PROPOSE_GO (R162). TXD_PROP_CMD GO sends a PROPOSE with the target swath. -/
  | proposeGo (p d : Nat) (rung : Bool) (id i : Nat)
  /-- PROPOSE_ABORT (R162). TXD_PROP_CMD ABORT sends ABORT for the open proposal. -/
  | proposeAbort (p d : Nat)
  /-- PROPOSE_RECEIVE (R163). A received PROPOSE is checked, and the responder inserts its action and answers. -/
  | proposeReceive (p : Nat) (b : List Nat)
  /-- ACCEPT_RECEIVE (R162). The decider inserts its matching action on ACCEPT and sends COMMIT or ABORT. -/
  | acceptReceive (p : Nat) (b : List Nat)
  /-- REJECT_RECEIVE (R162). A REJECT ends the proposal as REJECTED. -/
  | rejectReceive (p : Nat) (b : List Nat)
  /-- COMMIT_RECEIVE (R162). The responder marks the proposal COMMITTED. -/
  | commitReceive (p : Nat) (b : List Nat)
  /-- ABORT_RECEIVE (R162). The responder removes its action and marks the proposal ABORTED. -/
  | abortReceive (p : Nat) (b : List Nat)
  /-- RESPONSE_TIMEOUT (R164). RESP_TO expires without an answer, and the decider aborts with TIMEOUT. -/
  | responseTimeout (p d : Nat)
  /-- CROSSING_BACKOFF_EXPIRY (R276). The back-off ends, and the higher-ranked end proposes again. -/
  | crossingBackoffExpiry (p : Nat) (key : Bool) (i : Nat)
  /-- CROSSING_HOLD_EXPIRY (R276). The 2,048-swath crossing hold ends. -/
  | crossingHoldExpiry (p : Nat) (key : Bool) (i : Nat)
  /-- CODEWORD_ARRIVAL (R180). The last LLR of a codeword is written, and the syndrome check is made. -/
  | codewordArrival (x : RxCodeword)
  /-- ITERATION_END (R181). A decoder iteration ends, and the codeword converges, hits the cap or continues; `bad` words of its slot read UNCORR. -/
  | iterationEnd (id now word : Nat) (bad : List Nat := [])
  /-- CODEWORD_DEADLINE (R181). Deadline D is reached, and decoding stops. -/
  | codewordDeadline (id : Nat)
  /-- CODEWORD_RELEASE (R182). 64 core clocks after D, the codeword is released with its flag. -/
  | codewordRelease (p : Nat)
  /-- GROUP_FALLOW (R192). FEC_GRP_CMD FALLOW moves a decoder group to DRAINING, or a FAILED group to OFF. -/
  | groupFallow (g : Nat)
  /-- GROUP_RETURN (R192). FEC_GRP_CMD RETURN starts SELFTEST of a decoder group. -/
  | groupReturn (g : Nat)
  /-- GROUP_DRAIN_DONE (R192). A draining decoder group holds no codeword and goes OFF. -/
  | groupDrainDone (g : Nat)
  /-- GROUP_SELFTEST_DONE (R192). A decoder group finishes its built-in vectors and enters SHADOW or FAILED. -/
  | groupSelftestDone (g : Nat) (ok : Bool)
  /-- GROUP_SHADOW_COMPARE (R192). A shadow decode is compared, and a mismatch sends the group to FAILED. -/
  | groupShadowCompare (g : Nat) (same : Bool)
  /-- GROUP_SHADOW_DONE (R192). SHADOW_SW periods and 256 comparisons complete, and the group becomes READY. -/
  | groupShadowDone (g : Nat)
  /-- STAT_CLEAR (R190). FEC_STAT_CLR clears the counters and histograms of a port. -/
  | statClear (p : Nat)
  /-- TX_FRAME_BUILD (R204). At each transmit frame, the header, control block, DOH and justification count are formed; `clients` lists, for every
  OTUCn frame that begins, what clients bring to it, and `lanes` the samples that the DAC lanes take before predistortion (R153). -/
  | txFrameBuild (p : Nat) (clients : List (List ClientSig)) (lanes : List (List Int))
  /-- FAS_SEARCH_HIT (R210). A passing FAS with a valid control copy becomes a new candidate. -/
  | fasSearchHit (p pos : Nat) (header : List Nat)
  /-- CANDIDATE_EXAMINE (R211). A candidate is examined one frame later and gains a confirmation or is dropped. -/
  | candidateExamine (p k : Nat) (header : List Nat)
  /-- FRAME_HEADER_RECEIVE (R214). A received frame header is checked and its control block and DOH are used. -/
  | frameHeaderReceive (p : Nat) (x : RxFrame)
  /-- FA_LOSS (R213). Five consecutive failing FAS checks lose frame alignment. -/
  | faLoss (p : Nat)
  /-- SKEW_MEASURE (R230). The bond skew is measured once per OTUC multiframe. -/
  | skewMeasure (m : Option Int)
  /-- LANE_LOCK (R234). A lane's synthesiser or CDR locks, and the lane enters TEST. -/
  | laneLock (n d : Nat)
  /-- LANE_WAKE_TIMEOUT (R234). No lock within 200 µs: the receive lane retries and the transmit lane fails. -/
  | laneWakeTimeout (n d : Nat)
  /-- LANE_TEST_DONE (R234). The PRBS31Q loop of 2^20 symbols ends, and the lane passes or goes to FAILED. -/
  | laneTestDone (n d : Nat) (bad : Bool)
  /-- LANE_JOIN (R234). The lane goes ON at the next swath boundary of PD 0. -/
  | laneJoin (n d : Nat)
  /-- LANE_LOS (R234). Loss of signal or CDR lock returns an ON receive lane to WAKE. -/
  | laneLos (n : Nat) (los : Bool)
  /-- CLIENT_GROUP_UP (R240). All logical lanes are locked and deskewed, and the group goes UP. -/
  | clientGroupUp (g spread : Nat) (wrong : List Nat := [])
  /-- SEDGE_ARM (R258). Writing ARM queues a LOADED Sedge transmit buffer. -/
  | sedgeArm (m p b : Nat)
  /-- SEDGE_PACKET_START (R258). The transmitter takes the next queued buffer and starts its packet, `gap` symbols after the one before (R252). -/
  | sedgePacketStart (p : Nat) (gap : Nat := 16)
  /-- SEDGE_TX_DONE (R258). A packet has been sent, and its buffer returns to LOADED. -/
  | sedgeTxDone (p : Nat)
  /-- SEDGE_PREAMBLE_DETECT (R262). A correlator detects a preamble and enters SYNC. -/
  | sedgePreambleDetect (p k m run : Nat) (rel fo : Int) (joint : Bool := false)
  /-- SEDGE_DELIMITER_FOUND (R262). The start delimiter is found, and the correlator enters HEADER. -/
  | sedgeDelimiterFound (p k : Nat)
  /-- SEDGE_DELIMITER_TIMEOUT (R262). 96 symbols pass without a delimiter, and the correlator returns to SEARCH. -/
  | sedgeDelimiterTimeout (p k : Nat)
  /-- SEDGE_HEADER_DECODE (R262). The header is decoded and checked by HCRC and for malformation. -/
  | sedgeHeaderDecode (p k h : Nat)
  /-- SEDGE_BODY_DECODE (R262). The last body symbol is decoded and the CRC-32 checked. -/
  | sedgeBodyDecode (p k : Nat) (body : List Nat) (crc : Nat)
  /-- CORRELATOR_WRITE (R261). A write of SGP_CORR_k is judged so that two enabled correlators never share a code. -/
  | correlatorWrite (p k be data : Nat)
  /-- SEDGE_RXQ_POP (R278). A write of SGP_RXQ_POP removes the head of the host receive queue. -/
  | sedgeRxqPop (p : Nat)
  /-- HELLO_SEND (R270). The core sends a HELLO every HELLO_B or HELLO_P swaths. -/
  | helloSend (p : Nat)
  /-- HELLO_RECEIVE (R271). A received HELLO updates SGP_NEG_STAT and applies the hints. -/
  | helloReceive (p : Nat) (b : List Nat)
  /-- PEER_SEEN_TIMEOUT (R271). No HELLO arrives within 3 intervals, and PEER_SEEN falls. -/
  | peerSeenTimeout (p : Nat)
  /-- KEY_ROLL_GO (R292). LCX_KEY_CMD GO has Ling insert switches and send KEY_PROP. -/
  | keyRollGo (p c id slot : Nat) (both : Bool)
  /-- KEY_PROP_RECEIVE (R292). The responder checks a KEY_PROP, inserts its switches and answers. -/
  | keyPropReceive (p : Nat) (b : List Nat)
  /-- KEY_ACK_RECEIVE (R292). A KEY_ACK ends the key exchange DONE. -/
  | keyAckReceive (p : Nat) (b : List Nat)
  /-- KEY_NAK_RECEIVE (R292). A KEY_NAK removes the proposer's actions and ends the exchange FAILED. -/
  | keyNakReceive (p : Nat) (b : List Nat)
  /-- KEY_TIMEOUT (R292). KEY_TO expires without an answer, and the exchange ends FAILED. -/
  | keyTimeout (p c : Nat)
  /-- CIPHER_SECTION_TX (R296). At each transmit section start, the key budget and high-water mark are checked. -/
  | cipherSectionTx (p : Nat) (plain : List (Nat × List Nat))
  /-- CIPHER_SECTION_RX (R298). A received section is judged for replay, a missing tag or a tag failure. -/
  | cipherSectionRx (p c : Nat) (cipher : List Nat) (nul : Bool)
  /-- CIPHER_GROUP_FALLOW (R302). LCX_GRP_CMD FALLOW takes a cipher group out of service. -/
  | cipherGroupFallow (g : Nat)
  /-- CIPHER_GROUP_RETURN (R302). LCX_GRP_CMD RETURN starts the cipher group's self-test. -/
  | cipherGroupReturn (g : Nat)
  /-- CIPHER_GROUP_DRAIN_DONE (R302). A draining cipher group goes OFF at the next section boundary. -/
  | cipherGroupDrainDone (g : Nat)
  /-- CIPHER_GROUP_SELFTEST_DONE (R302). A cipher group finishes its 64 GCM vectors. -/
  | cipherGroupSelftestDone (g : Nat) (ok : Bool)
  /-- CIPHER_GROUP_SHADOW_DONE (R302). A cipher group ends SHADOW and becomes READY or FAILED. -/
  | cipherGroupShadowDone (g : Nat) (ok : Bool)
  /-- MCE_GCM_ENCRYPT (R305). Submission of a GCM encrypt job. -/
  | mceGcmEncrypt (m d : Nat)
  /-- MCE_GCM_DECRYPT (R305). Submission of a GCM decrypt-and-verify job. -/
  | mceGcmDecrypt (m d : Nat)
  /-- MCE_KW_WRAP (R305). Submission of a KW wrap job. -/
  | mceKwWrap (m d : Nat)
  /-- MCE_KW_UNWRAP (R305). Submission of a KW unwrap job. -/
  | mceKwUnwrap (m d : Nat)
  /-- MCE_KWP_WRAP (R305). Submission of a KWP wrap job. -/
  | mceKwpWrap (m d : Nat)
  /-- MCE_KWP_UNWRAP (R305). Submission of a KWP unwrap job. -/
  | mceKwpUnwrap (m d : Nat)
  /-- MCE_SAVE (R307). Submission of a job that saves a session's chaining state. -/
  | mceSave (m d : Nat)
  /-- MCE_RESTORE (R307). Submission of a job that restores a session's chaining state. -/
  | mceRestore (m d : Nat)
  /-- MCE_SUSPEND (R306). A higher-priority job suspends the running job at a block boundary, `blocks` blocks of its data into it; `ext` is its buffer
  where that lies outside the memories of the device. -/
  | mceSuspend (blocks : Nat := 0) (ext : List Nat := [])
  /-- MCE_JOB_COMPLETE (R305). An MCE job completes, its result is queued, and the next job resumes or starts. `ext` is the text of its buffer
  where that lies outside the memories of the device; `cut` says that the block of the buffer was reset under its burst (R369). -/
  | mceJobComplete (ext : List Nat) (cut : Bool)
  /-- MCE_RESULT_POP (R311). A read of MCE_RES returns the result and removes it. -/
  | mceResultPop (m : Nat)
  /-- MCE_KEY_LOAD (R309). Ling installs a key and salt in a session. -/
  | mceKeyLoad (m : Nat)
  /-- MCE_KEY_ERASE (R309). Ling zeroises a session. -/
  | mceKeyErase (m : Nat)
  /-- INFO (R335). Mailbox INFO returns Ling state and proposal slot states. -/
  | info (m d : Nat)
  /-- KTK_LOAD (R335). Mailbox KTK_LOAD loads a key-transport key. -/
  | ktkLoad (m d : Nat)
  /-- KEY_GEN (R335). Mailbox KEY_GEN draws and installs a transmit key and returns it wrapped. -/
  | keyGen (m d : Nat)
  /-- KEY_INSTALL (R288). Mailbox KEY_INSTALL installs a wrapped key into a key slot. -/
  | keyInstall (m d : Nat)
  /-- KEY_ERASE (R288). Mailbox KEY_ERASE empties a key slot that is not CURRENT. -/
  | keyErase (m d : Nat)
  /-- SESS_LOAD (R335). Mailbox SESS_LOAD loads an MCE session key with its rights. -/
  | sessLoad (m d : Nat)
  /-- SESS_ERASE (R335). Mailbox SESS_ERASE erases an MCE session. -/
  | sessErase (m d : Nat)
  /-- PNONCE (R327). Mailbox PNONCE issues a proposal nonce. -/
  | pnonce (m d : Nat)
  /-- SEC_PROPOSE (R332). Mailbox PROPOSE enters a change proposal into a slot. -/
  | secPropose (m d : Nat)
  /-- APPROVE (R332). Mailbox APPROVE checks an approval token and advances the proposal. -/
  | approve (m d : Nat)
  /-- WITHDRAW (R333). Mailbox WITHDRAW withdraws a proposal. -/
  | withdraw (m d : Nat)
  /-- ENROL (R324). Mailbox ENROL replaces the enrolment list in PROVISION. -/
  | enrol (m d : Nat)
  /-- LOCK (R324). Mailbox LOCK moves the lifecycle to DEPLOYED. -/
  | lock (m d : Nat)
  /-- ATTEST (R319). Mailbox ATTEST returns a signed attestation report. -/
  | attest (m d : Nat)
  /-- ATT_KEY (R318). Mailbox ATT_KEY returns the attestation public key. -/
  | attKey (m d : Nat)
  /-- EPOCH (R335). Mailbox EPOCH has Ling insert a key epoch switch. -/
  | epoch (m d : Nat)
  /-- RT_SWAP (R336). Mailbox RT_SWAP verifies a boot image and starts replacing the Ling runtime. -/
  | rtSwap (m d : Nat) (r : FlashResult)
  /-- RT_SWAP_DONE (R336). The runtime replacement completes, and Ling leaves SWAP. -/
  | rtSwapDone
  /-- APPROVAL_RECORD_COMMIT (R329). The approval record store completes, and the proposal state or subject change takes effect. -/
  | approvalRecordCommit (failAt : Option Nat) (otpFail : Bool) (time : Nat := 0)
  /-- ATT_RESERVE_DONE (R320). The leaf reservation store completes, and Ling signs. -/
  | attReserveDone (failAt : Option Nat) (time : Nat := 0)
  /-- APPR_CONF_SEND (R331). APPR_CONF is sent every CONF_RETRY swaths until the proposal is confirmed. -/
  | apprConfSend (k : Nat)
  /-- APPR_CONF_RECEIVE (R331). An APPR_CONF is answered with APPR_ACK or APPR_NAK. -/
  | apprConfReceive (p : Nat) (b : List Nat)
  /-- APPR_ACK_RECEIVE (R331). An APPR_ACK confirms the proposal and schedules its actions. -/
  | apprAckReceive (p : Nat) (b : List Nat)
  /-- APPR_NAK_RECEIVE (R331). An APPR_NAK sets EV_SEC_CONF_NAK. -/
  | apprNakReceive (p : Nat) (b : List Nat)
  /-- PROPOSAL_DEADLINE (R331). An unconfirmed proposal reaches its deadline and ends EXPIRED. -/
  | proposalDeadline (k : Nat)
  /-- IMAGE_LOAD (R341). IMG_CMD LOAD starts verifying an image slot. -/
  | imageLoad (k : Nat)
  /-- IMAGE_LOAD_DONE (R341). The slot load ends VERIFIED or FAILED. -/
  | imageLoadDone (pages : List (List Nat)) (time : Nat)
  /-- ACTIVATE (R349). IMG_CMD ACTIVATE applies a MGMT or BOARD region at once. -/
  | activate (r k : Nat)
  /-- REGION_RESET (R350). IMG_CMD REGION_RESET resets a region's blocks and reapplies its content. -/
  | regionReset (r : Nat)
  /-- REGION_STAGING_DONE (R348). Staging of a region activation finishes or fails. -/
  | regionStagingDone (r : FlashResult)
  /-- TABLE_WINDOW_WRITE (R351). A write to table RAM through the table window, judged by bank rules. -/
  | tableWindowWrite (m w be v : Nat)
  /-- SEQUENCER_RUN (R355). Writing RUN starts a sequencer at INITIAL or stops it. -/
  | sequencerRun (mask : Nat)
  /-- HDG_POST (R355). A write of HDG_POST latches a code in a sequencer. -/
  | hdgPost (n c : Nat)
  /-- SEQUENCER_ROUND (R357). Every 256 core clocks a sequencer chooses a transition and runs its actions. -/
  | sequencerRound (n : Nat)
  /-- SEQUENCER_TIMER_EXPIRY (R356). A sequencer timer expires. -/
  | sequencerTimerExpiry (n i : Nat)
  /-- HOST_EVENT_POP (R362). A read of HDG_HEV_VAL returns and removes the head host event. -/
  | hostEventPop
  /-- SAMPLE_POP (R362). A read of HDG_SAMP returns and removes a sample record. -/
  | samplePop
  /-- SCRUB_PASS (R374). Every PERIOD the SRAM scrubber reads and corrects every valid word. -/
  | scrubPass
  /-- DIAG_READ (R375). FAB_DIAG_CTRL READ returns a word raw. -/
  | diagRead (m inst w : Nat)
  /-- DIAG_WRITE (R375). FAB_DIAG_CTRL WRITE stores data and check bits raw. -/
  | diagWrite (m inst w v chk : Nat)
  /-- SQ_DOORBELL (R379). The host writes a new submission ring tail. -/
  | sqDoorbell (r t : Nat)
  /-- CQ_HEAD_WRITE (R383). The host writes a new completion ring head, freeing room. -/
  | cqHeadWrite (q h : Nat)
  /-- SQ_ENABLE (R389). Writing EN of a submission ring resets its head and tail. -/
  | sqEnable (r en : Nat)
  /-- CQ_ENABLE (R389). Writing EN of a completion ring resets head, tail and PHASE. -/
  | cqEnable (q en : Nat)
  /-- COMMAND_FETCH (R382). Gorse fetches a command from the ring of highest priority. -/
  | commandFetch (b : List Nat)
  /-- NOP (R381). Ring command NOP. -/
  | nop (tag : Nat)
  /-- CAL_INSERT (R381). Ring command CAL_INSERT inserts a calendar action at rank 3. -/
  | calInsert (tag : Nat)
  /-- CAL_REMOVE (R381). Ring command CAL_REMOVE removes a calendar action. -/
  | calRemove (tag : Nat)
  /-- TABLE_WRITE (R381). Ring command TABLE_WRITE writes table RAM words. -/
  | tableWrite (tag : Nat) (b : List Nat)
  /-- TABLE_READ (R381). Ring command TABLE_READ reads table RAM words. -/
  | tableRead (tag : Nat)
  /-- FLASH_READ (R400). Ring command FLASH_READ reads flash pages. -/
  | flashRead (tag : Nat)
  /-- FLASH_WRITE (R400). Ring command FLASH_WRITE programs one flash page. -/
  | flashWrite (tag : Nat) (b : List Nat)
  /-- FLASH_ERASE (R400). Ring command FLASH_ERASE erases a logical block. -/
  | flashErase (tag : Nat)
  /-- LOG_READ (R407). Ring command LOG_READ returns event log records. -/
  | logRead (tag : Nat)
  /-- SNAPSHOT_READ (R381). Ring command SNAPSHOT_READ returns the counter shadow bank. -/
  | snapshotRead (tag : Nat)
  /-- GCC_SEND (R381). Ring command GCC_SEND sends GCC data. -/
  | gccSend (tag : Nat) (b : List Nat)
  /-- GCC_RECV (R381). Ring command GCC_RECV receives GCC data. -/
  | gccRecv (tag : Nat) (b : List Nat)
  /-- SEC_CMD (R381). Ring command SEC_CMD runs a mailbox command in the Gorse bank. -/
  | secCmd (tag : Nat) (b : List Nat)
  /-- COMPLETION_WRITE (R383). A completion entry is written once there is room in its ring. -/
  | completionWrite (q : Nat)
  /-- PCIE_LINK_DOWN (R384). The PCIe link goes down, outstanding commands abort and rings are disabled. -/
  | pcieLinkDown (ltssm : Nat)
  /-- HOST_WATCHDOG_EXPIRY (R385). The host watchdog expires and posts its code to sequencers. -/
  | hostWatchdogExpiry
  /-- WATCHDOG_KICK (R385). A write of HIF_WDOG_KICK restarts the watchdog. -/
  | watchdogKick
  /-- I2C_READ (R387). A two-wire read returns status bytes from the pointer onwards. -/
  | i2cRead (n : Nat)
  /-- I2C_WRITE (R387). A two-wire write sets the register pointer. -/
  | i2cWrite (b : List Nat)
  /-- FLASH_MOUNT (R399). The FLC scans the flash and mounts the partitions. -/
  | flashMount (x : FlashScan)
  /-- FLC_READ (R400). FLC_CMD READ reads one page into the window. -/
  | flcRead
  /-- FLC_WRITE (R400). FLC_CMD WRITE programs the window into one page. -/
  | flcWrite
  /-- FLC_ERASE (R400). FLC_CMD ERASE erases a logical block. -/
  | flcErase
  /-- RETIRE (R403). FLC_CMD RETIRE retires a physical block after relocating it. -/
  | retire
  /-- SCRUB_NOW (R405). FLC_CMD SCRUB_NOW starts a flash scrub pass. -/
  | scrubNow
  /-- FLASH_OP_DONE (R401). A flash operation on a chip enable completes, and the next waiting operation is taken. -/
  | flashOpDone (ce : Nat) (r : FlashResult)
  /-- RELOCATION (R398). A queued block is copied to a free block, and the old block is erased. -/
  | relocation (r : FlashResult)
  /-- RELOCATION_RETRY (R404). A relocation refused by the temperature window is retried every second. -/
  | relocationRetry (r : FlashResult)
  /-- FLASH_SCRUB_START (R405). HOURS after the last pass, a flash scrub pass starts. -/
  | flashScrubStart
  /-- LOG_FLUSH (R407). A log page is programmed when full or 1 s after its first record. -/
  | logFlush (fails time : Nat)
  /-- REF_MONITOR_UPDATE (R414). A reference frequency measurement updates and is judged for qualification. -/
  | refMonitorUpdate (i : Nat) (offset : Int)
  /-- REF_LOS (R413). A reference with no edges for 4 periods is in LOS and disqualified. -/
  | refLos (i : Nat)
  /-- REF_QUAL_TIMER_EXPIRY (R414). QUAL_TIME elapses, and the reference is qualified or disqualified. -/
  | refQualTimerExpiry (i : Nat)
  /-- REF_SWITCH_DONE (R418). A reference switch completes after two phase samples. -/
  | refSwitchDone (n : Nat)
  /-- WTR_EXPIRY (R419). The wait-to-restore timer expires, and the DPLL switches back. -/
  | wtrExpiry (n : Nat)
  /-- DPLL_LOCK (R422). Phase error stays below LOCK_THR for 16 samples, and the DPLL is LOCKED. -/
  | dpllLock (n : Nat)
  /-- DPLL_LOCK_LOSS (R422). Phase error stays above 4 × LOCK_THR for 16 samples, and the DPLL returns to ACQUIRE. -/
  | dpllLockLoss (n : Nat)
  /-- HISTORY_RECORD (R423). Once per second, a locked DPLL records its mean DCO offset. -/
  | historyRecord (n : Nat) (mean phase : Int)
  /-- DPLL_MODE_WRITE (R422). A write of MODE moves a DPLL into or out of OPEN or forced selection. -/
  | dpllModeWrite (n mode : Nat)
  /-- DCO_WRITE (R424). A write of CLK_DPn_DCO_HI applies the DCO offset in OPEN. -/
  | dcoWrite (n hi : Nat)
  /-- STILE_ARM (R433). Writing ARM queues a Stile transmit slot. -/
  | stileArm (m n j : Nat)
  /-- STILE_RESPONSE (R434). A response with the slot's TAG ends its wait. -/
  | stileResponse (n time : Nat) (b : List Nat)
  /-- STILE_RSP_TIMEOUT (R434). RSP_TO expires without a response. -/
  | stileRspTimeout (n j : Nat)
  /-- TIME_SEND (R431). Every TIME_PERIOD a TIME frame is sent on each UP lane. -/
  | timeSend (now : Nat)
  /-- STILE_HELLO_SEND (R436). A HELLO is sent on entry to ACTIVE and every 1 ms until UP. -/
  | stileHelloSend (n : Nat)
  /-- STILE_HELLO_RECEIVE (R432). A received HELLO is answered in hardware. -/
  | stileHelloReceive (n time : Nat) (b : List Nat)
  /-- STILE_FRAME_RECEIVE (R434). A received Stile frame is checked and queued or answered. -/
  | stileFrameReceive (n time : Nat) (bad : Bool) (b : List Nat)
  /-- STILE_SYNC_ACQUIRE (R435). Receive synchronisation is acquired, and the transmitter enters ACTIVE. -/
  | stileSyncAcquire (n : Nat)
  /-- STILE_SYNC_LOSS (R436). Loss of SYNC takes the link DOWN and aborts waiting slots. -/
  | stileSyncLoss (n : Nat) (sd : Bool)
  /-- STILE_TX_ENABLE (R441). TX_EN written 1 powers the transmitter and starts its self-test. -/
  | stileTxEnable (n : Nat)
  /-- STILE_SELFTEST_DONE (R441). The PRBS7 self-test ends, and the transmitter enters IDLE or FAILED. -/
  | stileSelftestDone (n : Nat) (bad : Bool)
  /-- STILE_TX_SLEEP (R440). TX_EN written 0 sends the sleep notice and powers the transmitter down. -/
  | stileTxSleep (n : Nat)
  /-- STILE_RX_ENABLE (R441). RX_EN written 1 powers the receiver into ACQ. -/
  | stileRxEnable (n : Nat)
  /-- STILE_RX_SLEEP (R440). RX_EN written 0 powers the receiver off at once. -/
  | stileRxSleep (n : Nat)
  /-- STILE_SLEEP_NOTICE (R440). A received K28.0 sets FAR_SLEEP. -/
  | stileSleepNotice (n : Nat)
  /-- STILE_WAKE (R440). Signal on a sleeping receiver sets EV_STL_WAKE. -/
  | stileWake (n : Nat)
  /-- EYE_SCAN_START (R438). Writing GO starts or restarts an eye scan. -/
  | eyeScanStart (n : Nat)
  /-- EYE_SCAN_DONE (R438). An eye scan completes after 2^LOG bits. -/
  | eyeScanDone (n err : Nat)
  /-- LOOP_CHANGE (R439). A LOOP change takes effect at the next idle pair. -/
  | loopChange (n : Nat)
  /-- STILE_RXQ_POP (R434). A write of STL_RXQ_POP removes the head frame of the receive queue. -/
  | stileRxqPop
  /-- THM_SAMPLE (R445). Every 1 ms or 62.5 µs the sensors are sampled, cross-checked and Tj and the throttle judged. -/
  | thmSample (temps : List Int) (opens now : Nat)
  /-- THROTTLE_APPLY (R450). A receive direction takes the new throttle entry at its next frame boundary. -/
  | throttleApply (p : Nat)
  /-- THM_CFG_WRITE (R448). A write of THM_CFG is judged field by field against the threshold ranges. -/
  | thmCfgWrite (be data : Nat)
  /-- SHUTDOWN_FORCE (R451). A THM_SD_CTRL write with KEY 0x5D and FORCE trips shutdown. -/
  | shutdownForce (key now : Nat)
  /-- RAIL_FAULT (R459). A rail outside its window for 10 µs trips shutdown. -/
  | railFault (rails now : Nat)
  /-- SD_RECORD_COMMIT (R453). The shutdown record is programmed to the event log. -/
  | sdRecordCommit (fails time : Nat)
  /-- SD_RECORD_RETRY (R453). A refused shutdown record commit is retried every second. -/
  | sdRecordRetry (fails time : Nat)
  /-- RESUME (R454). A write of RESUME leaves SHUTDOWN as an SRST. -/
  | resume (force : Bool) (b : Boot)
  /-- DOMAIN_POWER_UP_DONE (R456). A queued power domain finishes its 10 µs power-up. -/
  | domainPowerUpDone (d : Nat)
  /-- AVS_STEP (R460). Every 100 µs VDD_CORE is stepped towards the target over AVSBus. -/
  | avsStep (fails : Nat)
  /-- PRESET_OVERFLOW (R468). The preset unit reaches PERIOD and signals Hedgerow. -/
  | presetOverflow
  /-- FMN_INPUT (R471). A field-monitor chain takes an input at the frame or swath rate and filters it. -/
  | fmnInput (c : Nat) (x : Int)
  /-- FMN_CTRL_WRITE (R478). A write of a chain's control or source resets the chain. -/
  | fmnCtrlWrite (c be data : Nat)
  /-- PROC_HALT (R18). A processor halts, and its loops hold their last outputs. -/
  | procHalt (c : Nat)
  /-- SLICE_FALLOW (R486). GCTL_UNIT_CMD fallows a converter slice, and the spare stands in. -/
  | sliceFallow (p i sl : Nat)
  /-- SLICE_RETURN (R487). GCTL_UNIT_CMD returns a fallowed slice, and offline calibration starts. -/
  | sliceReturn (p i sl : Nat)
  /-- SLICE_CAL_DONE (R487). The returning slice converges to READY or fails. -/
  | sliceCalDone (p i : Nat) (tries : List Trial)
  /-- SLICE_JOIN (R487). A READY slice takes its position back at a swath boundary. -/
  | sliceJoin (p i : Nat)
  /-- TILE_FALLOW (R488). GCTL_UNIT_CMD fallows a subcarrier tile at the next receive frame boundary. -/
  | tileFallow (p t : Nat)
  /-- TILE_RETURN (R489). GCTL_UNIT_CMD returns a tile and starts its self-test. -/
  | tileReturn (p t : Nat)
  /-- TILE_SELFTEST_DONE (R489). The tile finishes its built-in vectors and enters SHADOW. -/
  | tileSelftestDone (p t : Nat) (ok : Bool)
  /-- TILE_SHADOW_DONE (R489). The tile ends SHADOW as READY or FAILED. -/
  | tileShadowDone (p t : Nat) (same : Bool)
  /-- TILE_JOIN (R489). A READY tile joins at a receive swath boundary. -/
  | tileJoin (p t : Nat)
  /-- PROCESSOR_FALLOW (R491). GCTL_UNIT_CMD fallows a core into HANDOVER. -/
  | processorFallow (c : Nat)
  /-- HANDOVER_DONE (R491). The fallowed core's work has moved, and the core goes OFF. -/
  | handoverDone (c : Nat)
  /-- PROCESSOR_RETURN (R492). GCTL_UNIT_CMD returns a core, which loads firmware. -/
  | processorReturn (c : Nat)
  /-- PROC_SELFTEST_DONE (R492). A loaded core passes or fails its known-answer test. -/
  | procSelftestDone (c : Nat) (ok : Bool)
  /-- PROC_JOIN (R492). A READY core is RUNNING at the next device swath boundary. -/
  | procJoin (c : Nat)
  /-- FIRMWARE_UPDATE (R493). GCTL_UNIT_CMD UPDATE replaces core firmware one core at a time. -/
  | firmwareUpdate (slot mask : Nat)
  /-- DEVICE_SWATH_BOUNDARY (R483). The device swath boundary at which units tied to no port-direction join. -/
  | deviceSwathBoundary (lanes : List PrbsMeasure) (groups : List GroupMeasure)
  /-- PAYLOAD_PRESENT (R126). The receiver finds that no more than half of the recombined power lies near the carrier, so payload is present, and a receiver in BEACON may move to FREQ. -/
  | payloadPresent (p : Nat) (present : Bool)
  /-- REF_ACTIVITY_RETURN (R413). Edges return on a reference that was in LOS, LOS clears and its qualification count starts. -/
  | refActivityReturn (i : Nat)
  /-- COUNTER_LEVEL_TICK (R464). At each 1 µs tick of device time, every counter in level mode adds 1 if its condition held during the tick. -/
  | counterLevelTick
  /-- PCIE_LINK_UP (R377). The PCIe link trains and comes up, HIF_LINK.UP is set, and configuration requests are answered. -/
  | pcieLinkUp (width speed ltssm : Nat)
  /-- CLIENT_LANE_LOCK_LOSS (R240). A logical lane of a client group in UP loses alignment-marker or FlexO frame lock, and the group returns to ALIGN. -/
  | clientLaneLockLoss (g k : Nat)
  /-- HI_SER_DETECT (R238). hi_ser is asserted or cleared for an Ethernet client group at the end of its detection window, and EV_CLI_HI_SER is set. -/
  | hiSerDetect (g : Nat) (on : Bool)
deriving DecidableEq, Repr

end Sys2Proof
end

