-- ==== Sys2Proof/Decode.lean ====
section
/-! DEFINITION. The spec gives its commands no words: no row of the table of operations and events has bits. -/
namespace Sys2Proof

/-- The command that a word spells: none, since no row of the table gives bits (log entry 2). -/
def decodeTableWord (_nbits _w : Nat) : Option Instr := none

end Sys2Proof
end

