-- ==== Sys2Proof/Config.lean ====
section
/-! DEFINITION. What an implementation fixes and what the spec leaves open: constants with no body, so no proof can see
their values (assumption log). -/
namespace Sys2Proof.Config

/-- The free values, drawn in turn by a counter of State: handles, tags, draws of the DRBG, and results the spec names no
value for. Nothing constrains them. -/
opaque freeValue : Nat → Nat

/-- The identity the device is given at manufacture (R304, the OTP table of chapter 12). -/
opaque deviceId : Nat

/-- One block of AES-256 under a key. The algorithms of NIST and IETF standards that the spec cites and does not retell are left
uninterpreted (assumption log); GCM over the block cipher stands in Gcm. -/
opaque aesCipher : Nat → Nat → BitVec 128
def aesBlock (key block : Nat) : Nat := (aesCipher key block).toNat

/-- The key wraps of NIST SP 800-38F, KW and KWP (`true`), and their inverses, none where the integrity check fails. -/
opaque keyWrap : Bool → Nat → List Nat → List Nat
opaque keyUnwrap : Bool → Nat → List Nat → Option (List Nat)

/-- The device wrapping key (R307), which derives from DUK. -/
opaque wrapKey : Nat

/-- The 64-bit fingerprint of a key that Ling keeps (R295). -/
opaque keyPrint : Nat → Nat

/-- SHA-256 of a string of bytes, as 32 bytes; the verification of an HSS signature (public key, message, signature); the LM-OTS signature and
the path of a leaf over a report; the identifier and the root of the attestation key (R312, R317, R318). -/
opaque sha256 : List Nat → List Nat
opaque hssVerify : List Nat → List Nat → List Nat → Bool
opaque lmsSign : Nat → List Nat → List Nat
opaque attI : List Nat
opaque attKey : List Nat

/-- The radius squared of the constant-modulus rule for a constellation of m bits per symbol, 2^16 to half the spacing squared (R115). -/
opaque modulus : Nat → Nat

/-- The first-order perturbation of a symbol (R121): the coefficient words of the set in use, the symbols decided on the subcarrier in X and Y as
pairs (I, Q), those of the subcarriers below and above it that take part, the polarisation, the symbol time. -/
opaque perturbation : List Nat → List (Int × Int) → List (Int × Int) → List (List (Int × Int)) → Nat → Nat → Int × Int

/-- Samples of a lane at 360 GS/s delayed by a skew in 10 fs (R153). -/
opaque skewed : Int → List Int → List Int

/-- OTUCn frames of G.709, which the spec cites and does not retell: of the bits received with n slices the frames they complete and how many bits those
took (R220), and the bits of a frame sent, with its BIP and the tributaries multiplexed into their slots by GMP (R243). -/
opaque otuRead : Nat → List Nat → List OtuFrame × Nat
opaque otuWrite : OtuFrame → List Nat

/-- The 257 bits of an error block, which IEEE 802.3 lays down (R246). -/
opaque errorBlock : List Nat

/-- The output of a half-band stage for the 31 inputs in its window, newest first: the coefficients are Plilum's own (R474). -/
opaque halfBand : List Int → Int

/-- What the bytes of a TABLES section say: the spec gives the section no layout. -/
opaque tablesRead : List Nat → TablesSec

/-- PLM_KEY_i of OTP, as a number (R312). -/
opaque plmKey : Nat → Nat

/-- The fused nominal VDD_CORE, less 680 mV, of a range of 101 values (R462). -/
opaque vfuse : Nat

/-- The nine check bits of a 128-bit word: the parity-check matrix is Plilum's own (R371). -/
opaque eccCheck : Nat → Nat

end Sys2Proof.Config
end

