-- ==== Sys2Proof/Machine/RegTypes.lean ====
section
/-! DEFINITION. What a register field is: its place, its width, its reset value (the register tables of every chapter), its
access code (R8) and the values that are not reserved (R7). -/
namespace Sys2Proof.Machine

/-- A named register field: byte address in BAR0 (a banked register adds 2^28 × bank), lowest bit, width, reset value. -/
structure Fld where
  addr : Nat
  lo   : Nat
  w    : Nat
  rst  : Nat
deriving DecidableEq, Repr

/-- The one number a field is stored under. -/
def Fld.key (f : Fld) : Nat := 32 * f.addr + f.lo

/-- Access codes (R8). An OWN field names the masters (R363) that own it. -/
inductive Acc where
  | rw | ro | w1c | w1s | rc | wo | sch | lck
  | own (owners : List Nat)
deriving DecidableEq, Repr

/-- A field as an access is judged by it: `ok` lists the ranges of values that are not reserved (R7; empty: every value). -/
structure FDef where
  lo  : Nat
  w   : Nat
  acc : Acc
  rst : Nat
  ok  : List (Nat × Nat)
deriving DecidableEq, Repr

/-- A register or an array of them: first address, (stride, count) of each index with the greatest stride first, whether it
is banked per master, and its fields. A bit no field covers is reserved and reads as zero (R7). -/
structure RDef where
  base   : Nat
  dims   : List (Nat × Nat)
  banked : Bool
  fs     : List FDef
deriving DecidableEq, Repr

/-- Whether offset `d` is one of the array's: it is Σ stride × index with every index below its count. -/
def dimsHit : List (Nat × Nat) → Nat → Bool
  | [], d => d == 0
  | (st, n) :: r, d => if d / st < n then dimsHit r (d % st) else false

/-- The register that lies at address `a`. -/
def findReg (a : Nat) : List RDef → Option RDef
  | [] => none
  | r :: rs => if r.base ≤ a && dimsHit r.dims (a - r.base) then some r else findReg a rs

/-- Whether `v` is a value the field defines (R7). -/
def FDef.defines (f : FDef) (v : Nat) : Bool :=
  f.ok.isEmpty || f.ok.any (fun r => r.1 ≤ v && v ≤ r.2)

/-- The default priority of fabric master `m` (R366). -/
def fabPrioDefault (m : Nat) : Nat := [4, 13, 10, 10, 10, 10, 5, 5, 11, 8, 6, 15, 12, 0].getD m 0

/-- The reset role of Stile lane `s` (R428). -/
def stlRoleDefault (s : Nat) : Nat := [1, 2, 3, 0, 4, 5, 6, 7].getD s 0

end Sys2Proof.Machine
end

