-- ==== Sys2Proof/Machine/Events.lean ====
section
/-! DEFINITION. The events: each by its PMC counter index 128 × unit + status bit (R463), one per bit of every STATUS register. -/
namespace Sys2Proof.Machine
namespace Ev

/-- EV_SWC_HOST_EVENT (R57): EV_SWC_HOST_EVENT has occurred -/
def SWC_HOST_EVENT : Nat := 1543
/-- EV_SWC_EXEC_ERROR (R57): EV_SWC_EXEC_ERROR has occurred -/
def SWC_EXEC_ERROR : Nat := 1542
/-- EV_SWC_RESULT_LOST (R57): EV_SWC_RESULT_LOST has occurred -/
def SWC_RESULT_LOST : Nat := 1541
/-- EV_SWC_HORIZON (R57): EV_SWC_HORIZON: an insertion was refused with HORIZON -/
def SWC_HORIZON : Nat := 1540
/-- EV_SWC_STALE (R57): EV_SWC_STALE: an insertion was refused, or an action completed, with STALE -/
def SWC_STALE : Nat := 1539
/-- EV_SWC_FULL (R57): EV_SWC_FULL: an insertion was refused with FULL -/
def SWC_FULL : Nat := 1538
/-- EV_SWC_CONFLICT (R57): EV_SWC_CONFLICT: an action was refused or discarded with CONFLICT -/
def SWC_CONFLICT : Nat := 1537
/-- EV_SWC_LATE (R57): EV_SWC_LATE: an action completed with LATE -/
def SWC_LATE : Nat := 1536
/-- EV_CNV_DAC_MUTE (R79): EV_CNV_DAC_MUTE: hardware mute applied -/
def CNV_DAC_MUTE (p : Nat) : Nat := 2059 + 768 * p
/-- EV_CNV_LO_UNLOCK (R79): EV_CNV_LO_UNLOCK -/
def CNV_LO_UNLOCK (p : Nat) : Nat := 2058 + 768 * p
/-- EV_CNV_SYN_UNLOCK (R79): EV_CNV_SYN_UNLOCK -/
def CNV_SYN_UNLOCK (p : Nat) : Nat := 2057 + 768 * p
/-- EV_CNV_SIDEBAND_FAIL (R79): EV_CNV_SIDEBAND_FAIL, as R14 states -/
def CNV_SIDEBAND_FAIL (p : Nat) : Nat := 2056 + 768 * p
/-- EV_CNV_AGC_REFAST (R79): EV_CNV_AGC_REFAST -/
def CNV_AGC_REFAST (p : Nat) : Nat := 2055 + 768 * p
/-- EV_CNV_AGC_FROZEN (R79): EV_CNV_AGC_FROZEN -/
def CNV_AGC_FROZEN (p : Nat) : Nat := 2054 + 768 * p
/-- EV_CNV_DC_LIMIT (R79): EV_CNV_DC_LIMIT: an estimator saturated -/
def CNV_DC_LIMIT (p : Nat) : Nat := 2053 + 768 * p
/-- EV_CNV_CLIP (R79): EV_CNV_CLIP, one bit per ADC lane l: clips in a frame reached CNV_CLIP_THR -/
def CNV_CLIP (p b : Nat) : Nat := 2048 + 768 * p + b
/-- EV_CAL_JNL_DONE (R104): EV_CAL_JNL_DONE: a STORE or LOAD ended with OK (L0 only) -/
def CAL_JNL_DONE (p : Nat) : Nat := 2182 + 768 * p
/-- EV_CAL_JNL_FAIL (R104): EV_CAL_JNL_FAIL (L0 only) -/
def CAL_JNL_FAIL (p : Nat) : Nat := 2181 + 768 * p
/-- EV_CAL_RESTORE_REDO (R104): EV_CAL_RESTORE_REDO -/
def CAL_RESTORE_REDO (p : Nat) : Nat := 2180 + 768 * p
/-- EV_CAL_FG_FAIL (R104): EV_CAL_FG_FAIL -/
def CAL_FG_FAIL (p : Nat) : Nat := 2179 + 768 * p
/-- EV_CAL_SWEEP_ABORT (R104): EV_CAL_SWEEP_ABORT -/
def CAL_SWEEP_ABORT (p : Nat) : Nat := 2178 + 768 * p
/-- EV_CAL_NO_SPARE (R104): EV_CAL_NO_SPARE -/
def CAL_NO_SPARE (p : Nat) : Nat := 2177 + 768 * p
/-- EV_CAL_SLICE_FAIL (R104): EV_CAL_SLICE_FAIL -/
def CAL_SLICE_FAIL (p : Nat) : Nat := 2176 + 768 * p
/-- EV_RXD_LOS (R135): EV_RXD_LOS -/
def RXD_LOS (p : Nat) : Nat := 2313 + 768 * p
/-- EV_RXD_EST_READY (R135): EV_RXD_EST_READY -/
def RXD_EST_READY (p : Nat) : Nat := 2312 + 768 * p
/-- EV_RXD_TAPS_REDUCED (R135): EV_RXD_TAPS_REDUCED -/
def RXD_TAPS_REDUCED (p : Nat) : Nat := 2311 + 768 * p
/-- EV_RXD_CD_SCAN_FAIL (R135): EV_RXD_CD_SCAN_FAIL -/
def RXD_CD_SCAN_FAIL (p : Nat) : Nat := 2310 + 768 * p
/-- EV_RXD_EQ_SINGULAR (R135): EV_RXD_EQ_SINGULAR -/
def RXD_EQ_SINGULAR (p : Nat) : Nat := 2309 + 768 * p
/-- EV_RXD_CYCLE_SLIP (R135): EV_RXD_CYCLE_SLIP -/
def RXD_CYCLE_SLIP (p : Nat) : Nat := 2308 + 768 * p
/-- EV_RXD_FO_RANGE (R135): EV_RXD_FO_RANGE -/
def RXD_FO_RANGE (p : Nat) : Nat := 2307 + 768 * p
/-- EV_RXD_LOCK_LOST (R135): EV_RXD_LOCK_LOST -/
def RXD_LOCK_LOST (p : Nat) : Nat := 2306 + 768 * p
/-- EV_RXD_LOCKED (R135): EV_RXD_LOCKED -/
def RXD_LOCKED (p : Nat) : Nat := 2305 + 768 * p
/-- EV_RXD_ACQ_FAIL (R135): EV_RXD_ACQ_FAIL -/
def RXD_ACQ_FAIL (p : Nat) : Nat := 2304 + 768 * p
/-- EV_TXD_PROP_FAIL (R167): EV_TXD_PROP_FAIL -/
def TXD_PROP_FAIL (p : Nat) : Nat := 2439 + 768 * p
/-- EV_TXD_PROP_DONE (R167): EV_TXD_PROP_DONE -/
def TXD_PROP_DONE (p : Nat) : Nat := 2438 + 768 * p
/-- EV_TXD_RPT_MISS (R167): EV_TXD_RPT_MISS -/
def TXD_RPT_MISS (p : Nat) : Nat := 2437 + 768 * p
/-- EV_TXD_RPT_RX (R167): EV_TXD_RPT_RX -/
def TXD_RPT_RX (p : Nat) : Nat := 2436 + 768 * p
/-- EV_TXD_ADJ_MISMATCH (R167): EV_TXD_ADJ_MISMATCH -/
def TXD_ADJ_MISMATCH (p : Nat) : Nat := 2435 + 768 * p
/-- EV_TXD_ADJ_VOID (R167): EV_TXD_ADJ_VOID -/
def TXD_ADJ_VOID (p : Nat) : Nat := 2434 + 768 * p
/-- EV_TXD_PRECD_CLIP (R167): EV_TXD_PRECD_CLIP -/
def TXD_PRECD_CLIP (p : Nat) : Nat := 2433 + 768 * p
/-- EV_TXD_CLIP (R167): EV_TXD_CLIP -/
def TXD_CLIP (p : Nat) : Nat := 2432 + 768 * p
/-- EV_FEC_GRP_OFF (R195): EV_FEC_GRP_OFF -/
def FEC_GRP_OFF : Nat := 1932
/-- EV_FEC_GRP_READY (R195): EV_FEC_GRP_READY -/
def FEC_GRP_READY : Nat := 1931
/-- EV_FEC_GRP_FAIL (R195): EV_FEC_GRP_FAIL -/
def FEC_GRP_FAIL : Nat := 1930
/-- EV_FEC_SLOT_OVERRUN (R195): EV_FEC_SLOT_OVERRUN -/
def FEC_SLOT_OVERRUN : Nat := 1929
/-- EV_FEC_MEM_UNCORR (R195): EV_FEC_MEM_UNCORR -/
def FEC_MEM_UNCORR : Nat := 1928
/-- EV_FEC_DM_INVALID (R195): EV_FEC_DM_INVALID, bit 6 + p -/
def FEC_DM_INVALID (b : Nat) : Nat := 1926 + b
/-- EV_FEC_CWP_SLIP (R195): EV_FEC_CWP_SLIP, bit 4 + p -/
def FEC_CWP_SLIP (b : Nat) : Nat := 1924 + b
/-- EV_FEC_STARVED (R195): EV_FEC_STARVED, bit 2 + p -/
def FEC_STARVED (b : Nat) : Nat := 1922 + b
/-- EV_FEC_UNCORR (R195): EV_FEC_UNCORR, bit p -/
def FEC_UNCORR (b : Nat) : Nat := 1920 + b
/-- EV_LFR_BOND_MAP (R232): EV_LFR_BOND_MAP -/
def LFR_BOND_MAP (p : Nat) : Nat := 2575 + 768 * p
/-- EV_LFR_BOND_SKEW (R232): EV_LFR_BOND_SKEW -/
def LFR_BOND_SKEW (p : Nat) : Nat := 2574 + 768 * p
/-- EV_LFR_OTN_DEFECT (R232): EV_LFR_OTN_DEFECT: a defect of any entity was raised -/
def LFR_OTN_DEFECT (p : Nat) : Nat := 2573 + 768 * p
/-- EV_LFR_RDI (R232): EV_LFR_RDI -/
def LFR_RDI (p : Nat) : Nat := 2572 + 768 * p
/-- EV_LFR_THC_SLIP (R232): EV_LFR_THC_SLIP -/
def LFR_THC_SLIP (p : Nat) : Nat := 2571 + 768 * p
/-- EV_LFR_THC_RX (R232): EV_LFR_THC_RX -/
def LFR_THC_RX (p : Nat) : Nat := 2570 + 768 * p
/-- EV_LFR_RUNG_MISMATCH (R232): EV_LFR_RUNG_MISMATCH -/
def LFR_RUNG_MISMATCH (p : Nat) : Nat := 2569 + 768 * p
/-- EV_LFR_JC_RANGE (R232): EV_LFR_JC_RANGE -/
def LFR_JC_RANGE (p : Nat) : Nat := 2568 + 768 * p
/-- EV_LFR_JC_LOST (R232): EV_LFR_JC_LOST -/
def LFR_JC_LOST (p : Nat) : Nat := 2567 + 768 * p
/-- EV_LFR_DOH_UNCORR (R232): EV_LFR_DOH_UNCORR -/
def LFR_DOH_UNCORR (p : Nat) : Nat := 2566 + 768 * p
/-- EV_LFR_HDR_ERR (R232): EV_LFR_HDR_ERR -/
def LFR_HDR_ERR (p : Nat) : Nat := 2565 + 768 * p
/-- EV_LFR_CAND_DROP (R232): EV_LFR_CAND_DROP -/
def LFR_CAND_DROP (p : Nat) : Nat := 2564 + 768 * p
/-- EV_LFR_SA_LOST (R232): EV_LFR_SA_LOST -/
def LFR_SA_LOST (p : Nat) : Nat := 2563 + 768 * p
/-- EV_LFR_SA (R232): EV_LFR_SA -/
def LFR_SA (p : Nat) : Nat := 2562 + 768 * p
/-- EV_LFR_FA_LOST (R232): EV_LFR_FA_LOST -/
def LFR_FA_LOST (p : Nat) : Nat := 2561 + 768 * p
/-- EV_LFR_FA (R232): EV_LFR_FA -/
def LFR_FA (p : Nat) : Nat := 2560 + 768 * p
/-- EV_CLI_RATE_ADJ (R248): EV_CLI_RATE_ADJ -/
def CLI_RATE_ADJ : Nat := 3592
/-- EV_CLI_REPLACE (R248): EV_CLI_REPLACE: a consequent replacement started -/
def CLI_REPLACE : Nat := 3591
/-- EV_CLI_FLEXO_DEF (R248): EV_CLI_FLEXO_DEF -/
def CLI_FLEXO_DEF : Nat := 3590
/-- EV_CLI_HI_SER (R248): EV_CLI_HI_SER -/
def CLI_HI_SER : Nat := 3589
/-- EV_CLI_SKEW (R248): EV_CLI_SKEW -/
def CLI_SKEW : Nat := 3588
/-- EV_CLI_GRP_DOWN (R248): EV_CLI_GRP_DOWN -/
def CLI_GRP_DOWN : Nat := 3587
/-- EV_CLI_GRP_UP (R248): EV_CLI_GRP_UP -/
def CLI_GRP_UP : Nat := 3586
/-- EV_CLI_LANE_LOS (R248): EV_CLI_LANE_LOS -/
def CLI_LANE_LOS : Nat := 3585
/-- EV_CLI_LANE_FAIL (R248): EV_CLI_LANE_FAIL -/
def CLI_LANE_FAIL : Nat := 3584
/-- EV_SGP_RANK_TIE (R278): EV_SGP_RANK_TIE -/
def SGP_RANK_TIE (p : Nat) : Nat := 2703 + 768 * p
/-- EV_SGP_CROSSED (R278): EV_SGP_CROSSED -/
def SGP_CROSSED (p : Nat) : Nat := 2702 + 768 * p
/-- EV_SGP_NEG_LOST (R278): EV_SGP_NEG_LOST -/
def SGP_NEG_LOST (p : Nat) : Nat := 2701 + 768 * p
/-- EV_SGP_NEG_AGREED (R278): EV_SGP_NEG_AGREED -/
def SGP_NEG_AGREED (p : Nat) : Nat := 2700 + 768 * p
/-- EV_SGP_TX_FAIL (R278): EV_SGP_TX_FAIL -/
def SGP_TX_FAIL (p : Nat) : Nat := 2699 + 768 * p
/-- EV_SGP_TX_DONE (R278): EV_SGP_TX_DONE -/
def SGP_TX_DONE (p : Nat) : Nat := 2698 + 768 * p
/-- EV_SGP_RXQ_FULL (R278): EV_SGP_RXQ_FULL -/
def SGP_RXQ_FULL (p : Nat) : Nat := 2697 + 768 * p
/-- EV_SGP_SEQ_GAP (R278): EV_SGP_SEQ_GAP -/
def SGP_SEQ_GAP (p : Nat) : Nat := 2696 + 768 * p
/-- EV_SGP_AUTH_FAIL (R278): EV_SGP_AUTH_FAIL -/
def SGP_AUTH_FAIL (p : Nat) : Nat := 2695 + 768 * p
/-- EV_SGP_CRC_FAIL (R278): EV_SGP_CRC_FAIL -/
def SGP_CRC_FAIL (p : Nat) : Nat := 2694 + 768 * p
/-- EV_SGP_MALFORMED (R278): EV_SGP_MALFORMED -/
def SGP_MALFORMED (p : Nat) : Nat := 2693 + 768 * p
/-- EV_SGP_CAPTURED (R278): EV_SGP_CAPTURED -/
def SGP_CAPTURED (p : Nat) : Nat := 2692 + 768 * p
/-- EV_SGP_RESTART (R278): EV_SGP_RESTART -/
def SGP_RESTART (p : Nat) : Nat := 2691 + 768 * p
/-- EV_SGP_HDR_FAIL (R278): EV_SGP_HDR_FAIL -/
def SGP_HDR_FAIL (p : Nat) : Nat := 2690 + 768 * p
/-- EV_SGP_RX_PKT (R278): EV_SGP_RX_PKT -/
def SGP_RX_PKT (p : Nat) : Nat := 2689 + 768 * p
/-- EV_SGP_PREAMBLE (R278): EV_SGP_PREAMBLE -/
def SGP_PREAMBLE (p : Nat) : Nat := 2688 + 768 * p
/-- EV_LCX_GRP_FAIL (R310): EV_LCX_GRP_FAIL -/
def LCX_GRP_FAIL : Nat := 3734
/-- EV_LCX_GRP_READY (R310): EV_LCX_GRP_READY -/
def LCX_GRP_READY : Nat := 3733
/-- EV_LCX_GRP_OFF (R310): EV_LCX_GRP_OFF -/
def LCX_GRP_OFF : Nat := 3732
/-- EV_LCX_KEY_FAIL (R310): EV_LCX_KEY_FAIL, bit 18 + p -/
def LCX_KEY_FAIL (b : Nat) : Nat := 3730 + b
/-- EV_LCX_KEY_DONE (R310): EV_LCX_KEY_DONE, bit 16 + p -/
def LCX_KEY_DONE (b : Nat) : Nat := 3728 + b
/-- EV_LCX_EPOCH_MISMATCH (R310): EV_LCX_EPOCH_MISMATCH, bit 14 + p -/
def LCX_EPOCH_MISMATCH (b : Nat) : Nat := 3726 + b
/-- EV_LCX_BUDGET_END (R310): EV_LCX_BUDGET_END, bit 12 + p -/
def LCX_BUDGET_END (b : Nat) : Nat := 3724 + b
/-- EV_LCX_BUDGET_WARN (R310): EV_LCX_BUDGET_WARN, bit 10 + p -/
def LCX_BUDGET_WARN (b : Nat) : Nat := 3722 + b
/-- EV_LCX_NONCE_REUSE (R310): EV_LCX_NONCE_REUSE, bit 8 + p -/
def LCX_NONCE_REUSE (b : Nat) : Nat := 3720 + b
/-- EV_LCX_NULL_RX (R310): EV_LCX_NULL_RX, bit 6 + p -/
def LCX_NULL_RX (b : Nat) : Nat := 3718 + b
/-- EV_LCX_REPLAY (R310): EV_LCX_REPLAY, bit 4 + p -/
def LCX_REPLAY (b : Nat) : Nat := 3716 + b
/-- EV_LCX_TAG_MISSING (R310): EV_LCX_TAG_MISSING, bit 2 + p -/
def LCX_TAG_MISSING (b : Nat) : Nat := 3714 + b
/-- EV_LCX_TAG_FAIL (R310): EV_LCX_TAG_FAIL, bit p -/
def LCX_TAG_FAIL (b : Nat) : Nat := 3712 + b
/-- EV_MCE_SUSPEND (R311): EV_MCE_SUSPEND -/
def MCE_SUSPEND : Nat := 1155
/-- EV_MCE_STATE_FAIL (R311): EV_MCE_STATE_FAIL -/
def MCE_STATE_FAIL : Nat := 1154
/-- EV_MCE_AUTH_FAIL (R311): EV_MCE_AUTH_FAIL -/
def MCE_AUTH_FAIL : Nat := 1153
/-- EV_MCE_JOB_DONE (R311): EV_MCE_JOB_DONE: a job completed -/
def MCE_JOB_DONE : Nat := 1152
/-- EV_SEC_CMD_DONE (R337): EV_SEC_CMD_DONE: a mailbox command completed -/
def SEC_CMD_DONE : Nat := 1035
/-- EV_SEC_SWAP (R337): EV_SEC_SWAP -/
def SEC_SWAP : Nat := 1034
/-- EV_SEC_OTP_FAIL (R337): EV_SEC_OTP_FAIL -/
def SEC_OTP_FAIL : Nat := 1033
/-- EV_SEC_ATT_REFUSED (R337): EV_SEC_ATT_REFUSED -/
def SEC_ATT_REFUSED : Nat := 1032
/-- EV_SEC_ATT_RESERVE (R337): EV_SEC_ATT_RESERVE -/
def SEC_ATT_RESERVE : Nat := 1031
/-- EV_SEC_CONF_NAK (R337): EV_SEC_CONF_NAK -/
def SEC_CONF_NAK : Nat := 1030
/-- EV_SEC_PROP_FAIL (R337): EV_SEC_PROP_FAIL: a proposal ended FAILED -/
def SEC_PROP_FAIL : Nat := 1029
/-- EV_SEC_PROP_EXPIRED (R337): EV_SEC_PROP_EXPIRED -/
def SEC_PROP_EXPIRED : Nat := 1028
/-- EV_SEC_PROP_DONE (R337): EV_SEC_PROP_DONE -/
def SEC_PROP_DONE : Nat := 1027
/-- EV_SEC_PROP_APPROVED (R337): EV_SEC_PROP_APPROVED -/
def SEC_PROP_APPROVED : Nat := 1026
/-- EV_SEC_RECOVERY (R337): EV_SEC_RECOVERY -/
def SEC_RECOVERY : Nat := 1025
/-- EV_SEC_BOOT_FALLBACK (R337): EV_SEC_BOOT_FALLBACK -/
def SEC_BOOT_FALLBACK : Nat := 1024
/-- EV_IMG_CIPHER_HELD (R361): EV_IMG_CIPHER_HELD (R347) -/
def IMG_CIPHER_HELD : Nat := 1285
/-- EV_IMG_SLOT_INVAL (R361): EV_IMG_SLOT_INVAL (R342) -/
def IMG_SLOT_INVAL : Nat := 1284
/-- EV_IMG_ACT_FAIL (R361): EV_IMG_ACT_FAIL: an ACTIVATE or REGION_RESET command ended with a status other than OK, a refusal when written included; or a calendar region activation completed with a status other than OK or LATE. An insertion refused by the calendar does not set it -/
def IMG_ACT_FAIL : Nat := 1283
/-- EV_IMG_ACT_DONE (R361): EV_IMG_ACT_DONE: an ACTIVATE or REGION_RESET command ended with OK, or a calendar region activation completed with OK or LATE -/
def IMG_ACT_DONE : Nat := 1282
/-- EV_IMG_LOAD_FAIL (R361): EV_IMG_LOAD_FAIL -/
def IMG_LOAD_FAIL : Nat := 1281
/-- EV_IMG_LOAD_DONE (R361): EV_IMG_LOAD_DONE -/
def IMG_LOAD_DONE : Nat := 1280
/-- EV_HDG_CAL_FAIL (R362): EV_HDG_CAL_FAIL: a calendar result other than OK or LATE -/
def HDG_CAL_FAIL : Nat := 1414
/-- EV_HDG_SAMP_LOST (R362): EV_HDG_SAMP_LOST -/
def HDG_SAMP_LOST : Nat := 1413
/-- EV_HDG_SAMPLE (R362): EV_HDG_SAMPLE -/
def HDG_SAMPLE : Nat := 1412
/-- EV_HDG_HOST_EVENT (R362): EV_HDG_HOST_EVENT -/
def HDG_HOST_EVENT : Nat := 1411
/-- EV_HDG_READ_ERR (R362): EV_HDG_READ_ERR -/
def HDG_READ_ERR : Nat := 1410
/-- EV_HDG_ACT_FAIL (R362): EV_HDG_ACT_FAIL -/
def HDG_ACT_FAIL : Nat := 1409
/-- EV_HDG_SEQ_ERR (R362): EV_HDG_SEQ_ERR -/
def HDG_SEQ_ERR : Nat := 1408
/-- EV_FAB_SCRUB_DONE (R388): EV_FAB_SCRUB_DONE -/
def FAB_SCRUB_DONE : Nat := 517
/-- EV_FAB_UE (R388): EV_FAB_UE -/
def FAB_UE : Nat := 516
/-- EV_FAB_CE (R388): EV_FAB_CE -/
def FAB_CE : Nat := 515
/-- EV_FAB_ABORTED (R388): EV_FAB_ABORTED -/
def FAB_ABORTED : Nat := 514
/-- EV_FAB_DENIED (R388): EV_FAB_DENIED -/
def FAB_DENIED : Nat := 513
/-- EV_FAB_DECERR (R388): EV_FAB_DECERR -/
def FAB_DECERR : Nat := 512
/-- EV_HIF_WDOG (R389): EV_HIF_WDOG -/
def HIF_WDOG : Nat := 642
/-- EV_HIF_LINK_DOWN (R389): EV_HIF_LINK_DOWN -/
def HIF_LINK_DOWN : Nat := 641
/-- EV_HIF_DB_ERR (R389): EV_HIF_DB_ERR -/
def HIF_DB_ERR : Nat := 640
/-- EV_FLC_MOUNT_DONE (R408): EV_FLC_MOUNT_DONE -/
def FLC_MOUNT_DONE : Nat := 776
/-- EV_FLC_LOG_LOST (R408): EV_FLC_LOG_LOST -/
def FLC_LOG_LOST : Nat := 775
/-- EV_FLC_SCRUB_DONE (R408): EV_FLC_SCRUB_DONE -/
def FLC_SCRUB_DONE : Nat := 774
/-- EV_FLC_TEMP_INHIBIT (R408): EV_FLC_TEMP_INHIBIT -/
def FLC_TEMP_INHIBIT : Nat := 773
/-- EV_FLC_RELOC (R408): EV_FLC_RELOC -/
def FLC_RELOC : Nat := 772
/-- EV_FLC_ERASE_FAIL (R408): EV_FLC_ERASE_FAIL -/
def FLC_ERASE_FAIL : Nat := 771
/-- EV_FLC_PROG_FAIL (R408): EV_FLC_PROG_FAIL -/
def FLC_PROG_FAIL : Nat := 770
/-- EV_FLC_UNCORR (R408): EV_FLC_UNCORR: a page read uncorrectable -/
def FLC_UNCORR : Nat := 769
/-- EV_FLC_CE_LOG (R408): EV_FLC_CE_LOG: a correction above LOG_THR -/
def FLC_CE_LOG : Nat := 768
/-- EV_CLK_OSC_SUSPECT (R426): EV_CLK_OSC_SUSPECT -/
def CLK_OSC_SUSPECT : Nat := 399
/-- EV_CLK_DPn_EV (R426): Bit 5n + e for DPLL n: e = 0 LOCK_LOST, 1 REF_SWITCHED, 2 HOLD_ENTERED, 3 REF_DISQUALIFIED, 4 DRIFT_ALARM -/
def CLK_DPn_EV (b : Nat) : Nat := 384 + b
/-- EV_STL_LINK_DOWN (R442): EV_STL_LINK_DOWN -/
def STL_LINK_DOWN : Nat := 904
/-- EV_STL_SELFTEST_FAIL (R442): EV_STL_SELFTEST_FAIL -/
def STL_SELFTEST_FAIL : Nat := 903
/-- EV_STL_WAKE (R442): EV_STL_WAKE -/
def STL_WAKE : Nat := 902
/-- EV_STL_ALERT (R442): EV_STL_ALERT -/
def STL_ALERT : Nat := 901
/-- EV_STL_RXQ_FULL (R442): EV_STL_RXQ_FULL -/
def STL_RXQ_FULL : Nat := 900
/-- EV_STL_RSP_TO (R442): EV_STL_RSP_TO -/
def STL_RSP_TO : Nat := 899
/-- EV_STL_CRC_ERR (R442): EV_STL_CRC_ERR -/
def STL_CRC_ERR : Nat := 898
/-- EV_STL_CODE_ERR (R442): EV_STL_CODE_ERR -/
def STL_CODE_ERR : Nat := 897
/-- EV_STL_LINK_UP (R442): EV_STL_LINK_UP -/
def STL_LINK_UP : Nat := 896
/-- EV_THM_SD_COMMIT (R461): EV_THM_SD_COMMIT -/
def THM_SD_COMMIT : Nat := 263
/-- EV_THM_TD_OPEN (R461): EV_THM_TD_OPEN -/
def THM_TD_OPEN : Nat := 262
/-- EV_THM_TD_ALARM (R461): EV_THM_TD_ALARM -/
def THM_TD_ALARM : Nat := 261
/-- EV_THM_MASS_SUSPECT (R461): EV_THM_MASS_SUSPECT -/
def THM_MASS_SUSPECT : Nat := 260
/-- EV_THM_SENSOR_OK (R461): EV_THM_SENSOR_OK -/
def THM_SENSOR_OK : Nat := 259
/-- EV_THM_SUSPECT (R461): EV_THM_SUSPECT -/
def THM_SUSPECT : Nat := 258
/-- EV_THM_THROTTLE (R461): EV_THM_THROTTLE -/
def THM_THROTTLE : Nat := 257
/-- EV_THM_WARN (R461): EV_THM_WARN -/
def THM_WARN : Nat := 256
/-- EV_PWR_RAIL_FAULT (R462): EV_PWR_RAIL_FAULT -/
def PWR_RAIL_FAULT : Nat := 130
/-- EV_PWR_AVS_FAIL (R462): EV_PWR_AVS_FAIL -/
def PWR_AVS_FAIL : Nat := 129
/-- EV_PWR_DENIED (R462): EV_PWR_DENIED -/
def PWR_DENIED : Nat := 128
/-- EV_PMC_PRESET (R480): EV_PMC_PRESET -/
def PMC_PRESET : Nat := 1666
/-- EV_PMC_OVERFLOW (R480): EV_PMC_OVERFLOW -/
def PMC_OVERFLOW : Nat := 1665
/-- EV_PMC_SNAP (R480): EV_PMC_SNAP -/
def PMC_SNAP : Nat := 1664
/-- EV_FMN_SETTLED (R481): EV_FMN_SETTLED -/
def FMN_SETTLED : Nat := 1796
/-- EV_FMN_STALL (R481): EV_FMN_STALL -/
def FMN_STALL : Nat := 1795
/-- EV_FMN_SATURATE (R481): EV_FMN_SATURATE -/
def FMN_SATURATE : Nat := 1794
/-- EV_FMN_SOP_FALL (R481): EV_FMN_SOP_FALL -/
def FMN_SOP_FALL : Nat := 1793
/-- EV_FMN_SOP_RISE (R481): EV_FMN_SOP_RISE -/
def FMN_SOP_RISE : Nat := 1792
/-- EV_GCTL_FW_FAIL (R496): EV_GCTL_FW_FAIL -/
def GCTL_FW_FAIL : Nat := 5
/-- EV_GCTL_FW_DONE (R496): EV_GCTL_FW_DONE -/
def GCTL_FW_DONE : Nat := 4
/-- EV_GCTL_UNIT_FAIL (R496): EV_GCTL_UNIT_FAIL -/
def GCTL_UNIT_FAIL : Nat := 3
/-- EV_GCTL_UNIT_JOINED (R496): EV_GCTL_UNIT_JOINED -/
def GCTL_UNIT_JOINED : Nat := 2
/-- EV_GCTL_UNIT_READY (R496): EV_GCTL_UNIT_READY -/
def GCTL_UNIT_READY : Nat := 1
/-- EV_GCTL_PROC_HALT (R496): EV_GCTL_PROC_HALT (R18, R491) -/
def GCTL_PROC_HALT : Nat := 0

end Ev
end Sys2Proof.Machine
end

