-- ==== Sys2Proof/Machine/RegMapDevice.lean ====
section
/-! DEFINITION. The register map of GCTL, PWR, THM, CLK, FAB, HIF, FLC, STL, SEC: one `Fld` per named field, with the address, place, width
and reset value of the spec's register tables, and per block the list of registers that an access is judged by.
A port register (LP0/LP1) takes its port `p` first (R30); a banked register takes its bank `bk` last (R42, R305, R334). -/
namespace Sys2Proof.Machine
namespace R

-- GCTL_IDENT, offset 0x0000 (R3, 00_scope.md)
def GCTL_IDENT_PART : Fld := ⟨0x0, 16, 16, 18434⟩
def GCTL_IDENT_STEP : Fld := ⟨0x0, 8, 8, 177⟩
def GCTL_IDENT_PORTS : Fld := ⟨0x0, 4, 4, 2⟩
-- GCTL_STATUS, offset 0x0004 (R496, 20_in_service_change.md)
def GCTL_STATUS_FW_FAIL : Fld := ⟨0x4, 5, 1, 0⟩
def GCTL_STATUS_FW_DONE : Fld := ⟨0x4, 4, 1, 0⟩
def GCTL_STATUS_UNIT_FAIL : Fld := ⟨0x4, 3, 1, 0⟩
def GCTL_STATUS_UNIT_JOINED : Fld := ⟨0x4, 2, 1, 0⟩
def GCTL_STATUS_UNIT_READY : Fld := ⟨0x4, 1, 1, 0⟩
def GCTL_STATUS_PROC_HALT : Fld := ⟨0x4, 0, 1, 0⟩
-- GCTL_INT_EN, offset 0x0008 (R496, 20_in_service_change.md)
def GCTL_INT_EN_EN : Fld := ⟨0x8, 0, 6, 0⟩
-- GCTL_UNIT_CMD, offset 0x0200 (R496, 20_in_service_change.md)
def GCTL_UNIT_CMD_KIND : Fld := ⟨0x200, 28, 4, 0⟩
def GCTL_UNIT_CMD_CMD : Fld := ⟨0x200, 26, 2, 0⟩
def GCTL_UNIT_CMD_PORT : Fld := ⟨0x200, 24, 1, 0⟩
def GCTL_UNIT_CMD_INDEX : Fld := ⟨0x200, 16, 4, 0⟩
def GCTL_UNIT_CMD_SUB : Fld := ⟨0x200, 8, 7, 0⟩
-- GCTL_UNIT_STAT, offset 0x0204 (R496, 20_in_service_change.md)
def GCTL_UNIT_STAT_BUSY : Fld := ⟨0x204, 31, 1, 0⟩
def GCTL_UNIT_STAT_STATUS : Fld := ⟨0x204, 16, 8, 0⟩
def GCTL_UNIT_STAT_FW_CORE : Fld := ⟨0x204, 8, 3, 0⟩
-- GCTL_TILE_STATE_p_h, offset 0x0210 (R496, 20_in_service_change.md)
def GCTL_TILE_STATE_STATE (p h k : Nat) : Fld := ⟨0x210 + 0x8 * p + 0x4 * h, 4 * k, 4, 2⟩
-- GCTL_SLICE_FLW_p, offset 0x0220 (R496, 20_in_service_change.md)
def GCTL_SLICE_FLW_READY (p : Nat) : Fld := ⟨0x220 + 0x4 * p, 16, 16, 0⟩
def GCTL_SLICE_FLW_FALLOWED (p : Nat) : Fld := ⟨0x220 + 0x4 * p, 0, 16, 0⟩
-- GCTL_PROC_STATE, offset 0x0230 (R496, 20_in_service_change.md)
def GCTL_PROC_STATE_STATE (c : Nat) : Fld := ⟨0x230, 4 * c, 4, 2⟩

-- PWR_STATUS, offset 0x0000 (R462, 18_thermal_power.md)
def PWR_STATUS_RAIL_FAULT : Fld := ⟨0x10000, 2, 1, 0⟩
def PWR_STATUS_AVS_FAIL : Fld := ⟨0x10000, 1, 1, 0⟩
def PWR_STATUS_DENIED : Fld := ⟨0x10000, 0, 1, 0⟩
-- PWR_INT_EN, offset 0x0004 (R462, 18_thermal_power.md)
def PWR_INT_EN_EN : Fld := ⟨0x10004, 0, 3, 0⟩
-- PWR_ALLOW_k, offset 0x0010 (R462, 18_thermal_power.md)
def PWR_ALLOW_ALLOW (k : Nat) : Fld := ⟨0x10010 + 0x4 * k, 0, 32, 0⟩
-- PWR_ON_k, offset 0x0030 (R462, 18_thermal_power.md)
def PWR_ON_ON (k : Nat) : Fld := ⟨0x10030 + 0x4 * k, 0, 32, 0⟩
-- PWR_QUEUE, offset 0x0050 (R462, 18_thermal_power.md)
def PWR_QUEUE_COUNT : Fld := ⟨0x10050, 0, 8, 0⟩
-- PWR_AVS, offset 0x0060 (R462, 18_thermal_power.md)
def PWR_AVS_ACTUAL : Fld := ⟨0x10060, 16, 10, 0⟩
def PWR_AVS_TARGET : Fld := ⟨0x10060, 0, 10, 0⟩
-- PWR_AVS_CTRL, offset 0x0064 (R462, 18_thermal_power.md)
def PWR_AVS_CTRL_EN : Fld := ⟨0x10064, 8, 1, 1⟩
def PWR_AVS_CTRL_OFFSET : Fld := ⟨0x10064, 0, 6, 0⟩
-- PWR_AVS_FUSE, offset 0x0068 (R462, 18_thermal_power.md)
def PWR_AVS_FUSE_VFUSE : Fld := ⟨0x10068, 0, 10, 0⟩
-- PWR_RAIL, offset 0x006C (R462, 18_thermal_power.md)
def PWR_RAIL_IN_RANGE : Fld := ⟨0x1006c, 0, 10, 1023⟩

-- THM_STATUS, offset 0x0000 (R461, 18_thermal_power.md)
def THM_STATUS_SD_COMMIT : Fld := ⟨0x20000, 7, 1, 0⟩
def THM_STATUS_TD_OPEN : Fld := ⟨0x20000, 6, 1, 0⟩
def THM_STATUS_TD_ALARM : Fld := ⟨0x20000, 5, 1, 0⟩
def THM_STATUS_MASS_SUSPECT : Fld := ⟨0x20000, 4, 1, 0⟩
def THM_STATUS_SENSOR_OK : Fld := ⟨0x20000, 3, 1, 0⟩
def THM_STATUS_SUSPECT : Fld := ⟨0x20000, 2, 1, 0⟩
def THM_STATUS_THROTTLE : Fld := ⟨0x20000, 1, 1, 0⟩
def THM_STATUS_WARN : Fld := ⟨0x20000, 0, 1, 0⟩
-- THM_INT_EN, offset 0x0004 (R461, 18_thermal_power.md)
def THM_INT_EN_EN : Fld := ⟨0x20004, 0, 8, 0⟩
-- THM_CFG, offset 0x0008 (R461, 18_thermal_power.md)
def THM_CFG_FULL : Fld := ⟨0x20008, 24, 8, 108⟩
def THM_CFG_START : Fld := ⟨0x20008, 16, 8, 100⟩
def THM_CFG_WARN : Fld := ⟨0x20008, 8, 8, 98⟩
def THM_CFG_HYST : Fld := ⟨0x20008, 0, 4, 4⟩
-- THM_STATE, offset 0x000C (R461, 18_thermal_power.md)
def THM_STATE_WARN : Fld := ⟨0x2000c, 25, 1, 0⟩
def THM_STATE_FAST : Fld := ⟨0x2000c, 24, 1, 0⟩
def THM_STATE_SENSOR : Fld := ⟨0x2000c, 16, 7, 0⟩
def THM_STATE_TJ : Fld := ⟨0x2000c, 0, 12, 0⟩
-- THM_LEVEL, offset 0x0010 (R461, 18_thermal_power.md)
def THM_LEVEL_CURVE : Fld := ⟨0x20010, 16, 16, 48⟩
def THM_LEVEL_LEVEL : Fld := ⟨0x20010, 0, 8, 0⟩
-- THM_SUSPECT_CNT, offset 0x0014 (R461, 18_thermal_power.md)
def THM_SUSPECT_CNT_COUNT : Fld := ⟨0x20014, 0, 7, 0⟩
-- THM_SD_CTRL, offset 0x0020 (R461, 18_thermal_power.md)
def THM_SD_CTRL_KEY : Fld := ⟨0x20020, 8, 8, 0⟩
def THM_SD_CTRL_RESUME : Fld := ⟨0x20020, 1, 1, 0⟩
def THM_SD_CTRL_FORCE : Fld := ⟨0x20020, 0, 1, 0⟩
-- THM_SD_STAT, offset 0x0024 (R461, 18_thermal_power.md)
def THM_SD_STAT_COUNT : Fld := ⟨0x20024, 16, 16, 0⟩
def THM_SD_STAT_RESUME_ST : Fld := ⟨0x20024, 8, 8, 0⟩
def THM_SD_STAT_PEND : Fld := ⟨0x20024, 4, 1, 0⟩
def THM_SD_STAT_STATE : Fld := ⟨0x20024, 0, 2, 0⟩
-- THM_TD_CFG_r, offset 0x0040 (R461, 18_thermal_power.md)
def THM_TD_CFG_EN (r : Nat) : Fld := ⟨0x20040 + 0x4 * r, 8, 1, 0⟩
def THM_TD_CFG_ALARM (r : Nat) : Fld := ⟨0x20040 + 0x4 * r, 0, 8, 100⟩
-- THM_SD_REC_k, offset 0x0060 (R461, 18_thermal_power.md)
def THM_SD_REC_BYTES (k : Nat) : Fld := ⟨0x20060 + 0x4 * k, 0, 32, 0⟩
-- THM_SENSOR_x, offset 0x0100 (R461, 18_thermal_power.md)
def THM_SENSOR_SUSPECT (x : Nat) : Fld := ⟨0x20100 + 0x4 * x, 31, 1, 0⟩
def THM_SENSOR_OPEN (x : Nat) : Fld := ⟨0x20100 + 0x4 * x, 30, 1, 0⟩
def THM_SENSOR_IGNORED (x : Nat) : Fld := ⟨0x20100 + 0x4 * x, 29, 1, 0⟩
def THM_SENSOR_TEMP (x : Nat) : Fld := ⟨0x20100 + 0x4 * x, 0, 12, 0⟩

-- CLK_STATUS, offset 0x0000 (R426, 16_timing_references.md)
def CLK_STATUS_OSC_SUSPECT : Fld := ⟨0x30000, 15, 1, 0⟩
def CLK_STATUS_DPn_EV (b : Nat) : Fld := ⟨0x30000, 1 * b, 1, 0⟩
-- CLK_INT_EN, offset 0x0004 (R426, 16_timing_references.md)
def CLK_INT_EN_EN : Fld := ⟨0x30004, 0, 16, 0⟩
-- CLK_OSC, offset 0x0008 (R426, 16_timing_references.md)
def CLK_OSC_SUSPECT : Fld := ⟨0x30008, 1, 1, 0⟩
def CLK_OSC_ACTIVE : Fld := ⟨0x30008, 0, 1, 0⟩
-- CLK_THR, offset 0x000C (R426, 16_timing_references.md)
def CLK_THR_DISQ_THR : Fld := ⟨0x3000c, 16, 16, 10000⟩
def CLK_THR_QUAL_THR : Fld := ⟨0x3000c, 0, 16, 8000⟩
-- CLK_CLIREF_k, offset 0x0010 (R426, 16_timing_references.md)
def CLK_CLIREF_EN (k : Nat) : Fld := ⟨0x30010 + 0x4 * k, 7, 1, 0⟩
def CLK_CLIREF_LANE (k : Nat) : Fld := ⟨0x30010 + 0x4 * k, 0, 6, 0⟩
-- CLK_REF_CFG_i, offset 0x0100 (R426, 16_timing_references.md)
def CLK_REF_CFG_KIND (i : Nat) : Fld := ⟨0x30100 + 0x10 * i, 30, 2, 0⟩
def CLK_REF_CFG_NOM_HZ (i : Nat) : Fld := ⟨0x30100 + 0x10 * i, 0, 30, 0⟩
-- CLK_REF_STAT_i, offset 0x0104 (R426, 16_timing_references.md)
def CLK_REF_STAT_QUALIFIED (i : Nat) : Fld := ⟨0x30104 + 0x10 * i, 31, 1, 0⟩
def CLK_REF_STAT_LOS (i : Nat) : Fld := ⟨0x30104 + 0x10 * i, 30, 1, 0⟩
def CLK_REF_STAT_DRIFT (i : Nat) : Fld := ⟨0x30104 + 0x10 * i, 29, 1, 0⟩
def CLK_REF_STAT_VALID (i : Nat) : Fld := ⟨0x30104 + 0x10 * i, 28, 1, 0⟩
def CLK_REF_STAT_OFFSET (i : Nat) : Fld := ⟨0x30104 + 0x10 * i, 0, 24, 0⟩
-- CLK_REF_QT_i, offset 0x0108 (R426, 16_timing_references.md)
def CLK_REF_QT_QUAL_TIME (i : Nat) : Fld := ⟨0x30108 + 0x10 * i, 0, 16, 100⟩
-- CLK_DPn_CTRL, offset 0x0200 (R426, 16_timing_references.md)
def CLK_DP_CTRL_FORCE_REF (n : Nat) : Fld := ⟨0x30200 + 0x40 * n, 24, 4, 0⟩
def CLK_DP_CTRL_BW_LOCK (n : Nat) : Fld := ⟨0x30200 + 0x40 * n, 16, 3, if n = 0 then 3 else 5⟩
def CLK_DP_CTRL_BW_ACQ (n : Nat) : Fld := ⟨0x30200 + 0x40 * n, 12, 3, if n = 0 then 5 else 6⟩
def CLK_DP_CTRL_PBO_EN (n : Nat) : Fld := ⟨0x30200 + 0x40 * n, 9, 1, 1⟩
def CLK_DP_CTRL_REVERT (n : Nat) : Fld := ⟨0x30200 + 0x40 * n, 8, 1, 1⟩
def CLK_DP_CTRL_MODE (n : Nat) : Fld := ⟨0x30200 + 0x40 * n, 0, 2, 0⟩
-- CLK_DPn_PRIO_LO, offset 0x0204 (R426, 16_timing_references.md)
def CLK_DP_PRIO_LO_PRIO (n r : Nat) : Fld := ⟨0x30204 + 0x40 * n, 4 * r, 4, 0⟩
-- CLK_DPn_PRIO_HI, offset 0x0208 (R426, 16_timing_references.md)
def CLK_DP_PRIO_HI_PRIO (n r : Nat) : Fld := ⟨0x30208 + 0x40 * n, 4 * r, 4, 0⟩
-- CLK_DPn_TMR, offset 0x020C (R426, 16_timing_references.md)
def CLK_DP_TMR_LOCK_THR (n : Nat) : Fld := ⟨0x3020c + 0x40 * n, 16, 16, 100⟩
def CLK_DP_TMR_WTR (n : Nat) : Fld := ⟨0x3020c + 0x40 * n, 0, 16, 300⟩
-- CLK_DPn_HIST_CFG, offset 0x0210 (R426, 16_timing_references.md)
def CLK_DP_HIST_CFG_HIST_LEN (n : Nat) : Fld := ⟨0x30210 + 0x40 * n, 16, 11, 256⟩
def CLK_DP_HIST_CFG_HIST_EXCL (n : Nat) : Fld := ⟨0x30210 + 0x40 * n, 0, 11, 64⟩
-- CLK_DPn_STAT, offset 0x0214 (R426, 16_timing_references.md)
def CLK_DP_STAT_HIST_VALID (n : Nat) : Fld := ⟨0x30214 + 0x40 * n, 31, 1, 0⟩
def CLK_DP_STAT_SWITCHING (n : Nat) : Fld := ⟨0x30214 + 0x40 * n, 30, 1, 0⟩
def CLK_DP_STAT_WTR_RUN (n : Nat) : Fld := ⟨0x30214 + 0x40 * n, 29, 1, 0⟩
def CLK_DP_STAT_STATE (n : Nat) : Fld := ⟨0x30214 + 0x40 * n, 24, 3, 0⟩
def CLK_DP_STAT_WTR_REF (n : Nat) : Fld := ⟨0x30214 + 0x40 * n, 20, 4, 0⟩
def CLK_DP_STAT_SEL_REF (n : Nat) : Fld := ⟨0x30214 + 0x40 * n, 16, 4, 0⟩
def CLK_DP_STAT_WTR_LEFT (n : Nat) : Fld := ⟨0x30214 + 0x40 * n, 0, 16, 0⟩
-- CLK_DPn_PHASE, offset 0x0218 (R426, 16_timing_references.md)
def CLK_DP_PHASE_PHASE (n : Nat) : Fld := ⟨0x30218 + 0x40 * n, 0, 32, 0⟩
-- CLK_DPn_FREQ_LO, offset 0x021C (R426, 16_timing_references.md)
def CLK_DP_FREQ_LO_VALUE_L (n : Nat) : Fld := ⟨0x3021c + 0x40 * n, 0, 32, 0⟩
-- CLK_DPn_FREQ_HI, offset 0x0220 (R426, 16_timing_references.md)
def CLK_DP_FREQ_HI_VALUE_H (n : Nat) : Fld := ⟨0x30220 + 0x40 * n, 0, 8, 0⟩
-- CLK_DPn_HOLD_LO, offset 0x0224 (R426, 16_timing_references.md)
def CLK_DP_HOLD_LO_VALUE_L (n : Nat) : Fld := ⟨0x30224 + 0x40 * n, 0, 32, 0⟩
-- CLK_DPn_HOLD_HI, offset 0x0228 (R426, 16_timing_references.md)
def CLK_DP_HOLD_HI_VALUE_H (n : Nat) : Fld := ⟨0x30228 + 0x40 * n, 0, 8, 0⟩
-- CLK_DPn_DCO_LO, offset 0x022C (R426, 16_timing_references.md)
def CLK_DP_DCO_LO_DCO_L (n : Nat) : Fld := ⟨0x3022c + 0x40 * n, 0, 32, 0⟩
-- CLK_DPn_DCO_HI, offset 0x0230 (R426, 16_timing_references.md)
def CLK_DP_DCO_HI_DCO_H (n : Nat) : Fld := ⟨0x30230 + 0x40 * n, 0, 8, 0⟩

-- FAB_STATUS, offset 0x0000 (R388, 14_fabric_host_memory.md)
def FAB_STATUS_SCRUB_DONE : Fld := ⟨0x40000, 5, 1, 0⟩
def FAB_STATUS_UE : Fld := ⟨0x40000, 4, 1, 0⟩
def FAB_STATUS_CE : Fld := ⟨0x40000, 3, 1, 0⟩
def FAB_STATUS_ABORTED : Fld := ⟨0x40000, 2, 1, 0⟩
def FAB_STATUS_DENIED : Fld := ⟨0x40000, 1, 1, 0⟩
def FAB_STATUS_DECERR : Fld := ⟨0x40000, 0, 1, 0⟩
-- FAB_INT_EN, offset 0x0004 (R388, 14_fabric_host_memory.md)
def FAB_INT_EN_EN : Fld := ⟨0x40004, 0, 6, 0⟩
-- FAB_ERR_LOG, offset 0x0010 (R388, 14_fabric_host_memory.md)
def FAB_ERR_LOG_VALID : Fld := ⟨0x40010, 31, 1, 0⟩
def FAB_ERR_LOG_STATUS : Fld := ⟨0x40010, 16, 8, 0⟩
def FAB_ERR_LOG_TARGET : Fld := ⟨0x40010, 8, 4, 0⟩
def FAB_ERR_LOG_MASTER : Fld := ⟨0x40010, 0, 4, 0⟩
-- FAB_ERR_ADDR_LO, offset 0x0014 (R388, 14_fabric_host_memory.md)
def FAB_ERR_ADDR_LO_ADDR_L : Fld := ⟨0x40014, 0, 32, 0⟩
-- FAB_ERR_ADDR_HI, offset 0x0018 (R388, 14_fabric_host_memory.md)
def FAB_ERR_ADDR_HI_ADDR_H : Fld := ⟨0x40018, 0, 16, 0⟩
-- FAB_ERR_CNT, offset 0x001C (R388, 14_fabric_host_memory.md)
def FAB_ERR_CNT_COUNT : Fld := ⟨0x4001c, 0, 32, 0⟩
-- FAB_PRIO_LO_m, offset 0x0100 (R388, 14_fabric_host_memory.md)
def FAB_PRIO_LO_PRIO (m t : Nat) : Fld := ⟨0x40100 + 0x8 * m, 4 * t, 4, fabPrioDefault m⟩
-- FAB_PRIO_HI_m, offset 0x0104 (R388, 14_fabric_host_memory.md)
def FAB_PRIO_HI_PRIO (m t : Nat) : Fld := ⟨0x40104 + 0x8 * m, 4 * t, 4, fabPrioDefault m⟩
-- FAB_SCRUB, offset 0x0200 (R388, 14_fabric_host_memory.md)
def FAB_SCRUB_BUSY : Fld := ⟨0x40200, 31, 1, 0⟩
def FAB_SCRUB_PERIOD : Fld := ⟨0x40200, 0, 16, 120⟩
-- FAB_ECC_SEL, offset 0x0210 (R388, 14_fabric_host_memory.md)
def FAB_ECC_SEL_INST : Fld := ⟨0x40210, 0, 4, 0⟩
-- FAB_ECC_CE, offset 0x0214 (R388, 14_fabric_host_memory.md)
def FAB_ECC_CE_COUNT : Fld := ⟨0x40214, 0, 32, 0⟩
-- FAB_ECC_UE, offset 0x0218 (R388, 14_fabric_host_memory.md)
def FAB_ECC_UE_COUNT : Fld := ⟨0x40218, 0, 32, 0⟩
-- FAB_ECC_ADDR, offset 0x021C (R388, 14_fabric_host_memory.md)
def FAB_ECC_ADDR_WORD : Fld := ⟨0x4021c, 0, 22, 0⟩
-- FAB_DIAG_CTRL, offset 0x0300 (R388, 14_fabric_host_memory.md)
def FAB_DIAG_CTRL_BUSY : Fld := ⟨0x40300, 31, 1, 0⟩
def FAB_DIAG_CTRL_STATUS : Fld := ⟨0x40300, 16, 8, 0⟩
def FAB_DIAG_CTRL_INST : Fld := ⟨0x40300, 8, 4, 0⟩
def FAB_DIAG_CTRL_CMD : Fld := ⟨0x40300, 1, 2, 0⟩
def FAB_DIAG_CTRL_EN : Fld := ⟨0x40300, 0, 1, 0⟩
-- FAB_DIAG_ADDR, offset 0x0304 (R388, 14_fabric_host_memory.md)
def FAB_DIAG_ADDR_WORD : Fld := ⟨0x40304, 0, 22, 0⟩
-- FAB_DIAG_DATA_k, offset 0x0310 (R388, 14_fabric_host_memory.md)
def FAB_DIAG_DATA_DATA (k : Nat) : Fld := ⟨0x40310 + 0x4 * k, 0, 32, 0⟩
-- FAB_DIAG_CHK, offset 0x0320 (R388, 14_fabric_host_memory.md)
def FAB_DIAG_CHK_VALID : Fld := ⟨0x40320, 9, 1, 0⟩
def FAB_DIAG_CHK_CHECK : Fld := ⟨0x40320, 0, 9, 0⟩

-- HIF_STATUS, offset 0x0000 (R389, 14_fabric_host_memory.md)
def HIF_STATUS_WDOG : Fld := ⟨0x50000, 2, 1, 0⟩
def HIF_STATUS_LINK_DOWN : Fld := ⟨0x50000, 1, 1, 0⟩
def HIF_STATUS_DB_ERR : Fld := ⟨0x50000, 0, 1, 0⟩
-- HIF_INT_EN, offset 0x0004 (R389, 14_fabric_host_memory.md)
def HIF_INT_EN_EN : Fld := ⟨0x50004, 0, 3, 0⟩
-- HIF_CTRL, offset 0x0008 (R389, 14_fabric_host_memory.md)
def HIF_CTRL_KEEP_LINK : Fld := ⟨0x50008, 0, 1, 0⟩
-- HIF_LINK, offset 0x000C (R389, 14_fabric_host_memory.md)
def HIF_LINK_LTSSM : Fld := ⟨0x5000c, 8, 6, 0⟩
def HIF_LINK_UP : Fld := ⟨0x5000c, 7, 1, 0⟩
def HIF_LINK_WIDTH : Fld := ⟨0x5000c, 4, 3, 0⟩
def HIF_LINK_SPEED : Fld := ⟨0x5000c, 0, 3, 0⟩
-- HIF_OUTSTANDING, offset 0x0010 (R389, 14_fabric_host_memory.md)
def HIF_OUTSTANDING_COUNT : Fld := ⟨0x50010, 0, 11, 0⟩
-- HIF_WDOG, offset 0x0014 (R389, 14_fabric_host_memory.md)
def HIF_WDOG_MASK : Fld := ⟨0x50014, 16, 16, 0⟩
def HIF_WDOG_CODE : Fld := ⟨0x50014, 8, 8, 0⟩
def HIF_WDOG_PERIOD : Fld := ⟨0x50014, 0, 8, 0⟩
-- HIF_WDOG_KICK, offset 0x0018 (R389, 14_fabric_host_memory.md)
def HIF_WDOG_KICK_KICK : Fld := ⟨0x50018, 0, 32, 0⟩
-- HIF_SQ_BASE_LO_r, offset 0x0100 (R389, 14_fabric_host_memory.md)
def HIF_SQ_BASE_LO_BASE_L (r : Nat) : Fld := ⟨0x50100 + 0x10 * r, 12, 20, 0⟩
-- HIF_SQ_BASE_HI_r, offset 0x0104 (R389, 14_fabric_host_memory.md)
def HIF_SQ_BASE_HI_BASE_H (r : Nat) : Fld := ⟨0x50104 + 0x10 * r, 0, 32, 0⟩
-- HIF_SQ_CTRL_r, offset 0x0108 (R389, 14_fabric_host_memory.md)
def HIF_SQ_CTRL_HEAD (r : Nat) : Fld := ⟨0x50108 + 0x10 * r, 16, 8, 0⟩
def HIF_SQ_CTRL_CQ (r : Nat) : Fld := ⟨0x50108 + 0x10 * r, 8, 2, 0⟩
def HIF_SQ_CTRL_PRIO (r : Nat) : Fld := ⟨0x50108 + 0x10 * r, 4, 2, 0⟩
def HIF_SQ_CTRL_EN (r : Nat) : Fld := ⟨0x50108 + 0x10 * r, 0, 1, 0⟩
-- HIF_CQ_BASE_LO_q, offset 0x0200 (R389, 14_fabric_host_memory.md)
def HIF_CQ_BASE_LO_BASE_L (q : Nat) : Fld := ⟨0x50200 + 0x10 * q, 12, 20, 0⟩
-- HIF_CQ_BASE_HI_q, offset 0x0204 (R389, 14_fabric_host_memory.md)
def HIF_CQ_BASE_HI_BASE_H (q : Nat) : Fld := ⟨0x50204 + 0x10 * q, 0, 32, 0⟩
-- HIF_CQ_CTRL_q, offset 0x0208 (R389, 14_fabric_host_memory.md)
def HIF_CQ_CTRL_TAIL (q : Nat) : Fld := ⟨0x50208 + 0x10 * q, 16, 10, 0⟩
def HIF_CQ_CTRL_PHASE (q : Nat) : Fld := ⟨0x50208 + 0x10 * q, 2, 1, 0⟩
def HIF_CQ_CTRL_IEN (q : Nat) : Fld := ⟨0x50208 + 0x10 * q, 1, 1, 0⟩
def HIF_CQ_CTRL_EN (q : Nat) : Fld := ⟨0x50208 + 0x10 * q, 0, 1, 0⟩
-- HIF_VEC_SEL_b, offset 0x0300 (R389, 14_fabric_host_memory.md)
def HIF_VEC_SEL_EN (b : Nat) : Fld := ⟨0x50300 + 0x4 * b, 6, 1, 0⟩
def HIF_VEC_SEL_VECTOR (b : Nat) : Fld := ⟨0x50300 + 0x4 * b, 0, 6, 0⟩

-- FLC_STATUS, offset 0x0000 (R408, 15_flash_store.md)
def FLC_STATUS_MOUNT_DONE : Fld := ⟨0x60000, 8, 1, 0⟩
def FLC_STATUS_LOG_LOST : Fld := ⟨0x60000, 7, 1, 0⟩
def FLC_STATUS_SCRUB_DONE : Fld := ⟨0x60000, 6, 1, 0⟩
def FLC_STATUS_TEMP_INHIBIT : Fld := ⟨0x60000, 5, 1, 0⟩
def FLC_STATUS_RELOC : Fld := ⟨0x60000, 4, 1, 0⟩
def FLC_STATUS_ERASE_FAIL : Fld := ⟨0x60000, 3, 1, 0⟩
def FLC_STATUS_PROG_FAIL : Fld := ⟨0x60000, 2, 1, 0⟩
def FLC_STATUS_UNCORR : Fld := ⟨0x60000, 1, 1, 0⟩
def FLC_STATUS_CE_LOG : Fld := ⟨0x60000, 0, 1, 0⟩
-- FLC_INT_EN, offset 0x0004 (R408, 15_flash_store.md)
def FLC_INT_EN_EN : Fld := ⟨0x60004, 0, 9, 0⟩
-- FLC_STATE, offset 0x0008 (R408, 15_flash_store.md)
def FLC_STATE_MOUNTED : Fld := ⟨0x60008, 8, 8, 0⟩
def FLC_STATE_NVDDR3 : Fld := ⟨0x60008, 4, 4, 0⟩
def FLC_STATE_STATE : Fld := ⟨0x60008, 0, 3, 0⟩
-- FLC_GEOM, offset 0x000C (R408, 15_flash_store.md)
def FLC_GEOM_BLOCKS : Fld := ⟨0x6000c, 15, 17, 0⟩
def FLC_GEOM_CES : Fld := ⟨0x6000c, 14, 1, 0⟩
def FLC_GEOM_PPB : Fld := ⟨0x6000c, 8, 2, 0⟩
def FLC_GEOM_SPARE : Fld := ⟨0x6000c, 0, 8, 0⟩
-- FLC_CFG, offset 0x0010 (R408, 15_flash_store.md)
def FLC_CFG_MODE_MAX : Fld := ⟨0x60010, 24, 4, 10⟩
def FLC_CFG_LOG_THR : Fld := ⟨0x60010, 8, 7, 0⟩
def FLC_CFG_T : Fld := ⟨0x60010, 0, 7, 112⟩
-- FLC_WINDOW, offset 0x0014 (R408, 15_flash_store.md)
def FLC_WINDOW_INSIDE : Fld := ⟨0x60014, 16, 1, 0⟩
def FLC_WINDOW_HI : Fld := ⟨0x60014, 8, 8, 85⟩
def FLC_WINDOW_LO : Fld := ⟨0x60014, 0, 8, 0⟩
-- FLC_SCRUB, offset 0x0018 (R408, 15_flash_store.md)
def FLC_SCRUB_BUSY : Fld := ⟨0x60018, 31, 1, 0⟩
def FLC_SCRUB_DONE : Fld := ⟨0x60018, 24, 7, 0⟩
def FLC_SCRUB_HOURS : Fld := ⟨0x60018, 0, 16, 24⟩
-- FLC_CMD, offset 0x0020 (R408, 15_flash_store.md)
def FLC_CMD_CMD : Fld := ⟨0x60020, 0, 4, 0⟩
-- FLC_ADDR, offset 0x0024 (R408, 15_flash_store.md)
def FLC_ADDR_PART : Fld := ⟨0x60024, 24, 8, 0⟩
def FLC_ADDR_INDEX : Fld := ⟨0x60024, 0, 24, 0⟩
-- FLC_CMD_STAT, offset 0x0028 (R408, 15_flash_store.md)
def FLC_CMD_STAT_BUSY : Fld := ⟨0x60028, 31, 1, 0⟩
def FLC_CMD_STAT_BLANK : Fld := ⟨0x60028, 30, 1, 0⟩
def FLC_CMD_STAT_STATUS : Fld := ⟨0x60028, 16, 8, 0⟩
def FLC_CMD_STAT_BITS : Fld := ⟨0x60028, 0, 7, 0⟩
-- FLC_PART_SEL, offset 0x0030 (R408, 15_flash_store.md)
def FLC_PART_SEL_PART : Fld := ⟨0x60030, 0, 8, 1⟩
-- FLC_PART_FIRST, offset 0x0034 (R408, 15_flash_store.md)
def FLC_PART_FIRST_VALUE : Fld := ⟨0x60034, 0, 20, 0⟩
-- FLC_PART_RANGE, offset 0x0038 (R408, 15_flash_store.md)
def FLC_PART_RANGE_VALUE : Fld := ⟨0x60038, 0, 20, 0⟩
-- FLC_PART_FREE, offset 0x003C (R408, 15_flash_store.md)
def FLC_PART_FREE_VALUE : Fld := ⟨0x6003c, 0, 20, 0⟩
-- FLC_CNT_i, offset 0x0040 (R408, 15_flash_store.md)
def FLC_CNT_COUNT (i : Nat) : Fld := ⟨0x60040 + 0x4 * i, 0, 32, 0⟩
-- FLC_LOG_SEQ_LO, offset 0x0060 (R408, 15_flash_store.md)
def FLC_LOG_SEQ_LO_SEQ : Fld := ⟨0x60060, 0, 32, 0⟩
-- FLC_LOG_SEQ_HI, offset 0x0064 (R408, 15_flash_store.md)
def FLC_LOG_SEQ_HI_SEQ : Fld := ⟨0x60064, 0, 32, 0⟩

-- STL_STATUS, offset 0x0000 (R442, 17_stile_links.md)
def STL_STATUS_LINK_DOWN : Fld := ⟨0x70000, 8, 1, 0⟩
def STL_STATUS_SELFTEST_FAIL : Fld := ⟨0x70000, 7, 1, 0⟩
def STL_STATUS_WAKE : Fld := ⟨0x70000, 6, 1, 0⟩
def STL_STATUS_ALERT : Fld := ⟨0x70000, 5, 1, 0⟩
def STL_STATUS_RXQ_FULL : Fld := ⟨0x70000, 4, 1, 0⟩
def STL_STATUS_RSP_TO : Fld := ⟨0x70000, 3, 1, 0⟩
def STL_STATUS_CRC_ERR : Fld := ⟨0x70000, 2, 1, 0⟩
def STL_STATUS_CODE_ERR : Fld := ⟨0x70000, 1, 1, 0⟩
def STL_STATUS_LINK_UP : Fld := ⟨0x70000, 0, 1, 0⟩
-- STL_INT_EN, offset 0x0004 (R442, 17_stile_links.md)
def STL_INT_EN_EN : Fld := ⟨0x70004, 0, 9, 0⟩
-- STL_CFG, offset 0x0008 (R442, 17_stile_links.md)
def STL_CFG_TIME_PERIOD : Fld := ⟨0x70008, 16, 8, 100⟩
def STL_CFG_RSP_TO : Fld := ⟨0x70008, 0, 16, 100⟩
-- STL_RXQ_INFO, offset 0x0040 (R442, 17_stile_links.md)
def STL_RXQ_INFO_LOOPED : Fld := ⟨0x70040, 12, 1, 0⟩
def STL_RXQ_INFO_LANE : Fld := ⟨0x70040, 8, 4, 0⟩
def STL_RXQ_INFO_COUNT : Fld := ⟨0x70040, 0, 5, 0⟩
-- STL_RXQ_TIME_LO, offset 0x0044 (R442, 17_stile_links.md)
def STL_RXQ_TIME_LO_TIME : Fld := ⟨0x70044, 0, 32, 0⟩
-- STL_RXQ_TIME_HI, offset 0x0048 (R442, 17_stile_links.md)
def STL_RXQ_TIME_HI_TIME : Fld := ⟨0x70048, 0, 32, 0⟩
-- STL_RXQ_POP, offset 0x004C (R442, 17_stile_links.md)
def STL_RXQ_POP_POP : Fld := ⟨0x7004c, 0, 32, 0⟩
-- STL_LANE_CTRL_s, offset 0x0100 (R442, 17_stile_links.md)
def STL_LANE_CTRL_ROLE (s : Nat) : Fld := ⟨0x70100 + 0x20 * s, 8, 3, stlRoleDefault s⟩
def STL_LANE_CTRL_LOOP (s : Nat) : Fld := ⟨0x70100 + 0x20 * s, 4, 2, 0⟩
def STL_LANE_CTRL_WAKE_SD (s : Nat) : Fld := ⟨0x70100 + 0x20 * s, 2, 1, 0⟩
def STL_LANE_CTRL_RX_EN (s : Nat) : Fld := ⟨0x70100 + 0x20 * s, 1, 1, 0⟩
def STL_LANE_CTRL_TX_EN (s : Nat) : Fld := ⟨0x70100 + 0x20 * s, 0, 1, 0⟩
-- STL_LANE_STAT_s, offset 0x0104 (R442, 17_stile_links.md)
def STL_LANE_STAT_ID_L (s : Nat) : Fld := ⟨0x70104 + 0x20 * s, 16, 16, 0⟩
def STL_LANE_STAT_SD (s : Nat) : Fld := ⟨0x70104 + 0x20 * s, 15, 1, 0⟩
def STL_LANE_STAT_FAR_SLEEP (s : Nat) : Fld := ⟨0x70104 + 0x20 * s, 14, 1, 0⟩
def STL_LANE_STAT_PEER_ROLE (s : Nat) : Fld := ⟨0x70104 + 0x20 * s, 11, 3, 0⟩
def STL_LANE_STAT_LINK (s : Nat) : Fld := ⟨0x70104 + 0x20 * s, 8, 2, 0⟩
def STL_LANE_STAT_RX_STATE (s : Nat) : Fld := ⟨0x70104 + 0x20 * s, 4, 2, 0⟩
def STL_LANE_STAT_TX_STATE (s : Nat) : Fld := ⟨0x70104 + 0x20 * s, 0, 3, 0⟩
-- STL_EQ_s, offset 0x0108 (R442, 17_stile_links.md)
def STL_EQ_CTLE (s : Nat) : Fld := ⟨0x70108 + 0x20 * s, 24, 4, 0⟩
def STL_EQ_POST (s : Nat) : Fld := ⟨0x70108 + 0x20 * s, 16, 5, 0⟩
def STL_EQ_MAIN (s : Nat) : Fld := ⟨0x70108 + 0x20 * s, 8, 6, 63⟩
def STL_EQ_PRE (s : Nat) : Fld := ⟨0x70108 + 0x20 * s, 0, 4, 0⟩
-- STL_ERR_s, offset 0x010C (R442, 17_stile_links.md)
def STL_ERR_CRC (s : Nat) : Fld := ⟨0x7010c + 0x20 * s, 16, 16, 0⟩
def STL_ERR_CODE (s : Nat) : Fld := ⟨0x7010c + 0x20 * s, 0, 16, 0⟩
-- STL_DROP_s, offset 0x0110 (R442, 17_stile_links.md)
def STL_DROP_LATE (s : Nat) : Fld := ⟨0x70110 + 0x20 * s, 16, 16, 0⟩
def STL_DROP_TIMEOUT (s : Nat) : Fld := ⟨0x70110 + 0x20 * s, 0, 16, 0⟩
-- STL_EYE_CTRL_s, offset 0x0114 (R442, 17_stile_links.md)
def STL_EYE_CTRL_LOG (s : Nat) : Fld := ⟨0x70114 + 0x20 * s, 24, 6, 20⟩
def STL_EYE_CTRL_OFFSET (s : Nat) : Fld := ⟨0x70114 + 0x20 * s, 16, 6, 0⟩
def STL_EYE_CTRL_PHASE (s : Nat) : Fld := ⟨0x70114 + 0x20 * s, 8, 6, 0⟩
def STL_EYE_CTRL_BUSY (s : Nat) : Fld := ⟨0x70114 + 0x20 * s, 1, 1, 0⟩
def STL_EYE_CTRL_GO (s : Nat) : Fld := ⟨0x70114 + 0x20 * s, 0, 1, 0⟩
-- STL_EYE_ERR_s, offset 0x0118 (R442, 17_stile_links.md)
def STL_EYE_ERR_ERR (s : Nat) : Fld := ⟨0x70118 + 0x20 * s, 0, 32, 0⟩
-- STL_TXS_s_j, offset 0x0400 (R442, 17_stile_links.md)
def STL_TXS_STATUS (s j : Nat) : Fld := ⟨0x70400 + 0x8 * s + 0x4 * j, 16, 8, 0⟩
def STL_TXS_ARM (s j : Nat) : Fld := ⟨0x70400 + 0x8 * s + 0x4 * j, 8, 1, 0⟩
def STL_TXS_STATE (s j : Nat) : Fld := ⟨0x70400 + 0x8 * s + 0x4 * j, 0, 2, 0⟩

-- SEC_STATUS, offset 0x0000 (R337, 12_trust_approvals.md)
def SEC_STATUS_CMD_DONE : Fld := ⟨0x80000, 11, 1, 0⟩
def SEC_STATUS_SWAP : Fld := ⟨0x80000, 10, 1, 0⟩
def SEC_STATUS_OTP_FAIL : Fld := ⟨0x80000, 9, 1, 0⟩
def SEC_STATUS_ATT_REFUSED : Fld := ⟨0x80000, 8, 1, 0⟩
def SEC_STATUS_ATT_RESERVE : Fld := ⟨0x80000, 7, 1, 0⟩
def SEC_STATUS_CONF_NAK : Fld := ⟨0x80000, 6, 1, 0⟩
def SEC_STATUS_PROP_FAIL : Fld := ⟨0x80000, 5, 1, 0⟩
def SEC_STATUS_PROP_EXPIRED : Fld := ⟨0x80000, 4, 1, 0⟩
def SEC_STATUS_PROP_DONE : Fld := ⟨0x80000, 3, 1, 0⟩
def SEC_STATUS_PROP_APPROVED : Fld := ⟨0x80000, 2, 1, 0⟩
def SEC_STATUS_RECOVERY : Fld := ⟨0x80000, 1, 1, 0⟩
def SEC_STATUS_BOOT_FALLBACK : Fld := ⟨0x80000, 0, 1, 0⟩
-- SEC_INT_EN, offset 0x0004 (R337, 12_trust_approvals.md)
def SEC_INT_EN_EN : Fld := ⟨0x80004, 0, 12, 0⟩
-- SEC_STATE, offset 0x0008 (R337, 12_trust_approvals.md)
def SEC_STATE_IMG_SVN : Fld := ⟨0x80008, 24, 8, 0⟩
def SEC_STATE_FW_SVN : Fld := ⟨0x80008, 16, 8, 0⟩
def SEC_STATE_IMG_SLOT : Fld := ⟨0x80008, 9, 3, 0⟩
def SEC_STATE_BOOT_SLOT : Fld := ⟨0x80008, 8, 1, 0⟩
def SEC_STATE_LIFECYCLE : Fld := ⟨0x80008, 4, 2, 1⟩
def SEC_STATE_STATE : Fld := ⟨0x80008, 0, 3, 0⟩
-- SEC_OTP, offset 0x000C (R337, 12_trust_approvals.md)
def SEC_OTP_CUST_REVOKE : Fld := ⟨0x8000c, 8, 4, 0⟩
def SEC_OTP_CUST_SET : Fld := ⟨0x8000c, 4, 4, 0⟩
def SEC_OTP_PLM_REVOKE : Fld := ⟨0x8000c, 2, 2, 0⟩
def SEC_OTP_PLM_SET : Fld := ⟨0x8000c, 0, 2, 3⟩
-- SEC_ATT_LEAF, offset 0x0010 (R337, 12_trust_approvals.md)
def SEC_ATT_LEAF_VALUE : Fld := ⟨0x80010, 0, 21, 0⟩
-- SEC_ATT_RSV, offset 0x0014 (R337, 12_trust_approvals.md)
def SEC_ATT_RSV_VALUE : Fld := ⟨0x80014, 0, 21, 0⟩
-- SEC_CONF, offset 0x0018 (R337, 12_trust_approvals.md)
def SEC_CONF_CONF_LEAD : Fld := ⟨0x80018, 16, 16, 1024⟩
def SEC_CONF_PROP_LEAD : Fld := ⟨0x80018, 0, 16, 16384⟩
-- SEC_CONF_RETRY, offset 0x001C (R337, 12_trust_approvals.md)
def SEC_CONF_RETRY_RETRY : Fld := ⟨0x8001c, 0, 8, 64⟩
-- SEC_PROP_SEL, offset 0x0020 (R337, 12_trust_approvals.md)
def SEC_PROP_SEL_SLOT : Fld := ⟨0x80020, 0, 4, 0⟩
-- SEC_PROP_STAT, offset 0x0024 (R337, 12_trust_approvals.md)
def SEC_PROP_STAT_TOKENS : Fld := ⟨0x80024, 24, 2, 0⟩
def SEC_PROP_STAT_STATUS : Fld := ⟨0x80024, 16, 8, 0⟩
def SEC_PROP_STAT_LINK : Fld := ⟨0x80024, 12, 1, 0⟩
def SEC_PROP_STAT_SUBJECT : Fld := ⟨0x80024, 8, 4, 0⟩
def SEC_PROP_STAT_STATE : Fld := ⟨0x80024, 0, 4, 0⟩
-- SEC_PROP_SW_LO, offset 0x0028 (R337, 12_trust_approvals.md)
def SEC_PROP_SW_LO_SW_L : Fld := ⟨0x80028, 0, 32, 0⟩
-- SEC_PROP_SW_HI, offset 0x002C (R337, 12_trust_approvals.md)
def SEC_PROP_SW_HI_SW_H : Fld := ⟨0x8002c, 0, 16, 0⟩
-- SEC_CMD_W, offset 0x0100 (R337, 12_trust_approvals.md)
def SEC_CMD_W_WORD (z bk : Nat) : Fld := ⟨0x80100 + 0x4 * z + 0x10000000 * bk, 0, 32, 0⟩
-- SEC_CMD_GO, offset 0x0110 (R337, 12_trust_approvals.md)
def SEC_CMD_GO_GO (bk : Nat) : Fld := ⟨0x80110 + 0x10000000 * bk, 0, 32, 0⟩
-- SEC_CMD_STAT, offset 0x0114 (R337, 12_trust_approvals.md)
def SEC_CMD_STAT_BUSY (bk : Nat) : Fld := ⟨0x80114 + 0x10000000 * bk, 31, 1, 0⟩
def SEC_CMD_STAT_STATUS (bk : Nat) : Fld := ⟨0x80114 + 0x10000000 * bk, 16, 8, 0⟩
def SEC_CMD_STAT_RLEN (bk : Nat) : Fld := ⟨0x80114 + 0x10000000 * bk, 0, 16, 0⟩

end R

/-- Registers of GCTL, part 0 (R3). -/
def gctlRegs0 : List RDef :=
  [⟨0x0, [], false, [⟨16, 16, .ro, 18434, []⟩, ⟨8, 8, .ro, 177, []⟩, ⟨4, 4, .ro, 2, []⟩]⟩,
   ⟨0x4, [], false, [⟨5, 1, .w1c, 0, []⟩, ⟨4, 1, .w1c, 0, []⟩, ⟨3, 1, .w1c, 0, []⟩, ⟨2, 1, .w1c, 0, []⟩, ⟨1, 1, .w1c, 0, []⟩, ⟨0, 1, .w1c, 0, []⟩]⟩,
   ⟨0x8, [], false, [⟨0, 6, .rw, 0, []⟩]⟩,
   ⟨0x200, [], false, [⟨28, 4, .wo, 0, []⟩, ⟨26, 2, .wo, 0, []⟩, ⟨24, 1, .wo, 0, []⟩, ⟨16, 4, .wo, 0, []⟩, ⟨8, 7, .wo, 0, []⟩]⟩,
   ⟨0x204, [], false, [⟨31, 1, .ro, 0, []⟩, ⟨16, 8, .ro, 0, []⟩, ⟨8, 3, .ro, 0, []⟩]⟩,
   ⟨0x210, [(0x8, 2), (0x4, 2)], false, [⟨0, 4, .ro, 2, []⟩, ⟨4, 4, .ro, 2, []⟩, ⟨8, 4, .ro, 2, []⟩, ⟨12, 4, .ro, 2, []⟩, ⟨16, 4, .ro, 2, []⟩, ⟨20, 4, .ro, 2, []⟩, ⟨24, 4, .ro, 2, []⟩, ⟨28, 4, .ro, 2, []⟩]⟩,
   ⟨0x220, [(0x4, 2)], false, [⟨16, 16, .ro, 0, []⟩, ⟨0, 16, .ro, 0, []⟩]⟩,
   ⟨0x230, [], false, [⟨0, 4, .ro, 2, []⟩, ⟨4, 4, .ro, 2, []⟩, ⟨8, 4, .ro, 2, []⟩, ⟨12, 4, .ro, 2, []⟩, ⟨16, 4, .ro, 2, []⟩, ⟨20, 4, .ro, 2, []⟩, ⟨24, 4, .ro, 2, []⟩]⟩]
/-- Every register of GCTL (R3, R496). -/
def gctlRegs : List RDef :=
  gctlRegs0

/-- Registers of PWR, part 0 (R462). -/
def pwrRegs0 : List RDef :=
  [⟨0x10000, [], false, [⟨2, 1, .w1c, 0, []⟩, ⟨1, 1, .w1c, 0, []⟩, ⟨0, 1, .w1c, 0, []⟩]⟩,
   ⟨0x10004, [], false, [⟨0, 3, .rw, 0, []⟩]⟩,
   ⟨0x10010, [(0x4, 8)], false, [⟨0, 32, .ro, 0, []⟩]⟩,
   ⟨0x10030, [(0x4, 8)], false, [⟨0, 32, .ro, 0, []⟩]⟩,
   ⟨0x10050, [], false, [⟨0, 8, .ro, 0, []⟩]⟩,
   ⟨0x10060, [], false, [⟨16, 10, .ro, 0, []⟩, ⟨0, 10, .ro, 0, []⟩]⟩,
   ⟨0x10064, [], false, [⟨8, 1, .rw, 1, []⟩, ⟨0, 6, .rw, 0, [(0, 20), (44, 63)]⟩]⟩,
   ⟨0x10068, [], false, [⟨0, 10, .ro, 0, []⟩]⟩,
   ⟨0x1006c, [], false, [⟨0, 10, .ro, 1023, []⟩]⟩]
/-- Every register of PWR (R462). -/
def pwrRegs : List RDef :=
  pwrRegs0

/-- Registers of THM, part 0 (R461). -/
def thmRegs0 : List RDef :=
  [⟨0x20000, [], false, [⟨7, 1, .w1c, 0, []⟩, ⟨6, 1, .w1c, 0, []⟩, ⟨5, 1, .w1c, 0, []⟩, ⟨4, 1, .w1c, 0, []⟩, ⟨3, 1, .w1c, 0, []⟩, ⟨2, 1, .w1c, 0, []⟩, ⟨1, 1, .w1c, 0, []⟩, ⟨0, 1, .w1c, 0, []⟩]⟩,
   ⟨0x20004, [], false, [⟨0, 8, .rw, 0, []⟩]⟩,
   ⟨0x20008, [], false, [⟨24, 8, .rw, 108, []⟩, ⟨16, 8, .rw, 100, []⟩, ⟨8, 8, .rw, 98, []⟩, ⟨0, 4, .rw, 4, [(1, 15)]⟩]⟩,
   ⟨0x2000c, [], false, [⟨25, 1, .ro, 0, []⟩, ⟨24, 1, .ro, 0, []⟩, ⟨16, 7, .ro, 0, []⟩, ⟨0, 12, .ro, 0, []⟩]⟩,
   ⟨0x20010, [], false, [⟨16, 16, .ro, 48, []⟩, ⟨0, 8, .ro, 0, []⟩]⟩,
   ⟨0x20014, [], false, [⟨0, 7, .ro, 0, []⟩]⟩,
   ⟨0x20020, [], false, [⟨8, 8, .wo, 0, []⟩, ⟨1, 1, .wo, 0, []⟩, ⟨0, 1, .wo, 0, []⟩]⟩,
   ⟨0x20024, [], false, [⟨16, 16, .ro, 0, []⟩, ⟨8, 8, .ro, 0, []⟩, ⟨4, 1, .ro, 0, []⟩, ⟨0, 2, .ro, 0, []⟩]⟩,
   ⟨0x20040, [(0x4, 4)], false, [⟨8, 1, .rw, 0, []⟩, ⟨0, 8, .rw, 100, []⟩]⟩,
   ⟨0x20060, [(0x4, 8)], false, [⟨0, 32, .ro, 0, []⟩]⟩,
   ⟨0x20100, [(0x4, 116)], false, [⟨31, 1, .ro, 0, []⟩, ⟨30, 1, .ro, 0, []⟩, ⟨29, 1, .ro, 0, []⟩, ⟨0, 12, .ro, 0, []⟩]⟩]
/-- Every register of THM (R461). -/
def thmRegs : List RDef :=
  thmRegs0

/-- Registers of CLK, part 0 (R426). -/
def clkRegs0 : List RDef :=
  [⟨0x30000, [], false, [⟨15, 1, .w1c, 0, []⟩, ⟨0, 1, .w1c, 0, []⟩, ⟨1, 1, .w1c, 0, []⟩, ⟨2, 1, .w1c, 0, []⟩, ⟨3, 1, .w1c, 0, []⟩, ⟨4, 1, .w1c, 0, []⟩, ⟨5, 1, .w1c, 0, []⟩, ⟨6, 1, .w1c, 0, []⟩, ⟨7, 1, .w1c, 0, []⟩, ⟨8, 1, .w1c, 0, []⟩, ⟨9, 1, .w1c, 0, []⟩, ⟨10, 1, .w1c, 0, []⟩, ⟨11, 1, .w1c, 0, []⟩, ⟨12, 1, .w1c, 0, []⟩, ⟨13, 1, .w1c, 0, []⟩, ⟨14, 1, .w1c, 0, []⟩]⟩,
   ⟨0x30004, [], false, [⟨0, 16, .rw, 0, []⟩]⟩,
   ⟨0x30008, [], false, [⟨1, 1, .ro, 0, []⟩, ⟨0, 1, .ro, 0, []⟩]⟩,
   ⟨0x3000c, [], false, [⟨16, 16, .rw, 10000, [(1, 65535)]⟩, ⟨0, 16, .rw, 8000, []⟩]⟩,
   ⟨0x30010, [(0x4, 8)], false, [⟨7, 1, .rw, 0, []⟩, ⟨0, 6, .rw, 0, []⟩]⟩,
   ⟨0x30100, [(0x10, 4)], false, [⟨30, 2, .rw, 0, [(0, 2)]⟩, ⟨0, 30, .rw, 0, [(8000, 1000000000)]⟩]⟩,
   ⟨0x30140, [(0x10, 10)], false, [⟨30, 2, .ro, 0, [(0, 2)]⟩, ⟨0, 30, .ro, 0, [(8000, 1000000000)]⟩]⟩,
   ⟨0x30104, [(0x10, 14)], false, [⟨31, 1, .ro, 0, []⟩, ⟨30, 1, .ro, 0, []⟩, ⟨29, 1, .ro, 0, []⟩, ⟨28, 1, .ro, 0, []⟩, ⟨0, 24, .ro, 0, []⟩]⟩,
   ⟨0x30108, [(0x10, 14)], false, [⟨0, 16, .rw, 100, [(1, 65535)]⟩]⟩,
   ⟨0x30200, [], false, [⟨24, 4, .rw, 0, []⟩, ⟨16, 3, .rw, 3, []⟩, ⟨12, 3, .rw, 5, []⟩, ⟨9, 1, .rw, 1, []⟩, ⟨8, 1, .rw, 1, []⟩, ⟨0, 2, .rw, 0, [(0, 2)]⟩]⟩,
   ⟨0x30240, [(0x40, 2)], false, [⟨24, 4, .rw, 0, []⟩, ⟨16, 3, .rw, 5, []⟩, ⟨12, 3, .rw, 6, []⟩, ⟨9, 1, .rw, 1, []⟩, ⟨8, 1, .rw, 1, []⟩, ⟨0, 2, .rw, 0, [(0, 2)]⟩]⟩,
   ⟨0x30204, [], false, [⟨0, 4, .rw, 0, []⟩, ⟨4, 4, .rw, 0, []⟩, ⟨8, 4, .rw, 0, []⟩, ⟨12, 4, .rw, 0, []⟩, ⟨16, 4, .rw, 0, []⟩, ⟨20, 4, .rw, 0, []⟩, ⟨24, 4, .rw, 0, []⟩, ⟨28, 4, .rw, 0, []⟩]⟩]
/-- Registers of CLK, part 1 (R426). -/
def clkRegs1 : List RDef :=
  [⟨0x30244, [(0x40, 2)], false, [⟨0, 4, .ro, 0, []⟩, ⟨4, 4, .ro, 0, []⟩, ⟨8, 4, .ro, 0, []⟩, ⟨12, 4, .ro, 0, []⟩, ⟨16, 4, .ro, 0, []⟩, ⟨20, 4, .ro, 0, []⟩, ⟨24, 4, .ro, 0, []⟩, ⟨28, 4, .ro, 0, []⟩]⟩,
   ⟨0x30208, [], false, [⟨0, 4, .rw, 0, []⟩, ⟨4, 4, .rw, 0, []⟩, ⟨8, 4, .rw, 0, []⟩, ⟨12, 4, .rw, 0, []⟩, ⟨16, 4, .rw, 0, []⟩, ⟨20, 4, .rw, 0, []⟩]⟩,
   ⟨0x30248, [(0x40, 2)], false, [⟨0, 4, .ro, 0, []⟩, ⟨4, 4, .ro, 0, []⟩, ⟨8, 4, .ro, 0, []⟩, ⟨12, 4, .ro, 0, []⟩, ⟨16, 4, .ro, 0, []⟩, ⟨20, 4, .ro, 0, []⟩, ⟨24, 4, .ro, 0, []⟩, ⟨28, 4, .ro, 0, []⟩]⟩,
   ⟨0x3020c, [(0x40, 3)], false, [⟨16, 16, .rw, 100, [(1, 65535)]⟩, ⟨0, 16, .rw, 300, []⟩]⟩,
   ⟨0x30210, [(0x40, 3)], false, [⟨16, 11, .rw, 256, [(16, 2048)]⟩, ⟨0, 11, .rw, 64, [(0, 2032)]⟩]⟩,
   ⟨0x30214, [(0x40, 3)], false, [⟨31, 1, .ro, 0, []⟩, ⟨30, 1, .ro, 0, []⟩, ⟨29, 1, .ro, 0, []⟩, ⟨24, 3, .ro, 0, []⟩, ⟨20, 4, .ro, 0, []⟩, ⟨16, 4, .ro, 0, []⟩, ⟨0, 16, .ro, 0, []⟩]⟩,
   ⟨0x30218, [(0x40, 3)], false, [⟨0, 32, .ro, 0, []⟩]⟩,
   ⟨0x3021c, [(0x40, 3)], false, [⟨0, 32, .ro, 0, []⟩]⟩,
   ⟨0x30220, [(0x40, 3)], false, [⟨0, 8, .ro, 0, []⟩]⟩,
   ⟨0x30224, [(0x40, 3)], false, [⟨0, 32, .ro, 0, []⟩]⟩,
   ⟨0x30228, [(0x40, 3)], false, [⟨0, 8, .ro, 0, []⟩]⟩,
   ⟨0x3022c, [(0x40, 3)], false, [⟨0, 32, .rw, 0, []⟩]⟩]
/-- Registers of CLK, part 2 (R426). -/
def clkRegs2 : List RDef :=
  [⟨0x30230, [(0x40, 3)], false, [⟨0, 8, .rw, 0, []⟩]⟩]
/-- Every register of CLK (R426). -/
def clkRegs : List RDef :=
  clkRegs0 ++ clkRegs1 ++ clkRegs2

/-- Registers of FAB, part 0 (R388). -/
def fabRegs0 : List RDef :=
  [⟨0x40000, [], false, [⟨5, 1, .w1c, 0, []⟩, ⟨4, 1, .w1c, 0, []⟩, ⟨3, 1, .w1c, 0, []⟩, ⟨2, 1, .w1c, 0, []⟩, ⟨1, 1, .w1c, 0, []⟩, ⟨0, 1, .w1c, 0, []⟩]⟩,
   ⟨0x40004, [], false, [⟨0, 6, .rw, 0, []⟩]⟩,
   ⟨0x40010, [], false, [⟨31, 1, .w1c, 0, []⟩, ⟨16, 8, .ro, 0, []⟩, ⟨8, 4, .ro, 0, []⟩, ⟨0, 4, .ro, 0, []⟩]⟩,
   ⟨0x40014, [], false, [⟨0, 32, .ro, 0, []⟩]⟩,
   ⟨0x40018, [], false, [⟨0, 16, .ro, 0, []⟩]⟩,
   ⟨0x4001c, [], false, [⟨0, 32, .rc, 0, []⟩]⟩,
   ⟨0x40100, [], false, [⟨0, 4, .rw, 4, []⟩, ⟨4, 4, .rw, 4, []⟩, ⟨8, 4, .rw, 4, []⟩, ⟨12, 4, .rw, 4, []⟩, ⟨16, 4, .rw, 4, []⟩, ⟨20, 4, .rw, 4, []⟩, ⟨24, 4, .rw, 4, []⟩, ⟨28, 4, .rw, 4, []⟩]⟩,
   ⟨0x40108, [], false, [⟨0, 4, .rw, 13, []⟩, ⟨4, 4, .rw, 13, []⟩, ⟨8, 4, .rw, 13, []⟩, ⟨12, 4, .rw, 13, []⟩, ⟨16, 4, .rw, 13, []⟩, ⟨20, 4, .rw, 13, []⟩, ⟨24, 4, .rw, 13, []⟩, ⟨28, 4, .rw, 13, []⟩]⟩,
   ⟨0x40110, [], false, [⟨0, 4, .rw, 10, []⟩, ⟨4, 4, .rw, 10, []⟩, ⟨8, 4, .rw, 10, []⟩, ⟨12, 4, .rw, 10, []⟩, ⟨16, 4, .rw, 10, []⟩, ⟨20, 4, .rw, 10, []⟩, ⟨24, 4, .rw, 10, []⟩, ⟨28, 4, .rw, 10, []⟩]⟩,
   ⟨0x40118, [], false, [⟨0, 4, .rw, 10, []⟩, ⟨4, 4, .rw, 10, []⟩, ⟨8, 4, .rw, 10, []⟩, ⟨12, 4, .rw, 10, []⟩, ⟨16, 4, .rw, 10, []⟩, ⟨20, 4, .rw, 10, []⟩, ⟨24, 4, .rw, 10, []⟩, ⟨28, 4, .rw, 10, []⟩]⟩,
   ⟨0x40120, [], false, [⟨0, 4, .rw, 10, []⟩, ⟨4, 4, .rw, 10, []⟩, ⟨8, 4, .rw, 10, []⟩, ⟨12, 4, .rw, 10, []⟩, ⟨16, 4, .rw, 10, []⟩, ⟨20, 4, .rw, 10, []⟩, ⟨24, 4, .rw, 10, []⟩, ⟨28, 4, .rw, 10, []⟩]⟩,
   ⟨0x40128, [], false, [⟨0, 4, .rw, 10, []⟩, ⟨4, 4, .rw, 10, []⟩, ⟨8, 4, .rw, 10, []⟩, ⟨12, 4, .rw, 10, []⟩, ⟨16, 4, .rw, 10, []⟩, ⟨20, 4, .rw, 10, []⟩, ⟨24, 4, .rw, 10, []⟩, ⟨28, 4, .rw, 10, []⟩]⟩]
/-- Registers of FAB, part 1 (R388). -/
def fabRegs1 : List RDef :=
  [⟨0x40130, [], false, [⟨0, 4, .rw, 5, []⟩, ⟨4, 4, .rw, 5, []⟩, ⟨8, 4, .rw, 5, []⟩, ⟨12, 4, .rw, 5, []⟩, ⟨16, 4, .rw, 5, []⟩, ⟨20, 4, .rw, 5, []⟩, ⟨24, 4, .rw, 5, []⟩, ⟨28, 4, .rw, 5, []⟩]⟩,
   ⟨0x40138, [], false, [⟨0, 4, .rw, 5, []⟩, ⟨4, 4, .rw, 5, []⟩, ⟨8, 4, .rw, 5, []⟩, ⟨12, 4, .rw, 5, []⟩, ⟨16, 4, .rw, 5, []⟩, ⟨20, 4, .rw, 5, []⟩, ⟨24, 4, .rw, 5, []⟩, ⟨28, 4, .rw, 5, []⟩]⟩,
   ⟨0x40140, [], false, [⟨0, 4, .rw, 11, []⟩, ⟨4, 4, .rw, 11, []⟩, ⟨8, 4, .rw, 11, []⟩, ⟨12, 4, .rw, 11, []⟩, ⟨16, 4, .rw, 11, []⟩, ⟨20, 4, .rw, 11, []⟩, ⟨24, 4, .rw, 11, []⟩, ⟨28, 4, .rw, 11, []⟩]⟩,
   ⟨0x40148, [], false, [⟨0, 4, .rw, 8, []⟩, ⟨4, 4, .rw, 8, []⟩, ⟨8, 4, .rw, 8, []⟩, ⟨12, 4, .rw, 8, []⟩, ⟨16, 4, .rw, 8, []⟩, ⟨20, 4, .rw, 8, []⟩, ⟨24, 4, .rw, 8, []⟩, ⟨28, 4, .rw, 8, []⟩]⟩,
   ⟨0x40150, [], false, [⟨0, 4, .rw, 6, []⟩, ⟨4, 4, .rw, 6, []⟩, ⟨8, 4, .rw, 6, []⟩, ⟨12, 4, .rw, 6, []⟩, ⟨16, 4, .rw, 6, []⟩, ⟨20, 4, .rw, 6, []⟩, ⟨24, 4, .rw, 6, []⟩, ⟨28, 4, .rw, 6, []⟩]⟩,
   ⟨0x40158, [], false, [⟨0, 4, .rw, 15, []⟩, ⟨4, 4, .rw, 15, []⟩, ⟨8, 4, .rw, 15, []⟩, ⟨12, 4, .rw, 15, []⟩, ⟨16, 4, .rw, 15, []⟩, ⟨20, 4, .rw, 15, []⟩, ⟨24, 4, .rw, 15, []⟩, ⟨28, 4, .rw, 15, []⟩]⟩,
   ⟨0x40160, [], false, [⟨0, 4, .rw, 12, []⟩, ⟨4, 4, .rw, 12, []⟩, ⟨8, 4, .rw, 12, []⟩, ⟨12, 4, .rw, 12, []⟩, ⟨16, 4, .rw, 12, []⟩, ⟨20, 4, .rw, 12, []⟩, ⟨24, 4, .rw, 12, []⟩, ⟨28, 4, .rw, 12, []⟩]⟩,
   ⟨0x40168, [], false, [⟨0, 4, .rw, 0, []⟩, ⟨4, 4, .rw, 0, []⟩, ⟨8, 4, .rw, 0, []⟩, ⟨12, 4, .rw, 0, []⟩, ⟨16, 4, .rw, 0, []⟩, ⟨20, 4, .rw, 0, []⟩, ⟨24, 4, .rw, 0, []⟩, ⟨28, 4, .rw, 0, []⟩]⟩,
   ⟨0x40104, [], false, [⟨0, 4, .rw, 4, []⟩, ⟨4, 4, .rw, 4, []⟩, ⟨8, 4, .rw, 4, []⟩, ⟨12, 4, .rw, 4, []⟩]⟩,
   ⟨0x4010c, [], false, [⟨0, 4, .rw, 13, []⟩, ⟨4, 4, .rw, 13, []⟩, ⟨8, 4, .rw, 13, []⟩, ⟨12, 4, .rw, 13, []⟩]⟩,
   ⟨0x40114, [], false, [⟨0, 4, .rw, 10, []⟩, ⟨4, 4, .rw, 10, []⟩, ⟨8, 4, .rw, 10, []⟩, ⟨12, 4, .rw, 10, []⟩]⟩,
   ⟨0x4011c, [], false, [⟨0, 4, .rw, 10, []⟩, ⟨4, 4, .rw, 10, []⟩, ⟨8, 4, .rw, 10, []⟩, ⟨12, 4, .rw, 10, []⟩]⟩]
/-- Registers of FAB, part 2 (R388). -/
def fabRegs2 : List RDef :=
  [⟨0x40124, [], false, [⟨0, 4, .rw, 10, []⟩, ⟨4, 4, .rw, 10, []⟩, ⟨8, 4, .rw, 10, []⟩, ⟨12, 4, .rw, 10, []⟩]⟩,
   ⟨0x4012c, [], false, [⟨0, 4, .rw, 10, []⟩, ⟨4, 4, .rw, 10, []⟩, ⟨8, 4, .rw, 10, []⟩, ⟨12, 4, .rw, 10, []⟩]⟩,
   ⟨0x40134, [], false, [⟨0, 4, .rw, 5, []⟩, ⟨4, 4, .rw, 5, []⟩, ⟨8, 4, .rw, 5, []⟩, ⟨12, 4, .rw, 5, []⟩]⟩,
   ⟨0x4013c, [], false, [⟨0, 4, .rw, 5, []⟩, ⟨4, 4, .rw, 5, []⟩, ⟨8, 4, .rw, 5, []⟩, ⟨12, 4, .rw, 5, []⟩]⟩,
   ⟨0x40144, [], false, [⟨0, 4, .rw, 11, []⟩, ⟨4, 4, .rw, 11, []⟩, ⟨8, 4, .rw, 11, []⟩, ⟨12, 4, .rw, 11, []⟩]⟩,
   ⟨0x4014c, [], false, [⟨0, 4, .rw, 8, []⟩, ⟨4, 4, .rw, 8, []⟩, ⟨8, 4, .rw, 8, []⟩, ⟨12, 4, .rw, 8, []⟩]⟩,
   ⟨0x40154, [], false, [⟨0, 4, .rw, 6, []⟩, ⟨4, 4, .rw, 6, []⟩, ⟨8, 4, .rw, 6, []⟩, ⟨12, 4, .rw, 6, []⟩]⟩,
   ⟨0x4015c, [], false, [⟨0, 4, .rw, 15, []⟩, ⟨4, 4, .rw, 15, []⟩, ⟨8, 4, .rw, 15, []⟩, ⟨12, 4, .rw, 15, []⟩]⟩,
   ⟨0x40164, [], false, [⟨0, 4, .rw, 12, []⟩, ⟨4, 4, .rw, 12, []⟩, ⟨8, 4, .rw, 12, []⟩, ⟨12, 4, .rw, 12, []⟩]⟩,
   ⟨0x4016c, [], false, [⟨0, 4, .rw, 0, []⟩, ⟨4, 4, .rw, 0, []⟩, ⟨8, 4, .rw, 0, []⟩, ⟨12, 4, .rw, 0, []⟩]⟩,
   ⟨0x40200, [], false, [⟨31, 1, .ro, 0, []⟩, ⟨0, 16, .rw, 120, [(0, 0), (10, 65535)]⟩]⟩,
   ⟨0x40210, [], false, [⟨0, 4, .rw, 0, []⟩]⟩]
/-- Registers of FAB, part 3 (R388). -/
def fabRegs3 : List RDef :=
  [⟨0x40214, [], false, [⟨0, 32, .rc, 0, []⟩]⟩,
   ⟨0x40218, [], false, [⟨0, 32, .rc, 0, []⟩]⟩,
   ⟨0x4021c, [], false, [⟨0, 22, .ro, 0, []⟩]⟩,
   ⟨0x40300, [], false, [⟨31, 1, .ro, 0, []⟩, ⟨16, 8, .ro, 0, []⟩, ⟨8, 4, .rw, 0, []⟩, ⟨1, 2, .wo, 0, []⟩, ⟨0, 1, .rw, 0, []⟩]⟩,
   ⟨0x40304, [], false, [⟨0, 22, .rw, 0, []⟩]⟩,
   ⟨0x40310, [(0x4, 4)], false, [⟨0, 32, .rw, 0, []⟩]⟩,
   ⟨0x40320, [], false, [⟨9, 1, .ro, 0, []⟩, ⟨0, 9, .rw, 0, []⟩]⟩]
/-- Every register of FAB (R388). -/
def fabRegs : List RDef :=
  fabRegs0 ++ fabRegs1 ++ fabRegs2 ++ fabRegs3

/-- Registers of HIF, part 0 (R389). -/
def hifRegs0 : List RDef :=
  [⟨0x50000, [], false, [⟨2, 1, .w1c, 0, []⟩, ⟨1, 1, .w1c, 0, []⟩, ⟨0, 1, .w1c, 0, []⟩]⟩,
   ⟨0x50004, [], false, [⟨0, 3, .rw, 0, []⟩]⟩,
   ⟨0x50008, [], false, [⟨0, 1, .rw, 0, []⟩]⟩,
   ⟨0x5000c, [], false, [⟨8, 6, .ro, 0, []⟩, ⟨7, 1, .ro, 0, []⟩, ⟨4, 3, .ro, 0, []⟩, ⟨0, 3, .ro, 0, []⟩]⟩,
   ⟨0x50010, [], false, [⟨0, 11, .ro, 0, []⟩]⟩,
   ⟨0x50014, [], false, [⟨16, 16, .rw, 0, []⟩, ⟨8, 8, .rw, 0, []⟩, ⟨0, 8, .rw, 0, []⟩]⟩,
   ⟨0x50018, [], false, [⟨0, 32, .wo, 0, []⟩]⟩,
   ⟨0x50100, [(0x10, 16)], false, [⟨12, 20, .rw, 0, []⟩]⟩,
   ⟨0x50104, [(0x10, 16)], false, [⟨0, 32, .rw, 0, []⟩]⟩,
   ⟨0x50108, [(0x10, 16)], false, [⟨16, 8, .ro, 0, []⟩, ⟨8, 2, .rw, 0, []⟩, ⟨4, 2, .rw, 0, []⟩, ⟨0, 1, .rw, 0, []⟩]⟩,
   ⟨0x50200, [(0x10, 4)], false, [⟨12, 20, .rw, 0, []⟩]⟩,
   ⟨0x50204, [(0x10, 4)], false, [⟨0, 32, .rw, 0, []⟩]⟩]
/-- Registers of HIF, part 1 (R389). -/
def hifRegs1 : List RDef :=
  [⟨0x50208, [(0x10, 4)], false, [⟨16, 10, .ro, 0, []⟩, ⟨2, 1, .ro, 0, []⟩, ⟨1, 1, .rw, 0, []⟩, ⟨0, 1, .rw, 0, []⟩]⟩,
   ⟨0x50300, [(0x4, 20)], false, [⟨6, 1, .rw, 0, []⟩, ⟨0, 6, .rw, 0, [(4, 63)]⟩]⟩]
/-- Every register of HIF (R389). -/
def hifRegs : List RDef :=
  hifRegs0 ++ hifRegs1

/-- Registers of FLC, part 0 (R408). -/
def flcRegs0 : List RDef :=
  [⟨0x60000, [], false, [⟨8, 1, .w1c, 0, []⟩, ⟨7, 1, .w1c, 0, []⟩, ⟨6, 1, .w1c, 0, []⟩, ⟨5, 1, .w1c, 0, []⟩, ⟨4, 1, .w1c, 0, []⟩, ⟨3, 1, .w1c, 0, []⟩, ⟨2, 1, .w1c, 0, []⟩, ⟨1, 1, .w1c, 0, []⟩, ⟨0, 1, .w1c, 0, []⟩]⟩,
   ⟨0x60004, [], false, [⟨0, 9, .rw, 0, []⟩]⟩,
   ⟨0x60008, [], false, [⟨8, 8, .ro, 0, []⟩, ⟨4, 4, .ro, 0, []⟩, ⟨0, 3, .ro, 0, []⟩]⟩,
   ⟨0x6000c, [], false, [⟨15, 17, .ro, 0, []⟩, ⟨14, 1, .ro, 0, []⟩, ⟨8, 2, .ro, 0, []⟩, ⟨0, 8, .ro, 0, []⟩]⟩,
   ⟨0x60010, [], false, [⟨24, 4, .rw, 10, [(0, 10)]⟩, ⟨8, 7, .rw, 0, []⟩, ⟨0, 7, .rw, 112, []⟩]⟩,
   ⟨0x60014, [], false, [⟨16, 1, .ro, 0, []⟩, ⟨8, 8, .rw, 85, []⟩, ⟨0, 8, .rw, 0, []⟩]⟩,
   ⟨0x60018, [], false, [⟨31, 1, .ro, 0, []⟩, ⟨24, 7, .ro, 0, []⟩, ⟨0, 16, .rw, 24, []⟩]⟩,
   ⟨0x60020, [], false, [⟨0, 4, .wo, 0, []⟩]⟩,
   ⟨0x60024, [], false, [⟨24, 8, .rw, 0, []⟩, ⟨0, 24, .rw, 0, []⟩]⟩,
   ⟨0x60028, [], false, [⟨31, 1, .ro, 0, []⟩, ⟨30, 1, .ro, 0, []⟩, ⟨16, 8, .ro, 0, []⟩, ⟨0, 7, .ro, 0, []⟩]⟩,
   ⟨0x60030, [], false, [⟨0, 8, .rw, 1, []⟩]⟩,
   ⟨0x60034, [], false, [⟨0, 20, .ro, 0, []⟩]⟩]
/-- Registers of FLC, part 1 (R408). -/
def flcRegs1 : List RDef :=
  [⟨0x60038, [], false, [⟨0, 20, .ro, 0, []⟩]⟩,
   ⟨0x6003c, [], false, [⟨0, 20, .ro, 0, []⟩]⟩,
   ⟨0x60040, [(0x4, 5)], false, [⟨0, 32, .rc, 0, []⟩]⟩,
   ⟨0x60060, [], false, [⟨0, 32, .ro, 0, []⟩]⟩,
   ⟨0x60064, [], false, [⟨0, 32, .ro, 0, []⟩]⟩]
/-- Every register of FLC (R408). -/
def flcRegs : List RDef :=
  flcRegs0 ++ flcRegs1

/-- Registers of STL, part 0 (R442). -/
def stlRegs0 : List RDef :=
  [⟨0x70000, [], false, [⟨8, 1, .w1c, 0, []⟩, ⟨7, 1, .w1c, 0, []⟩, ⟨6, 1, .w1c, 0, []⟩, ⟨5, 1, .w1c, 0, []⟩, ⟨4, 1, .w1c, 0, []⟩, ⟨3, 1, .w1c, 0, []⟩, ⟨2, 1, .w1c, 0, []⟩, ⟨1, 1, .w1c, 0, []⟩, ⟨0, 1, .w1c, 0, []⟩]⟩,
   ⟨0x70004, [], false, [⟨0, 9, .rw, 0, []⟩]⟩,
   ⟨0x70008, [], false, [⟨16, 8, .rw, 100, []⟩, ⟨0, 16, .rw, 100, [(1, 65535)]⟩]⟩,
   ⟨0x70040, [], false, [⟨12, 1, .ro, 0, []⟩, ⟨8, 4, .ro, 0, []⟩, ⟨0, 5, .ro, 0, []⟩]⟩,
   ⟨0x70044, [], false, [⟨0, 32, .ro, 0, []⟩]⟩,
   ⟨0x70048, [], false, [⟨0, 32, .ro, 0, []⟩]⟩,
   ⟨0x7004c, [], false, [⟨0, 32, .wo, 0, []⟩]⟩,
   ⟨0x70100, [], false, [⟨8, 3, .rw, 1, []⟩, ⟨4, 2, .rw, 0, []⟩, ⟨2, 1, .rw, 0, []⟩, ⟨1, 1, .rw, 0, []⟩, ⟨0, 1, .rw, 0, []⟩]⟩,
   ⟨0x70120, [], false, [⟨8, 3, .rw, 2, []⟩, ⟨4, 2, .rw, 0, []⟩, ⟨2, 1, .rw, 0, []⟩, ⟨1, 1, .rw, 0, []⟩, ⟨0, 1, .rw, 0, []⟩]⟩,
   ⟨0x70140, [], false, [⟨8, 3, .rw, 3, []⟩, ⟨4, 2, .rw, 0, []⟩, ⟨2, 1, .rw, 0, []⟩, ⟨1, 1, .rw, 0, []⟩, ⟨0, 1, .rw, 0, []⟩]⟩,
   ⟨0x70160, [], false, [⟨8, 3, .rw, 0, []⟩, ⟨4, 2, .rw, 0, []⟩, ⟨2, 1, .rw, 0, []⟩, ⟨1, 1, .rw, 0, []⟩, ⟨0, 1, .rw, 0, []⟩]⟩,
   ⟨0x70180, [], false, [⟨8, 3, .rw, 4, []⟩, ⟨4, 2, .rw, 0, []⟩, ⟨2, 1, .rw, 0, []⟩, ⟨1, 1, .rw, 0, []⟩, ⟨0, 1, .rw, 0, []⟩]⟩]
/-- Registers of STL, part 1 (R442). -/
def stlRegs1 : List RDef :=
  [⟨0x701a0, [], false, [⟨8, 3, .rw, 5, []⟩, ⟨4, 2, .rw, 0, []⟩, ⟨2, 1, .rw, 0, []⟩, ⟨1, 1, .rw, 0, []⟩, ⟨0, 1, .rw, 0, []⟩]⟩,
   ⟨0x701c0, [], false, [⟨8, 3, .rw, 6, []⟩, ⟨4, 2, .rw, 0, []⟩, ⟨2, 1, .rw, 0, []⟩, ⟨1, 1, .rw, 0, []⟩, ⟨0, 1, .rw, 0, []⟩]⟩,
   ⟨0x701e0, [], false, [⟨8, 3, .rw, 7, []⟩, ⟨4, 2, .rw, 0, []⟩, ⟨2, 1, .rw, 0, []⟩, ⟨1, 1, .rw, 0, []⟩, ⟨0, 1, .rw, 0, []⟩]⟩,
   ⟨0x70104, [(0x20, 8)], false, [⟨16, 16, .ro, 0, []⟩, ⟨15, 1, .ro, 0, []⟩, ⟨14, 1, .ro, 0, []⟩, ⟨11, 3, .ro, 0, []⟩, ⟨8, 2, .ro, 0, []⟩, ⟨4, 2, .ro, 0, []⟩, ⟨0, 3, .ro, 0, []⟩]⟩,
   ⟨0x70108, [(0x20, 8)], false, [⟨24, 4, .rw, 0, []⟩, ⟨16, 5, .rw, 0, []⟩, ⟨8, 6, .rw, 63, []⟩, ⟨0, 4, .rw, 0, []⟩]⟩,
   ⟨0x7010c, [(0x20, 8)], false, [⟨16, 16, .rc, 0, []⟩, ⟨0, 16, .rc, 0, []⟩]⟩,
   ⟨0x70110, [(0x20, 8)], false, [⟨16, 16, .rc, 0, []⟩, ⟨0, 16, .rc, 0, []⟩]⟩,
   ⟨0x70114, [(0x20, 8)], false, [⟨24, 6, .rw, 20, [(20, 36)]⟩, ⟨16, 6, .rw, 0, [(0, 31), (33, 63)]⟩, ⟨8, 6, .rw, 0, []⟩, ⟨1, 1, .ro, 0, []⟩, ⟨0, 1, .wo, 0, []⟩]⟩,
   ⟨0x70118, [(0x20, 8)], false, [⟨0, 32, .ro, 0, []⟩]⟩,
   ⟨0x70400, [(0x8, 8)], false, [⟨16, 8, .ro, 0, []⟩, ⟨8, 1, .own [2, 3, 4, 5], 0, []⟩, ⟨0, 2, .ro, 0, []⟩]⟩,
   ⟨0x70404, [(0x8, 8)], false, [⟨16, 8, .ro, 0, []⟩, ⟨8, 1, .wo, 0, []⟩, ⟨0, 2, .ro, 0, []⟩]⟩]
/-- Every register of STL (R442). -/
def stlRegs : List RDef :=
  stlRegs0 ++ stlRegs1

/-- Registers of SEC, part 0 (R337). -/
def secRegs0 : List RDef :=
  [⟨0x80000, [], false, [⟨11, 1, .w1c, 0, []⟩, ⟨10, 1, .w1c, 0, []⟩, ⟨9, 1, .w1c, 0, []⟩, ⟨8, 1, .w1c, 0, []⟩, ⟨7, 1, .w1c, 0, []⟩, ⟨6, 1, .w1c, 0, []⟩, ⟨5, 1, .w1c, 0, []⟩, ⟨4, 1, .w1c, 0, []⟩, ⟨3, 1, .w1c, 0, []⟩, ⟨2, 1, .w1c, 0, []⟩, ⟨1, 1, .w1c, 0, []⟩, ⟨0, 1, .w1c, 0, []⟩]⟩,
   ⟨0x80004, [], false, [⟨0, 12, .rw, 0, []⟩]⟩,
   ⟨0x80008, [], false, [⟨24, 8, .ro, 0, []⟩, ⟨16, 8, .ro, 0, []⟩, ⟨9, 3, .ro, 0, []⟩, ⟨8, 1, .ro, 0, []⟩, ⟨4, 2, .ro, 1, []⟩, ⟨0, 3, .ro, 0, []⟩]⟩,
   ⟨0x8000c, [], false, [⟨8, 4, .ro, 0, []⟩, ⟨4, 4, .ro, 0, []⟩, ⟨2, 2, .ro, 0, []⟩, ⟨0, 2, .ro, 3, []⟩]⟩,
   ⟨0x80010, [], false, [⟨0, 21, .ro, 0, []⟩]⟩,
   ⟨0x80014, [], false, [⟨0, 21, .ro, 0, []⟩]⟩,
   ⟨0x80018, [], false, [⟨16, 16, .rw, 1024, [(1, 65535)]⟩, ⟨0, 16, .rw, 16384, [(1, 65535)]⟩]⟩,
   ⟨0x8001c, [], false, [⟨0, 8, .rw, 64, [(1, 255)]⟩]⟩,
   ⟨0x80020, [], false, [⟨0, 4, .rw, 0, []⟩]⟩,
   ⟨0x80024, [], false, [⟨24, 2, .ro, 0, []⟩, ⟨16, 8, .ro, 0, []⟩, ⟨12, 1, .ro, 0, []⟩, ⟨8, 4, .ro, 0, []⟩, ⟨0, 4, .ro, 0, []⟩]⟩,
   ⟨0x80028, [], false, [⟨0, 32, .ro, 0, []⟩]⟩,
   ⟨0x8002c, [], false, [⟨0, 16, .ro, 0, []⟩]⟩]
/-- Registers of SEC, part 1 (R337). -/
def secRegs1 : List RDef :=
  [⟨0x80100, [(0x4, 4)], true, [⟨0, 32, .rw, 0, []⟩]⟩,
   ⟨0x80110, [], true, [⟨0, 32, .wo, 0, []⟩]⟩,
   ⟨0x80114, [], true, [⟨31, 1, .ro, 0, []⟩, ⟨16, 8, .ro, 0, []⟩, ⟨0, 16, .ro, 0, []⟩]⟩]
/-- Every register of SEC (R337). -/
def secRegs : List RDef :=
  secRegs0 ++ secRegs1

end Sys2Proof.Machine
end

