-- ==== Sys2Proof/Machine/RegMapLine.lean ====
section
/-! DEFINITION. The register map of CNV, CAL, RXD, TXD, LFR, SGP: one `Fld` per named field, with the address, place, width
and reset value of the spec's register tables, and per block the list of registers that an access is judged by.
A port register (LP0/LP1) takes its port `p` first (R30); a banked register takes its bank `bk` last (R42, R305, R334). -/
namespace Sys2Proof.Machine
namespace R

-- CNV_STATUS, offset 0x0000 (R79, 03_converters.md)
def CNV_STATUS_DAC_MUTE (p : Nat) : Fld := ⟨0x1000000 + 0x1000000 * p, 11, 1, 0⟩
def CNV_STATUS_LO_UNLOCK (p : Nat) : Fld := ⟨0x1000000 + 0x1000000 * p, 10, 1, 0⟩
def CNV_STATUS_SYN_UNLOCK (p : Nat) : Fld := ⟨0x1000000 + 0x1000000 * p, 9, 1, 0⟩
def CNV_STATUS_SIDEBAND_FAIL (p : Nat) : Fld := ⟨0x1000000 + 0x1000000 * p, 8, 1, 0⟩
def CNV_STATUS_AGC_REFAST (p : Nat) : Fld := ⟨0x1000000 + 0x1000000 * p, 7, 1, 0⟩
def CNV_STATUS_AGC_FROZEN (p : Nat) : Fld := ⟨0x1000000 + 0x1000000 * p, 6, 1, 0⟩
def CNV_STATUS_DC_LIMIT (p : Nat) : Fld := ⟨0x1000000 + 0x1000000 * p, 5, 1, 0⟩
def CNV_STATUS_CLIP (p b : Nat) : Fld := ⟨0x1000000 + 0x1000000 * p, 1 * b, 1, 0⟩
-- CNV_INT_EN, offset 0x0004 (R79, 03_converters.md)
def CNV_INT_EN_EN (p : Nat) : Fld := ⟨0x1000004 + 0x1000000 * p, 0, 12, 0⟩
-- CNV_SYN, offset 0x0008 (R79, 03_converters.md)
def CNV_SYN_LO_LOCK (p : Nat) : Fld := ⟨0x1000008 + 0x1000000 * p, 1, 1, 0⟩
def CNV_SYN_SYN_LOCK (p : Nat) : Fld := ⟨0x1000008 + 0x1000000 * p, 0, 1, 0⟩
-- CNV_AGC_CTRL, offset 0x0010 (R79, 03_converters.md)
def CNV_AGC_CTRL_REFAST_SW (p : Nat) : Fld := ⟨0x1000010 + 0x1000000 * p, 16, 8, 16⟩
def CNV_AGC_CTRL_FRZ_SEDGE (p : Nat) : Fld := ⟨0x1000010 + 0x1000000 * p, 12, 1, 1⟩
def CNV_AGC_CTRL_TRACK_BW (p : Nat) : Fld := ⟨0x1000010 + 0x1000000 * p, 8, 2, 1⟩
def CNV_AGC_CTRL_TRACK_EN (p : Nat) : Fld := ⟨0x1000010 + 0x1000000 * p, 4, 1, 1⟩
def CNV_AGC_CTRL_MODE (p : Nat) : Fld := ⟨0x1000010 + 0x1000000 * p, 0, 1, 1⟩
-- CNV_AGC_TARGET, offset 0x0014 (R79, 03_converters.md)
def CNV_AGC_TARGET_DEADBAND (p : Nat) : Fld := ⟨0x1000014 + 0x1000000 * p, 16, 4, 3⟩
def CNV_AGC_TARGET_TARGET (p : Nat) : Fld := ⟨0x1000014 + 0x1000000 * p, 0, 9, 64⟩
-- CNV_AGC_STATE, offset 0x0018 (R79, 03_converters.md)
def CNV_AGC_STATE_CAUSE_FRAME (p : Nat) : Fld := ⟨0x1000018 + 0x1000000 * p, 9, 1, 0⟩
def CNV_AGC_STATE_CAUSE_SEDGE (p : Nat) : Fld := ⟨0x1000018 + 0x1000000 * p, 8, 1, 0⟩
def CNV_AGC_STATE_STATE (p : Nat) : Fld := ⟨0x1000018 + 0x1000000 * p, 0, 3, 0⟩
-- CNV_VGA_l, offset 0x0020 (R79, 03_converters.md)
def CNV_VGA_GAIN (p l : Nat) : Fld := ⟨0x1000020 + 0x1000000 * p + 0x4 * l, 16, 8, 0⟩
def CNV_VGA_MANUAL (p l : Nat) : Fld := ⟨0x1000020 + 0x1000000 * p + 0x4 * l, 0, 8, 0⟩
-- CNV_PWR_l, offset 0x0030 (R79, 03_converters.md)
def CNV_PWR_CLIPS (p l : Nat) : Fld := ⟨0x1000030 + 0x1000000 * p + 0x4 * l, 16, 16, 0⟩
def CNV_PWR_RMS (p l : Nat) : Fld := ⟨0x1000030 + 0x1000000 * p + 0x4 * l, 0, 9, 0⟩
-- CNV_CLIP_THR, offset 0x0040 (R79, 03_converters.md)
def CNV_CLIP_THR_THR (p : Nat) : Fld := ⟨0x1000040 + 0x1000000 * p, 0, 16, 64⟩
-- CNV_DC_CTRL, offset 0x0050 (R79, 03_converters.md)
def CNV_DC_CTRL_TC (p : Nat) : Fld := ⟨0x1000050 + 0x1000000 * p, 4, 3, 4⟩
def CNV_DC_CTRL_MODE (p : Nat) : Fld := ⟨0x1000050 + 0x1000000 * p, 0, 2, 3⟩
-- CNV_DC_EST_l_b, offset 0x0060 (R79, 03_converters.md)
def CNV_DC_EST_LIMIT (p l b : Nat) : Fld := ⟨0x1000060 + 0x1000000 * p + 0x8 * l + 0x4 * b, 16, 1, 0⟩
def CNV_DC_EST_EST (p l b : Nat) : Fld := ⟨0x1000060 + 0x1000000 * p + 0x8 * l + 0x4 * b, 0, 11, 0⟩
-- CNV_DAC_CTRL, offset 0x0080 (R79, 03_converters.md)
def CNV_DAC_CTRL_HW_THERM (p : Nat) : Fld := ⟨0x1000080 + 0x1000000 * p, 11, 1, 0⟩
def CNV_DAC_CTRL_HW_SYN (p : Nat) : Fld := ⟨0x1000080 + 0x1000000 * p, 10, 1, 0⟩
def CNV_DAC_CTRL_HW_MUTE (p : Nat) : Fld := ⟨0x1000080 + 0x1000000 * p, 8, 1, 0⟩
def CNV_DAC_CTRL_MUTE (p : Nat) : Fld := ⟨0x1000080 + 0x1000000 * p, 0, 4, 15⟩
-- CNV_DAC_SWING_l, offset 0x0090 (R79, 03_converters.md)
def CNV_DAC_SWING_SWING (p l : Nat) : Fld := ⟨0x1000090 + 0x1000000 * p + 0x4 * l, 0, 5, 8⟩
-- CNV_BAND_STAT_c_l_b, offset 0x00C0 (R79, 03_converters.md)
def CNV_BAND_STAT_IDLE_SLICE (p c l b : Nat) : Fld := ⟨0x10000c0 + 0x1000000 * p + 0x20 * c + 0x8 * l + 0x4 * b, 16, 7, 64⟩
def CNV_BAND_STAT_POS (p c l b : Nat) : Fld := ⟨0x10000c0 + 0x1000000 * p + 0x20 * c + 0x8 * l + 0x4 * b, 8, 6, 0⟩
def CNV_BAND_STAT_SPARE (p c l b : Nat) : Fld := ⟨0x10000c0 + 0x1000000 * p + 0x20 * c + 0x8 * l + 0x4 * b, 1, 2, 0⟩
def CNV_BAND_STAT_POWERED (p c l b : Nat) : Fld := ⟨0x10000c0 + 0x1000000 * p + 0x20 * c + 0x8 * l + 0x4 * b, 0, 1, 0⟩

-- CAL_STATUS, offset 0x0000 (R104, 04_calibration.md)
def CAL_STATUS_JNL_DONE (p : Nat) : Fld := ⟨0x1100000 + 0x1000000 * p, 6, 1, 0⟩
def CAL_STATUS_JNL_FAIL (p : Nat) : Fld := ⟨0x1100000 + 0x1000000 * p, 5, 1, 0⟩
def CAL_STATUS_RESTORE_REDO (p : Nat) : Fld := ⟨0x1100000 + 0x1000000 * p, 4, 1, 0⟩
def CAL_STATUS_FG_FAIL (p : Nat) : Fld := ⟨0x1100000 + 0x1000000 * p, 3, 1, 0⟩
def CAL_STATUS_SWEEP_ABORT (p : Nat) : Fld := ⟨0x1100000 + 0x1000000 * p, 2, 1, 0⟩
def CAL_STATUS_NO_SPARE (p : Nat) : Fld := ⟨0x1100000 + 0x1000000 * p, 1, 1, 0⟩
def CAL_STATUS_SLICE_FAIL (p : Nat) : Fld := ⟨0x1100000 + 0x1000000 * p, 0, 1, 0⟩
-- CAL_INT_EN, offset 0x0004 (R104, 04_calibration.md)
def CAL_INT_EN_EN (p : Nat) : Fld := ⟨0x1100004 + 0x1000000 * p, 0, 7, 0⟩
-- CAL_STATE, offset 0x0008 (R104, 04_calibration.md)
def CAL_STATE_STEP (p : Nat) : Fld := ⟨0x1100008 + 0x1000000 * p, 16, 7, 0⟩
def CAL_STATE_SWEEP_BAND (p : Nat) : Fld := ⟨0x1100008 + 0x1000000 * p, 8, 4, 0⟩
def CAL_STATE_SWEEPING (p : Nat) : Fld := ⟨0x1100008 + 0x1000000 * p, 4, 1, 0⟩
def CAL_STATE_STATE (p : Nat) : Fld := ⟨0x1100008 + 0x1000000 * p, 0, 3, 0⟩
-- CAL_QUEUE, offset 0x000C (R104, 04_calibration.md)
def CAL_QUEUE_QUEUED (p : Nat) : Fld := ⟨0x110000c + 0x1000000 * p, 0, 16, 0⟩
-- CAL_CMD, offset 0x0010 (R104, 04_calibration.md)
def CAL_CMD_CMD (p : Nat) : Fld := ⟨0x1100010 + 0x1000000 * p, 0, 2, 0⟩
-- CAL_CMD_STAT, offset 0x0014 (R104, 04_calibration.md)
def CAL_CMD_STAT_ACCEPT (p : Nat) : Fld := ⟨0x1100014 + 0x1000000 * p, 16, 8, 0⟩
def CAL_CMD_STAT_BUSY (p : Nat) : Fld := ⟨0x1100014 + 0x1000000 * p, 8, 1, 0⟩
def CAL_CMD_STAT_STATUS (p : Nat) : Fld := ⟨0x1100014 + 0x1000000 * p, 0, 8, 0⟩
-- CAL_APPLY, offset 0x0018 (R104, 04_calibration.md)
def CAL_APPLY_DAC (p : Nat) : Fld := ⟨0x1100018 + 0x1000000 * p, 1, 1, 0⟩
def CAL_APPLY_ADC (p : Nat) : Fld := ⟨0x1100018 + 0x1000000 * p, 0, 1, 0⟩
-- CAL_TRIG, offset 0x0020 (R104, 04_calibration.md)
def CAL_TRIG_PERIOD (p : Nat) : Fld := ⟨0x1100020 + 0x1000000 * p, 16, 16, 0⟩
def CAL_TRIG_HOLD (p : Nat) : Fld := ⟨0x1100020 + 0x1000000 * p, 12, 1, 0⟩
def CAL_TRIG_TEMP_EN (p : Nat) : Fld := ⟨0x1100020 + 0x1000000 * p, 8, 1, 1⟩
def CAL_TRIG_DELTA (p : Nat) : Fld := ⟨0x1100020 + 0x1000000 * p, 0, 8, 30⟩
-- CAL_BAND_i, offset 0x0040 (R104, 04_calibration.md)
def CAL_BAND_FAILS (p i : Nat) : Fld := ⟨0x1100040 + 0x1000000 * p + 0x4 * i, 24, 7, 0⟩
def CAL_BAND_SENSOR_FALLBACK (p i : Nat) : Fld := ⟨0x1100040 + 0x1000000 * p + 0x4 * i, 18, 1, 0⟩
def CAL_BAND_NO_SPARE (p i : Nat) : Fld := ⟨0x1100040 + 0x1000000 * p + 0x4 * i, 17, 1, 0⟩
def CAL_BAND_CALIBRATED (p i : Nat) : Fld := ⟨0x1100040 + 0x1000000 * p + 0x4 * i, 16, 1, 0⟩
def CAL_BAND_T_LAST (p i : Nat) : Fld := ⟨0x1100040 + 0x1000000 * p + 0x4 * i, 0, 12, 0⟩
-- CAL_JNL_CMD, offset 0x0080 (R104, 04_calibration.md)
def CAL_JNL_CMD_CMD (p : Nat) : Fld := ⟨0x1100080 + 0x1000000 * p, 0, 2, 0⟩
-- CAL_JNL_STAT, offset 0x0084 (R104, 04_calibration.md)
def CAL_JNL_STAT_SLOT (p : Nat) : Fld := ⟨0x1100084 + 0x1000000 * p, 12, 1, 0⟩
def CAL_JNL_STAT_FOUND (p : Nat) : Fld := ⟨0x1100084 + 0x1000000 * p, 9, 1, 0⟩
def CAL_JNL_STAT_BUSY (p : Nat) : Fld := ⟨0x1100084 + 0x1000000 * p, 8, 1, 0⟩
def CAL_JNL_STAT_STATUS (p : Nat) : Fld := ⟨0x1100084 + 0x1000000 * p, 0, 8, 0⟩
-- CAL_JNL_SEQ_LO, offset 0x0088 (R104, 04_calibration.md)
def CAL_JNL_SEQ_LO_SEQ_L (p : Nat) : Fld := ⟨0x1100088 + 0x1000000 * p, 0, 32, 0⟩
-- CAL_JNL_SEQ_HI, offset 0x008C (R104, 04_calibration.md)
def CAL_JNL_SEQ_HI_SEQ_H (p : Nat) : Fld := ⟨0x110008c + 0x1000000 * p, 0, 32, 0⟩

-- RXD_STATUS, offset 0x0000 (R135, 05_receive_dsp.md)
def RXD_STATUS_LOS (p : Nat) : Fld := ⟨0x1200000 + 0x1000000 * p, 9, 1, 0⟩
def RXD_STATUS_EST_READY (p : Nat) : Fld := ⟨0x1200000 + 0x1000000 * p, 8, 1, 0⟩
def RXD_STATUS_TAPS_REDUCED (p : Nat) : Fld := ⟨0x1200000 + 0x1000000 * p, 7, 1, 0⟩
def RXD_STATUS_CD_SCAN_FAIL (p : Nat) : Fld := ⟨0x1200000 + 0x1000000 * p, 6, 1, 0⟩
def RXD_STATUS_EQ_SINGULAR (p : Nat) : Fld := ⟨0x1200000 + 0x1000000 * p, 5, 1, 0⟩
def RXD_STATUS_CYCLE_SLIP (p : Nat) : Fld := ⟨0x1200000 + 0x1000000 * p, 4, 1, 0⟩
def RXD_STATUS_FO_RANGE (p : Nat) : Fld := ⟨0x1200000 + 0x1000000 * p, 3, 1, 0⟩
def RXD_STATUS_LOCK_LOST (p : Nat) : Fld := ⟨0x1200000 + 0x1000000 * p, 2, 1, 0⟩
def RXD_STATUS_LOCKED (p : Nat) : Fld := ⟨0x1200000 + 0x1000000 * p, 1, 1, 0⟩
def RXD_STATUS_ACQ_FAIL (p : Nat) : Fld := ⟨0x1200000 + 0x1000000 * p, 0, 1, 0⟩
-- RXD_INT_EN, offset 0x0004 (R135, 05_receive_dsp.md)
def RXD_INT_EN_EN (p : Nat) : Fld := ⟨0x1200004 + 0x1000000 * p, 0, 10, 0⟩
-- RXD_CTRL, offset 0x0008 (R135, 05_receive_dsp.md)
def RXD_CTRL_ACQ_RUNG (p : Nat) : Fld := ⟨0x1200008 + 0x1000000 * p, 8, 6, 0⟩
def RXD_CTRL_CD_KNOWN (p : Nat) : Fld := ⟨0x1200008 + 0x1000000 * p, 2, 1, 0⟩
def RXD_CTRL_BEACON_REQ (p : Nat) : Fld := ⟨0x1200008 + 0x1000000 * p, 1, 1, 1⟩
def RXD_CTRL_EN (p : Nat) : Fld := ⟨0x1200008 + 0x1000000 * p, 0, 1, 0⟩
-- RXD_ACQ, offset 0x000C (R135, 05_receive_dsp.md)
def RXD_ACQ_RUNG (p : Nat) : Fld := ⟨0x120000c + 0x1000000 * p, 24, 6, 0⟩
def RXD_ACQ_RUNG_BAD (p : Nat) : Fld := ⟨0x120000c + 0x1000000 * p, 23, 1, 0⟩
def RXD_ACQ_SEDGE_SEEN (p : Nat) : Fld := ⟨0x120000c + 0x1000000 * p, 22, 1, 0⟩
def RXD_ACQ_CD_CLIPPED (p : Nat) : Fld := ⟨0x120000c + 0x1000000 * p, 21, 1, 0⟩
def RXD_ACQ_WARM (p : Nat) : Fld := ⟨0x120000c + 0x1000000 * p, 20, 1, 0⟩
def RXD_ACQ_LAST_FAIL (p : Nat) : Fld := ⟨0x120000c + 0x1000000 * p, 16, 3, 0⟩
def RXD_ACQ_ATTEMPTS (p : Nat) : Fld := ⟨0x120000c + 0x1000000 * p, 8, 8, 0⟩
def RXD_ACQ_STATE (p : Nat) : Fld := ⟨0x120000c + 0x1000000 * p, 0, 3, 0⟩
-- RXD_ACQ_TO0, offset 0x0010 (R135, 05_receive_dsp.md)
def RXD_ACQ_TO0_FREQ_TO (p : Nat) : Fld := ⟨0x1200010 + 0x1000000 * p, 16, 16, 48⟩
def RXD_ACQ_TO0_EQ_TO (p : Nat) : Fld := ⟨0x1200010 + 0x1000000 * p, 0, 16, 256⟩
-- RXD_ACQ_TO1, offset 0x0014 (R135, 05_receive_dsp.md)
def RXD_ACQ_TO1_FEC_TO (p : Nat) : Fld := ⟨0x1200014 + 0x1000000 * p, 16, 16, 64⟩
def RXD_ACQ_TO1_FRAME_TO (p : Nat) : Fld := ⟨0x1200014 + 0x1000000 * p, 0, 16, 64⟩
-- RXD_LOS, offset 0x0018 (R135, 05_receive_dsp.md)
def RXD_LOS_FRAMES (p : Nat) : Fld := ⟨0x1200018 + 0x1000000 * p, 16, 8, 64⟩
def RXD_LOS_THR (p : Nat) : Fld := ⟨0x1200018 + 0x1000000 * p, 0, 9, 16⟩
-- RXD_FEC_LOCK, offset 0x001C (R135, 05_receive_dsp.md)
def RXD_FEC_LOCK_LOSS (p : Nat) : Fld := ⟨0x120001c + 0x1000000 * p, 16, 4, 4⟩
def RXD_FEC_LOCK_UNC_MAX (p : Nat) : Fld := ⟨0x120001c + 0x1000000 * p, 0, 16, 64⟩
-- RXD_CD_MIN, offset 0x0020 (R135, 05_receive_dsp.md)
def RXD_CD_MIN_CD (p : Nat) : Fld := ⟨0x1200020 + 0x1000000 * p, 0, 24, 0⟩
-- RXD_CD_MAX, offset 0x0024 (R135, 05_receive_dsp.md)
def RXD_CD_MAX_CD (p : Nat) : Fld := ⟨0x1200024 + 0x1000000 * p, 0, 24, 60000⟩
-- RXD_CD_HINT, offset 0x0028 (R135, 05_receive_dsp.md)
def RXD_CD_HINT_CD (p : Nat) : Fld := ⟨0x1200028 + 0x1000000 * p, 0, 24, 0⟩
-- RXD_CD_SCAN, offset 0x002C (R135, 05_receive_dsp.md)
def RXD_CD_SCAN_STEP (p : Nat) : Fld := ⟨0x120002c + 0x1000000 * p, 8, 16, 0⟩
def RXD_CD_SCAN_DWELL (p : Nat) : Fld := ⟨0x120002c + 0x1000000 * p, 0, 8, 8⟩
-- RXD_CD_SET, offset 0x0030 (R135, 05_receive_dsp.md)
def RXD_CD_SET_CD (p : Nat) : Fld := ⟨0x1200030 + 0x1000000 * p, 0, 24, 0⟩
-- RXD_CD_APPLIED, offset 0x0034 (R135, 05_receive_dsp.md)
def RXD_CD_APPLIED_CD (p : Nat) : Fld := ⟨0x1200034 + 0x1000000 * p, 0, 24, 0⟩
-- RXD_WL, offset 0x0038 (R135, 05_receive_dsp.md)
def RXD_WL_WL (p : Nat) : Fld := ⟨0x1200038 + 0x1000000 * p, 0, 21, 1550000⟩
-- RXD_FO, offset 0x0040 (R135, 05_receive_dsp.md)
def RXD_FO_VALID (p : Nat) : Fld := ⟨0x1200040 + 0x1000000 * p, 31, 1, 0⟩
def RXD_FO_FO (p : Nat) : Fld := ⟨0x1200040 + 0x1000000 * p, 0, 16, 0⟩
-- RXD_FTUNE, offset 0x0044 (R135, 05_receive_dsp.md)
def RXD_FTUNE_ALARM (p : Nat) : Fld := ⟨0x1200044 + 0x1000000 * p, 24, 8, 25⟩
def RXD_FTUNE_LIMIT (p : Nat) : Fld := ⟨0x1200044 + 0x1000000 * p, 16, 8, 50⟩
def RXD_FTUNE_GAIN (p : Nat) : Fld := ⟨0x1200044 + 0x1000000 * p, 8, 8, 160⟩
def RXD_FTUNE_EN (p : Nat) : Fld := ⟨0x1200044 + 0x1000000 * p, 0, 1, 1⟩
-- RXD_EQ_CTRL, offset 0x0050 (R135, 05_receive_dsp.md)
def RXD_EQ_CTRL_FREEZE (p : Nat) : Fld := ⟨0x1200050 + 0x1000000 * p, 31, 1, 0⟩
def RXD_EQ_CTRL_TAPS (p : Nat) : Fld := ⟨0x1200050 + 0x1000000 * p, 16, 9, 0⟩
def RXD_EQ_CTRL_MU_TRK (p : Nat) : Fld := ⟨0x1200050 + 0x1000000 * p, 4, 4, 8⟩
def RXD_EQ_CTRL_MU_ACQ (p : Nat) : Fld := ⟨0x1200050 + 0x1000000 * p, 0, 4, 4⟩
-- RXD_EQ_STAT, offset 0x0054 (R135, 05_receive_dsp.md)
def RXD_EQ_STAT_FALLOW_RED (p : Nat) : Fld := ⟨0x1200054 + 0x1000000 * p, 17, 1, 0⟩
def RXD_EQ_STAT_THROTTLED (p : Nat) : Fld := ⟨0x1200054 + 0x1000000 * p, 16, 1, 0⟩
def RXD_EQ_STAT_TAPS_IN_USE (p : Nat) : Fld := ⟨0x1200054 + 0x1000000 * p, 0, 9, 0⟩
-- RXD_CR_CTRL, offset 0x0058 (R135, 05_receive_dsp.md)
def RXD_CR_CTRL_COMMON (p : Nat) : Fld := ⟨0x1200058 + 0x1000000 * p, 31, 1, 1⟩
def RXD_CR_CTRL_PILOT_WIN (p : Nat) : Fld := ⟨0x1200058 + 0x1000000 * p, 16, 8, 8⟩
def RXD_CR_CTRL_BLOCK (p : Nat) : Fld := ⟨0x1200058 + 0x1000000 * p, 8, 8, 32⟩
def RXD_CR_CTRL_BPS_PHASES (p : Nat) : Fld := ⟨0x1200058 + 0x1000000 * p, 0, 2, 1⟩
-- RXD_NLC_CTRL, offset 0x0060 (R135, 05_receive_dsp.md)
def RXD_NLC_CTRL_TABLE (p : Nat) : Fld := ⟨0x1200060 + 0x1000000 * p, 16, 16, 65535⟩
def RXD_NLC_CTRL_LAUNCH (p : Nat) : Fld := ⟨0x1200060 + 0x1000000 * p, 8, 8, 0⟩
def RXD_NLC_CTRL_SPANS (p : Nat) : Fld := ⟨0x1200060 + 0x1000000 * p, 2, 6, 0⟩
def RXD_NLC_CTRL_INTER (p : Nat) : Fld := ⟨0x1200060 + 0x1000000 * p, 1, 1, 0⟩
def RXD_NLC_CTRL_EN (p : Nat) : Fld := ⟨0x1200060 + 0x1000000 * p, 0, 1, 0⟩
-- RXD_NLC_STAT, offset 0x0064 (R135, 05_receive_dsp.md)
def RXD_NLC_STAT_SEL_LAUNCH (p : Nat) : Fld := ⟨0x1200064 + 0x1000000 * p, 16, 8, 0⟩
def RXD_NLC_STAT_SEL_SPANS (p : Nat) : Fld := ⟨0x1200064 + 0x1000000 * p, 4, 6, 0⟩
def RXD_NLC_STAT_NO_SET (p : Nat) : Fld := ⟨0x1200064 + 0x1000000 * p, 2, 1, 0⟩
def RXD_NLC_STAT_THROTTLE_OFF (p : Nat) : Fld := ⟨0x1200064 + 0x1000000 * p, 1, 1, 0⟩
def RXD_NLC_STAT_ACTIVE (p : Nat) : Fld := ⟨0x1200064 + 0x1000000 * p, 0, 1, 0⟩
-- RXD_LLR_CTRL, offset 0x0068 (R135, 05_receive_dsp.md)
def RXD_LLR_CTRL_SCALE (p : Nat) : Fld := ⟨0x1200068 + 0x1000000 * p, 4, 8, 16⟩
def RXD_LLR_CTRL_AUTO (p : Nat) : Fld := ⟨0x1200068 + 0x1000000 * p, 0, 1, 1⟩
-- RXD_IQC_CTRL, offset 0x006C (R135, 05_receive_dsp.md)
def RXD_IQC_CTRL_FE_TABLE (p : Nat) : Fld := ⟨0x120006c + 0x1000000 * p, 16, 16, 65535⟩
def RXD_IQC_CTRL_ADAPT (p : Nat) : Fld := ⟨0x120006c + 0x1000000 * p, 0, 1, 1⟩
-- RXD_IQC_q, offset 0x0070 (R135, 05_receive_dsp.md)
def RXD_IQC_PHASE (p q : Nat) : Fld := ⟨0x1200070 + 0x1000000 * p + 0x4 * q, 22, 10, 0⟩
def RXD_IQC_GAIN (p q : Nat) : Fld := ⟨0x1200070 + 0x1000000 * p + 0x4 * q, 12, 10, 0⟩
def RXD_IQC_SKEW (p q : Nat) : Fld := ⟨0x1200070 + 0x1000000 * p + 0x4 * q, 0, 12, 0⟩
-- RXD_EST_CTRL, offset 0x0080 (R135, 05_receive_dsp.md)
def RXD_EST_CTRL_BTB_SNR (p : Nat) : Fld := ⟨0x1200080 + 0x1000000 * p, 16, 16, 2000⟩
def RXD_EST_CTRL_WIN (p : Nat) : Fld := ⟨0x1200080 + 0x1000000 * p, 0, 4, 6⟩
-- RXD_EST_SEQ, offset 0x0084 (R135, 05_receive_dsp.md)
def RXD_EST_SEQ_VALUE (p : Nat) : Fld := ⟨0x1200084 + 0x1000000 * p, 0, 32, 0⟩
-- RXD_EST_SWATH, offset 0x008C (R135, 05_receive_dsp.md)
def RXD_EST_SWATH_VALUE (p : Nat) : Fld := ⟨0x120008c + 0x1000000 * p, 0, 32, 0⟩
-- RXD_EST_VALID, offset 0x0088 (R135, 05_receive_dsp.md)
def RXD_EST_VALID_SW_VALID (p : Nat) : Fld := ⟨0x1200088 + 0x1000000 * p, 10, 1, 0⟩
def RXD_EST_VALID_OSNR_NL0 (p : Nat) : Fld := ⟨0x1200088 + 0x1000000 * p, 9, 1, 0⟩
def RXD_EST_VALID_VALID (p : Nat) : Fld := ⟨0x1200088 + 0x1000000 * p, 0, 9, 0⟩
-- RXD_CD_EST, offset 0x0090 (R135, 05_receive_dsp.md)
def RXD_CD_EST_CD (p : Nat) : Fld := ⟨0x1200090 + 0x1000000 * p, 0, 24, 0⟩
-- RXD_DGD_PDL, offset 0x0094 (R135, 05_receive_dsp.md)
def RXD_DGD_PDL_PDL (p : Nat) : Fld := ⟨0x1200094 + 0x1000000 * p, 16, 16, 0⟩
def RXD_DGD_PDL_DGD (p : Nat) : Fld := ⟨0x1200094 + 0x1000000 * p, 0, 16, 0⟩
-- RXD_SOP, offset 0x0098 (R135, 05_receive_dsp.md)
def RXD_SOP_RATE (p : Nat) : Fld := ⟨0x1200098 + 0x1000000 * p, 0, 24, 0⟩
-- RXD_OSNR, offset 0x009C (R135, 05_receive_dsp.md)
def RXD_OSNR_NL_SHARE (p : Nat) : Fld := ⟨0x120009c + 0x1000000 * p, 16, 8, 0⟩
def RXD_OSNR_OSNR (p : Nat) : Fld := ⟨0x120009c + 0x1000000 * p, 0, 16, 0⟩
-- RXD_BER_ERR_LO, offset 0x00A0 (R135, 05_receive_dsp.md)
def RXD_BER_ERR_LO_COUNT_L (p : Nat) : Fld := ⟨0x12000a0 + 0x1000000 * p, 0, 32, 0⟩
-- RXD_BER_ERR_HI, offset 0x00A4 (R135, 05_receive_dsp.md)
def RXD_BER_ERR_HI_COUNT_H (p : Nat) : Fld := ⟨0x12000a4 + 0x1000000 * p, 0, 16, 0⟩
-- RXD_BER_BITS_LO, offset 0x00A8 (R135, 05_receive_dsp.md)
def RXD_BER_BITS_LO_COUNT_L (p : Nat) : Fld := ⟨0x12000a8 + 0x1000000 * p, 0, 32, 0⟩
-- RXD_BER_BITS_HI, offset 0x00AC (R135, 05_receive_dsp.md)
def RXD_BER_BITS_HI_COUNT_H (p : Nat) : Fld := ⟨0x12000ac + 0x1000000 * p, 0, 16, 0⟩
-- RXD_LAT, offset 0x00B0 (R135, 05_receive_dsp.md)
def RXD_LAT_LATENCY (p : Nat) : Fld := ⟨0x12000b0 + 0x1000000 * p, 0, 20, 0⟩
-- RXD_SC_j, offset 0x0100 (R135, 05_receive_dsp.md)
def RXD_SC_GMI (p j : Nat) : Fld := ⟨0x1200100 + 0x1000000 * p + 0x4 * j, 16, 16, 0⟩
def RXD_SC_SNR (p j : Nat) : Fld := ⟨0x1200100 + 0x1000000 * p + 0x4 * j, 0, 16, 0⟩

-- TXD_STATUS, offset 0x0000 (R167, 06_transmit_shaping_adaptation.md)
def TXD_STATUS_PROP_FAIL (p : Nat) : Fld := ⟨0x1400000 + 0x1000000 * p, 7, 1, 0⟩
def TXD_STATUS_PROP_DONE (p : Nat) : Fld := ⟨0x1400000 + 0x1000000 * p, 6, 1, 0⟩
def TXD_STATUS_RPT_MISS (p : Nat) : Fld := ⟨0x1400000 + 0x1000000 * p, 5, 1, 0⟩
def TXD_STATUS_RPT_RX (p : Nat) : Fld := ⟨0x1400000 + 0x1000000 * p, 4, 1, 0⟩
def TXD_STATUS_ADJ_MISMATCH (p : Nat) : Fld := ⟨0x1400000 + 0x1000000 * p, 3, 1, 0⟩
def TXD_STATUS_ADJ_VOID (p : Nat) : Fld := ⟨0x1400000 + 0x1000000 * p, 2, 1, 0⟩
def TXD_STATUS_PRECD_CLIP (p : Nat) : Fld := ⟨0x1400000 + 0x1000000 * p, 1, 1, 0⟩
def TXD_STATUS_CLIP (p : Nat) : Fld := ⟨0x1400000 + 0x1000000 * p, 0, 1, 0⟩
-- TXD_INT_EN, offset 0x0004 (R167, 06_transmit_shaping_adaptation.md)
def TXD_INT_EN_EN (p : Nat) : Fld := ⟨0x1400004 + 0x1000000 * p, 0, 8, 0⟩
-- TXD_CTRL, offset 0x0008 (R167, 06_transmit_shaping_adaptation.md)
def TXD_CTRL_RUNG_INIT (p : Nat) : Fld := ⟨0x1400008 + 0x1000000 * p, 8, 6, 0⟩
def TXD_CTRL_MODE (p : Nat) : Fld := ⟨0x1400008 + 0x1000000 * p, 0, 2, 0⟩
-- TXD_STATE, offset 0x000C (R167, 06_transmit_shaping_adaptation.md)
def TXD_STATE_ADJ_VOID (p : Nat) : Fld := ⟨0x140000c + 0x1000000 * p, 25, 1, 0⟩
def TXD_STATE_ADJ_BANK (p : Nat) : Fld := ⟨0x140000c + 0x1000000 * p, 24, 1, 0⟩
def TXD_STATE_ADJ_ID (p : Nat) : Fld := ⟨0x140000c + 0x1000000 * p, 16, 8, 0⟩
def TXD_STATE_RUNG (p : Nat) : Fld := ⟨0x140000c + 0x1000000 * p, 8, 6, 0⟩
def TXD_STATE_RUNG_BAD (p : Nat) : Fld := ⟨0x140000c + 0x1000000 * p, 2, 1, 0⟩
def TXD_STATE_STATE (p : Nat) : Fld := ⟨0x140000c + 0x1000000 * p, 0, 2, 0⟩
-- TXD_PRECD, offset 0x0010 (R167, 06_transmit_shaping_adaptation.md)
def TXD_PRECD_SHARE (p : Nat) : Fld := ⟨0x1400010 + 0x1000000 * p, 0, 24, 0⟩
-- TXD_PRECD_APPLIED, offset 0x0014 (R167, 06_transmit_shaping_adaptation.md)
def TXD_PRECD_APPLIED_SHARE (p : Nat) : Fld := ⟨0x1400014 + 0x1000000 * p, 0, 24, 0⟩
-- TXD_WL, offset 0x0018 (R167, 06_transmit_shaping_adaptation.md)
def TXD_WL_WL (p : Nat) : Fld := ⟨0x1400018 + 0x1000000 * p, 0, 21, 1550000⟩
-- TXD_PILOT, offset 0x001C (R167, 06_transmit_shaping_adaptation.md)
def TXD_PILOT_PBOOST (p : Nat) : Fld := ⟨0x140001c + 0x1000000 * p, 0, 3, 0⟩
-- TXD_PD_CTRL, offset 0x0020 (R167, 06_transmit_shaping_adaptation.md)
def TXD_PD_CTRL_LIN_TABLE (p : Nat) : Fld := ⟨0x1400020 + 0x1000000 * p, 16, 16, 65535⟩
def TXD_PD_CTRL_NL_TABLE (p : Nat) : Fld := ⟨0x1400020 + 0x1000000 * p, 0, 16, 65535⟩
-- TXD_LANE_l, offset 0x0030 (R167, 06_transmit_shaping_adaptation.md)
def TXD_LANE_GAIN (p l : Nat) : Fld := ⟨0x1400030 + 0x1000000 * p + 0x4 * l, 16, 10, 0⟩
def TXD_LANE_SKEW (p l : Nat) : Fld := ⟨0x1400030 + 0x1000000 * p + 0x4 * l, 0, 12, 0⟩
-- TXD_CLIP_l, offset 0x0040 (R167, 06_transmit_shaping_adaptation.md)
def TXD_CLIP_COUNT (p l : Nat) : Fld := ⟨0x1400040 + 0x1000000 * p + 0x4 * l, 0, 32, 0⟩
-- TXD_LAT, offset 0x0050 (R167, 06_transmit_shaping_adaptation.md)
def TXD_LAT_LATENCY (p : Nat) : Fld := ⟨0x1400050 + 0x1000000 * p, 0, 20, 0⟩
-- TXD_ADAPT, offset 0x0060 (R167, 06_transmit_shaping_adaptation.md)
def TXD_ADAPT_RPT_LOG (p : Nat) : Fld := ⟨0x1400060 + 0x1000000 * p, 16, 4, 12⟩
def TXD_ADAPT_RX_AUTH (p : Nat) : Fld := ⟨0x1400060 + 0x1000000 * p, 8, 3, 0⟩
def TXD_ADAPT_TX_AUTH (p : Nat) : Fld := ⟨0x1400060 + 0x1000000 * p, 4, 3, 0⟩
def TXD_ADAPT_RPT_EN (p : Nat) : Fld := ⟨0x1400060 + 0x1000000 * p, 0, 1, 1⟩
-- TXD_ADAPT_LIM, offset 0x0064 (R167, 06_transmit_shaping_adaptation.md)
def TXD_ADAPT_LIM_HYST (p : Nat) : Fld := ⟨0x1400064 + 0x1000000 * p, 24, 8, 13⟩
def TXD_ADAPT_LIM_DP_MAX (p : Nat) : Fld := ⟨0x1400064 + 0x1000000 * p, 16, 5, 30⟩
def TXD_ADAPT_LIM_DH_MAX (p : Nat) : Fld := ⟨0x1400064 + 0x1000000 * p, 8, 7, 32⟩
def TXD_ADAPT_LIM_TILT_EN (p : Nat) : Fld := ⟨0x1400064 + 0x1000000 * p, 4, 1, 1⟩
def TXD_ADAPT_LIM_STEP_H (p : Nat) : Fld := ⟨0x1400064 + 0x1000000 * p, 0, 4, 1⟩
-- TXD_ADAPT_TMR, offset 0x0068 (R167, 06_transmit_shaping_adaptation.md)
def TXD_ADAPT_TMR_RESP_TO (p : Nat) : Fld := ⟨0x1400068 + 0x1000000 * p, 16, 16, 1024⟩
def TXD_ADAPT_TMR_MIN_LEAD (p : Nat) : Fld := ⟨0x1400068 + 0x1000000 * p, 0, 16, 2048⟩
-- TXD_PROP_CMD, offset 0x0070 (R167, 06_transmit_shaping_adaptation.md)
def TXD_PROP_CMD_ID (p : Nat) : Fld := ⟨0x1400070 + 0x1000000 * p, 16, 8, 0⟩
def TXD_PROP_CMD_RUNG (p : Nat) : Fld := ⟨0x1400070 + 0x1000000 * p, 8, 6, 0⟩
def TXD_PROP_CMD_TYPE (p : Nat) : Fld := ⟨0x1400070 + 0x1000000 * p, 5, 1, 0⟩
def TXD_PROP_CMD_DIR (p : Nat) : Fld := ⟨0x1400070 + 0x1000000 * p, 4, 1, 0⟩
def TXD_PROP_CMD_ABORT (p : Nat) : Fld := ⟨0x1400070 + 0x1000000 * p, 1, 1, 0⟩
def TXD_PROP_CMD_GO (p : Nat) : Fld := ⟨0x1400070 + 0x1000000 * p, 0, 1, 0⟩
-- TXD_PROP_SW_LO, offset 0x0074 (R167, 06_transmit_shaping_adaptation.md)
def TXD_PROP_SW_LO_SW_L (p : Nat) : Fld := ⟨0x1400074 + 0x1000000 * p, 0, 32, 0⟩
-- TXD_PROP_SW_HI, offset 0x0078 (R167, 06_transmit_shaping_adaptation.md)
def TXD_PROP_SW_HI_SW_H (p : Nat) : Fld := ⟨0x1400078 + 0x1000000 * p, 0, 16, 0⟩
-- TXD_PROP_STAT_d, offset 0x0080 (R167, 06_transmit_shaping_adaptation.md)
def TXD_PROP_STAT_ROLE (p d : Nat) : Fld := ⟨0x1400080 + 0x1000000 * p + 0x4 * d, 24, 1, 0⟩
def TXD_PROP_STAT_STATUS (p d : Nat) : Fld := ⟨0x1400080 + 0x1000000 * p + 0x4 * d, 16, 8, 0⟩
def TXD_PROP_STAT_ID (p d : Nat) : Fld := ⟨0x1400080 + 0x1000000 * p + 0x4 * d, 8, 8, 0⟩
def TXD_PROP_STAT_STATE (p d : Nat) : Fld := ⟨0x1400080 + 0x1000000 * p + 0x4 * d, 0, 3, 0⟩
-- TXD_FER_SEQ, offset 0x0088 (R167, 06_transmit_shaping_adaptation.md)
def TXD_FER_SEQ_VALUE (p : Nat) : Fld := ⟨0x1400088 + 0x1000000 * p, 0, 32, 0⟩
-- TXD_FER_SWATH, offset 0x008C (R167, 06_transmit_shaping_adaptation.md)
def TXD_FER_SWATH_VALUE (p : Nat) : Fld := ⟨0x140008c + 0x1000000 * p, 0, 32, 0⟩
-- TXD_ADJ_STAT, offset 0x0090 (R167, 06_transmit_shaping_adaptation.md)
def TXD_ADJ_STAT_RCVD_ID (p : Nat) : Fld := ⟨0x1400090 + 0x1000000 * p, 24, 8, 0⟩
def TXD_ADJ_STAT_RX_ADJ_ID (p : Nat) : Fld := ⟨0x1400090 + 0x1000000 * p, 16, 8, 0⟩
def TXD_ADJ_STAT_RX_BANK (p : Nat) : Fld := ⟨0x1400090 + 0x1000000 * p, 8, 1, 0⟩
def TXD_ADJ_STAT_RX_VOID (p : Nat) : Fld := ⟨0x1400090 + 0x1000000 * p, 0, 1, 0⟩
-- TXD_FER_SC_j, offset 0x00C0 (R167, 06_transmit_shaping_adaptation.md)
def TXD_FER_SC_GMI (p j : Nat) : Fld := ⟨0x14000c0 + 0x1000000 * p + 0x4 * j, 16, 16, 0⟩
def TXD_FER_SC_SNR (p j : Nat) : Fld := ⟨0x14000c0 + 0x1000000 * p + 0x4 * j, 0, 16, 0⟩

-- LFR_STATUS, offset 0x0000 (R232, 08_line_frame_otn.md)
def LFR_STATUS_BOND_MAP (p : Nat) : Fld := ⟨0x1600000 + 0x1000000 * p, 15, 1, 0⟩
def LFR_STATUS_BOND_SKEW (p : Nat) : Fld := ⟨0x1600000 + 0x1000000 * p, 14, 1, 0⟩
def LFR_STATUS_OTN_DEFECT (p : Nat) : Fld := ⟨0x1600000 + 0x1000000 * p, 13, 1, 0⟩
def LFR_STATUS_RDI (p : Nat) : Fld := ⟨0x1600000 + 0x1000000 * p, 12, 1, 0⟩
def LFR_STATUS_THC_SLIP (p : Nat) : Fld := ⟨0x1600000 + 0x1000000 * p, 11, 1, 0⟩
def LFR_STATUS_THC_RX (p : Nat) : Fld := ⟨0x1600000 + 0x1000000 * p, 10, 1, 0⟩
def LFR_STATUS_RUNG_MISMATCH (p : Nat) : Fld := ⟨0x1600000 + 0x1000000 * p, 9, 1, 0⟩
def LFR_STATUS_JC_RANGE (p : Nat) : Fld := ⟨0x1600000 + 0x1000000 * p, 8, 1, 0⟩
def LFR_STATUS_JC_LOST (p : Nat) : Fld := ⟨0x1600000 + 0x1000000 * p, 7, 1, 0⟩
def LFR_STATUS_DOH_UNCORR (p : Nat) : Fld := ⟨0x1600000 + 0x1000000 * p, 6, 1, 0⟩
def LFR_STATUS_HDR_ERR (p : Nat) : Fld := ⟨0x1600000 + 0x1000000 * p, 5, 1, 0⟩
def LFR_STATUS_CAND_DROP (p : Nat) : Fld := ⟨0x1600000 + 0x1000000 * p, 4, 1, 0⟩
def LFR_STATUS_SA_LOST (p : Nat) : Fld := ⟨0x1600000 + 0x1000000 * p, 3, 1, 0⟩
def LFR_STATUS_SA (p : Nat) : Fld := ⟨0x1600000 + 0x1000000 * p, 2, 1, 0⟩
def LFR_STATUS_FA_LOST (p : Nat) : Fld := ⟨0x1600000 + 0x1000000 * p, 1, 1, 0⟩
def LFR_STATUS_FA (p : Nat) : Fld := ⟨0x1600000 + 0x1000000 * p, 0, 1, 0⟩
-- LFR_INT_EN, offset 0x0004 (R232, 08_line_frame_otn.md)
def LFR_INT_EN_EN (p : Nat) : Fld := ⟨0x1600004 + 0x1000000 * p, 0, 16, 0⟩
-- LFR_ALIGN_CFG, offset 0x0008 (R232, 08_line_frame_otn.md)
def LFR_ALIGN_CFG_FAS_ERR_MAX (p : Nat) : Fld := ⟨0x1600008 + 0x1000000 * p, 0, 6, 6⟩
-- LFR_ALIGN_STAT, offset 0x000C (R232, 08_line_frame_otn.md)
def LFR_ALIGN_STAT_MFAS (p : Nat) : Fld := ⟨0x160000c + 0x1000000 * p, 16, 8, 0⟩
def LFR_ALIGN_STAT_COPY (p : Nat) : Fld := ⟨0x160000c + 0x1000000 * p, 10, 2, 3⟩
def LFR_ALIGN_STAT_RUNG_MISMATCH (p : Nat) : Fld := ⟨0x160000c + 0x1000000 * p, 9, 1, 0⟩
def LFR_ALIGN_STAT_SQUELCH (p : Nat) : Fld := ⟨0x160000c + 0x1000000 * p, 8, 1, 0⟩
def LFR_ALIGN_STAT_CANDS (p : Nat) : Fld := ⟨0x160000c + 0x1000000 * p, 4, 3, 0⟩
def LFR_ALIGN_STAT_SA (p : Nat) : Fld := ⟨0x160000c + 0x1000000 * p, 1, 1, 0⟩
def LFR_ALIGN_STAT_FA (p : Nat) : Fld := ⟨0x160000c + 0x1000000 * p, 0, 1, 0⟩
-- LFR_CAND_STAT, offset 0x0010 (R232, 08_line_frame_otn.md)
def LFR_CAND_STAT_DROPPED (p : Nat) : Fld := ⟨0x1600010 + 0x1000000 * p, 16, 16, 0⟩
def LFR_CAND_STAT_IGNORED (p : Nat) : Fld := ⟨0x1600010 + 0x1000000 * p, 0, 16, 0⟩
-- LFR_CAND_k, offset 0x0020 (R232, 08_line_frame_otn.md)
def LFR_CAND_VALID (p k : Nat) : Fld := ⟨0x1600020 + 0x1000000 * p + 0x4 * k, 31, 1, 0⟩
def LFR_CAND_HITS (p k : Nat) : Fld := ⟨0x1600020 + 0x1000000 * p + 0x4 * k, 28, 2, 0⟩
def LFR_CAND_MFAS (p k : Nat) : Fld := ⟨0x1600020 + 0x1000000 * p + 0x4 * k, 16, 8, 0⟩
def LFR_CAND_POS (p k : Nat) : Fld := ⟨0x1600020 + 0x1000000 * p + 0x4 * k, 0, 16, 0⟩
-- LFR_RX_HDR, offset 0x0030 (R232, 08_line_frame_otn.md)
def LFR_RX_HDR_RUNG (p : Nat) : Fld := ⟨0x1600030 + 0x1000000 * p, 8, 6, 0⟩
def LFR_RX_HDR_MFAS (p : Nat) : Fld := ⟨0x1600030 + 0x1000000 * p, 0, 8, 0⟩
-- LFR_RX_EPOCH, offset 0x0034 (R232, 08_line_frame_otn.md)
def LFR_RX_EPOCH_KEY_EPOCH (p : Nat) : Fld := ⟨0x1600034 + 0x1000000 * p, 0, 32, 0⟩
-- LFR_JC, offset 0x0038 (R232, 08_line_frame_otn.md)
def LFR_JC_VALUE (p : Nat) : Fld := ⟨0x1600038 + 0x1000000 * p, 0, 20, 0⟩
-- LFR_ALLOT, offset 0x003C (R232, 08_line_frame_otn.md)
def LFR_ALLOT_VALUE (p : Nat) : Fld := ⟨0x160003c + 0x1000000 * p, 0, 20, 0⟩
-- LFR_HDR_CNT, offset 0x0040 (R232, 08_line_frame_otn.md)
def LFR_HDR_CNT_DOH_UNCORR (p : Nat) : Fld := ⟨0x1600040 + 0x1000000 * p, 16, 16, 0⟩
def LFR_HDR_CNT_HDR_ERR (p : Nat) : Fld := ⟨0x1600040 + 0x1000000 * p, 0, 16, 0⟩
-- LFR_DOH_TX, offset 0x0050 (R232, 08_line_frame_otn.md)
def LFR_DOH_TX_TABLE (p : Nat) : Fld := ⟨0x1600050 + 0x1000000 * p, 16, 16, 65535⟩
def LFR_DOH_TX_FORCE_RDI (p : Nat) : Fld := ⟨0x1600050 + 0x1000000 * p, 8, 1, 0⟩
def LFR_DOH_TX_ADAPTING (p : Nat) : Fld := ⟨0x1600050 + 0x1000000 * p, 3, 1, 0⟩
def LFR_DOH_TX_LINK_STATE (p : Nat) : Fld := ⟨0x1600050 + 0x1000000 * p, 0, 3, 0⟩
-- LFR_DOH_RX, offset 0x0054 (R232, 08_line_frame_otn.md)
def LFR_DOH_RX_GROUP (p : Nat) : Fld := ⟨0x1600054 + 0x1000000 * p, 24, 8, 0⟩
def LFR_DOH_RX_BOND (p : Nat) : Fld := ⟨0x1600054 + 0x1000000 * p, 16, 8, 0⟩
def LFR_DOH_RX_FAST (p : Nat) : Fld := ⟨0x1600054 + 0x1000000 * p, 8, 5, 0⟩
def LFR_DOH_RX_FIRST (p : Nat) : Fld := ⟨0x1600054 + 0x1000000 * p, 0, 6, 0⟩
-- LFR_DOH_RX_LINK, offset 0x0058 (R232, 08_line_frame_otn.md)
def LFR_DOH_RX_LINK_ADAPTING (p : Nat) : Fld := ⟨0x1600058 + 0x1000000 * p, 3, 1, 0⟩
def LFR_DOH_RX_LINK_LINK_STATE (p : Nat) : Fld := ⟨0x1600058 + 0x1000000 * p, 0, 3, 0⟩
-- LFR_THC_CTRL, offset 0x0060 (R232, 08_line_frame_otn.md)
def LFR_THC_CTRL_COMMIT (p : Nat) : Fld := ⟨0x1600060 + 0x1000000 * p, 1, 1, 0⟩
def LFR_THC_CTRL_LOCAL (p : Nat) : Fld := ⟨0x1600060 + 0x1000000 * p, 0, 1, 0⟩
-- LFR_THC_SLIP, offset 0x0064 (R232, 08_line_frame_otn.md)
def LFR_THC_SLIP_DROP (p : Nat) : Fld := ⟨0x1600064 + 0x1000000 * p, 16, 16, 0⟩
def LFR_THC_SLIP_REPEAT (p : Nat) : Fld := ⟨0x1600064 + 0x1000000 * p, 0, 16, 0⟩
-- LFR_THC_TX_w, offset 0x0080 (R232, 08_line_frame_otn.md)
def LFR_THC_TX_BYTES (p w : Nat) : Fld := ⟨0x1600080 + 0x1000000 * p + 0x4 * w, 0, 32, 0⟩
-- LFR_THC_RX_w, offset 0x00C0 (R232, 08_line_frame_otn.md)
def LFR_THC_RX_BYTES (p w : Nat) : Fld := ⟨0x16000c0 + 0x1000000 * p + 0x4 * w, 0, 32, 0⟩
-- LFR_BOND_STAT, offset 0x0100 (R232, 08_line_frame_otn.md)
def LFR_BOND_STAT_VALID (p : Nat) : Fld := ⟨0x1600100 + 0x1000000 * p, 31, 1, 0⟩
def LFR_BOND_STAT_MAP_ERR (p : Nat) : Fld := ⟨0x1600100 + 0x1000000 * p, 30, 1, 0⟩
def LFR_BOND_STAT_SKEW_ALARM (p : Nat) : Fld := ⟨0x1600100 + 0x1000000 * p, 29, 1, 0⟩
def LFR_BOND_STAT_SQUELCH (p : Nat) : Fld := ⟨0x1600100 + 0x1000000 * p, 28, 1, 0⟩
def LFR_BOND_STAT_SKEW (p : Nat) : Fld := ⟨0x1600100 + 0x1000000 * p, 0, 20, 0⟩
-- LFR_BOND_PEAK, offset 0x0104 (R232, 08_line_frame_otn.md)
def LFR_BOND_PEAK_MAX (p : Nat) : Fld := ⟨0x1600104 + 0x1000000 * p, 0, 20, 0⟩
-- LFR_OTN_SEL, offset 0x0200 (R232, 08_line_frame_otn.md)
def LFR_OTN_SEL_ENTITY (p : Nat) : Fld := ⟨0x1600200 + 0x1000000 * p, 0, 11, 0⟩
-- LFR_OTN_DEF, offset 0x0204 (R232, 08_line_frame_otn.md)
def LFR_OTN_DEF_LATCHED (p b : Nat) : Fld := ⟨0x1600204 + 0x1000000 * p, 16 + 1 * b, 1, 0⟩
def LFR_OTN_DEF_NOW (p : Nat) : Fld := ⟨0x1600204 + 0x1000000 * p, 0, 14, 0⟩
-- LFR_OTN_BIP, offset 0x0208 (R232, 08_line_frame_otn.md)
def LFR_OTN_BIP_COUNT (p : Nat) : Fld := ⟨0x1600208 + 0x1000000 * p, 0, 32, 0⟩
-- LFR_OTN_BEI, offset 0x020C (R232, 08_line_frame_otn.md)
def LFR_OTN_BEI_COUNT (p : Nat) : Fld := ⟨0x160020c + 0x1000000 * p, 0, 32, 0⟩
-- LFR_OTN_SUM, offset 0x0210 (R232, 08_line_frame_otn.md)
def LFR_OTN_SUM_FIRST (p : Nat) : Fld := ⟨0x1600210 + 0x1000000 * p, 16, 11, 0⟩
def LFR_OTN_SUM_COUNT (p : Nat) : Fld := ⟨0x1600210 + 0x1000000 * p, 0, 11, 0⟩
-- LFR_OTN_TTI_RX_w, offset 0x0240 (R232, 08_line_frame_otn.md)
def LFR_OTN_TTI_RX_BYTES (p w : Nat) : Fld := ⟨0x1600240 + 0x1000000 * p + 0x4 * w, 0, 32, 0⟩

-- SGP_STATUS, offset 0x0000 (R278, 10_sedge_channel.md)
def SGP_STATUS_RANK_TIE (p : Nat) : Fld := ⟨0x1700000 + 0x1000000 * p, 15, 1, 0⟩
def SGP_STATUS_CROSSED (p : Nat) : Fld := ⟨0x1700000 + 0x1000000 * p, 14, 1, 0⟩
def SGP_STATUS_NEG_LOST (p : Nat) : Fld := ⟨0x1700000 + 0x1000000 * p, 13, 1, 0⟩
def SGP_STATUS_NEG_AGREED (p : Nat) : Fld := ⟨0x1700000 + 0x1000000 * p, 12, 1, 0⟩
def SGP_STATUS_TX_FAIL (p : Nat) : Fld := ⟨0x1700000 + 0x1000000 * p, 11, 1, 0⟩
def SGP_STATUS_TX_DONE (p : Nat) : Fld := ⟨0x1700000 + 0x1000000 * p, 10, 1, 0⟩
def SGP_STATUS_RXQ_FULL (p : Nat) : Fld := ⟨0x1700000 + 0x1000000 * p, 9, 1, 0⟩
def SGP_STATUS_SEQ_GAP (p : Nat) : Fld := ⟨0x1700000 + 0x1000000 * p, 8, 1, 0⟩
def SGP_STATUS_AUTH_FAIL (p : Nat) : Fld := ⟨0x1700000 + 0x1000000 * p, 7, 1, 0⟩
def SGP_STATUS_CRC_FAIL (p : Nat) : Fld := ⟨0x1700000 + 0x1000000 * p, 6, 1, 0⟩
def SGP_STATUS_MALFORMED (p : Nat) : Fld := ⟨0x1700000 + 0x1000000 * p, 5, 1, 0⟩
def SGP_STATUS_CAPTURED (p : Nat) : Fld := ⟨0x1700000 + 0x1000000 * p, 4, 1, 0⟩
def SGP_STATUS_RESTART (p : Nat) : Fld := ⟨0x1700000 + 0x1000000 * p, 3, 1, 0⟩
def SGP_STATUS_HDR_FAIL (p : Nat) : Fld := ⟨0x1700000 + 0x1000000 * p, 2, 1, 0⟩
def SGP_STATUS_RX_PKT (p : Nat) : Fld := ⟨0x1700000 + 0x1000000 * p, 1, 1, 0⟩
def SGP_STATUS_PREAMBLE (p : Nat) : Fld := ⟨0x1700000 + 0x1000000 * p, 0, 1, 0⟩
-- SGP_INT_EN, offset 0x0004 (R278, 10_sedge_channel.md)
def SGP_INT_EN_EN (p : Nat) : Fld := ⟨0x1700004 + 0x1000000 * p, 0, 16, 0⟩
-- SGP_TX_CTRL, offset 0x0008 (R278, 10_sedge_channel.md)
def SGP_TX_CTRL_OWN_CODE (p : Nat) : Fld := ⟨0x1700008 + 0x1000000 * p, 16, 11, 0⟩
def SGP_TX_CTRL_EN (p : Nat) : Fld := ⟨0x1700008 + 0x1000000 * p, 8, 1, 0⟩
def SGP_TX_CTRL_LEVEL (p : Nat) : Fld := ⟨0x1700008 + 0x1000000 * p, 0, 6, 24⟩
-- SGP_TX_STAT, offset 0x000C (R278, 10_sedge_channel.md)
def SGP_TX_STAT_SEQ (p : Nat) : Fld := ⟨0x170000c + 0x1000000 * p, 16, 12, 0⟩
def SGP_TX_STAT_SENDING (p : Nat) : Fld := ⟨0x170000c + 0x1000000 * p, 15, 1, 0⟩
def SGP_TX_STAT_BUF (p : Nat) : Fld := ⟨0x170000c + 0x1000000 * p, 8, 4, 0⟩
def SGP_TX_STAT_QUEUED (p : Nat) : Fld := ⟨0x170000c + 0x1000000 * p, 0, 5, 0⟩
-- SGP_BEACON, offset 0x0010 (R278, 10_sedge_channel.md)
def SGP_BEACON_BAUD (p : Nat) : Fld := ⟨0x1700010 + 0x1000000 * p, 0, 11, 1200⟩
-- SGP_RX_CTRL, offset 0x0014 (R278, 10_sedge_channel.md)
def SGP_RX_CTRL_FWD_NBR (p : Nat) : Fld := ⟨0x1700014 + 0x1000000 * p, 9, 1, 0⟩
def SGP_RX_CTRL_CANCEL_EN (p : Nat) : Fld := ⟨0x1700014 + 0x1000000 * p, 8, 1, 1⟩
def SGP_RX_CTRL_CAPTURE (p : Nat) : Fld := ⟨0x1700014 + 0x1000000 * p, 0, 5, 12⟩
-- SGP_RX_FO, offset 0x0018 (R278, 10_sedge_channel.md)
def SGP_RX_FO_VALID (p : Nat) : Fld := ⟨0x1700018 + 0x1000000 * p, 31, 1, 0⟩
def SGP_RX_FO_FO (p : Nat) : Fld := ⟨0x1700018 + 0x1000000 * p, 0, 16, 0⟩
-- SGP_CORR_k, offset 0x0020 (R278, 10_sedge_channel.md)
def SGP_CORR_EN (p k : Nat) : Fld := ⟨0x1700020 + 0x1000000 * p + 0x4 * k, 31, 1, if k = 0 then 1 else 0⟩
def SGP_CORR_CODE (p k : Nat) : Fld := ⟨0x1700020 + 0x1000000 * p + 0x4 * k, 16, 11, 0⟩
def SGP_CORR_DET_THR (p k : Nat) : Fld := ⟨0x1700020 + 0x1000000 * p + 0x4 * k, 0, 8, 48⟩
-- SGP_CORR_STAT_k, offset 0x0030 (R278, 10_sedge_channel.md)
def SGP_CORR_STAT_REL (p k : Nat) : Fld := ⟨0x1700030 + 0x1000000 * p + 0x4 * k, 24, 8, 0⟩
def SGP_CORR_STAT_METRIC (p k : Nat) : Fld := ⟨0x1700030 + 0x1000000 * p + 0x4 * k, 16, 8, 0⟩
def SGP_CORR_STAT_STATE (p k : Nat) : Fld := ⟨0x1700030 + 0x1000000 * p + 0x4 * k, 0, 3, 0⟩
-- SGP_NODE, offset 0x0040 (R278, 10_sedge_channel.md)
def SGP_NODE_RANK (p : Nat) : Fld := ⟨0x1700040 + 0x1000000 * p, 0, 8, 0⟩
-- SGP_NODE_ID_LO, offset 0x0044 (R278, 10_sedge_channel.md)
def SGP_NODE_ID_LO_ID (p : Nat) : Fld := ⟨0x1700044 + 0x1000000 * p, 0, 32, 0⟩
-- SGP_NODE_ID_HI, offset 0x0048 (R278, 10_sedge_channel.md)
def SGP_NODE_ID_HI_ID (p : Nat) : Fld := ⟨0x1700048 + 0x1000000 * p, 0, 32, 0⟩
-- SGP_NEG_CTRL, offset 0x004C (R278, 10_sedge_channel.md)
def SGP_NEG_CTRL_HELLO_P (p : Nat) : Fld := ⟨0x170004c + 0x1000000 * p, 16, 16, 4096⟩
def SGP_NEG_CTRL_HELLO_B (p : Nat) : Fld := ⟨0x170004c + 0x1000000 * p, 8, 8, 64⟩
def SGP_NEG_CTRL_SENSE_EN (p : Nat) : Fld := ⟨0x170004c + 0x1000000 * p, 2, 1, 0⟩
def SGP_NEG_CTRL_HINT_EN (p : Nat) : Fld := ⟨0x170004c + 0x1000000 * p, 1, 1, 1⟩
def SGP_NEG_CTRL_NEG_EN (p : Nat) : Fld := ⟨0x170004c + 0x1000000 * p, 0, 1, 1⟩
-- SGP_NEG_STAT, offset 0x0050 (R278, 10_sedge_channel.md)
def SGP_NEG_STAT_PEER_RANK (p : Nat) : Fld := ⟨0x1700050 + 0x1000000 * p, 24, 8, 0⟩
def SGP_NEG_STAT_AGREED (p : Nat) : Fld := ⟨0x1700050 + 0x1000000 * p, 7, 1, 0⟩
def SGP_NEG_STAT_RXR_OK (p : Nat) : Fld := ⟨0x1700050 + 0x1000000 * p, 6, 1, 0⟩
def SGP_NEG_STAT_TXR_OK (p : Nat) : Fld := ⟨0x1700050 + 0x1000000 * p, 5, 1, 0⟩
def SGP_NEG_STAT_PCS_OK (p : Nat) : Fld := ⟨0x1700050 + 0x1000000 * p, 4, 1, 0⟩
def SGP_NEG_STAT_LADDER_OK (p : Nat) : Fld := ⟨0x1700050 + 0x1000000 * p, 3, 1, 0⟩
def SGP_NEG_STAT_CODE_OK (p : Nat) : Fld := ⟨0x1700050 + 0x1000000 * p, 2, 1, 0⟩
def SGP_NEG_STAT_MUTUAL (p : Nat) : Fld := ⟨0x1700050 + 0x1000000 * p, 1, 1, 0⟩
def SGP_NEG_STAT_PEER_SEEN (p : Nat) : Fld := ⟨0x1700050 + 0x1000000 * p, 0, 1, 0⟩
-- SGP_XPROP, offset 0x0054 (R278, 10_sedge_channel.md)
def SGP_XPROP_CROSS_SW (p : Nat) : Fld := ⟨0x1700054 + 0x1000000 * p, 0, 16, 4096⟩
-- SGP_AUTH_POL, offset 0x0058 (R278, 10_sedge_channel.md)
def SGP_AUTH_POL_SESSION (p : Nat) : Fld := ⟨0x1700058 + 0x1000000 * p, 16, 6, 0⟩
def SGP_AUTH_POL_REQ_USER (p : Nat) : Fld := ⟨0x1700058 + 0x1000000 * p, 3, 1, 0⟩
def SGP_AUTH_POL_REQ_TUNNEL (p : Nat) : Fld := ⟨0x1700058 + 0x1000000 * p, 2, 1, 0⟩
def SGP_AUTH_POL_REQ_REPORT (p : Nat) : Fld := ⟨0x1700058 + 0x1000000 * p, 1, 1, 0⟩
def SGP_AUTH_POL_REQ_LINK (p : Nat) : Fld := ⟨0x1700058 + 0x1000000 * p, 0, 1, 0⟩
-- SGP_RXQ_CNT, offset 0x0060 (R278, 10_sedge_channel.md)
def SGP_RXQ_CNT_COUNT (p : Nat) : Fld := ⟨0x1700060 + 0x1000000 * p, 0, 4, 0⟩
-- SGP_RXQ_INFO, offset 0x0064 (R278, 10_sedge_channel.md)
def SGP_RXQ_INFO_TYPE (p : Nat) : Fld := ⟨0x1700064 + 0x1000000 * p, 24, 8, 0⟩
def SGP_RXQ_INFO_CORR (p : Nat) : Fld := ⟨0x1700064 + 0x1000000 * p, 22, 2, 0⟩
def SGP_RXQ_INFO_SEC (p : Nat) : Fld := ⟨0x1700064 + 0x1000000 * p, 20, 2, 0⟩
def SGP_RXQ_INFO_LENGTH (p : Nat) : Fld := ⟨0x1700064 + 0x1000000 * p, 0, 12, 0⟩
-- SGP_RXQ_META, offset 0x0068 (R278, 10_sedge_channel.md)
def SGP_RXQ_META_SW_VALID (p : Nat) : Fld := ⟨0x1700068 + 0x1000000 * p, 31, 1, 0⟩
def SGP_RXQ_META_SEQ (p : Nat) : Fld := ⟨0x1700068 + 0x1000000 * p, 0, 12, 0⟩
-- SGP_RXQ_SWATH, offset 0x006C (R278, 10_sedge_channel.md)
def SGP_RXQ_SWATH_SWATH (p : Nat) : Fld := ⟨0x170006c + 0x1000000 * p, 0, 32, 0⟩
-- SGP_RXQ_POP, offset 0x0070 (R278, 10_sedge_channel.md)
def SGP_RXQ_POP_POP (p : Nat) : Fld := ⟨0x1700070 + 0x1000000 * p, 0, 32, 0⟩
-- SGP_TXB_CTRL_b, offset 0x0200 (R278, 10_sedge_channel.md)
def SGP_TXB_CTRL_STATE (p b : Nat) : Fld := ⟨0x1700200 + 0x1000000 * p + 0x4 * b, 30, 2, 0⟩
def SGP_TXB_CTRL_ARM (p b : Nat) : Fld := ⟨0x1700200 + 0x1000000 * p + 0x4 * b, 29, 1, 0⟩
def SGP_TXB_CTRL_SEC (p b : Nat) : Fld := ⟨0x1700200 + 0x1000000 * p + 0x4 * b, 20, 2, 0⟩
def SGP_TXB_CTRL_TYPE (p b : Nat) : Fld := ⟨0x1700200 + 0x1000000 * p + 0x4 * b, 12, 8, 0⟩
def SGP_TXB_CTRL_LENGTH (p b : Nat) : Fld := ⟨0x1700200 + 0x1000000 * p + 0x4 * b, 0, 12, 0⟩
-- SGP_CNT_k_i, offset 0x0100 (R278, 10_sedge_channel.md)
def SGP_CNT_COUNT (p k i : Nat) : Fld := ⟨0x1700100 + 0x1000000 * p + 0x40 * k + 0x4 * i, 0, 32, 0⟩

end R

/-- Registers of CNV, part 0 (R79). -/
def cnvRegs0 : List RDef :=
  [⟨0x1000000, [(0x1000000, 2)], false, [⟨11, 1, .w1c, 0, []⟩, ⟨10, 1, .w1c, 0, []⟩, ⟨9, 1, .w1c, 0, []⟩, ⟨8, 1, .w1c, 0, []⟩, ⟨7, 1, .w1c, 0, []⟩, ⟨6, 1, .w1c, 0, []⟩, ⟨5, 1, .w1c, 0, []⟩, ⟨0, 1, .w1c, 0, []⟩, ⟨1, 1, .w1c, 0, []⟩, ⟨2, 1, .w1c, 0, []⟩, ⟨3, 1, .w1c, 0, []⟩]⟩,
   ⟨0x1000004, [(0x1000000, 2)], false, [⟨0, 12, .rw, 0, []⟩]⟩,
   ⟨0x1000008, [(0x1000000, 2)], false, [⟨1, 1, .ro, 0, []⟩, ⟨0, 1, .ro, 0, []⟩]⟩,
   ⟨0x1000010, [(0x1000000, 2)], false, [⟨16, 8, .sch, 16, []⟩, ⟨12, 1, .sch, 1, []⟩, ⟨8, 2, .sch, 1, [(0, 2)]⟩, ⟨4, 1, .sch, 1, []⟩, ⟨0, 1, .sch, 1, []⟩]⟩,
   ⟨0x1000014, [(0x1000000, 2)], false, [⟨16, 4, .sch, 3, [(1, 15)]⟩, ⟨0, 9, .sch, 64, [(16, 192)]⟩]⟩,
   ⟨0x1000018, [(0x1000000, 2)], false, [⟨9, 1, .ro, 0, []⟩, ⟨8, 1, .ro, 0, []⟩, ⟨0, 3, .ro, 0, []⟩]⟩,
   ⟨0x1000020, [(0x1000000, 2), (0x4, 4)], false, [⟨16, 8, .ro, 0, []⟩, ⟨0, 8, .sch, 0, [(0, 240)]⟩]⟩,
   ⟨0x1000030, [(0x1000000, 2), (0x4, 4)], false, [⟨16, 16, .ro, 0, []⟩, ⟨0, 9, .ro, 0, []⟩]⟩,
   ⟨0x1000040, [(0x1000000, 2)], false, [⟨0, 16, .rw, 64, []⟩]⟩,
   ⟨0x1000050, [(0x1000000, 2)], false, [⟨4, 3, .sch, 4, []⟩, ⟨0, 2, .sch, 3, []⟩]⟩,
   ⟨0x1000060, [(0x1000000, 2), (0x8, 4), (0x4, 2)], false, [⟨16, 1, .ro, 0, []⟩, ⟨0, 11, .ro, 0, []⟩]⟩,
   ⟨0x1000080, [(0x1000000, 2)], false, [⟨11, 1, .ro, 0, []⟩, ⟨10, 1, .ro, 0, []⟩, ⟨8, 1, .ro, 0, []⟩, ⟨0, 4, .sch, 15, []⟩]⟩]
/-- Registers of CNV, part 1 (R79). -/
def cnvRegs1 : List RDef :=
  [⟨0x1000090, [(0x1000000, 2), (0x4, 4)], false, [⟨0, 5, .sch, 8, [(0, 16)]⟩]⟩,
   ⟨0x10000c0, [(0x1000000, 2), (0x20, 2), (0x8, 4), (0x4, 2)], false, [⟨16, 7, .ro, 64, []⟩, ⟨8, 6, .ro, 0, []⟩, ⟨1, 2, .ro, 0, []⟩, ⟨0, 1, .ro, 0, []⟩]⟩]
/-- Every register of CNV (R79). -/
def cnvRegs : List RDef :=
  cnvRegs0 ++ cnvRegs1

/-- Registers of CAL, part 0 (R104). -/
def calRegs0 : List RDef :=
  [⟨0x1100000, [(0x1000000, 2)], false, [⟨6, 1, .w1c, 0, []⟩, ⟨5, 1, .w1c, 0, []⟩, ⟨4, 1, .w1c, 0, []⟩, ⟨3, 1, .w1c, 0, []⟩, ⟨2, 1, .w1c, 0, []⟩, ⟨1, 1, .w1c, 0, []⟩, ⟨0, 1, .w1c, 0, []⟩]⟩,
   ⟨0x1100004, [(0x1000000, 2)], false, [⟨0, 7, .rw, 0, []⟩]⟩,
   ⟨0x1100008, [(0x1000000, 2)], false, [⟨16, 7, .ro, 0, []⟩, ⟨8, 4, .ro, 0, []⟩, ⟨4, 1, .ro, 0, []⟩, ⟨0, 3, .ro, 0, []⟩]⟩,
   ⟨0x110000c, [(0x1000000, 2)], false, [⟨0, 16, .ro, 0, []⟩]⟩,
   ⟨0x1100010, [(0x1000000, 2)], false, [⟨0, 2, .wo, 0, []⟩]⟩,
   ⟨0x1100014, [(0x1000000, 2)], false, [⟨16, 8, .ro, 0, []⟩, ⟨8, 1, .ro, 0, []⟩, ⟨0, 8, .ro, 0, []⟩]⟩,
   ⟨0x1100018, [(0x1000000, 2)], false, [⟨1, 1, .sch, 0, []⟩, ⟨0, 1, .sch, 0, []⟩]⟩,
   ⟨0x1100020, [(0x1000000, 2)], false, [⟨16, 16, .rw, 0, []⟩, ⟨12, 1, .rw, 0, []⟩, ⟨8, 1, .rw, 1, []⟩, ⟨0, 8, .rw, 30, [(5, 100)]⟩]⟩,
   ⟨0x1100040, [(0x1000000, 2), (0x4, 16)], false, [⟨24, 7, .ro, 0, []⟩, ⟨18, 1, .ro, 0, []⟩, ⟨17, 1, .ro, 0, []⟩, ⟨16, 1, .ro, 0, []⟩, ⟨0, 12, .ro, 0, []⟩]⟩,
   ⟨0x1100080, [], false, [⟨0, 2, .wo, 0, []⟩]⟩,
   ⟨0x1100084, [], false, [⟨12, 1, .ro, 0, []⟩, ⟨9, 1, .ro, 0, []⟩, ⟨8, 1, .ro, 0, []⟩, ⟨0, 8, .ro, 0, []⟩]⟩,
   ⟨0x1100088, [], false, [⟨0, 32, .ro, 0, []⟩]⟩]
/-- Registers of CAL, part 1 (R104). -/
def calRegs1 : List RDef :=
  [⟨0x110008c, [], false, [⟨0, 32, .ro, 0, []⟩]⟩]
/-- Every register of CAL (R104). -/
def calRegs : List RDef :=
  calRegs0 ++ calRegs1

/-- Registers of RXD, part 0 (R135). -/
def rxdRegs0 : List RDef :=
  [⟨0x1200000, [(0x1000000, 2)], false, [⟨9, 1, .w1c, 0, []⟩, ⟨8, 1, .w1c, 0, []⟩, ⟨7, 1, .w1c, 0, []⟩, ⟨6, 1, .w1c, 0, []⟩, ⟨5, 1, .w1c, 0, []⟩, ⟨4, 1, .w1c, 0, []⟩, ⟨3, 1, .w1c, 0, []⟩, ⟨2, 1, .w1c, 0, []⟩, ⟨1, 1, .w1c, 0, []⟩, ⟨0, 1, .w1c, 0, []⟩]⟩,
   ⟨0x1200004, [(0x1000000, 2)], false, [⟨0, 10, .rw, 0, []⟩]⟩,
   ⟨0x1200008, [(0x1000000, 2)], false, [⟨8, 6, .rw, 0, []⟩, ⟨2, 1, .rw, 0, []⟩, ⟨1, 1, .rw, 1, []⟩, ⟨0, 1, .rw, 0, []⟩]⟩,
   ⟨0x120000c, [(0x1000000, 2)], false, [⟨24, 6, .ro, 0, []⟩, ⟨23, 1, .ro, 0, []⟩, ⟨22, 1, .ro, 0, []⟩, ⟨21, 1, .ro, 0, []⟩, ⟨20, 1, .ro, 0, []⟩, ⟨16, 3, .ro, 0, []⟩, ⟨8, 8, .ro, 0, []⟩, ⟨0, 3, .ro, 0, []⟩]⟩,
   ⟨0x1200010, [(0x1000000, 2)], false, [⟨16, 16, .rw, 48, [(1, 65535)]⟩, ⟨0, 16, .rw, 256, [(1, 65535)]⟩]⟩,
   ⟨0x1200014, [(0x1000000, 2)], false, [⟨16, 16, .rw, 64, [(1, 65535)]⟩, ⟨0, 16, .rw, 64, [(1, 65535)]⟩]⟩,
   ⟨0x1200018, [(0x1000000, 2)], false, [⟨16, 8, .sch, 64, [(1, 255)]⟩, ⟨0, 9, .sch, 16, []⟩]⟩,
   ⟨0x120001c, [(0x1000000, 2)], false, [⟨16, 4, .sch, 4, [(1, 15)]⟩, ⟨0, 16, .sch, 64, []⟩]⟩,
   ⟨0x1200020, [(0x1000000, 2)], false, [⟨0, 24, .rw, 0, []⟩]⟩,
   ⟨0x1200024, [(0x1000000, 2)], false, [⟨0, 24, .rw, 60000, []⟩]⟩,
   ⟨0x1200028, [(0x1000000, 2)], false, [⟨0, 24, .rw, 0, []⟩]⟩,
   ⟨0x120002c, [(0x1000000, 2)], false, [⟨8, 16, .rw, 0, []⟩, ⟨0, 8, .rw, 8, [(1, 255)]⟩]⟩]
/-- Registers of RXD, part 1 (R135). -/
def rxdRegs1 : List RDef :=
  [⟨0x1200030, [(0x1000000, 2)], false, [⟨0, 24, .sch, 0, []⟩]⟩,
   ⟨0x1200034, [(0x1000000, 2)], false, [⟨0, 24, .ro, 0, []⟩]⟩,
   ⟨0x1200038, [(0x1000000, 2)], false, [⟨0, 21, .rw, 1550000, []⟩]⟩,
   ⟨0x1200040, [(0x1000000, 2)], false, [⟨31, 1, .ro, 0, []⟩, ⟨0, 16, .ro, 0, []⟩]⟩,
   ⟨0x1200044, [(0x1000000, 2)], false, [⟨24, 8, .rw, 25, []⟩, ⟨16, 8, .rw, 50, [(1, 255)]⟩, ⟨8, 8, .rw, 160, []⟩, ⟨0, 1, .rw, 1, []⟩]⟩,
   ⟨0x1200050, [(0x1000000, 2)], false, [⟨31, 1, .sch, 0, []⟩, ⟨16, 9, .sch, 0, []⟩, ⟨4, 4, .sch, 8, []⟩, ⟨0, 4, .sch, 4, []⟩]⟩,
   ⟨0x1200054, [(0x1000000, 2)], false, [⟨17, 1, .ro, 0, []⟩, ⟨16, 1, .ro, 0, []⟩, ⟨0, 9, .ro, 0, []⟩]⟩,
   ⟨0x1200058, [(0x1000000, 2)], false, [⟨31, 1, .sch, 1, []⟩, ⟨16, 8, .sch, 8, [(1, 255)]⟩, ⟨8, 8, .sch, 32, [(8, 128)]⟩, ⟨0, 2, .sch, 1, [(0, 2)]⟩]⟩,
   ⟨0x1200060, [(0x1000000, 2)], false, [⟨16, 16, .sch, 65535, []⟩, ⟨8, 8, .sch, 0, []⟩, ⟨2, 6, .sch, 0, [(1, 63)]⟩, ⟨1, 1, .sch, 0, []⟩, ⟨0, 1, .sch, 0, []⟩]⟩,
   ⟨0x1200064, [(0x1000000, 2)], false, [⟨16, 8, .ro, 0, []⟩, ⟨4, 6, .ro, 0, []⟩, ⟨2, 1, .ro, 0, []⟩, ⟨1, 1, .ro, 0, []⟩, ⟨0, 1, .ro, 0, []⟩]⟩,
   ⟨0x1200068, [(0x1000000, 2)], false, [⟨4, 8, .sch, 16, [(1, 255)]⟩, ⟨0, 1, .sch, 1, []⟩]⟩,
   ⟨0x120006c, [(0x1000000, 2)], false, [⟨16, 16, .sch, 65535, []⟩, ⟨0, 1, .sch, 1, []⟩]⟩]
/-- Registers of RXD, part 2 (R135). -/
def rxdRegs2 : List RDef :=
  [⟨0x1200070, [(0x1000000, 2), (0x4, 2)], false, [⟨22, 10, .ro, 0, []⟩, ⟨12, 10, .ro, 0, []⟩, ⟨0, 12, .ro, 0, []⟩]⟩,
   ⟨0x1200080, [(0x1000000, 2)], false, [⟨16, 16, .rw, 2000, []⟩, ⟨0, 4, .rw, 6, [(0, 12)]⟩]⟩,
   ⟨0x1200084, [(0x1000000, 2)], false, [⟨0, 32, .ro, 0, []⟩]⟩,
   ⟨0x120008c, [(0x1000000, 2)], false, [⟨0, 32, .ro, 0, []⟩]⟩,
   ⟨0x1200088, [(0x1000000, 2)], false, [⟨10, 1, .ro, 0, []⟩, ⟨9, 1, .ro, 0, []⟩, ⟨0, 9, .ro, 0, []⟩]⟩,
   ⟨0x1200090, [(0x1000000, 2)], false, [⟨0, 24, .ro, 0, []⟩]⟩,
   ⟨0x1200094, [(0x1000000, 2)], false, [⟨16, 16, .ro, 0, []⟩, ⟨0, 16, .ro, 0, []⟩]⟩,
   ⟨0x1200098, [(0x1000000, 2)], false, [⟨0, 24, .ro, 0, []⟩]⟩,
   ⟨0x120009c, [(0x1000000, 2)], false, [⟨16, 8, .ro, 0, []⟩, ⟨0, 16, .ro, 0, []⟩]⟩,
   ⟨0x12000a0, [(0x1000000, 2)], false, [⟨0, 32, .ro, 0, []⟩]⟩,
   ⟨0x12000a4, [(0x1000000, 2)], false, [⟨0, 16, .ro, 0, []⟩]⟩,
   ⟨0x12000a8, [(0x1000000, 2)], false, [⟨0, 32, .ro, 0, []⟩]⟩]
/-- Registers of RXD, part 3 (R135). -/
def rxdRegs3 : List RDef :=
  [⟨0x12000ac, [(0x1000000, 2)], false, [⟨0, 16, .ro, 0, []⟩]⟩,
   ⟨0x12000b0, [(0x1000000, 2)], false, [⟨0, 20, .ro, 0, []⟩]⟩,
   ⟨0x1200100, [(0x1000000, 2), (0x4, 16)], false, [⟨16, 16, .ro, 0, []⟩, ⟨0, 16, .ro, 0, []⟩]⟩]
/-- Every register of RXD (R135). -/
def rxdRegs : List RDef :=
  rxdRegs0 ++ rxdRegs1 ++ rxdRegs2 ++ rxdRegs3

/-- Registers of TXD, part 0 (R167). -/
def txdRegs0 : List RDef :=
  [⟨0x1400000, [(0x1000000, 2)], false, [⟨7, 1, .w1c, 0, []⟩, ⟨6, 1, .w1c, 0, []⟩, ⟨5, 1, .w1c, 0, []⟩, ⟨4, 1, .w1c, 0, []⟩, ⟨3, 1, .w1c, 0, []⟩, ⟨2, 1, .w1c, 0, []⟩, ⟨1, 1, .w1c, 0, []⟩, ⟨0, 1, .w1c, 0, []⟩]⟩,
   ⟨0x1400004, [(0x1000000, 2)], false, [⟨0, 8, .rw, 0, []⟩]⟩,
   ⟨0x1400008, [(0x1000000, 2)], false, [⟨8, 6, .rw, 0, []⟩, ⟨0, 2, .rw, 0, [(0, 2)]⟩]⟩,
   ⟨0x140000c, [(0x1000000, 2)], false, [⟨25, 1, .ro, 0, []⟩, ⟨24, 1, .ro, 0, []⟩, ⟨16, 8, .ro, 0, []⟩, ⟨8, 6, .ro, 0, []⟩, ⟨2, 1, .ro, 0, []⟩, ⟨0, 2, .ro, 0, []⟩]⟩,
   ⟨0x1400010, [(0x1000000, 2)], false, [⟨0, 24, .sch, 0, []⟩]⟩,
   ⟨0x1400014, [(0x1000000, 2)], false, [⟨0, 24, .ro, 0, []⟩]⟩,
   ⟨0x1400018, [(0x1000000, 2)], false, [⟨0, 21, .sch, 1550000, []⟩]⟩,
   ⟨0x140001c, [(0x1000000, 2)], false, [⟨0, 3, .sch, 0, [(0, 6)]⟩]⟩,
   ⟨0x1400020, [(0x1000000, 2)], false, [⟨16, 16, .sch, 65535, []⟩, ⟨0, 16, .sch, 65535, []⟩]⟩,
   ⟨0x1400030, [(0x1000000, 2), (0x4, 4)], false, [⟨16, 10, .sch, 0, [(0, 100), (924, 1023)]⟩, ⟨0, 12, .sch, 0, [(0, 2000), (2096, 4095)]⟩]⟩,
   ⟨0x1400040, [(0x1000000, 2), (0x4, 4)], false, [⟨0, 32, .rc, 0, []⟩]⟩,
   ⟨0x1400050, [(0x1000000, 2)], false, [⟨0, 20, .ro, 0, []⟩]⟩]
/-- Registers of TXD, part 1 (R167). -/
def txdRegs1 : List RDef :=
  [⟨0x1400060, [(0x1000000, 2)], false, [⟨16, 4, .rw, 12, [(8, 16)]⟩, ⟨8, 3, .rw, 0, [(0, 4)]⟩, ⟨4, 3, .rw, 0, [(0, 4)]⟩, ⟨0, 1, .rw, 1, []⟩]⟩,
   ⟨0x1400064, [(0x1000000, 2)], false, [⟨24, 8, .rw, 13, []⟩, ⟨16, 5, .rw, 30, [(0, 30)]⟩, ⟨8, 7, .rw, 32, []⟩, ⟨4, 1, .rw, 1, []⟩, ⟨0, 4, .rw, 1, [(1, 15)]⟩]⟩,
   ⟨0x1400068, [(0x1000000, 2)], false, [⟨16, 16, .rw, 1024, [(1, 65535)]⟩, ⟨0, 16, .rw, 2048, [(1, 65535)]⟩]⟩,
   ⟨0x1400070, [(0x1000000, 2)], false, [⟨16, 8, .wo, 0, []⟩, ⟨8, 6, .wo, 0, []⟩, ⟨5, 1, .wo, 0, []⟩, ⟨4, 1, .wo, 0, []⟩, ⟨1, 1, .wo, 0, []⟩, ⟨0, 1, .wo, 0, []⟩]⟩,
   ⟨0x1400074, [(0x1000000, 2)], false, [⟨0, 32, .rw, 0, []⟩]⟩,
   ⟨0x1400078, [(0x1000000, 2)], false, [⟨0, 16, .rw, 0, []⟩]⟩,
   ⟨0x1400080, [(0x1000000, 2), (0x4, 2)], false, [⟨24, 1, .ro, 0, []⟩, ⟨16, 8, .ro, 0, []⟩, ⟨8, 8, .ro, 0, []⟩, ⟨0, 3, .ro, 0, []⟩]⟩,
   ⟨0x1400088, [(0x1000000, 2)], false, [⟨0, 32, .ro, 0, []⟩]⟩,
   ⟨0x140008c, [(0x1000000, 2)], false, [⟨0, 32, .ro, 0, []⟩]⟩,
   ⟨0x1400090, [(0x1000000, 2)], false, [⟨24, 8, .ro, 0, []⟩, ⟨16, 8, .ro, 0, []⟩, ⟨8, 1, .ro, 0, []⟩, ⟨0, 1, .ro, 0, []⟩]⟩,
   ⟨0x14000c0, [(0x1000000, 2), (0x4, 16)], false, [⟨16, 16, .ro, 0, []⟩, ⟨0, 16, .ro, 0, []⟩]⟩]
/-- Every register of TXD (R167). -/
def txdRegs : List RDef :=
  txdRegs0 ++ txdRegs1

/-- Registers of LFR, part 0 (R232). -/
def lfrRegs0 : List RDef :=
  [⟨0x1600000, [(0x1000000, 2)], false, [⟨15, 1, .w1c, 0, []⟩, ⟨14, 1, .w1c, 0, []⟩, ⟨13, 1, .w1c, 0, []⟩, ⟨12, 1, .w1c, 0, []⟩, ⟨11, 1, .w1c, 0, []⟩, ⟨10, 1, .w1c, 0, []⟩, ⟨9, 1, .w1c, 0, []⟩, ⟨8, 1, .w1c, 0, []⟩, ⟨7, 1, .w1c, 0, []⟩, ⟨6, 1, .w1c, 0, []⟩, ⟨5, 1, .w1c, 0, []⟩, ⟨4, 1, .w1c, 0, []⟩, ⟨3, 1, .w1c, 0, []⟩, ⟨2, 1, .w1c, 0, []⟩, ⟨1, 1, .w1c, 0, []⟩, ⟨0, 1, .w1c, 0, []⟩]⟩,
   ⟨0x1600004, [(0x1000000, 2)], false, [⟨0, 16, .rw, 0, []⟩]⟩,
   ⟨0x1600008, [(0x1000000, 2)], false, [⟨0, 6, .sch, 6, [(0, 32)]⟩]⟩,
   ⟨0x160000c, [(0x1000000, 2)], false, [⟨16, 8, .ro, 0, []⟩, ⟨10, 2, .ro, 3, []⟩, ⟨9, 1, .ro, 0, []⟩, ⟨8, 1, .ro, 0, []⟩, ⟨4, 3, .ro, 0, []⟩, ⟨1, 1, .ro, 0, []⟩, ⟨0, 1, .ro, 0, []⟩]⟩,
   ⟨0x1600010, [(0x1000000, 2)], false, [⟨16, 16, .rc, 0, []⟩, ⟨0, 16, .rc, 0, []⟩]⟩,
   ⟨0x1600020, [(0x1000000, 2), (0x4, 4)], false, [⟨31, 1, .ro, 0, []⟩, ⟨28, 2, .ro, 0, []⟩, ⟨16, 8, .ro, 0, []⟩, ⟨0, 16, .ro, 0, []⟩]⟩,
   ⟨0x1600030, [(0x1000000, 2)], false, [⟨8, 6, .ro, 0, []⟩, ⟨0, 8, .ro, 0, []⟩]⟩,
   ⟨0x1600034, [(0x1000000, 2)], false, [⟨0, 32, .ro, 0, []⟩]⟩,
   ⟨0x1600038, [(0x1000000, 2)], false, [⟨0, 20, .ro, 0, []⟩]⟩,
   ⟨0x160003c, [(0x1000000, 2)], false, [⟨0, 20, .ro, 0, []⟩]⟩,
   ⟨0x1600040, [(0x1000000, 2)], false, [⟨16, 16, .rc, 0, []⟩, ⟨0, 16, .rc, 0, []⟩]⟩,
   ⟨0x1600050, [(0x1000000, 2)], false, [⟨16, 16, .sch, 65535, []⟩, ⟨8, 1, .sch, 0, []⟩, ⟨3, 1, .sch, 0, []⟩, ⟨0, 3, .sch, 0, [(0, 4)]⟩]⟩]
/-- Registers of LFR, part 1 (R232). -/
def lfrRegs1 : List RDef :=
  [⟨0x1600054, [(0x1000000, 2)], false, [⟨24, 8, .ro, 0, []⟩, ⟨16, 8, .ro, 0, []⟩, ⟨8, 5, .ro, 0, []⟩, ⟨0, 6, .ro, 0, []⟩]⟩,
   ⟨0x1600058, [(0x1000000, 2)], false, [⟨3, 1, .ro, 0, []⟩, ⟨0, 3, .ro, 0, []⟩]⟩,
   ⟨0x1600060, [(0x1000000, 2)], false, [⟨1, 1, .sch, 0, []⟩, ⟨0, 1, .sch, 0, []⟩]⟩,
   ⟨0x1600064, [(0x1000000, 2)], false, [⟨16, 16, .rc, 0, []⟩, ⟨0, 16, .rc, 0, []⟩]⟩,
   ⟨0x1600080, [(0x1000000, 2), (0x4, 16)], false, [⟨0, 32, .rw, 0, []⟩]⟩,
   ⟨0x16000c0, [(0x1000000, 2), (0x4, 16)], false, [⟨0, 32, .ro, 0, []⟩]⟩,
   ⟨0x1600100, [(0x1000000, 2)], false, [⟨31, 1, .ro, 0, []⟩, ⟨30, 1, .ro, 0, []⟩, ⟨29, 1, .ro, 0, []⟩, ⟨28, 1, .ro, 0, []⟩, ⟨0, 20, .ro, 0, []⟩]⟩,
   ⟨0x1600104, [(0x1000000, 2)], false, [⟨0, 20, .rc, 0, []⟩]⟩,
   ⟨0x1600200, [(0x1000000, 2)], false, [⟨0, 11, .rw, 0, []⟩]⟩,
   ⟨0x1600204, [(0x1000000, 2)], false, [⟨16, 1, .w1c, 0, []⟩, ⟨17, 1, .w1c, 0, []⟩, ⟨18, 1, .w1c, 0, []⟩, ⟨19, 1, .w1c, 0, []⟩, ⟨20, 1, .w1c, 0, []⟩, ⟨21, 1, .w1c, 0, []⟩, ⟨22, 1, .w1c, 0, []⟩, ⟨23, 1, .w1c, 0, []⟩, ⟨24, 1, .w1c, 0, []⟩, ⟨25, 1, .w1c, 0, []⟩, ⟨26, 1, .w1c, 0, []⟩, ⟨27, 1, .w1c, 0, []⟩, ⟨28, 1, .w1c, 0, []⟩, ⟨29, 1, .w1c, 0, []⟩, ⟨0, 14, .ro, 0, []⟩]⟩,
   ⟨0x1600208, [(0x1000000, 2)], false, [⟨0, 32, .rc, 0, []⟩]⟩,
   ⟨0x160020c, [(0x1000000, 2)], false, [⟨0, 32, .rc, 0, []⟩]⟩]
/-- Registers of LFR, part 2 (R232). -/
def lfrRegs2 : List RDef :=
  [⟨0x1600210, [(0x1000000, 2)], false, [⟨16, 11, .ro, 0, []⟩, ⟨0, 11, .ro, 0, []⟩]⟩,
   ⟨0x1600240, [(0x1000000, 2), (0x4, 16)], false, [⟨0, 32, .ro, 0, []⟩]⟩]
/-- Every register of LFR (R232). -/
def lfrRegs : List RDef :=
  lfrRegs0 ++ lfrRegs1 ++ lfrRegs2

/-- Registers of SGP, part 0 (R278). -/
def sgpRegs0 : List RDef :=
  [⟨0x1700000, [(0x1000000, 2)], false, [⟨15, 1, .w1c, 0, []⟩, ⟨14, 1, .w1c, 0, []⟩, ⟨13, 1, .w1c, 0, []⟩, ⟨12, 1, .w1c, 0, []⟩, ⟨11, 1, .w1c, 0, []⟩, ⟨10, 1, .w1c, 0, []⟩, ⟨9, 1, .w1c, 0, []⟩, ⟨8, 1, .w1c, 0, []⟩, ⟨7, 1, .w1c, 0, []⟩, ⟨6, 1, .w1c, 0, []⟩, ⟨5, 1, .w1c, 0, []⟩, ⟨4, 1, .w1c, 0, []⟩, ⟨3, 1, .w1c, 0, []⟩, ⟨2, 1, .w1c, 0, []⟩, ⟨1, 1, .w1c, 0, []⟩, ⟨0, 1, .w1c, 0, []⟩]⟩,
   ⟨0x1700004, [(0x1000000, 2)], false, [⟨0, 16, .rw, 0, []⟩]⟩,
   ⟨0x1700008, [(0x1000000, 2)], false, [⟨16, 11, .sch, 0, [(0, 1024)]⟩, ⟨8, 1, .sch, 0, []⟩, ⟨0, 6, .sch, 24, [(0, 36)]⟩]⟩,
   ⟨0x170000c, [(0x1000000, 2)], false, [⟨16, 12, .ro, 0, []⟩, ⟨15, 1, .ro, 0, []⟩, ⟨8, 4, .ro, 0, []⟩, ⟨0, 5, .ro, 0, []⟩]⟩,
   ⟨0x1700010, [(0x1000000, 2)], false, [⟨0, 11, .sch, 1200, [(240, 1200)]⟩]⟩,
   ⟨0x1700014, [(0x1000000, 2)], false, [⟨9, 1, .rw, 0, []⟩, ⟨8, 1, .sch, 1, []⟩, ⟨0, 5, .rw, 12, [(0, 30)]⟩]⟩,
   ⟨0x1700018, [(0x1000000, 2)], false, [⟨31, 1, .ro, 0, []⟩, ⟨0, 16, .ro, 0, []⟩]⟩,
   ⟨0x1700020, [(0x1000000, 2)], false, [⟨31, 1, .rw, 1, []⟩, ⟨16, 11, .rw, 0, [(0, 1024)]⟩, ⟨0, 8, .rw, 48, [(16, 160)]⟩]⟩,
   ⟨0x1700024, [(0x1000000, 2), (0x4, 3)], false, [⟨31, 1, .rw, 0, []⟩, ⟨16, 11, .rw, 0, [(0, 1024)]⟩, ⟨0, 8, .rw, 48, [(16, 160)]⟩]⟩,
   ⟨0x1700030, [(0x1000000, 2), (0x4, 4)], false, [⟨24, 8, .ro, 0, []⟩, ⟨16, 8, .ro, 0, []⟩, ⟨0, 3, .ro, 0, []⟩]⟩,
   ⟨0x1700040, [(0x1000000, 2)], false, [⟨0, 8, .rw, 0, []⟩]⟩,
   ⟨0x1700044, [(0x1000000, 2)], false, [⟨0, 32, .rw, 0, []⟩]⟩]
/-- Registers of SGP, part 1 (R278). -/
def sgpRegs1 : List RDef :=
  [⟨0x1700048, [(0x1000000, 2)], false, [⟨0, 32, .rw, 0, []⟩]⟩,
   ⟨0x170004c, [(0x1000000, 2)], false, [⟨16, 16, .rw, 4096, []⟩, ⟨8, 8, .rw, 64, [(1, 255)]⟩, ⟨2, 1, .rw, 0, []⟩, ⟨1, 1, .rw, 1, []⟩, ⟨0, 1, .rw, 1, []⟩]⟩,
   ⟨0x1700050, [(0x1000000, 2)], false, [⟨24, 8, .ro, 0, []⟩, ⟨7, 1, .ro, 0, []⟩, ⟨6, 1, .ro, 0, []⟩, ⟨5, 1, .ro, 0, []⟩, ⟨4, 1, .ro, 0, []⟩, ⟨3, 1, .ro, 0, []⟩, ⟨2, 1, .ro, 0, []⟩, ⟨1, 1, .ro, 0, []⟩, ⟨0, 1, .ro, 0, []⟩]⟩,
   ⟨0x1700054, [(0x1000000, 2)], false, [⟨0, 16, .rw, 4096, []⟩]⟩,
   ⟨0x1700058, [(0x1000000, 2)], false, [⟨16, 6, .rw, 0, []⟩, ⟨3, 1, .rw, 0, []⟩, ⟨2, 1, .rw, 0, []⟩, ⟨1, 1, .rw, 0, []⟩, ⟨0, 1, .rw, 0, []⟩]⟩,
   ⟨0x1700060, [(0x1000000, 2)], false, [⟨0, 4, .ro, 0, []⟩]⟩,
   ⟨0x1700064, [(0x1000000, 2)], false, [⟨24, 8, .ro, 0, []⟩, ⟨22, 2, .ro, 0, []⟩, ⟨20, 2, .ro, 0, []⟩, ⟨0, 12, .ro, 0, []⟩]⟩,
   ⟨0x1700068, [(0x1000000, 2)], false, [⟨31, 1, .ro, 0, []⟩, ⟨0, 12, .ro, 0, []⟩]⟩,
   ⟨0x170006c, [(0x1000000, 2)], false, [⟨0, 32, .ro, 0, []⟩]⟩,
   ⟨0x1700070, [(0x1000000, 2)], false, [⟨0, 32, .wo, 0, []⟩]⟩,
   ⟨0x1700200, [(0x1000000, 2), (0x4, 8)], false, [⟨30, 2, .ro, 0, []⟩, ⟨29, 1, .own [8], 0, []⟩, ⟨20, 2, .own [8], 0, []⟩, ⟨12, 8, .own [8], 0, []⟩, ⟨0, 12, .own [8], 0, []⟩]⟩,
   ⟨0x1700220, [(0x1000000, 2), (0x4, 8)], false, [⟨30, 2, .ro, 0, []⟩, ⟨29, 1, .wo, 0, []⟩, ⟨20, 2, .rw, 0, []⟩, ⟨12, 8, .rw, 0, []⟩, ⟨0, 12, .rw, 0, []⟩]⟩]
/-- Registers of SGP, part 2 (R278). -/
def sgpRegs2 : List RDef :=
  [⟨0x1700100, [(0x1000000, 2), (0x40, 4), (0x4, 11)], false, [⟨0, 32, .rc, 0, []⟩]⟩]
/-- Every register of SGP (R278). -/
def sgpRegs : List RDef :=
  sgpRegs0 ++ sgpRegs1 ++ sgpRegs2

end Sys2Proof.Machine
end

