-- ==== Sys2Proof/Machine/RegMapService.lean ====
section
/-! DEFINITION. The register map of MCE, IMG, HDG, SWC, PMC, FMN, FEC, CLI, LCX: one `Fld` per named field, with the address, place, width
and reset value of the spec's register tables, and per block the list of registers that an access is judged by.
A port register (LP0/LP1) takes its port `p` first (R30); a banked register takes its bank `bk` last (R42, R305, R334). -/
namespace Sys2Proof.Machine
namespace R

-- MCE_STATUS, offset 0x0000 (R311, 11_ciphers.md)
def MCE_STATUS_SUSPEND : Fld := ⟨0x90000, 3, 1, 0⟩
def MCE_STATUS_STATE_FAIL : Fld := ⟨0x90000, 2, 1, 0⟩
def MCE_STATUS_AUTH_FAIL : Fld := ⟨0x90000, 1, 1, 0⟩
def MCE_STATUS_JOB_DONE : Fld := ⟨0x90000, 0, 1, 0⟩
-- MCE_INT_EN, offset 0x0004 (R311, 11_ciphers.md)
def MCE_INT_EN_EN : Fld := ⟨0x90004, 0, 4, 0⟩
-- MCE_SESS_SEL, offset 0x0010 (R311, 11_ciphers.md)
def MCE_SESS_SEL_SESSION : Fld := ⟨0x90010, 0, 6, 0⟩
-- MCE_SESS_STAT, offset 0x0014 (R311, 11_ciphers.md)
def MCE_SESS_STAT_STATE : Fld := ⟨0x90014, 8, 2, 0⟩
def MCE_SESS_STAT_KEY : Fld := ⟨0x90014, 0, 1, 0⟩
-- MCE_SESS_CFG, offset 0x0018 (R311, 11_ciphers.md)
def MCE_SESS_CFG_HOST_OK : Fld := ⟨0x90018, 2, 1, 0⟩
def MCE_SESS_CFG_SEDGE_OK : Fld := ⟨0x90018, 1, 1, 0⟩
def MCE_SESS_CFG_SENSITIVE : Fld := ⟨0x90018, 0, 1, 0⟩
-- MCE_KEY_SEL, offset 0x0020 (R311, 11_ciphers.md)
def MCE_KEY_SEL_SESSION : Fld := ⟨0x90020, 0, 6, 0⟩
-- MCE_KEY_k, offset 0x0024 (R311, 11_ciphers.md)
def MCE_KEY_KEY (k : Nat) : Fld := ⟨0x90024 + 0x4 * k, 0, 32, 0⟩
-- MCE_KEY_SALT, offset 0x0044 (R311, 11_ciphers.md)
def MCE_KEY_SALT_SALT : Fld := ⟨0x90044, 0, 32, 0⟩
-- MCE_KEY_LOAD, offset 0x0048 (R311, 11_ciphers.md)
def MCE_KEY_LOAD_ERASE : Fld := ⟨0x90048, 1, 1, 0⟩
def MCE_KEY_LOAD_LOAD : Fld := ⟨0x90048, 0, 1, 0⟩
-- MCE_KEY_STAT, offset 0x004C (R311, 11_ciphers.md)
def MCE_KEY_STAT_STATUS : Fld := ⟨0x9004c, 0, 8, 0⟩
-- MCE_JOB_W, offset 0x0100 (R311, 11_ciphers.md)
def MCE_JOB_W_WORD (z bk : Nat) : Fld := ⟨0x90100 + 0x4 * z + 0x10000000 * bk, 0, 32, 0⟩
-- MCE_JOB_GO, offset 0x0110 (R311, 11_ciphers.md)
def MCE_JOB_GO_GO (bk : Nat) : Fld := ⟨0x90110 + 0x10000000 * bk, 0, 32, 0⟩
-- MCE_JOB_STAT, offset 0x0114 (R311, 11_ciphers.md)
def MCE_JOB_STAT_STATUS (bk : Nat) : Fld := ⟨0x90114 + 0x10000000 * bk, 16, 8, 0⟩
def MCE_JOB_STAT_HANDLE (bk : Nat) : Fld := ⟨0x90114 + 0x10000000 * bk, 0, 16, 0⟩
-- MCE_RES_CNT, offset 0x0118 (R311, 11_ciphers.md)
def MCE_RES_CNT_COUNT (bk : Nat) : Fld := ⟨0x90118 + 0x10000000 * bk, 0, 5, 0⟩
-- MCE_RES, offset 0x011C (R311, 11_ciphers.md)
def MCE_RES_STATUS (bk : Nat) : Fld := ⟨0x9011c + 0x10000000 * bk, 16, 8, 0⟩
def MCE_RES_HANDLE (bk : Nat) : Fld := ⟨0x9011c + 0x10000000 * bk, 0, 16, 0⟩

-- IMG_STATUS, offset 0x0000 (R361, 13_foene_images_tables.md)
def IMG_STATUS_CIPHER_HELD : Fld := ⟨0xa0000, 5, 1, 0⟩
def IMG_STATUS_SLOT_INVAL : Fld := ⟨0xa0000, 4, 1, 0⟩
def IMG_STATUS_ACT_FAIL : Fld := ⟨0xa0000, 3, 1, 0⟩
def IMG_STATUS_ACT_DONE : Fld := ⟨0xa0000, 2, 1, 0⟩
def IMG_STATUS_LOAD_FAIL : Fld := ⟨0xa0000, 1, 1, 0⟩
def IMG_STATUS_LOAD_DONE : Fld := ⟨0xa0000, 0, 1, 0⟩
-- IMG_INT_EN, offset 0x0004 (R361, 13_foene_images_tables.md)
def IMG_INT_EN_EN : Fld := ⟨0xa0004, 0, 6, 0⟩
-- IMG_CMD, offset 0x0008 (R361, 13_foene_images_tables.md)
def IMG_CMD_REGION : Fld := ⟨0xa0008, 16, 4, 0⟩
def IMG_CMD_SLOT : Fld := ⟨0xa0008, 8, 3, 0⟩
def IMG_CMD_CMD : Fld := ⟨0xa0008, 0, 4, 0⟩
-- IMG_CMD_STAT, offset 0x000C (R361, 13_foene_images_tables.md)
def IMG_CMD_STAT_BUSY : Fld := ⟨0xa000c, 31, 1, 0⟩
def IMG_CMD_STAT_ENTRY : Fld := ⟨0xa000c, 16, 5, 0⟩
def IMG_CMD_STAT_STATUS : Fld := ⟨0xa000c, 0, 8, 0⟩
-- IMG_SLOT_STAT_k, offset 0x0010 (R361, 13_foene_images_tables.md)
def IMG_SLOT_STAT_SVN (k : Nat) : Fld := ⟨0xa0010 + 0x4 * k, 24, 8, 0⟩
def IMG_SLOT_STAT_REGIONS (k : Nat) : Fld := ⟨0xa0010 + 0x4 * k, 11, 9, 0⟩
def IMG_SLOT_STAT_CUST (k : Nat) : Fld := ⟨0xa0010 + 0x4 * k, 10, 1, 0⟩
def IMG_SLOT_STAT_STATE (k : Nat) : Fld := ⟨0xa0010 + 0x4 * k, 0, 2, 0⟩
-- IMG_INFORCE, offset 0x0030 (R361, 13_foene_images_tables.md)
def IMG_INFORCE_SLOT (r : Nat) : Fld := ⟨0xa0030, 3 * r, 3, 7⟩
-- IMG_STAGE, offset 0x0034 (R361, 13_foene_images_tables.md)
def IMG_STAGE_BUSY : Fld := ⟨0xa0034, 31, 1, 0⟩
def IMG_STAGE_QUEUED : Fld := ⟨0xa0034, 24, 3, 0⟩
def IMG_STAGE_REGION : Fld := ⟨0xa0034, 20, 4, 0⟩
def IMG_STAGE_SLOT : Fld := ⟨0xa0034, 16, 3, 0⟩
def IMG_STAGE_DONE : Fld := ⟨0xa0034, 0, 7, 0⟩
-- IMG_TBL_SEL, offset 0x0040 (R361, 13_foene_images_tables.md)
def IMG_TBL_SEL_TABLE : Fld := ⟨0xa0040, 0, 16, 0⟩
-- IMG_TBL_INFO, offset 0x0044 (R361, 13_foene_images_tables.md)
def IMG_TBL_INFO_FOUND : Fld := ⟨0xa0044, 31, 1, 0⟩
def IMG_TBL_INFO_TYPE : Fld := ⟨0xa0044, 16, 8, 0⟩
def IMG_TBL_INFO_REGION : Fld := ⟨0xa0044, 12, 4, 0⟩
def IMG_TBL_INFO_LOCKED : Fld := ⟨0xa0044, 4, 1, 0⟩
def IMG_TBL_INFO_PER_DIR : Fld := ⟨0xa0044, 3, 1, 0⟩
def IMG_TBL_INFO_ACTIVE_RX : Fld := ⟨0xa0044, 2, 1, 0⟩
def IMG_TBL_INFO_ACTIVE_TX : Fld := ⟨0xa0044, 1, 1, 0⟩
-- IMG_TBL_BASE, offset 0x0048 (R361, 13_foene_images_tables.md)
def IMG_TBL_BASE_VALUE : Fld := ⟨0xa0048, 0, 22, 0⟩
-- IMG_TBL_WORDS, offset 0x004C (R361, 13_foene_images_tables.md)
def IMG_TBL_WORDS_VALUE : Fld := ⟨0xa004c, 0, 22, 0⟩

-- HDG_STATUS, offset 0x0000 (R362, 13_foene_images_tables.md)
def HDG_STATUS_CAL_FAIL : Fld := ⟨0xb0000, 6, 1, 0⟩
def HDG_STATUS_SAMP_LOST : Fld := ⟨0xb0000, 5, 1, 0⟩
def HDG_STATUS_SAMPLE : Fld := ⟨0xb0000, 4, 1, 0⟩
def HDG_STATUS_HOST_EVENT : Fld := ⟨0xb0000, 3, 1, 0⟩
def HDG_STATUS_READ_ERR : Fld := ⟨0xb0000, 2, 1, 0⟩
def HDG_STATUS_ACT_FAIL : Fld := ⟨0xb0000, 1, 1, 0⟩
def HDG_STATUS_SEQ_ERR : Fld := ⟨0xb0000, 0, 1, 0⟩
-- HDG_INT_EN, offset 0x0004 (R362, 13_foene_images_tables.md)
def HDG_INT_EN_EN : Fld := ⟨0xb0004, 0, 7, 0⟩
-- HDG_RUN, offset 0x0008 (R362, 13_foene_images_tables.md)
def HDG_RUN_RUN : Fld := ⟨0xb0008, 0, 16, 0⟩
-- HDG_POST, offset 0x000C (R362, 13_foene_images_tables.md)
def HDG_POST_SEQ : Fld := ⟨0xb000c, 8, 4, 0⟩
def HDG_POST_CODE : Fld := ⟨0xb000c, 0, 8, 0⟩
-- HDG_SEQ_STAT_n, offset 0x0100 (R362, 13_foene_images_tables.md)
def HDG_SEQ_STAT_EXPIRED (n : Nat) : Fld := ⟨0xb0100 + 0x4 * n, 24, 8, 0⟩
def HDG_SEQ_STAT_LAST_FAIL (n : Nat) : Fld := ⟨0xb0100 + 0x4 * n, 16, 8, 0⟩
def HDG_SEQ_STAT_RUN (n : Nat) : Fld := ⟨0xb0100 + 0x4 * n, 12, 2, 0⟩
def HDG_SEQ_STAT_STATE (n : Nat) : Fld := ⟨0xb0100 + 0x4 * n, 0, 10, 0⟩
-- HDG_VAR_n_i, offset 0x0200 (R362, 13_foene_images_tables.md)
def HDG_VAR_VALUE (n i : Nat) : Fld := ⟨0xb0200 + 0x20 * n + 0x4 * i, 0, 32, 0⟩
-- HDG_HEV_CNT, offset 0x0400 (R362, 13_foene_images_tables.md)
def HDG_HEV_CNT_COUNT : Fld := ⟨0xb0400, 0, 8, 0⟩
-- HDG_HEV_SRC, offset 0x0404 (R362, 13_foene_images_tables.md)
def HDG_HEV_SRC_SEQ : Fld := ⟨0xb0404, 0, 4, 0⟩
-- HDG_HEV_VAL, offset 0x0408 (R362, 13_foene_images_tables.md)
def HDG_HEV_VAL_VALUE : Fld := ⟨0xb0408, 0, 32, 0⟩
-- HDG_SAMP_CTRL, offset 0x0410 (R362, 13_foene_images_tables.md)
def HDG_SAMP_CTRL_SEQ_MASK : Fld := ⟨0xb0410, 16, 16, 0⟩
def HDG_SAMP_CTRL_COUNTER : Fld := ⟨0xb0410, 0, 13, 0⟩
-- HDG_SAMP_CNT, offset 0x0414 (R362, 13_foene_images_tables.md)
def HDG_SAMP_CNT_COUNT : Fld := ⟨0xb0414, 0, 5, 0⟩
-- HDG_SAMP, offset 0x0418 (R362, 13_foene_images_tables.md)
def HDG_SAMP_SEQ : Fld := ⟨0xb0418, 12, 4, 0⟩
def HDG_SAMP_STATE : Fld := ⟨0xb0418, 0, 10, 0⟩
-- HDG_CAL_FAIL, offset 0x0420 (R362, 13_foene_images_tables.md)
def HDG_CAL_FAIL_SEQ : Fld := ⟨0xb0420, 24, 4, 0⟩
def HDG_CAL_FAIL_STATUS : Fld := ⟨0xb0420, 16, 8, 0⟩
def HDG_CAL_FAIL_HANDLE : Fld := ⟨0xb0420, 0, 16, 0⟩
-- HDG_DOH_RX_p_w, offset 0x0500 (R362, 13_foene_images_tables.md)
def HDG_DOH_RX_BYTES (p w : Nat) : Fld := ⟨0xb0500 + 0x40 * p + 0x4 * w, 0, 32, 0⟩

-- SWC_CFG, offset 0x0000 (R57, 02_swath_time.md)
def SWC_CFG_RSV_RANK3 : Fld := ⟨0x100000, 0, 16, 4096⟩
-- SWC_STATUS, offset 0x0004 (R57, 02_swath_time.md)
def SWC_STATUS_HOST_EVENT : Fld := ⟨0x100004, 7, 1, 0⟩
def SWC_STATUS_EXEC_ERROR : Fld := ⟨0x100004, 6, 1, 0⟩
def SWC_STATUS_RESULT_LOST : Fld := ⟨0x100004, 5, 1, 0⟩
def SWC_STATUS_HORIZON : Fld := ⟨0x100004, 4, 1, 0⟩
def SWC_STATUS_STALE : Fld := ⟨0x100004, 3, 1, 0⟩
def SWC_STATUS_FULL : Fld := ⟨0x100004, 2, 1, 0⟩
def SWC_STATUS_CONFLICT : Fld := ⟨0x100004, 1, 1, 0⟩
def SWC_STATUS_LATE : Fld := ⟨0x100004, 0, 1, 0⟩
-- SWC_INT_EN, offset 0x0008 (R57, 02_swath_time.md)
def SWC_INT_EN_EN : Fld := ⟨0x100008, 0, 8, 0⟩
-- SWC_POOL, offset 0x000C (R57, 02_swath_time.md)
def SWC_POOL_FREE : Fld := ⟨0x10000c, 0, 17, 65536⟩
-- SWC_BKT_MAX, offset 0x0010 (R57, 02_swath_time.md)
def SWC_BKT_MAX_MAX : Fld := ⟨0x100010, 0, 9, 0⟩
-- SWC_POS_LO_d, offset 0x0040 (R57, 02_swath_time.md)
def SWC_POS_LO_SWATH_L (d : Nat) : Fld := ⟨0x100040 + 0x10 * d, 8, 24, 0⟩
def SWC_POS_LO_MFAS (d : Nat) : Fld := ⟨0x100040 + 0x10 * d, 0, 8, 0⟩
-- SWC_POS_HI_d, offset 0x0044 (R57, 02_swath_time.md)
def SWC_POS_HI_VALID (d : Nat) : Fld := ⟨0x100044 + 0x10 * d, 31, 1, 0⟩
def SWC_POS_HI_SWATH_H (d : Nat) : Fld := ⟨0x100044 + 0x10 * d, 0, 24, 0⟩
-- SWC_TSW_LOAD_LO_p, offset 0x0048 (R57, 02_swath_time.md)
def SWC_TSW_LOAD_LO_SWN_L (p : Nat) : Fld := ⟨0x100048 + 0x20 * p, 0, 32, 0⟩
-- SWC_TSW_LOAD_HI_p, offset 0x004C (R57, 02_swath_time.md)
def SWC_TSW_LOAD_HI_SWN_H (p : Nat) : Fld := ⟨0x10004c + 0x20 * p, 0, 16, 0⟩
-- SWC_PEND_d, offset 0x0080 (R57, 02_swath_time.md)
def SWC_PEND_COUNT (d : Nat) : Fld := ⟨0x100080 + 0x4 * d, 0, 17, 0⟩
-- SWC_BKT_SEL, offset 0x0090 (R57, 02_swath_time.md)
def SWC_BKT_SEL_BUCKET : Fld := ⟨0x100090, 0, 18, 0⟩
-- SWC_BKT_OCC, offset 0x0094 (R57, 02_swath_time.md)
def SWC_BKT_OCC_OCC : Fld := ⟨0x100094, 0, 9, 0⟩
-- SWC_INS_W, offset 0x0100 (R57, 02_swath_time.md)
def SWC_INS_W_WORD (z bk : Nat) : Fld := ⟨0x100100 + 0x4 * z + 0x10000000 * bk, 0, 32, 0⟩
-- SWC_INS_GO, offset 0x0110 (R57, 02_swath_time.md)
def SWC_INS_GO_GO (bk : Nat) : Fld := ⟨0x100110 + 0x10000000 * bk, 0, 32, 0⟩
-- SWC_INS_STAT, offset 0x0114 (R57, 02_swath_time.md)
def SWC_INS_STAT_STATUS (bk : Nat) : Fld := ⟨0x100114 + 0x10000000 * bk, 16, 8, 0⟩
def SWC_INS_STAT_HANDLE (bk : Nat) : Fld := ⟨0x100114 + 0x10000000 * bk, 0, 16, 0⟩
-- SWC_REM, offset 0x0118 (R57, 02_swath_time.md)
def SWC_REM_HANDLE (bk : Nat) : Fld := ⟨0x100118 + 0x10000000 * bk, 0, 16, 0⟩
-- SWC_REM_STAT, offset 0x011C (R57, 02_swath_time.md)
def SWC_REM_STAT_STATUS (bk : Nat) : Fld := ⟨0x10011c + 0x10000000 * bk, 0, 8, 0⟩
-- SWC_RD_IDX, offset 0x0120 (R57, 02_swath_time.md)
def SWC_RD_IDX_HANDLE (bk : Nat) : Fld := ⟨0x100120 + 0x10000000 * bk, 0, 16, 0⟩
-- SWC_RD_W, offset 0x0130 (R57, 02_swath_time.md)
def SWC_RD_W_WORD (z bk : Nat) : Fld := ⟨0x100130 + 0x4 * z + 0x10000000 * bk, 0, 32, 0⟩
-- SWC_RES_CNT, offset 0x0140 (R57, 02_swath_time.md)
def SWC_RES_CNT_COUNT (bk : Nat) : Fld := ⟨0x100140 + 0x10000000 * bk, 0, 9, 0⟩
-- SWC_RES_0, offset 0x0144 (R57, 02_swath_time.md)
def SWC_RES_0_LATE_FRAMES (bk : Nat) : Fld := ⟨0x100144 + 0x10000000 * bk, 24, 8, 0⟩
def SWC_RES_0_STATUS (bk : Nat) : Fld := ⟨0x100144 + 0x10000000 * bk, 16, 8, 0⟩
def SWC_RES_0_HANDLE (bk : Nat) : Fld := ⟨0x100144 + 0x10000000 * bk, 0, 16, 0⟩
-- SWC_RES_1, offset 0x0148 (R57, 02_swath_time.md)
def SWC_RES_1_VALUE (bk : Nat) : Fld := ⟨0x100148 + 0x10000000 * bk, 0, 32, 0⟩

-- PMC_STATUS, offset 0x0000 (R480, 19_counters_field_monitor.md)
def PMC_STATUS_PRESET : Fld := ⟨0x200000, 2, 1, 0⟩
def PMC_STATUS_OVERFLOW : Fld := ⟨0x200000, 1, 1, 0⟩
def PMC_STATUS_SNAP : Fld := ⟨0x200000, 0, 1, 0⟩
-- PMC_INT_EN, offset 0x0004 (R480, 19_counters_field_monitor.md)
def PMC_INT_EN_EN : Fld := ⟨0x200004, 0, 3, 0⟩
-- PMC_SNAP_SEQ_LO, offset 0x0008 (R480, 19_counters_field_monitor.md)
def PMC_SNAP_SEQ_LO_SEQ_L : Fld := ⟨0x200008, 0, 32, 0⟩
-- PMC_SNAP_SEQ_HI, offset 0x000C (R480, 19_counters_field_monitor.md)
def PMC_SNAP_SEQ_HI_SEQ_H : Fld := ⟨0x20000c, 0, 16, 0⟩
-- PMC_SNAP_POS_LO, offset 0x0010 (R480, 19_counters_field_monitor.md)
def PMC_SNAP_POS_LO_SW_L : Fld := ⟨0x200010, 0, 32, 0⟩
-- PMC_SNAP_POS_HI, offset 0x0014 (R480, 19_counters_field_monitor.md)
def PMC_SNAP_POS_HI_PD : Fld := ⟨0x200014, 16, 2, 0⟩
def PMC_SNAP_POS_HI_SW_H : Fld := ⟨0x200014, 0, 16, 0⟩
-- PMC_PRESET_LO, offset 0x0020 (R480, 19_counters_field_monitor.md)
def PMC_PRESET_LO_PERIOD_L : Fld := ⟨0x200020, 0, 32, 0⟩
-- PMC_PRESET_HI, offset 0x0024 (R480, 19_counters_field_monitor.md)
def PMC_PRESET_HI_PERIOD_H : Fld := ⟨0x200024, 0, 16, 0⟩
-- PMC_PRESET_CNT_LO, offset 0x0028 (R480, 19_counters_field_monitor.md)
def PMC_PRESET_CNT_LO_COUNT_L : Fld := ⟨0x200028, 0, 32, 0⟩
-- PMC_PRESET_CNT_HI, offset 0x002C (R480, 19_counters_field_monitor.md)
def PMC_PRESET_CNT_HI_COUNT_H : Fld := ⟨0x20002c, 0, 16, 0⟩
-- PMC_OVF_k, offset 0x0100 (R480, 19_counters_field_monitor.md)
def PMC_OVF_BITS (k b : Nat) : Fld := ⟨0x200100 + 0x4 * k, 1 * b, 1, 0⟩
-- PMC_MODE_k, offset 0x0400 (R480, 19_counters_field_monitor.md)
def PMC_MODE_BITS (k b : Nat) : Fld := ⟨0x200400 + 0x4 * k, 1 * b, 1, 0⟩
-- PMC_CNT_LO_i, offset 0x10000 (R480, 19_counters_field_monitor.md)
def PMC_CNT_LO_COUNT_L (i : Nat) : Fld := ⟨0x210000 + 0x8 * i, 0, 32, 0⟩
-- PMC_CNT_HI_i, offset 0x10004 (R480, 19_counters_field_monitor.md)
def PMC_CNT_HI_OVF (i : Nat) : Fld := ⟨0x210004 + 0x8 * i, 16, 1, 0⟩
def PMC_CNT_HI_COUNT_H (i : Nat) : Fld := ⟨0x210004 + 0x8 * i, 0, 16, 0⟩
-- PMC_SHD_LO_i, offset 0x20000 (R480, 19_counters_field_monitor.md)
def PMC_SHD_LO_COUNT_L (i : Nat) : Fld := ⟨0x220000 + 0x8 * i, 0, 32, 0⟩
-- PMC_SHD_HI_i, offset 0x20004 (R480, 19_counters_field_monitor.md)
def PMC_SHD_HI_OVF (i : Nat) : Fld := ⟨0x220004 + 0x8 * i, 16, 1, 0⟩
def PMC_SHD_HI_COUNT_H (i : Nat) : Fld := ⟨0x220004 + 0x8 * i, 0, 16, 0⟩

-- FMN_STATUS, offset 0x0000 (R481, 19_counters_field_monitor.md)
def FMN_STATUS_SETTLED : Fld := ⟨0x400000, 4, 1, 0⟩
def FMN_STATUS_STALL : Fld := ⟨0x400000, 3, 1, 0⟩
def FMN_STATUS_SATURATE : Fld := ⟨0x400000, 2, 1, 0⟩
def FMN_STATUS_SOP_FALL : Fld := ⟨0x400000, 1, 1, 0⟩
def FMN_STATUS_SOP_RISE : Fld := ⟨0x400000, 0, 1, 0⟩
-- FMN_INT_EN, offset 0x0004 (R481, 19_counters_field_monitor.md)
def FMN_INT_EN_EN : Fld := ⟨0x400004, 0, 5, 0⟩
-- FMN_CTRL_c, offset 0x0100 (R481, 19_counters_field_monitor.md)
def FMN_CTRL_N (c : Nat) : Fld := ⟨0x400100 + 0x40 * c, 24, 8, 1⟩
def FMN_CTRL_DM1 (c : Nat) : Fld := ⟨0x400100 + 0x40 * c, 16, 8, 0⟩
def FMN_CTRL_DC_TC (c : Nat) : Fld := ⟨0x400100 + 0x40 * c, 12, 4, 0⟩
def FMN_CTRL_DC_MODE (c : Nat) : Fld := ⟨0x400100 + 0x40 * c, 8, 2, 0⟩
def FMN_CTRL_HB (c : Nat) : Fld := ⟨0x400100 + 0x40 * c, 4, 2, 0⟩
def FMN_CTRL_RATE (c : Nat) : Fld := ⟨0x400100 + 0x40 * c, 1, 1, 0⟩
def FMN_CTRL_EN (c : Nat) : Fld := ⟨0x400100 + 0x40 * c, 0, 1, 0⟩
-- FMN_SRC_c, offset 0x0104 (R481, 19_counters_field_monitor.md)
def FMN_SRC_TAP (c : Nat) : Fld := ⟨0x400104 + 0x40 * c, 16, 9, 0⟩
def FMN_SRC_SEL (c : Nat) : Fld := ⟨0x400104 + 0x40 * c, 8, 4, 0⟩
def FMN_SRC_COMP (c : Nat) : Fld := ⟨0x400104 + 0x40 * c, 6, 2, 0⟩
def FMN_SRC_PORT (c : Nat) : Fld := ⟨0x400104 + 0x40 * c, 4, 1, 0⟩
def FMN_SRC_SRC (c : Nat) : Fld := ⟨0x400104 + 0x40 * c, 0, 4, 0⟩
-- FMN_STAT_c, offset 0x0108 (R481, 19_counters_field_monitor.md)
def FMN_STAT_WIDX (c : Nat) : Fld := ⟨0x400108 + 0x40 * c, 16, 10, 0⟩
def FMN_STAT_ABOVE (c : Nat) : Fld := ⟨0x400108 + 0x40 * c, 10, 1, 0⟩
def FMN_STAT_SAT (c : Nat) : Fld := ⟨0x400108 + 0x40 * c, 9, 1, 0⟩
def FMN_STAT_STALLED (c : Nat) : Fld := ⟨0x400108 + 0x40 * c, 8, 1, 0⟩
def FMN_STAT_SETTLE_LEFT (c : Nat) : Fld := ⟨0x400108 + 0x40 * c, 0, 8, 0⟩
-- FMN_COUNT_LO_c, offset 0x010C (R481, 19_counters_field_monitor.md)
def FMN_COUNT_LO_COUNT_L (c : Nat) : Fld := ⟨0x40010c + 0x40 * c, 0, 32, 0⟩
-- FMN_COUNT_HI_c, offset 0x0110 (R481, 19_counters_field_monitor.md)
def FMN_COUNT_HI_COUNT_H (c : Nat) : Fld := ⟨0x400110 + 0x40 * c, 0, 16, 0⟩
-- FMN_T0_LO_c, offset 0x0114 (R481, 19_counters_field_monitor.md)
def FMN_T0_LO_P_L (c : Nat) : Fld := ⟨0x400114 + 0x40 * c, 0, 32, 0⟩
-- FMN_T0_HI_c, offset 0x0118 (R481, 19_counters_field_monitor.md)
def FMN_T0_HI_VALID (c : Nat) : Fld := ⟨0x400118 + 0x40 * c, 31, 1, 0⟩
def FMN_T0_HI_P_H (c : Nat) : Fld := ⟨0x400118 + 0x40 * c, 0, 24, 0⟩
-- FMN_DCEST_c, offset 0x011C (R481, 19_counters_field_monitor.md)
def FMN_DCEST_EST (c : Nat) : Fld := ⟨0x40011c + 0x40 * c, 0, 32, 0⟩
-- FMN_DET_HI_c, offset 0x0120 (R481, 19_counters_field_monitor.md)
def FMN_DET_HI_DET_EN (c : Nat) : Fld := ⟨0x400120 + 0x40 * c, 31, 1, 0⟩
def FMN_DET_HI_THR (c : Nat) : Fld := ⟨0x400120 + 0x40 * c, 0, 24, 0⟩
-- FMN_DET_LO_c, offset 0x0124 (R481, 19_counters_field_monitor.md)
def FMN_DET_LO_THR (c : Nat) : Fld := ⟨0x400124 + 0x40 * c, 0, 24, 0⟩
-- FMN_DET_STAT_c, offset 0x0128 (R481, 19_counters_field_monitor.md)
def FMN_DET_STAT_KIND (c : Nat) : Fld := ⟨0x400128 + 0x40 * c, 31, 1, 0⟩
def FMN_DET_STAT_RATE (c : Nat) : Fld := ⟨0x400128 + 0x40 * c, 0, 24, 0⟩
-- FMN_DET_SW_c, offset 0x012C (R481, 19_counters_field_monitor.md)
def FMN_DET_SW_SWATH (c : Nat) : Fld := ⟨0x40012c + 0x40 * c, 0, 32, 0⟩
-- FMN_COEF_c_q, offset 0x1000 (R481, 19_counters_field_monitor.md)
def FMN_COEF_COEF (c q : Nat) : Fld := ⟨0x401000 + 0x200 * c + 0x4 * q, 0, 18, 0⟩

-- FEC_STATUS, offset 0x0000 (R195, 07_fec_pool.md)
def FEC_STATUS_GRP_OFF : Fld := ⟨0x800000, 12, 1, 0⟩
def FEC_STATUS_GRP_READY : Fld := ⟨0x800000, 11, 1, 0⟩
def FEC_STATUS_GRP_FAIL : Fld := ⟨0x800000, 10, 1, 0⟩
def FEC_STATUS_SLOT_OVERRUN : Fld := ⟨0x800000, 9, 1, 0⟩
def FEC_STATUS_MEM_UNCORR : Fld := ⟨0x800000, 8, 1, 0⟩
def FEC_STATUS_DM_INVALID (b : Nat) : Fld := ⟨0x800000, 6 + 1 * b, 1, 0⟩
def FEC_STATUS_CWP_SLIP (b : Nat) : Fld := ⟨0x800000, 4 + 1 * b, 1, 0⟩
def FEC_STATUS_STARVED (b : Nat) : Fld := ⟨0x800000, 2 + 1 * b, 1, 0⟩
def FEC_STATUS_UNCORR (b : Nat) : Fld := ⟨0x800000, 1 * b, 1, 0⟩
-- FEC_INT_EN, offset 0x0004 (R195, 07_fec_pool.md)
def FEC_INT_EN_EN : Fld := ⟨0x800004, 0, 13, 0⟩
-- FEC_POOL, offset 0x0008 (R195, 07_fec_pool.md)
def FEC_POOL_SLOTS_REQ : Fld := ⟨0x800008, 16, 14, 0⟩
def FEC_POOL_W : Fld := ⟨0x800008, 0, 7, 32⟩
-- FEC_SHARE, offset 0x000C (R195, 07_fec_pool.md)
def FEC_SHARE_WGT_1 : Fld := ⟨0x80000c, 8, 8, 128⟩
def FEC_SHARE_WGT_0 : Fld := ⟨0x80000c, 0, 8, 128⟩
-- FEC_CAP_p, offset 0x0010 (R195, 07_fec_pool.md)
def FEC_CAP_THROTTLED (p : Nat) : Fld := ⟨0x800010 + 0x4 * p, 16, 1, 0⟩
def FEC_CAP_EFFECTIVE (p : Nat) : Fld := ⟨0x800010 + 0x4 * p, 8, 6, 48⟩
def FEC_CAP_CAP (p : Nat) : Fld := ⟨0x800010 + 0x4 * p, 0, 6, 48⟩
-- FEC_OCC, offset 0x0018 (R195, 07_fec_pool.md)
def FEC_OCC_ENGINES : Fld := ⟨0x800018, 16, 9, 0⟩
def FEC_OCC_SLOTS : Fld := ⟨0x800018, 0, 14, 0⟩
-- FEC_OCC_PEAK, offset 0x001C (R195, 07_fec_pool.md)
def FEC_OCC_PEAK_SLOTS : Fld := ⟨0x80001c, 0, 14, 0⟩
-- FEC_GRP_CMD, offset 0x0020 (R195, 07_fec_pool.md)
def FEC_GRP_CMD_CMD : Fld := ⟨0x800020, 8, 2, 0⟩
def FEC_GRP_CMD_GROUP : Fld := ⟨0x800020, 0, 4, 0⟩
-- FEC_GRP_CMD_STAT, offset 0x0024 (R195, 07_fec_pool.md)
def FEC_GRP_CMD_STAT_STATUS : Fld := ⟨0x800024, 0, 8, 0⟩
-- FEC_GRP_JOIN, offset 0x0028 (R195, 07_fec_pool.md)
def FEC_GRP_JOIN_JOIN : Fld := ⟨0x800028, 0, 16, 0⟩
-- FEC_GRP_STATE_0, offset 0x0030 (R195, 07_fec_pool.md)
def FEC_GRP_STATE_0_STATE (h : Nat) : Fld := ⟨0x800030, 4 * h, 4, 2⟩
-- FEC_GRP_STATE_1, offset 0x0034 (R195, 07_fec_pool.md)
def FEC_GRP_STATE_1_STATE (h : Nat) : Fld := ⟨0x800034, 4 * h, 4, 2⟩
-- FEC_SHADOW, offset 0x0038 (R195, 07_fec_pool.md)
def FEC_SHADOW_SHADOW_SW : Fld := ⟨0x800038, 0, 16, 16⟩
-- FEC_STAT_CLR, offset 0x003C (R195, 07_fec_pool.md)
def FEC_STAT_CLR_PORT : Fld := ⟨0x80003c, 0, 2, 0⟩
-- FEC_CWP_p, offset 0x0040 (R195, 07_fec_pool.md)
def FEC_CWP_CWP (p : Nat) : Fld := ⟨0x800040 + 0x4 * p, 0, 18, 0⟩
-- FEC_CNT_LO_p_k, offset 0x0100 (R195, 07_fec_pool.md)
def FEC_CNT_LO_COUNT_L (p k : Nat) : Fld := ⟨0x800100 + 0x80 * p + 0x8 * k, 0, 32, 0⟩
-- FEC_CNT_HI_p_k, offset 0x0104 (R195, 07_fec_pool.md)
def FEC_CNT_HI_COUNT_H (p k : Nat) : Fld := ⟨0x800104 + 0x80 * p + 0x8 * k, 0, 16, 0⟩
-- FEC_IHIST_LO_p_i, offset 0x1000 (R195, 07_fec_pool.md)
def FEC_IHIST_LO_COUNT_L (p i : Nat) : Fld := ⟨0x801000 + 0x200 * p + 0x8 * i, 0, 32, 0⟩
-- FEC_IHIST_HI_p_i, offset 0x1004 (R195, 07_fec_pool.md)
def FEC_IHIST_HI_COUNT_H (p i : Nat) : Fld := ⟨0x801004 + 0x200 * p + 0x8 * i, 0, 16, 0⟩
-- FEC_MHIST_LO_p_b, offset 0x1400 (R195, 07_fec_pool.md)
def FEC_MHIST_LO_COUNT_L (p b : Nat) : Fld := ⟨0x801400 + 0x200 * p + 0x8 * b, 0, 32, 0⟩
-- FEC_MHIST_HI_p_b, offset 0x1404 (R195, 07_fec_pool.md)
def FEC_MHIST_HI_COUNT_H (p b : Nat) : Fld := ⟨0x801404 + 0x200 * p + 0x8 * b, 0, 16, 0⟩

-- CLI_STATUS, offset 0x0000 (R248, 09_client_side.md)
def CLI_STATUS_RATE_ADJ : Fld := ⟨0x3000000, 8, 1, 0⟩
def CLI_STATUS_REPLACE : Fld := ⟨0x3000000, 7, 1, 0⟩
def CLI_STATUS_FLEXO_DEF : Fld := ⟨0x3000000, 6, 1, 0⟩
def CLI_STATUS_HI_SER : Fld := ⟨0x3000000, 5, 1, 0⟩
def CLI_STATUS_SKEW : Fld := ⟨0x3000000, 4, 1, 0⟩
def CLI_STATUS_GRP_DOWN : Fld := ⟨0x3000000, 3, 1, 0⟩
def CLI_STATUS_GRP_UP : Fld := ⟨0x3000000, 2, 1, 0⟩
def CLI_STATUS_LANE_LOS : Fld := ⟨0x3000000, 1, 1, 0⟩
def CLI_STATUS_LANE_FAIL : Fld := ⟨0x3000000, 0, 1, 0⟩
-- CLI_INT_EN, offset 0x0004 (R248, 09_client_side.md)
def CLI_INT_EN_EN : Fld := ⟨0x3000004, 0, 9, 0⟩
-- CLI_LANE_CTRL_n, offset 0x1000 (R248, 09_client_side.md)
def CLI_LANE_CTRL_PRBS_RX (n : Nat) : Fld := ⟨0x3001000 + 0x10 * n, 16, 2, 0⟩
def CLI_LANE_CTRL_PRBS_TX (n : Nat) : Fld := ⟨0x3001000 + 0x10 * n, 12, 2, 0⟩
def CLI_LANE_CTRL_LOOP (n : Nat) : Fld := ⟨0x3001000 + 0x10 * n, 8, 2, 0⟩
def CLI_LANE_CTRL_RATE (n : Nat) : Fld := ⟨0x3001000 + 0x10 * n, 4, 3, 0⟩
def CLI_LANE_CTRL_RX_EN (n : Nat) : Fld := ⟨0x3001000 + 0x10 * n, 1, 1, 0⟩
def CLI_LANE_CTRL_TX_EN (n : Nat) : Fld := ⟨0x3001000 + 0x10 * n, 0, 1, 0⟩
-- CLI_LANE_STAT_n, offset 0x1004 (R248, 09_client_side.md)
def CLI_LANE_STAT_PRBS_LOCK (n : Nat) : Fld := ⟨0x3001004 + 0x10 * n, 10, 1, 0⟩
def CLI_LANE_STAT_CDR_LOCK (n : Nat) : Fld := ⟨0x3001004 + 0x10 * n, 9, 1, 0⟩
def CLI_LANE_STAT_LOS (n : Nat) : Fld := ⟨0x3001004 + 0x10 * n, 8, 1, 0⟩
def CLI_LANE_STAT_RX_STATE (n : Nat) : Fld := ⟨0x3001004 + 0x10 * n, 4, 3, 0⟩
def CLI_LANE_STAT_TX_STATE (n : Nat) : Fld := ⟨0x3001004 + 0x10 * n, 0, 3, 0⟩
-- CLI_LANE_PRBS_n, offset 0x1008 (R248, 09_client_side.md)
def CLI_LANE_PRBS_ERRORS (n : Nat) : Fld := ⟨0x3001008 + 0x10 * n, 0, 32, 0⟩
-- CLI_GRP_STAT_g, offset 0x2000 (R248, 09_client_side.md)
def CLI_GRP_STAT_LANE_LOCK (g : Nat) : Fld := ⟨0x3002000 + 0x20 * g, 16, 8, 0⟩
def CLI_GRP_STAT_REPLACE_OUT (g : Nat) : Fld := ⟨0x3002000 + 0x20 * g, 8, 1, 0⟩
def CLI_GRP_STAT_REPLACE_IN (g : Nat) : Fld := ⟨0x3002000 + 0x20 * g, 7, 1, 0⟩
def CLI_GRP_STAT_RF_RX (g : Nat) : Fld := ⟨0x3002000 + 0x20 * g, 6, 1, 0⟩
def CLI_GRP_STAT_SKEW_ERR (g : Nat) : Fld := ⟨0x3002000 + 0x20 * g, 5, 1, 0⟩
def CLI_GRP_STAT_HI_SER (g : Nat) : Fld := ⟨0x3002000 + 0x20 * g, 4, 1, 0⟩
def CLI_GRP_STAT_STATE (g : Nat) : Fld := ⟨0x3002000 + 0x20 * g, 0, 3, 0⟩
-- CLI_GRP_SKEW_g, offset 0x2004 (R248, 09_client_side.md)
def CLI_GRP_SKEW_SKEW (g : Nat) : Fld := ⟨0x3002004 + 0x20 * g, 0, 16, 0⟩
-- CLI_GRP_CCW_LO_g, offset 0x2008 (R248, 09_client_side.md)
def CLI_GRP_CCW_LO_COUNT_L (g : Nat) : Fld := ⟨0x3002008 + 0x20 * g, 0, 32, 0⟩
-- CLI_GRP_CCW_HI_g, offset 0x200C (R248, 09_client_side.md)
def CLI_GRP_CCW_HI_COUNT_H (g : Nat) : Fld := ⟨0x300200c + 0x20 * g, 0, 16, 0⟩
-- CLI_GRP_UCW_LO_g, offset 0x2010 (R248, 09_client_side.md)
def CLI_GRP_UCW_LO_COUNT_L (g : Nat) : Fld := ⟨0x3002010 + 0x20 * g, 0, 32, 0⟩
-- CLI_GRP_UCW_HI_g, offset 0x2014 (R248, 09_client_side.md)
def CLI_GRP_UCW_HI_COUNT_H (g : Nat) : Fld := ⟨0x3002014 + 0x20 * g, 0, 16, 0⟩
-- CLI_GRP_SYM_g, offset 0x2018 (R248, 09_client_side.md)
def CLI_GRP_SYM_COUNT (g : Nat) : Fld := ⟨0x3002018 + 0x20 * g, 0, 32, 0⟩
-- CLI_TRIB_SEL, offset 0x3000 (R248, 09_client_side.md)
def CLI_TRIB_SEL_PORT : Fld := ⟨0x3003000, 8, 1, 0⟩
def CLI_TRIB_SEL_TRIB : Fld := ⟨0x3003000, 0, 7, 0⟩
-- CLI_TRIB_STAT, offset 0x3004 (R248, 09_client_side.md)
def CLI_TRIB_STAT_SLOTS : Fld := ⟨0x3003004, 16, 9, 0⟩
def CLI_TRIB_STAT_CSF_RX : Fld := ⟨0x3003004, 3, 1, 0⟩
def CLI_TRIB_STAT_EGR_REPLACE : Fld := ⟨0x3003004, 2, 1, 0⟩
def CLI_TRIB_STAT_ING_REPLACE : Fld := ⟨0x3003004, 1, 1, 0⟩
def CLI_TRIB_STAT_IN_USE : Fld := ⟨0x3003004, 0, 1, 0⟩

-- LCX_STATUS, offset 0x0000 (R310, 11_ciphers.md)
def LCX_STATUS_GRP_FAIL : Fld := ⟨0x4000000, 22, 1, 0⟩
def LCX_STATUS_GRP_READY : Fld := ⟨0x4000000, 21, 1, 0⟩
def LCX_STATUS_GRP_OFF : Fld := ⟨0x4000000, 20, 1, 0⟩
def LCX_STATUS_KEY_FAIL (b : Nat) : Fld := ⟨0x4000000, 18 + 1 * b, 1, 0⟩
def LCX_STATUS_KEY_DONE (b : Nat) : Fld := ⟨0x4000000, 16 + 1 * b, 1, 0⟩
def LCX_STATUS_EPOCH_MISMATCH (b : Nat) : Fld := ⟨0x4000000, 14 + 1 * b, 1, 0⟩
def LCX_STATUS_BUDGET_END (b : Nat) : Fld := ⟨0x4000000, 12 + 1 * b, 1, 0⟩
def LCX_STATUS_BUDGET_WARN (b : Nat) : Fld := ⟨0x4000000, 10 + 1 * b, 1, 0⟩
def LCX_STATUS_NONCE_REUSE (b : Nat) : Fld := ⟨0x4000000, 8 + 1 * b, 1, 0⟩
def LCX_STATUS_NULL_RX (b : Nat) : Fld := ⟨0x4000000, 6 + 1 * b, 1, 0⟩
def LCX_STATUS_REPLAY (b : Nat) : Fld := ⟨0x4000000, 4 + 1 * b, 1, 0⟩
def LCX_STATUS_TAG_MISSING (b : Nat) : Fld := ⟨0x4000000, 2 + 1 * b, 1, 0⟩
def LCX_STATUS_TAG_FAIL (b : Nat) : Fld := ⟨0x4000000, 1 * b, 1, 0⟩
-- LCX_INT_EN, offset 0x0004 (R310, 11_ciphers.md)
def LCX_INT_EN_EN : Fld := ⟨0x4000004, 0, 23, 0⟩
-- LCX_CFG, offset 0x0008 (R310, 11_ciphers.md)
def LCX_CFG_GRP_PORT : Fld := ⟨0x4000008, 8, 8, 0⟩
def LCX_CFG_MASKED : Fld := ⟨0x4000008, 0, 2, 0⟩
-- LCX_CAP_p, offset 0x0010 (R310, 11_ciphers.md)
def LCX_CAP_CAP (p : Nat) : Fld := ⟨0x4000010 + 0x4 * p, 16, 10, 0⟩
def LCX_CAP_REQ (p : Nat) : Fld := ⟨0x4000010 + 0x4 * p, 0, 9, 0⟩
-- LCX_GRP_CMD, offset 0x0020 (R310, 11_ciphers.md)
def LCX_GRP_CMD_CMD : Fld := ⟨0x4000020, 8, 2, 0⟩
def LCX_GRP_CMD_GROUP : Fld := ⟨0x4000020, 0, 3, 0⟩
-- LCX_GRP_CMD_STAT, offset 0x0024 (R310, 11_ciphers.md)
def LCX_GRP_CMD_STAT_STATUS : Fld := ⟨0x4000024, 0, 8, 0⟩
-- LCX_GRP_JOIN, offset 0x0028 (R310, 11_ciphers.md)
def LCX_GRP_JOIN_JOIN : Fld := ⟨0x4000028, 0, 8, 0⟩
-- LCX_GRP_STATE, offset 0x002C (R310, 11_ciphers.md)
def LCX_GRP_STATE_STATE (g : Nat) : Fld := ⟨0x400002c, 4 * g, 4, 2⟩
-- LCX_KEY_TMR, offset 0x0030 (R310, 11_ciphers.md)
def LCX_KEY_TMR_KEY_TO : Fld := ⟨0x4000030, 16, 16, 1024⟩
def LCX_KEY_TMR_MIN_LEAD : Fld := ⟨0x4000030, 0, 16, 2048⟩
-- LCX_BUDGET, offset 0x0034 (R310, 11_ciphers.md)
def LCX_BUDGET_LOG : Fld := ⟨0x4000034, 0, 6, 44⟩
-- LCX_KEY_CMD, offset 0x0040 (R310, 11_ciphers.md)
def LCX_KEY_CMD_ID : Fld := ⟨0x4000040, 24, 8, 0⟩
def LCX_KEY_CMD_PORT : Fld := ⟨0x4000040, 16, 1, 0⟩
def LCX_KEY_CMD_CTX : Fld := ⟨0x4000040, 8, 5, 0⟩
def LCX_KEY_CMD_SLOT : Fld := ⟨0x4000040, 4, 1, 0⟩
def LCX_KEY_CMD_BOTH : Fld := ⟨0x4000040, 1, 1, 0⟩
def LCX_KEY_CMD_GO : Fld := ⟨0x4000040, 0, 1, 0⟩
-- LCX_KEY_SW_LO, offset 0x0044 (R310, 11_ciphers.md)
def LCX_KEY_SW_LO_SW_L : Fld := ⟨0x4000044, 0, 32, 0⟩
-- LCX_KEY_SW_HI, offset 0x0048 (R310, 11_ciphers.md)
def LCX_KEY_SW_HI_SW_H : Fld := ⟨0x4000048, 0, 16, 0⟩
-- LCX_KEY_STAT_p, offset 0x0050 (R310, 11_ciphers.md)
def LCX_KEY_STAT_STATUS (p : Nat) : Fld := ⟨0x4000050 + 0x4 * p, 24, 8, 0⟩
def LCX_KEY_STAT_ID (p : Nat) : Fld := ⟨0x4000050 + 0x4 * p, 16, 8, 0⟩
def LCX_KEY_STAT_CTX (p : Nat) : Fld := ⟨0x4000050 + 0x4 * p, 8, 5, 0⟩
def LCX_KEY_STAT_STATE (p : Nat) : Fld := ⟨0x4000050 + 0x4 * p, 0, 2, 0⟩
-- LCX_CTX_SEL, offset 0x0100 (R310, 11_ciphers.md)
def LCX_CTX_SEL_PORT : Fld := ⟨0x4000100, 12, 1, 0⟩
def LCX_CTX_SEL_DIR : Fld := ⟨0x4000100, 8, 1, 0⟩
def LCX_CTX_SEL_CTX : Fld := ⟨0x4000100, 0, 5, 0⟩
-- LCX_CTX_STAT, offset 0x0104 (R310, 11_ciphers.md)
def LCX_CTX_STAT_MODE : Fld := ⟨0x4000104, 16, 2, 0⟩
def LCX_CTX_STAT_NULL : Fld := ⟨0x4000104, 8, 1, 0⟩
def LCX_CTX_STAT_SLOT1 : Fld := ⟨0x4000104, 6, 2, 0⟩
def LCX_CTX_STAT_SLOT0 : Fld := ⟨0x4000104, 4, 2, 0⟩
def LCX_CTX_STAT_CUR_SLOT : Fld := ⟨0x4000104, 0, 1, 0⟩
-- LCX_CTX_HWM_LO, offset 0x0108 (R310, 11_ciphers.md)
def LCX_CTX_HWM_LO_SW_L : Fld := ⟨0x4000108, 6, 26, 0⟩
def LCX_CTX_HWM_LO_SECTION : Fld := ⟨0x4000108, 0, 6, 0⟩
-- LCX_CTX_HWM_HI, offset 0x010C (R310, 11_ciphers.md)
def LCX_CTX_HWM_HI_SW_H : Fld := ⟨0x400010c, 0, 22, 0⟩
-- LCX_CTX_USED_LO, offset 0x0110 (R310, 11_ciphers.md)
def LCX_CTX_USED_LO_COUNT_L : Fld := ⟨0x4000110, 0, 32, 0⟩
-- LCX_CTX_USED_HI, offset 0x0114 (R310, 11_ciphers.md)
def LCX_CTX_USED_HI_COUNT_H : Fld := ⟨0x4000114, 0, 16, 0⟩
-- LCX_CTX_NONCE, offset 0x0120 (R310, 11_ciphers.md)
def LCX_CTX_NONCE_IV (y : Nat) : Fld := ⟨0x4000120 + 0x4 * y, 0, 32, 0⟩
-- LCX_CTX_CNT_i, offset 0x0140 (R310, 11_ciphers.md)
def LCX_CTX_CNT_COUNT (i : Nat) : Fld := ⟨0x4000140 + 0x4 * i, 0, 32, 0⟩

end R

/-- Registers of MCE, part 0 (R311). -/
def mceRegs0 : List RDef :=
  [⟨0x90000, [], false, [⟨3, 1, .w1c, 0, []⟩, ⟨2, 1, .w1c, 0, []⟩, ⟨1, 1, .w1c, 0, []⟩, ⟨0, 1, .w1c, 0, []⟩]⟩,
   ⟨0x90004, [], false, [⟨0, 4, .rw, 0, []⟩]⟩,
   ⟨0x90010, [], false, [⟨0, 6, .rw, 0, []⟩]⟩,
   ⟨0x90014, [], false, [⟨8, 2, .ro, 0, []⟩, ⟨0, 1, .ro, 0, []⟩]⟩,
   ⟨0x90018, [], false, [⟨2, 1, .own [1], 0, []⟩, ⟨1, 1, .own [1], 0, []⟩, ⟨0, 1, .own [1], 0, []⟩]⟩,
   ⟨0x90020, [], false, [⟨0, 6, .own [1], 0, []⟩]⟩,
   ⟨0x90024, [(0x4, 8)], false, [⟨0, 32, .own [1], 0, []⟩]⟩,
   ⟨0x90044, [], false, [⟨0, 32, .own [1], 0, []⟩]⟩,
   ⟨0x90048, [], false, [⟨1, 1, .own [1], 0, []⟩, ⟨0, 1, .own [1], 0, []⟩]⟩,
   ⟨0x9004c, [], false, [⟨0, 8, .ro, 0, []⟩]⟩,
   ⟨0x90100, [(0x4, 4)], true, [⟨0, 32, .rw, 0, []⟩]⟩,
   ⟨0x90110, [], true, [⟨0, 32, .wo, 0, []⟩]⟩]
/-- Registers of MCE, part 1 (R311). -/
def mceRegs1 : List RDef :=
  [⟨0x90114, [], true, [⟨16, 8, .ro, 0, []⟩, ⟨0, 16, .ro, 0, []⟩]⟩,
   ⟨0x90118, [], true, [⟨0, 5, .ro, 0, []⟩]⟩,
   ⟨0x9011c, [], true, [⟨16, 8, .rc, 0, []⟩, ⟨0, 16, .rc, 0, []⟩]⟩]
/-- Every register of MCE (R311). -/
def mceRegs : List RDef :=
  mceRegs0 ++ mceRegs1

/-- Registers of IMG, part 0 (R361). -/
def imgRegs0 : List RDef :=
  [⟨0xa0000, [], false, [⟨5, 1, .w1c, 0, []⟩, ⟨4, 1, .w1c, 0, []⟩, ⟨3, 1, .w1c, 0, []⟩, ⟨2, 1, .w1c, 0, []⟩, ⟨1, 1, .w1c, 0, []⟩, ⟨0, 1, .w1c, 0, []⟩]⟩,
   ⟨0xa0004, [], false, [⟨0, 6, .rw, 0, []⟩]⟩,
   ⟨0xa0008, [], false, [⟨16, 4, .wo, 0, []⟩, ⟨8, 3, .wo, 0, []⟩, ⟨0, 4, .wo, 0, []⟩]⟩,
   ⟨0xa000c, [], false, [⟨31, 1, .ro, 0, []⟩, ⟨16, 5, .ro, 0, []⟩, ⟨0, 8, .ro, 0, []⟩]⟩,
   ⟨0xa0010, [(0x4, 6)], false, [⟨24, 8, .ro, 0, []⟩, ⟨11, 9, .ro, 0, []⟩, ⟨10, 1, .ro, 0, []⟩, ⟨0, 2, .ro, 0, []⟩]⟩,
   ⟨0xa0030, [], false, [⟨0, 3, .ro, 7, []⟩, ⟨3, 3, .ro, 7, []⟩, ⟨6, 3, .ro, 7, []⟩, ⟨9, 3, .ro, 7, []⟩, ⟨12, 3, .ro, 7, []⟩, ⟨15, 3, .ro, 7, []⟩, ⟨18, 3, .ro, 7, []⟩, ⟨21, 3, .ro, 7, []⟩, ⟨24, 3, .ro, 7, []⟩]⟩,
   ⟨0xa0034, [], false, [⟨31, 1, .ro, 0, []⟩, ⟨24, 3, .ro, 0, []⟩, ⟨20, 4, .ro, 0, []⟩, ⟨16, 3, .ro, 0, []⟩, ⟨0, 7, .ro, 0, []⟩]⟩,
   ⟨0xa0040, [], false, [⟨0, 16, .rw, 0, []⟩]⟩,
   ⟨0xa0044, [], false, [⟨31, 1, .ro, 0, []⟩, ⟨16, 8, .ro, 0, []⟩, ⟨12, 4, .ro, 0, []⟩, ⟨4, 1, .ro, 0, []⟩, ⟨3, 1, .ro, 0, []⟩, ⟨2, 1, .ro, 0, []⟩, ⟨1, 1, .ro, 0, []⟩]⟩,
   ⟨0xa0048, [], false, [⟨0, 22, .ro, 0, []⟩]⟩,
   ⟨0xa004c, [], false, [⟨0, 22, .ro, 0, []⟩]⟩]
/-- Every register of IMG (R361). -/
def imgRegs : List RDef :=
  imgRegs0

/-- Registers of HDG, part 0 (R362). -/
def hdgRegs0 : List RDef :=
  [⟨0xb0000, [], false, [⟨6, 1, .w1c, 0, []⟩, ⟨5, 1, .w1c, 0, []⟩, ⟨4, 1, .w1c, 0, []⟩, ⟨3, 1, .w1c, 0, []⟩, ⟨2, 1, .w1c, 0, []⟩, ⟨1, 1, .w1c, 0, []⟩, ⟨0, 1, .w1c, 0, []⟩]⟩,
   ⟨0xb0004, [], false, [⟨0, 7, .rw, 0, []⟩]⟩,
   ⟨0xb0008, [], false, [⟨0, 16, .rw, 0, []⟩]⟩,
   ⟨0xb000c, [], false, [⟨8, 4, .wo, 0, []⟩, ⟨0, 8, .wo, 0, []⟩]⟩,
   ⟨0xb0100, [(0x4, 16)], false, [⟨24, 8, .ro, 0, []⟩, ⟨16, 8, .ro, 0, []⟩, ⟨12, 2, .ro, 0, []⟩, ⟨0, 10, .ro, 0, []⟩]⟩,
   ⟨0xb0200, [(0x20, 16), (0x4, 8)], false, [⟨0, 32, .ro, 0, []⟩]⟩,
   ⟨0xb0400, [], false, [⟨0, 8, .ro, 0, []⟩]⟩,
   ⟨0xb0404, [], false, [⟨0, 4, .ro, 0, []⟩]⟩,
   ⟨0xb0408, [], false, [⟨0, 32, .rc, 0, []⟩]⟩,
   ⟨0xb0410, [], false, [⟨16, 16, .rw, 0, []⟩, ⟨0, 13, .rw, 0, []⟩]⟩,
   ⟨0xb0414, [], false, [⟨0, 5, .ro, 0, []⟩]⟩,
   ⟨0xb0418, [], false, [⟨12, 4, .rc, 0, []⟩, ⟨0, 10, .rc, 0, []⟩]⟩]
/-- Registers of HDG, part 1 (R362). -/
def hdgRegs1 : List RDef :=
  [⟨0xb0420, [], false, [⟨24, 4, .ro, 0, []⟩, ⟨16, 8, .ro, 0, []⟩, ⟨0, 16, .ro, 0, []⟩]⟩,
   ⟨0xb0500, [(0x40, 2), (0x4, 12)], false, [⟨0, 32, .ro, 0, []⟩]⟩]
/-- Every register of HDG (R362). -/
def hdgRegs : List RDef :=
  hdgRegs0 ++ hdgRegs1

/-- Registers of SWC, part 0 (R57). -/
def swcRegs0 : List RDef :=
  [⟨0x100000, [], false, [⟨0, 16, .rw, 4096, []⟩]⟩,
   ⟨0x100004, [], false, [⟨7, 1, .w1c, 0, []⟩, ⟨6, 1, .w1c, 0, []⟩, ⟨5, 1, .w1c, 0, []⟩, ⟨4, 1, .w1c, 0, []⟩, ⟨3, 1, .w1c, 0, []⟩, ⟨2, 1, .w1c, 0, []⟩, ⟨1, 1, .w1c, 0, []⟩, ⟨0, 1, .w1c, 0, []⟩]⟩,
   ⟨0x100008, [], false, [⟨0, 8, .rw, 0, []⟩]⟩,
   ⟨0x10000c, [], false, [⟨0, 17, .ro, 65536, []⟩]⟩,
   ⟨0x100010, [], false, [⟨0, 9, .rc, 0, []⟩]⟩,
   ⟨0x100040, [(0x10, 4)], false, [⟨8, 24, .ro, 0, []⟩, ⟨0, 8, .ro, 0, []⟩]⟩,
   ⟨0x100044, [(0x10, 4)], false, [⟨31, 1, .ro, 0, []⟩, ⟨0, 24, .ro, 0, []⟩]⟩,
   ⟨0x100048, [(0x20, 2)], false, [⟨0, 32, .rw, 0, []⟩]⟩,
   ⟨0x10004c, [(0x20, 2)], false, [⟨0, 16, .rw, 0, []⟩]⟩,
   ⟨0x100080, [(0x4, 4)], false, [⟨0, 17, .ro, 0, []⟩]⟩,
   ⟨0x100090, [], false, [⟨0, 18, .rw, 0, []⟩]⟩,
   ⟨0x100094, [], false, [⟨0, 9, .ro, 0, []⟩]⟩]
/-- Registers of SWC, part 1 (R57). -/
def swcRegs1 : List RDef :=
  [⟨0x100100, [(0x4, 4)], true, [⟨0, 32, .rw, 0, []⟩]⟩,
   ⟨0x100110, [], true, [⟨0, 32, .wo, 0, []⟩]⟩,
   ⟨0x100114, [], true, [⟨16, 8, .ro, 0, []⟩, ⟨0, 16, .ro, 0, []⟩]⟩,
   ⟨0x100118, [], true, [⟨0, 16, .wo, 0, []⟩]⟩,
   ⟨0x10011c, [], true, [⟨0, 8, .ro, 0, []⟩]⟩,
   ⟨0x100120, [], true, [⟨0, 16, .rw, 0, []⟩]⟩,
   ⟨0x100130, [(0x4, 4)], true, [⟨0, 32, .ro, 0, []⟩]⟩,
   ⟨0x100140, [], true, [⟨0, 9, .ro, 0, []⟩]⟩,
   ⟨0x100144, [], true, [⟨24, 8, .ro, 0, []⟩, ⟨16, 8, .ro, 0, []⟩, ⟨0, 16, .ro, 0, []⟩]⟩,
   ⟨0x100148, [], true, [⟨0, 32, .rc, 0, []⟩]⟩]
/-- Every register of SWC (R57). -/
def swcRegs : List RDef :=
  swcRegs0 ++ swcRegs1

/-- Registers of PMC, part 0 (R480). -/
def pmcRegs0 : List RDef :=
  [⟨0x200000, [], false, [⟨2, 1, .w1c, 0, []⟩, ⟨1, 1, .w1c, 0, []⟩, ⟨0, 1, .w1c, 0, []⟩]⟩,
   ⟨0x200004, [], false, [⟨0, 3, .rw, 0, []⟩]⟩,
   ⟨0x200008, [], false, [⟨0, 32, .ro, 0, []⟩]⟩,
   ⟨0x20000c, [], false, [⟨0, 16, .ro, 0, []⟩]⟩,
   ⟨0x200010, [], false, [⟨0, 32, .ro, 0, []⟩]⟩,
   ⟨0x200014, [], false, [⟨16, 2, .ro, 0, []⟩, ⟨0, 16, .ro, 0, []⟩]⟩,
   ⟨0x200020, [], false, [⟨0, 32, .rw, 0, []⟩]⟩,
   ⟨0x200024, [], false, [⟨0, 16, .rw, 0, []⟩]⟩,
   ⟨0x200028, [], false, [⟨0, 32, .ro, 0, []⟩]⟩,
   ⟨0x20002c, [], false, [⟨0, 16, .ro, 0, []⟩]⟩,
   ⟨0x200100, [(0x4, 192)], false, [⟨0, 1, .w1c, 0, []⟩, ⟨1, 1, .w1c, 0, []⟩, ⟨2, 1, .w1c, 0, []⟩, ⟨3, 1, .w1c, 0, []⟩, ⟨4, 1, .w1c, 0, []⟩, ⟨5, 1, .w1c, 0, []⟩, ⟨6, 1, .w1c, 0, []⟩, ⟨7, 1, .w1c, 0, []⟩, ⟨8, 1, .w1c, 0, []⟩, ⟨9, 1, .w1c, 0, []⟩, ⟨10, 1, .w1c, 0, []⟩, ⟨11, 1, .w1c, 0, []⟩, ⟨12, 1, .w1c, 0, []⟩, ⟨13, 1, .w1c, 0, []⟩, ⟨14, 1, .w1c, 0, []⟩, ⟨15, 1, .w1c, 0, []⟩, ⟨16, 1, .w1c, 0, []⟩, ⟨17, 1, .w1c, 0, []⟩, ⟨18, 1, .w1c, 0, []⟩, ⟨19, 1, .w1c, 0, []⟩, ⟨20, 1, .w1c, 0, []⟩, ⟨21, 1, .w1c, 0, []⟩, ⟨22, 1, .w1c, 0, []⟩, ⟨23, 1, .w1c, 0, []⟩, ⟨24, 1, .w1c, 0, []⟩, ⟨25, 1, .w1c, 0, []⟩, ⟨26, 1, .w1c, 0, []⟩, ⟨27, 1, .w1c, 0, []⟩, ⟨28, 1, .w1c, 0, []⟩, ⟨29, 1, .w1c, 0, []⟩, ⟨30, 1, .w1c, 0, []⟩, ⟨31, 1, .w1c, 0, []⟩]⟩,
   ⟨0x200400, [(0x4, 192)], false, [⟨0, 1, .rw, 0, []⟩, ⟨1, 1, .rw, 0, []⟩, ⟨2, 1, .rw, 0, []⟩, ⟨3, 1, .rw, 0, []⟩, ⟨4, 1, .rw, 0, []⟩, ⟨5, 1, .rw, 0, []⟩, ⟨6, 1, .rw, 0, []⟩, ⟨7, 1, .rw, 0, []⟩, ⟨8, 1, .rw, 0, []⟩, ⟨9, 1, .rw, 0, []⟩, ⟨10, 1, .rw, 0, []⟩, ⟨11, 1, .rw, 0, []⟩, ⟨12, 1, .rw, 0, []⟩, ⟨13, 1, .rw, 0, []⟩, ⟨14, 1, .rw, 0, []⟩, ⟨15, 1, .rw, 0, []⟩, ⟨16, 1, .rw, 0, []⟩, ⟨17, 1, .rw, 0, []⟩, ⟨18, 1, .rw, 0, []⟩, ⟨19, 1, .rw, 0, []⟩, ⟨20, 1, .rw, 0, []⟩, ⟨21, 1, .rw, 0, []⟩, ⟨22, 1, .rw, 0, []⟩, ⟨23, 1, .rw, 0, []⟩, ⟨24, 1, .rw, 0, []⟩, ⟨25, 1, .rw, 0, []⟩, ⟨26, 1, .rw, 0, []⟩, ⟨27, 1, .rw, 0, []⟩, ⟨28, 1, .rw, 0, []⟩, ⟨29, 1, .rw, 0, []⟩, ⟨30, 1, .rw, 0, []⟩, ⟨31, 1, .rw, 0, []⟩]⟩]
/-- Registers of PMC, part 1 (R480). -/
def pmcRegs1 : List RDef :=
  [⟨0x210000, [(0x8, 6144)], false, [⟨0, 32, .ro, 0, []⟩]⟩,
   ⟨0x210004, [(0x8, 6144)], false, [⟨16, 1, .ro, 0, []⟩, ⟨0, 16, .ro, 0, []⟩]⟩,
   ⟨0x220000, [(0x8, 6144)], false, [⟨0, 32, .ro, 0, []⟩]⟩,
   ⟨0x220004, [(0x8, 6144)], false, [⟨16, 1, .ro, 0, []⟩, ⟨0, 16, .ro, 0, []⟩]⟩]
/-- Every register of PMC (R480). -/
def pmcRegs : List RDef :=
  pmcRegs0 ++ pmcRegs1

/-- Registers of FMN, part 0 (R481). -/
def fmnRegs0 : List RDef :=
  [⟨0x400000, [], false, [⟨4, 1, .w1c, 0, []⟩, ⟨3, 1, .w1c, 0, []⟩, ⟨2, 1, .w1c, 0, []⟩, ⟨1, 1, .w1c, 0, []⟩, ⟨0, 1, .w1c, 0, []⟩]⟩,
   ⟨0x400004, [], false, [⟨0, 5, .rw, 0, []⟩]⟩,
   ⟨0x400100, [(0x40, 16)], false, [⟨24, 8, .rw, 1, [(1, 255)]⟩, ⟨16, 8, .rw, 0, []⟩, ⟨12, 4, .rw, 0, []⟩, ⟨8, 2, .rw, 0, [(0, 2)]⟩, ⟨4, 2, .rw, 0, []⟩, ⟨1, 1, .rw, 0, []⟩, ⟨0, 1, .rw, 0, []⟩]⟩,
   ⟨0x400104, [(0x40, 16)], false, [⟨16, 9, .rw, 0, []⟩, ⟨8, 4, .rw, 0, []⟩, ⟨6, 2, .rw, 0, []⟩, ⟨4, 1, .rw, 0, []⟩, ⟨0, 4, .rw, 0, [(0, 6)]⟩]⟩,
   ⟨0x400108, [(0x40, 16)], false, [⟨16, 10, .ro, 0, []⟩, ⟨10, 1, .ro, 0, []⟩, ⟨9, 1, .w1c, 0, []⟩, ⟨8, 1, .ro, 0, []⟩, ⟨0, 8, .ro, 0, []⟩]⟩,
   ⟨0x40010c, [(0x40, 16)], false, [⟨0, 32, .ro, 0, []⟩]⟩,
   ⟨0x400110, [(0x40, 16)], false, [⟨0, 16, .ro, 0, []⟩]⟩,
   ⟨0x400114, [(0x40, 16)], false, [⟨0, 32, .ro, 0, []⟩]⟩,
   ⟨0x400118, [(0x40, 16)], false, [⟨31, 1, .ro, 0, []⟩, ⟨0, 24, .ro, 0, []⟩]⟩,
   ⟨0x40011c, [(0x40, 16)], false, [⟨0, 32, .ro, 0, []⟩]⟩,
   ⟨0x400120, [(0x40, 16)], false, [⟨31, 1, .rw, 0, []⟩, ⟨0, 24, .rw, 0, []⟩]⟩,
   ⟨0x400124, [(0x40, 16)], false, [⟨0, 24, .rw, 0, []⟩]⟩]
/-- Registers of FMN, part 1 (R481). -/
def fmnRegs1 : List RDef :=
  [⟨0x400128, [(0x40, 16)], false, [⟨31, 1, .ro, 0, []⟩, ⟨0, 24, .ro, 0, []⟩]⟩,
   ⟨0x40012c, [(0x40, 16)], false, [⟨0, 32, .ro, 0, []⟩]⟩,
   ⟨0x401000, [(0x200, 16), (0x4, 128)], false, [⟨0, 18, .rw, 0, []⟩]⟩]
/-- Every register of FMN (R481). -/
def fmnRegs : List RDef :=
  fmnRegs0 ++ fmnRegs1

/-- Registers of FEC, part 0 (R195). -/
def fecRegs0 : List RDef :=
  [⟨0x800000, [], false, [⟨12, 1, .w1c, 0, []⟩, ⟨11, 1, .w1c, 0, []⟩, ⟨10, 1, .w1c, 0, []⟩, ⟨9, 1, .w1c, 0, []⟩, ⟨8, 1, .w1c, 0, []⟩, ⟨6, 1, .w1c, 0, []⟩, ⟨7, 1, .w1c, 0, []⟩, ⟨4, 1, .w1c, 0, []⟩, ⟨5, 1, .w1c, 0, []⟩, ⟨2, 1, .w1c, 0, []⟩, ⟨3, 1, .w1c, 0, []⟩, ⟨0, 1, .w1c, 0, []⟩, ⟨1, 1, .w1c, 0, []⟩]⟩,
   ⟨0x800004, [], false, [⟨0, 13, .rw, 0, []⟩]⟩,
   ⟨0x800008, [], false, [⟨16, 14, .ro, 0, []⟩, ⟨0, 7, .ro, 32, []⟩]⟩,
   ⟨0x80000c, [], false, [⟨8, 8, .sch, 128, [(1, 255)]⟩, ⟨0, 8, .sch, 128, [(1, 255)]⟩]⟩,
   ⟨0x800010, [(0x4, 2)], false, [⟨16, 1, .ro, 0, []⟩, ⟨8, 6, .ro, 48, []⟩, ⟨0, 6, .sch, 48, [(8, 48)]⟩]⟩,
   ⟨0x800018, [], false, [⟨16, 9, .ro, 0, []⟩, ⟨0, 14, .ro, 0, []⟩]⟩,
   ⟨0x80001c, [], false, [⟨0, 14, .rc, 0, []⟩]⟩,
   ⟨0x800020, [], false, [⟨8, 2, .wo, 0, []⟩, ⟨0, 4, .wo, 0, []⟩]⟩,
   ⟨0x800024, [], false, [⟨0, 8, .ro, 0, []⟩]⟩,
   ⟨0x800028, [], false, [⟨0, 16, .sch, 0, []⟩]⟩,
   ⟨0x800030, [], false, [⟨0, 4, .ro, 2, []⟩, ⟨4, 4, .ro, 2, []⟩, ⟨8, 4, .ro, 2, []⟩, ⟨12, 4, .ro, 2, []⟩, ⟨16, 4, .ro, 2, []⟩, ⟨20, 4, .ro, 2, []⟩, ⟨24, 4, .ro, 2, []⟩, ⟨28, 4, .ro, 2, []⟩]⟩,
   ⟨0x800034, [], false, [⟨0, 4, .ro, 2, []⟩, ⟨4, 4, .ro, 2, []⟩, ⟨8, 4, .ro, 2, []⟩, ⟨12, 4, .ro, 2, []⟩, ⟨16, 4, .ro, 2, []⟩, ⟨20, 4, .ro, 2, []⟩, ⟨24, 4, .ro, 2, []⟩, ⟨28, 4, .ro, 2, []⟩]⟩]
/-- Registers of FEC, part 1 (R195). -/
def fecRegs1 : List RDef :=
  [⟨0x800038, [], false, [⟨0, 16, .rw, 16, [(1, 65535)]⟩]⟩,
   ⟨0x80003c, [], false, [⟨0, 2, .wo, 0, []⟩]⟩,
   ⟨0x800040, [(0x4, 2)], false, [⟨0, 18, .ro, 0, []⟩]⟩,
   ⟨0x800100, [(0x80, 2), (0x8, 8)], false, [⟨0, 32, .ro, 0, []⟩]⟩,
   ⟨0x800104, [(0x80, 2), (0x8, 8)], false, [⟨0, 16, .ro, 0, []⟩]⟩,
   ⟨0x801000, [(0x200, 2), (0x8, 49)], false, [⟨0, 32, .ro, 0, []⟩]⟩,
   ⟨0x801004, [(0x200, 2), (0x8, 49)], false, [⟨0, 16, .ro, 0, []⟩]⟩,
   ⟨0x801400, [(0x200, 2), (0x8, 64)], false, [⟨0, 32, .ro, 0, []⟩]⟩,
   ⟨0x801404, [(0x200, 2), (0x8, 64)], false, [⟨0, 16, .ro, 0, []⟩]⟩]
/-- Every register of FEC (R195). -/
def fecRegs : List RDef :=
  fecRegs0 ++ fecRegs1

/-- Registers of CLI, part 0 (R248). -/
def cliRegs0 : List RDef :=
  [⟨0x3000000, [], false, [⟨8, 1, .w1c, 0, []⟩, ⟨7, 1, .w1c, 0, []⟩, ⟨6, 1, .w1c, 0, []⟩, ⟨5, 1, .w1c, 0, []⟩, ⟨4, 1, .w1c, 0, []⟩, ⟨3, 1, .w1c, 0, []⟩, ⟨2, 1, .w1c, 0, []⟩, ⟨1, 1, .w1c, 0, []⟩, ⟨0, 1, .w1c, 0, []⟩]⟩,
   ⟨0x3000004, [], false, [⟨0, 9, .rw, 0, []⟩]⟩,
   ⟨0x3001000, [(0x10, 64)], false, [⟨16, 2, .rw, 0, [(0, 2)]⟩, ⟨12, 2, .sch, 0, [(0, 2)]⟩, ⟨8, 2, .sch, 0, [(0, 2)]⟩, ⟨4, 3, .sch, 0, [(0, 5)]⟩, ⟨1, 1, .sch, 0, []⟩, ⟨0, 1, .sch, 0, []⟩]⟩,
   ⟨0x3001004, [(0x10, 64)], false, [⟨10, 1, .ro, 0, []⟩, ⟨9, 1, .ro, 0, []⟩, ⟨8, 1, .ro, 0, []⟩, ⟨4, 3, .ro, 0, []⟩, ⟨0, 3, .ro, 0, []⟩]⟩,
   ⟨0x3001008, [(0x10, 64)], false, [⟨0, 32, .rc, 0, []⟩]⟩,
   ⟨0x3002000, [(0x20, 64)], false, [⟨16, 8, .ro, 0, []⟩, ⟨8, 1, .ro, 0, []⟩, ⟨7, 1, .ro, 0, []⟩, ⟨6, 1, .ro, 0, []⟩, ⟨5, 1, .ro, 0, []⟩, ⟨4, 1, .ro, 0, []⟩, ⟨0, 3, .ro, 0, []⟩]⟩,
   ⟨0x3002004, [(0x20, 64)], false, [⟨0, 16, .ro, 0, []⟩]⟩,
   ⟨0x3002008, [(0x20, 64)], false, [⟨0, 32, .ro, 0, []⟩]⟩,
   ⟨0x300200c, [(0x20, 64)], false, [⟨0, 16, .ro, 0, []⟩]⟩,
   ⟨0x3002010, [(0x20, 64)], false, [⟨0, 32, .ro, 0, []⟩]⟩,
   ⟨0x3002014, [(0x20, 64)], false, [⟨0, 16, .ro, 0, []⟩]⟩,
   ⟨0x3002018, [(0x20, 64)], false, [⟨0, 32, .rc, 0, []⟩]⟩]
/-- Registers of CLI, part 1 (R248). -/
def cliRegs1 : List RDef :=
  [⟨0x3003000, [], false, [⟨8, 1, .rw, 0, []⟩, ⟨0, 7, .rw, 0, []⟩]⟩,
   ⟨0x3003004, [], false, [⟨16, 9, .ro, 0, []⟩, ⟨3, 1, .ro, 0, []⟩, ⟨2, 1, .ro, 0, []⟩, ⟨1, 1, .ro, 0, []⟩, ⟨0, 1, .ro, 0, []⟩]⟩]
/-- Every register of CLI (R248). -/
def cliRegs : List RDef :=
  cliRegs0 ++ cliRegs1

/-- Registers of LCX, part 0 (R310). -/
def lcxRegs0 : List RDef :=
  [⟨0x4000000, [], false, [⟨22, 1, .w1c, 0, []⟩, ⟨21, 1, .w1c, 0, []⟩, ⟨20, 1, .w1c, 0, []⟩, ⟨18, 1, .w1c, 0, []⟩, ⟨19, 1, .w1c, 0, []⟩, ⟨16, 1, .w1c, 0, []⟩, ⟨17, 1, .w1c, 0, []⟩, ⟨14, 1, .w1c, 0, []⟩, ⟨15, 1, .w1c, 0, []⟩, ⟨12, 1, .w1c, 0, []⟩, ⟨13, 1, .w1c, 0, []⟩, ⟨10, 1, .w1c, 0, []⟩, ⟨11, 1, .w1c, 0, []⟩, ⟨8, 1, .w1c, 0, []⟩, ⟨9, 1, .w1c, 0, []⟩, ⟨6, 1, .w1c, 0, []⟩, ⟨7, 1, .w1c, 0, []⟩, ⟨4, 1, .w1c, 0, []⟩, ⟨5, 1, .w1c, 0, []⟩, ⟨2, 1, .w1c, 0, []⟩, ⟨3, 1, .w1c, 0, []⟩, ⟨0, 1, .w1c, 0, []⟩, ⟨1, 1, .w1c, 0, []⟩]⟩,
   ⟨0x4000004, [], false, [⟨0, 23, .rw, 0, []⟩]⟩,
   ⟨0x4000008, [], false, [⟨8, 8, .ro, 0, []⟩, ⟨0, 2, .ro, 0, []⟩]⟩,
   ⟨0x4000010, [(0x4, 2)], false, [⟨16, 10, .ro, 0, []⟩, ⟨0, 9, .ro, 0, []⟩]⟩,
   ⟨0x4000020, [], false, [⟨8, 2, .wo, 0, []⟩, ⟨0, 3, .wo, 0, []⟩]⟩,
   ⟨0x4000024, [], false, [⟨0, 8, .ro, 0, []⟩]⟩,
   ⟨0x4000028, [], false, [⟨0, 8, .sch, 0, []⟩]⟩,
   ⟨0x400002c, [], false, [⟨0, 4, .ro, 2, []⟩, ⟨4, 4, .ro, 2, []⟩, ⟨8, 4, .ro, 2, []⟩, ⟨12, 4, .ro, 2, []⟩, ⟨16, 4, .ro, 2, []⟩, ⟨20, 4, .ro, 2, []⟩, ⟨24, 4, .ro, 2, []⟩, ⟨28, 4, .ro, 2, []⟩]⟩,
   ⟨0x4000030, [], false, [⟨16, 16, .rw, 1024, [(1, 65535)]⟩, ⟨0, 16, .rw, 2048, []⟩]⟩,
   ⟨0x4000034, [], false, [⟨0, 6, .rw, 44, [(32, 44)]⟩]⟩,
   ⟨0x4000040, [], false, [⟨24, 8, .wo, 0, []⟩, ⟨16, 1, .wo, 0, []⟩, ⟨8, 5, .wo, 0, []⟩, ⟨4, 1, .wo, 0, []⟩, ⟨1, 1, .wo, 0, []⟩, ⟨0, 1, .wo, 0, []⟩]⟩,
   ⟨0x4000044, [], false, [⟨0, 32, .rw, 0, []⟩]⟩]
/-- Registers of LCX, part 1 (R310). -/
def lcxRegs1 : List RDef :=
  [⟨0x4000048, [], false, [⟨0, 16, .rw, 0, []⟩]⟩,
   ⟨0x4000050, [(0x4, 2)], false, [⟨24, 8, .ro, 0, []⟩, ⟨16, 8, .ro, 0, []⟩, ⟨8, 5, .ro, 0, []⟩, ⟨0, 2, .ro, 0, []⟩]⟩,
   ⟨0x4000100, [], false, [⟨12, 1, .rw, 0, []⟩, ⟨8, 1, .rw, 0, []⟩, ⟨0, 5, .rw, 0, []⟩]⟩,
   ⟨0x4000104, [], false, [⟨16, 2, .ro, 0, []⟩, ⟨8, 1, .ro, 0, []⟩, ⟨6, 2, .ro, 0, []⟩, ⟨4, 2, .ro, 0, []⟩, ⟨0, 1, .ro, 0, []⟩]⟩,
   ⟨0x4000108, [], false, [⟨6, 26, .ro, 0, []⟩, ⟨0, 6, .ro, 0, []⟩]⟩,
   ⟨0x400010c, [], false, [⟨0, 22, .ro, 0, []⟩]⟩,
   ⟨0x4000110, [], false, [⟨0, 32, .ro, 0, []⟩]⟩,
   ⟨0x4000114, [], false, [⟨0, 16, .ro, 0, []⟩]⟩,
   ⟨0x4000120, [(0x4, 3)], false, [⟨0, 32, .ro, 0, []⟩]⟩,
   ⟨0x4000140, [(0x4, 6)], false, [⟨0, 32, .rc, 0, []⟩]⟩]
/-- Every register of LCX (R310). -/
def lcxRegs : List RDef :=
  lcxRegs0 ++ lcxRegs1

end Sys2Proof.Machine
end

