-- ==== Sys2Proof/Machine/State.lean ====
section
/-! DEFINITION. The state of the block: plain data. A register field has one home, `State.regs` (by the map of
RegMapLine, RegMapDevice and RegMapService); what no register shows, or what a register only shows a view of, is held in
the structures below. -/
namespace Sys2Proof.Machine

/-- The two parts the manual covers (R1). -/
inductive Part where
  | lyk4802 | lyk4801
deriving DecidableEq, Repr

/-- Why the block stops with a fault: nothing raises one. The spec gives every command an answer or leaves the state as it is. -/
inductive Fault
deriving DecidableEq, Repr

/-- Why the model gives no answer. -/
inductive Refusal where
  /-- Raised by the dispatch alone, for a command whose meaning is not written. Safe: the model stops. -/
  | notModelled (mnemonic : String)
deriving DecidableEq, Repr

/-- What the last command answered: a status of R10 and the words returned. -/
structure Resp where
  status : Nat := 0
  data   : List Nat := []
deriving DecidableEq, Repr

/-- The journal operation in progress (R101, R102): 0 none, 1 STORE, 2 LOAD; the store buffer holds the staging words of the ports, key
8192 × port + word. The two slots are blocks 0 and 1 of flash partition 0x20. -/
structure Journal where
  op    : Nat := 0
  buf   : Sparse Nat := []
deriving DecidableEq, Repr

/-- Converters of a port beyond their registers (R14, R65, R73). -/
structure CnvState where
  /-- the one-swath hold after lock is running -/
  hold    : Bool := false
  /-- ADC samples flow (not replaced by zero) -/
  samples : Bool := false
  /-- the refast timer is running -/
  refast  : Bool := false
  /-- values that a sideband transfer failed to bring to the die: applied again at the next calibration of their band -/
  reapply : List Nat := []
  /-- trims and VGA settings in the converter die: slice and band words by their calibration key, gain codes at 8192 + lane -/
  die     : Sparse Nat := []
deriving DecidableEq, Repr

/-- Calibration of a port beyond its registers: live and staging copies (slice word at 128 × band + slice, band word at
4096 + 32 × band + word), a SNAPSHOT waiting, and whether the running sweep has ended its last step (R83, R90, R93). -/
structure CalState where
  live      : Sparse Nat := []
  staging   : Sparse Nat := []
  snapshot  : Bool := false
  sweepDone : Bool := false
  /-- bands whose staging copy held an uncalibrated word when RESTORE copied it, one bit each (R96) -/
  uncal     : Nat := 0
  /-- the range of the trigger curve that the median was last in (R353) -/
  range     : Option Nat := none
deriving DecidableEq, Repr

/-- Where a direction stands in its matchers and codewords: amplitudes into the block of every subcarrier and into the
codeword (R145, R173 to R175). -/
structure Stream where
  ph : Nat := 0
  ct : Nat := 0
deriving DecidableEq, Repr

/-- The shaping encoder of a transmit direction: what is left of the matcher block of each subcarrier, the information bits
of the codeword in progress and the amplitudes it spans so far (R143 to R145, R172 to R176), newest first, each with its sign: 0 or 1, or
2 where parity is to come. -/
structure Shaper where
  blocks : List (List Nat) := []
  info   : List Nat := []
  ct     : Nat := 0
  held   : List (Nat × Nat) := []
deriving DecidableEq, Repr

/-- A received data amplitude that waits for its codeword (R123, R173): its dimension as 4 j + 2 q + d, the part received and the other part
of its symbol, H × 64 of its subcarrier, and whether a matcher block begins with it. -/
structure RxAmp where
  dim   : Nat
  y     : Int
  o     : Int
  hq    : Nat
  first : Bool
  /-- the number of the frame whose first data amplitude it is -/
  frame : Option Nat := none
deriving DecidableEq, Repr

/-- A piece of the payload stream that codewords have released, in the order of R144: a frame begins, a sign bit, a matcher block of a subcarrier
that is not complete, the bits of one that is; `err` marks bits as errored (R183). -/
inductive PayPart where
  | frame (k : Nat)
  | sign (b : Nat) (err : Bool)
  | block (j : Nat)
  | bits (l : List Nat) (err : Bool)
deriving DecidableEq, Repr

/-- A codeword on its way to the hayrick: its code and symbol rate, the amplitudes demapped so far, whether it is complete, and once its first
LLR is written its slot, or that none was free (R173, R176 to R178). -/
structure RxSeg where
  m      : Nat
  rc     : Nat
  baud   : Nat
  amps   : List RxAmp := []
  closed : Bool := false
  slot   : Option Nat := none
  noSlot : Bool := false
  /-- amplitudes were lost before it -/
  gap    : Bool := false
deriving DecidableEq, Repr

/-- A receiver beyond its registers (R112, R126 to R133). -/
structure RxdState where
  los     : Bool := false
  payload : Bool := false
  /-- LOCKED was reached and no warm attempt has failed since: the dispersion and frequency last applied serve a warm attempt -/
  reached : Bool := false
  /-- CD_KNOWN is ignored until the receiver next leaves OFF -/
  hintOff : Bool := false
  /-- the dispersion last set by acquisition or RXD_CD_SET -/
  cdBase  : Int := 0
  fecLock : Bool := false
  /-- the throttle entry in force for the direction (R450) -/
  entry   : Nat := 48
  /-- subcarrier tiles fallowed, one bit each (R114) -/
  tiles   : Nat := 0
  stream  : Stream := {}
  /-- pre-FEC bit errors and bits of the running window -/
  berErr  : Nat := 0
  berBits : Nat := 0
  /-- frames in a row with every lane below the LOS threshold, and with a lane at or above it (R130) -/
  losLow  : Nat := 0
  losHigh : Nat := 0
  /-- the run of 256 frames: frames and uncorrected codewords in it, and runs in a row above UNC_MAX (R130) -/
  fecFrames : Nat := 0
  fecUnc  : Nat := 0
  fecBad  : Nat := 0
  /-- a new acquisition has begun since the latency of the chain was last taken (R106) -/
  fresh   : Bool := true
  /-- RXD_WL as read at acquisition start, in pm, and the bulk delay of every subcarrier, in fs (R111) -/
  wl      : Nat := 1550000
  delays  : List Nat := []
  /-- lane samples after the front-end response (R109) -/
  front   : List (List Int) := []
  /-- equaliser taps in 2^−20: filters XX, XY, YX, YY of every subcarrier in turn (R113, R115) -/
  taps    : List (List Cx) := []
  /-- offsets of the pilots of every subcarrier from the common phase, newest first, in 2^−16 of a turn (R117) -/
  offs    : List (List Int) := []
  /-- codewords whose last LLR is not written yet, oldest first; whether amplitudes were lost before the one to come -/
  cwq     : List RxSeg := []
  gap     : Bool := true
  /-- noise variance of every subcarrier in force, |LLR| of the running window (65536 × subcarrier + value in 1/64), and Lsat of the window
  before in 1/64 (R123) -/
  noise   : List Nat := []
  absL    : Sparse Nat := []
  lsat    : List Nat := []
  /-- what the codewords released have brought of payload that no whole allotment has taken yet, oldest first (R144, R183) -/
  parts   : List PayPart := []
deriving DecidableEq, Repr

/-- A proposal of one direction (R162), beyond TXD_PROP_STAT_d. -/
structure Proposal where
  rung    : Bool := false
  target  : Nat := 0
  content : List Nat := []
  /-- its action in the calendar: bank and handle -/
  act     : Option (Nat × Nat) := none
  /-- Bracken's own -/
  brk     : Bool := false
  /-- an answer is awaited -/
  waiting : Bool := false
  /-- a re-proposal waits for its back-off, or is under way (R276) -/
  backoff : Bool := false
  /-- this end may not propose (R276) -/
  hold    : Bool := false
deriving DecidableEq, Repr

/-- A frame that waits to be mapped: its header bytes, the codes S, M and PILOT of its rung, its data amplitudes, and the entropies, compositions, power shares and boost of its subcarriers (R138 to R150). -/
structure TxFrame where
  header : List Nat
  sc     : Nat
  m      : Nat
  pilot  : Nat
  amps   : Nat
  hqs    : List Nat
  comps  : List (List Nat)
  shares : List Nat
  boost  : Nat
deriving DecidableEq, Repr

/-- A transmitter beyond its registers (R144, R152, R205 to R207). -/
structure TxdState where
  stream : Stream := {}
  shaper : Shaper := {}
  /-- the justification buffer -/
  buf    : List Nat := []
  jcNext : Nat := 0
  /-- the next frame is the first since PAYLOAD was entered -/
  first  : Bool := false
  /-- what the last frame carried: its header bytes, data amplitudes in line order, codewords completed in it -/
  header : List Nat := []
  amps   : List Nat := []
  words  : List Nat := []
  /-- frames whose last codeword is not complete, oldest first: header bytes, and what maps them; the amplitudes with their signs that wait for
  them; the scaled symbols of every subcarrier of the last frame mapped (R138 to R150, R196) -/
  frames : List TxFrame := []
  ready  : List (Nat × Nat) := []
  syms   : List (List Cx × List Cx) := []
  /-- the chips of the Sedge overlay in the last frame, as levels in 2^−24 of the port's total (R252) -/
  overlay : List Int := []
  /-- the bulk delay of every subcarrier in fs (R151), and the codes of the DAC lanes (R153) -/
  delays : List Nat := []
  codes  : List (List Int) := []
  /-- a share that waits for the next swath boundary, and the share in force before clipping -/
  share  : Option Int := none
  held   : Int := 0
  /-- the policy of R166 waits for the next report -/
  paused : Bool := false
  propTx : Proposal := {}
  propRx : Proposal := {}
deriving DecidableEq, Repr

/-- A line framer beyond its registers (R213 to R231). -/
structure LfrState where
  fasFails : Nat := 0
  rungDiff : Nat := 0
  rungSame : Nat := 0
  mfasDiff : Nat := 0
  swnDiff  : Nat := 0
  /-- the swath in progress: frames seen from its frame 0, a fault in it, the SWN its valid blocks carried -/
  swFrames : Nat := 0
  swDirty  : Bool := true
  swSwn    : Option Nat := none
  /-- SWN of the swath before, where it was clean -/
  cleanSwn : Option Nat := none
  /-- D0 and D1 of the last decoded frame (R217) -/
  lastD0   : Option Nat := none
  lastD1   : Option Nat := none
  /-- decoded frames in a row whose ADJ_ID differs, and a swap that waits for the frame boundary -/
  adjDiff  : Nat := 0
  adjSwap  : Bool := false
  /-- the codeword pointer has been taken since frame alignment, and frames in a row that disagree with it -/
  cwpKnown : Bool := false
  cwpDiff  : Nat := 0
  /-- the payload of the last frame is marked errored -/
  errored  : Bool := false
  /-- frames in a row whose KEY_EPOCH bit disagrees, by context (R291) -/
  epochRun : Sparse Nat := []
  jc       : Nat := 0
  jcNext   : Option Nat := none
  /-- through channel: content sent, and the content received with its run (R219) -/
  thcSent  : List Nat := List.replicate 64 255
  thcValid : Bool := false
  thcLast  : List Nat := []
  thcRun   : Nat := 0
  /-- slip buffer of the port's transmit direction, oldest first; an entry of none is invalid (R226, R227) -/
  slip     : List (Option (List Nat)) := []
  slipLast : Option (List Nat) := none
  slipHold : Bool := true
  /-- bonding: frames or measurements in a row (R229, R231) -/
  bondErr  : Bool := false
  bondBad  : Nat := 0
  bondGood : Nat := 0
  skewBad  : Nat := 0
  skewGood : Nat := 0
  /-- user bytes: received value and run by byte (R354), and the bytes sampled for sending -/
  userLast : Sparse Nat := []
  userRun  : Sparse Nat := []
  userTx   : List Nat := List.replicate 48 0
  /-- OTN entities: defects now, latched, BIP and BEI counts (key 4 × entity + kind), accepted TTI (16 × entity + word) -/
  otn      : Sparse Nat := []
  tti      : Sparse Nat := []
  /-- frames taken under alignment, and by number those whose payload is still to come: N, JC, errored (R208) -/
  frameNo  : Nat := 0
  allots   : Sparse (Nat × Nat × Bool) := []
  /-- OTUCn bits received that make no whole frame yet, and whether payload marked errored is among them (R206, R208) -/
  otuBits  : List Nat := []
  otuErr   : Bool := false
  /-- dLOF and dLOM by slice, one bit each; tributaries that dMSIM or dLOOMFI affects; seconds in a row that were bad (key 2 × entity) or
  good (+ 1); BIP errors of an entity to be sent back as BEI (R222, R223) -/
  slices   : Sparse Nat := []
  affected : List Nat := []
  deg      : Sparse Nat := []
  beiBack  : Sparse Nat := []
  /-- the last OTUCn frame received, and the last sent (R220) -/
  otuRx    : Option OtuFrame := none
  otuTx    : Option OtuFrame := none
  /-- a bonded member's frames in the skew store, oldest first (R230); ODUs that clients add to coming frames in through mode, by frame -/
  share    : List OtuFrame := []
  adds     : List (List OduSig) := []
  /-- cipher tags received with the frame, by context; none where not received (R203) -/
  tags     : Sparse (List Nat) := []
deriving DecidableEq, Repr

/-- A message of the Sedge core: type, SEC and body (R269). -/
structure CoreMsg where
  typ  : Nat
  sec  : Nat
  body : List Nat
deriving DecidableEq, Repr

/-- A packet on the line (R254 to R257): its header fields, and the counter of a protected one. -/
structure TxPacket where
  buf : Nat
  typ : Nat
  sec : Nat
  len : Nat
  seq : Nat
  code : Nat
  ctr : Option Nat
  body : List Nat
  /-- the symbol bits on the line, and the chips sent so far in PAYLOAD -/
  syms : List Nat
  chip : Nat := 0
deriving DecidableEq, Repr

/-- An entry of the host receive queue (R267, R278). -/
structure RxPkt where
  typ : Nat
  sec : Nat
  corr : Nat
  seq : Nat
  swValid : Bool
  swath : Nat
  body : List Nat
deriving DecidableEq, Repr

/-- A packet in progress on a correlator. -/
structure CorrPkt where
  typ : Nat := 0
  sec : Nat := 0
  len : Nat := 0
  seq : Nat := 0
  /-- detection metric, and where the delimiter ended -/
  det : Nat := 0
  swValid : Bool := false
  swath : Nat := 0
deriving DecidableEq, Repr

/-- The Sedge of a port beyond its registers (R258 to R276). -/
structure SgpState where
  data    : Sparse Nat := []
  queue   : List Nat := []
  sending : Option TxPacket := none
  /-- the idle symbol bits sent before it in BEACON (R252) -/
  idle    : List Nat := []
  coreOut : List CoreMsg := []
  /-- messages delivered to the core and not yet acted on: type and body -/
  coreIn  : List (Nat × List Nat) := []
  corr    : List CorrPkt := List.replicate 4 {}
  last    : List (Option Nat) := List.replicate 4 none
  rxq     : List RxPkt := []
  peer    : Option (Nat × Nat) := none
  peerTx  : Nat := 0
  senseAt : Sparse Nat := []
deriving DecidableEq, Repr

/-- A line port beyond its registers. -/
structure PortState where
  cnv : CnvState := {}
  cal : CalState := {}
  rxd : RxdState := {}
  txd : TxdState := {}
  lfr : LfrState := {}
  sgp : SgpState := {}
deriving DecidableEq, Repr

/-- The chaining state of a GCM message in progress (R304): the IV, of which the counter block is made, the partial GHASH, and the
lengths of the additional data and of the data so far, in bytes. -/
structure Chain where
  iv   : List Nat := []
  hash : Nat := 0
  aad  : Nat := 0
  len  : Nat := 0
deriving DecidableEq, Repr

/-- A session of the message cipher engine (R257, R304, R309): rights by bit as in MCE_SESS_CFG (0 SENSITIVE, 1 SEDGE_OK,
2 HOST_OK), the chaining state of a message in progress, the next MSG_CTR and the highest one accepted. -/
structure Session where
  key    : Option Nat := none
  salt   : Nat := 0
  rights : Nat := 0
  mid    : Bool := false
  chain  : Chain := {}
  txCtr  : Nat := 0
  rxMark : Option Nat := none
deriving DecidableEq, Repr

/-- A job of the message cipher engine (R305): `part` the chaining state and the bytes of data done of one that was suspended,
as the internal suspension store keeps them (R306). -/
structure Job where
  handle : Nat
  bank   : Nat
  desc   : Nat
  part   : Option (Chain × Nat) := none
deriving DecidableEq, Repr

/-- A completed job that waits in the results of its bank (R311). -/
structure JobRes where
  bank   : Nat
  handle : Nat
  status : Nat
deriving DecidableEq, Repr

/-- The message cipher engine beyond its registers: jobs queued in the order accepted, the running one, suspended ones, the
last suspended first (R305, R306). -/
structure MceState where
  sess    : List Session := List.replicate 64 {}
  queue   : List Job := []
  running : Option Job := none
  susp    : List Job := []
  results : List JobRes := []
deriving DecidableEq, Repr

/-- A key slot of a cipher context (R287): state 0 EMPTY, 1 READY, 2 CURRENT, 3 QUARANTINED; the mark is
256 × swath + 4 × section. -/
structure KeySlot where
  state  : Nat := 0
  key    : Nat := 0
  salt   : Nat := 0
  mark   : Option Nat := none
  used   : Nat := 0
  warned : Bool := false
deriving DecidableEq, Repr

/-- A cipher context of one port and direction (R282 to R300). -/
structure CipherCtx where
  slot0 : KeySlot := {}
  slot1 : KeySlot := {}
  cur   : Nat := 0
  /-- receive: the slot that becomes current at the next section boundary (R291) -/
  next  : Option Nat := none
  null  : Bool := false
  iv    : Nat := 0
  /-- counters 0 to 5 of LCX_CTX_CNT -/
  cnt   : List Nat := [0, 0, 0, 0, 0, 0]
  /-- transmit: ciphertext and tag of the section in progress, and the tag of the one before it (R203) -/
  out   : List Nat := []
  tag   : List Nat := List.replicate 16 0
  prevTag : List Nat := List.replicate 16 0
  /-- receive: the key slot that served the section in progress and the one before it; the outer none where no section was -/
  sect  : Option (Option KeySlot) := none
  prev  : Option (Option KeySlot) := none
  /-- receive: the payload delivered of the last section judged; none where it was replaced by AIS -/
  plain : Option (List Nat) := none
deriving DecidableEq, Repr

/-- A transmit key taken out of use (R295). -/
structure Retired where
  print : Nat
  salt  : Nat
  mark  : Option Nat
deriving DecidableEq, Repr

/-- A key exchange of one context (R292, R276): what the proposer asked, its actions, and what a crossing left. -/
structure KeyEx where
  id      : Nat := 0
  slot    : Nat := 0
  both    : Bool := false
  target  : Nat := 0
  acts    : List (Nat × Nat) := []
  waiting : Bool := false
  backoff : Bool := false
  hold    : Bool := false
  asked   : Bool := false
deriving DecidableEq, Repr

/-- The line cipher beyond its registers: contexts by 64 × port + 32 × direction + context, exchanges by
32 × port + context. -/
structure LcxState where
  ctxs    : Sparse CipherCtx := []
  retired : List Retired := []
  exs     : Sparse KeyEx := []
  /-- groups whose JOIN waits for a swath boundary of a port-direction, and groups whose self-test passes straight to
  IN_SERVICE, one bit each -/
  join    : Sparse Nat := []
  direct  : Nat := 0
  /-- through mode: by the port that sends it, payload deciphered on the other port and not yet enciphered again (R26) -/
  onward  : Sparse (List Nat) := []
deriving DecidableEq, Repr

/-- An amplitude of a codeword: its subcarrier, H × 64, whether a matcher block begins with it, and the frame that begins with it. -/
structure CwTag where
  sub   : Nat
  hq    : Nat
  first : Bool
  frame : Option Nat := none
deriving DecidableEq, Repr

/-- A codeword in the hayrick (R178 to R183). -/
structure Codeword where
  id    : Nat
  port  : Nat
  /-- arrival and deadline, in core clocks × baud, and baud in 0.25 GBd: the frame period is 294,912 / baud clocks -/
  dl    : Nat
  baud  : Nat
  /-- channel and present hard decisions, bit n of the number being bit n of the codeword -/
  chan  : Nat
  word  : Nat
  rc    : Nat
  m     : Nat
  tags  : List CwTag
  /-- amplitudes were lost before it -/
  gap   : Bool := false
  /-- its slot: words 288 × slot to 288 × slot + 287 of SRAM instance 0 hold its LLRs (R178) -/
  slot  : Nat := 0
  conv  : Bool := false
  iters : Nat := 0
  margin : Nat := 0
  engine : Option Nat := none
  /-- it has been on an engine; decoding has stopped; it found no slot -/
  used  : Bool := false
  stopped : Bool := false
  noSlot  : Bool := false
deriving DecidableEq, Repr

/-- The decoder pool beyond its registers (R178 to R194). -/
structure FecState where
  cws    : List Codeword := []
  nextId : Nat := 0
  /-- comparisons completed in SHADOW, by group -/
  comps  : Sparse Nat := []
  /-- groups whose JOIN waits for the next swath boundary of a port-direction, one bit each -/
  join   : Sparse Nat := []
  /-- groups whose self-test passes straight to IN_SERVICE, one bit each -/
  direct : Nat := 0
  /-- released amplitudes of the block in progress, by port and subcarrier (16 × port + j), H × 64 of it, and whether it is errored -/
  blocks : Sparse (List Nat) := []
  blockH : Sparse Nat := []
  errs   : Sparse Nat := []
  /-- the last release: its systematic sign bits, errored or not, and the blocks it completed: subcarrier, bits, errored -/
  signs  : List Nat := []
  signsErr : Bool := false
  ranked : List (Nat × List Nat × Bool) := []
deriving DecidableEq, Repr

/-- What a tributary last brought towards its client (R245, R246): the signal or what replaces it, its payload type and bytes, and whether the payload is
marked errored, so that its blocks are sent as error blocks. -/
structure Egress where
  kind : OduKind := .signal
  typ  : Nat := 0
  data : List Nat := []
  bad  : Bool := false
deriving DecidableEq, Repr

/-- The client side beyond its registers: lane directions (2 × lane, + 1 for receive) that passed TEST and wait for the swath
boundary that turns them ON; tributaries (128 × port + t) in whose OPU CSF is received; those whose line-to-client replacement is in force, and
what each delivers; bits of packed blocks that make no whole byte yet (R241); FlexO groups with a defect (R246). -/
structure CliState where
  passed : List Nat := []
  csf    : List Nat := []
  down   : List Nat := []
  egress : Sparse Egress := []
  packed : Sparse (List Nat) := []
  flexo  : List Nat := []
deriving DecidableEq, Repr

/-- Whose action an action of the calendar is, beyond its bank. -/
inductive Owner where
  | none
  | prop (p d : Nat)
  | key (p ctx : Nat)
  | appr (slot : Nat)
  | hdg (n : Nat)
  | ring (q tag : Nat)
deriving DecidableEq, Repr

/-- An action in the calendar (R43, R54): phase 0 pending, 1 staged, 2 deferred, 3 about to execute at the boundary in hand. -/
structure Act where
  handle : Nat
  bank   : Nat
  seq    : Nat
  desc   : Nat
  /-- its descriptor's place in the pool: word `slot` of SRAM instance 11 (R35, R376) -/
  slot   : Nat := 0
  phase  : Nat := 0
  owner  : Owner := .none
deriving DecidableEq, Repr

/-- A result (R54). -/
structure Res where
  handle : Nat
  bank   : Nat
  status : Nat
  late   : Nat
  value  : Nat
deriving DecidableEq, Repr

/-- The position of a port-direction (R31 to R34): transmitter enabled or swath alignment holds, whether it was ever valid,
and whether the first frame is still to be sent. -/
structure PdPos where
  swath  : Nat := 0
  frame  : Nat := 0
  valid  : Bool := false
  ever   : Bool := false
  first  : Bool := false
deriving DecidableEq, Repr

/-- A region activation of the calendar (R348): its action, and how far it is: 0 queued, 1 staging, 2 staged, 3 failed,
4 executed and waiting for its swath boundary. -/
structure RegionJob where
  bank   : Nat
  handle : Nat
  region : Nat
  slot   : Nat
  pd     : Nat
  phase  : Nat
  status : Nat := 0
  due    : Bool := false
  /-- the content to take effect: the shadow -/
  sects  : List Section := []
deriving DecidableEq, Repr

/-- The calendar (R35 to R58). `ended` lists what actions of an exchange ended with, until the same step has acted on it; `snaps` holds
by port-direction the position + 1 of a snapshot that may have another to be taken with it, `snapNow` the port-direction whose snapshot
was taken in the core clock in hand (R46, R467). -/
structure SwcState where
  acts  : List Act := []
  seq   : Nat := 0
  res   : List Res := []
  pds   : List PdPos := List.replicate 4 {}
  jobs  : List RegionJob := []
  ended : List (Owner × Nat) := []
  snaps : Sparse Nat := []
  snapNow : Option Nat := none
deriving DecidableEq, Repr

/-- Power domains on their way up (R456). -/
structure PwrState where
  going   : List Nat := []
  waiting : List Nat := []
deriving DecidableEq, Repr

/-- The image store: the STRUCT in force with its directory, and the active bank of each table, for transmit or all uses, and
for receive where the table is PER_DIR (R343, R344, R352). -/
structure ImgState where
  struct : StructSec := {}
  /-- verified images by slot, and the content in force of each region: its sections (R342, R347, R350) -/
  images : Sparse Image := []
  inforce : Sparse (List Section) := []
  actTx  : Sparse Nat := []
  actRx  : Sparse Nat := []
  /-- the slot that a LOAD verifies, and the PCI IDs in effect (R28, R346) -/
  load   : Option Nat := none
  pci    : List Nat := []
deriving DecidableEq, Repr

/-- A DPLL beyond its registers: the selected reference, the one a switch runs to, one to switch back to once that completes, and
the mean DCO offset of each second, newest first (R417 to R423). -/
structure Dpll where
  sel    : Option Nat := none
  target : Option Nat := none
  due    : Option Nat := none
  hist   : List (Option Int) := []
  dco    : Int := 0
deriving DecidableEq, Repr

/-- The references and DPLLs beyond their registers: the count that runs for each reference, 1 towards qualification and 2
towards disqualification (R414). -/
structure ClkState where
  runs : Sparse Nat := []
  dps  : List Dpll := List.replicate 3 {}
deriving DecidableEq, Repr

/-- A change proposal in its slot (R329): state code, the proposal, its content, the tokens accepted as (approver, ROLE), the
status that ended it, its actions as (bank, handle), and how many of them are done. -/
structure ChangeProp where
  state   : Nat := 0
  bytes   : List Nat := []
  content : List Nat := []
  tokens  : List (Nat × Nat) := []
  status  : Nat := 0
  acts    : List (Nat × Nat) := []
  done    : Nat := 0
deriving DecidableEq, Repr

/-- A store of the approval record under way (R329): what it waits for. -/
inductive SecStore where
  /-- the second token of a slot, given in a mailbox bank -/
  | second (bank slot approver role : Nat)
  /-- a state that is only recorded -/
  | plain
deriving DecidableEq, Repr

/-- The security core beyond its registers (R312 to R336). Lists of bytes that are empty stand for content never given. -/
structure SecState where
  /-- key-transport keys; a cleared one is zero -/
  ktk     : Sparse Nat := []
  /-- unused nonces, newest first -/
  nonces  : List Nat := []
  enrol   : List Nat := []
  policy  : List Nat := []
  /-- programmed CUST_KEY hashes -/
  cust    : Sparse Nat := []
  slots   : Sparse ChangeProp := []
  /-- mailbox windows: 4096 × master + word -/
  win     : Sparse Nat := []
  stores  : List SecStore := []
  /-- reports that wait for a reservation, the one whose store is under way first: bank and nonce -/
  att     : List (Nat × List Nat) := []
  /-- the runtime that replaces the running one: bank, boot slot, object -/
  swap    : Option (Nat × Nat × SignedObj) := none
  /-- what runs or is in force: the Ling runtime, the FW section, the image -/
  runtime : SignedObj := {}
  fw      : SignedObj := {}
  image   : SignedObj := {}
  /-- exchanges that wait while the runtime is replaced (R336): port, message type (0 a confirmation that is due), bytes -/
  held    : List (Nat × Nat × List Nat) := []
  /-- as last found in flash: the payload of the newest committed record, RESERVED_TO of the newest reservation -/
  kept    : Option (List Nat) := none
  keptRsv : Nat := 0
deriving DecidableEq, Repr

/-- A frame in the Stile receive queue (R434): its lane, whether it came by a loopback, device time, its 64 bytes. -/
structure StileFrame where
  lane   : Nat
  looped : Bool
  time   : Nat
  bytes  : List Nat
deriving DecidableEq, Repr

/-- The Stile lanes beyond their registers: slot words by 16 × (2 × lane + slot) + word (R433), the receive queue, the
loopback in effect (R439), the last frame sent on a lane, and the last response handed to Bracken from a lane (R434). -/
structure StlState where
  slots : Sparse Nat := []
  rxq   : List StileFrame := []
  loops : Sparse Nat := []
  sent  : Sparse (List Nat) := []
  taken : Sparse (List Nat) := []
deriving DecidableEq, Repr

/-- Counters (R463 to R468). -/
structure PmcState where
  cnt       : Sparse Nat := []
  shd       : Sparse Nat := []
  shdOvf    : Sparse Nat := []
  period    : Nat := 0
  presetCnt : Nat := 0
  /-- events of level counters that occurred in the running tick -/
  tick      : List Nat := []
  /-- level counters whose condition held as the running tick began -/
  held      : List Nat := []
deriving DecidableEq, Repr

/-- A value in a chain of the field monitor: 8 fractional bits, and whether a repeated input reaches it (R472, R476). -/
structure FmnSample where
  v    : Int := 0
  hold : Bool := false
deriving DecidableEq, Repr

/-- A chain of the field monitor beyond its registers (R469 to R478): DC estimate and last input in 1/256 of the unit, frame values of the running
swath (newest first, none where not valid), the windows of the half-band
stages and of the FIR (newest first) with the inputs each has taken, whether input 0 has come, and the source of timing of
the last input: 1 the line, 2 the local count. -/
structure FmnChain where
  dc     : Int := 0
  last   : Option Int := none
  frames : List (Option Int) := []
  hbs    : List (List FmnSample) := [[], [], []]
  taken  : List Nat := [0, 0, 0]
  fir    : List FmnSample := []
  firN   : Nat := 0
  begun  : Bool := false
  timing : Nat := 0
deriving DecidableEq, Repr

/-- The field monitor beyond its registers: chains, and ring entries by 1024 × chain + entry (R476). -/
structure FmnState where
  chains : List FmnChain := List.replicate 16 {}
  ring   : Sparse Nat := []
deriving DecidableEq, Repr

/-- A command of a submission ring that is outstanding (R380, R382). -/
structure HostCmd where
  sq      : Nat
  tag     : Nat
  sqHead  : Nat
  op      : Nat
  flags   : Nat
  len     : Nat
  addr    : Nat
  args    : List Nat
  started : Bool := false
  done    : Bool := false
  /-- mailbox bank of the Gorse core that runs a SEC_CMD -/
  bank    : Nat := 6
deriving DecidableEq, Repr

/-- A completion that waits for room in its ring (R383). `frees` says that its tag becomes free once it is written. -/
structure HostCpl where
  cq     : Nat
  sq     : Nat
  tag    : Nat
  sqHead : Nat
  status : Nat
  rlen   : Nat
  result : Nat
  frees  : Bool := true
deriving DecidableEq, Repr

/-- The host interface beyond its registers: tails of the submission rings, heads and unread entries of the completion rings,
the ring served last at each PRIO, outstanding commands in fetch order, completions that wait, entries written by 1024 × ring + slot, MSI-X
vectors that have fired (bit v), GCC data sent last by 3 × port + channel, the pointer of the two-wire slave, and its address
strap (R501). -/
structure HifState where
  tails  : List Nat := List.replicate 16 0
  heads  : List Nat := List.replicate 4 0
  unread : List Nat := List.replicate 4 0
  last   : List Nat := List.replicate 4 15
  cmds   : List HostCmd := []
  waits  : List HostCpl := []
  ring   : Sparse Nat := []
  fired  : Nat := 0
  gcc    : Sparse (List Nat) := []
  ptr    : Nat := 0
  strap  : Nat := 0
  /-- words of the MSI-X table (R378) -/
  msix   : Sparse Nat := []
deriving DecidableEq, Repr

/-- Who asked for a flash operation: the register path, or a ring command. -/
inductive FlashFor where
  | regs
  | ring (tag : Nat)
  /-- a scrub read -/
  | scrub
deriving DecidableEq, Repr

/-- A flash operation (R400, R401): kind 1 read of `count` pages from `index` on, 2 write of page `index`, 3 erase of logical
block `index`, 5 retirement of physical block `index`. -/
structure FlashOp where
  kind  : Nat
  part  : Nat := 0
  index : Nat
  count : Nat := 1
  data  : List Nat := []
  who   : FlashFor
deriving DecidableEq, Repr

/-- A record of the event log (R406) that waits to be programmed. -/
structure LogRec where
  seq    : Nat
  time   : Nat
  typ    : Nat
  part   : Nat := 0
  status : Nat := 0
  t      : Nat := 0
  pblk   : Nat := 0
  page   : Nat := 0
  nbits  : Nat := 0
  newblk : Nat := 0
  extra  : List Nat := []
deriving DecidableEq, Repr

/-- The flash store beyond its registers: physical blocks as the model knows them, mapped blocks (key 2^20 × partition + logical
block, value physical block + 1), blocks whose page 0 reads uncorrectable, blocks retired since the mount, blocks queued for
relocation with whether they retire after it, operations that wait in arrival order and the one on each chip enable, the data
window by word, log records that wait and the page of the log ring to be programmed next, and scrub reads of the
running pass: left, and in all. -/
structure FlashState where
  blocks : Sparse FlashBlock := []
  map    : Sparse Nat := []
  stuck  : List Nat := []
  bad    : List Nat := []
  moves  : List (Nat × Bool) := []
  queue  : List FlashOp := []
  busy   : Sparse FlashOp := []
  win    : Sparse Nat := []
  buf    : List LogRec := []
  logAt  : Nat := 0
  scrubs : Nat := 0
  scrubAll : Nat := 0
deriving DecidableEq, Repr

/-- Thermal protection and the core supply beyond their registers (R445, R446, R448, R460): samples in a row by which a sensor's
mark is about to change, fast samples in a row away from every threshold, diodes above their alarm (one bit each), whether
AVS has stopped after a failure. -/
structure ThmState where
  runs   : Sparse Nat := []
  calm   : Nat := 0
  alarms : Nat := 0
  avsOff : Bool := false
deriving DecidableEq, Repr

/-- A timer of a sequencer (R356): COUNT of microseconds, or of swaths of a port-direction. -/
structure SeqTimer where
  running : Bool := false
  expired : Bool := false
  swaths  : Bool := false
  pd      : Nat := 0
  count   : Nat := 0
deriving DecidableEq, Repr

/-- One Hedgerow sequencer (R355). -/
structure Sequencer where
  /-- 0 STOPPED, 1 RUNNING, 2 HALTED -/
  run      : Nat := 0
  state    : Nat := 0
  evs      : List Nat := []
  codes    : List Nat := []
  timers   : List SeqTimer := List.replicate 8 {}
  vars     : List Nat := List.replicate 8 0
  /-- every counter at the last entry -/
  base     : Sparse Nat := []
  /-- samples to be recorded: transitions made since each preset overflow (R359) -/
  due      : List Nat := []
deriving DecidableEq, Repr

/-- Hedgerow beyond its registers: sequencers, host events (sequencer, value), samples (sequencer, state) (R358, R359). -/
structure HdgState where
  seqs : List Sequencer := List.replicate 16 {}
  hev  : List (Nat × Nat) := []
  samp : List (Nat × Nat) := []
deriving DecidableEq, Repr

/-- Units in service beyond their registers (R486 to R493): a slice fallow that waits for a sweep step (port, band, slice), tile
fallows that wait for a frame boundary (port, tile), fallowed slices under calibration by 16 × port + band, the firmware update
under way (slot, cores still to come, the core in hand), cores that have halted, one bit each, the Bracken core that holds each
loop family (R18, R491), and by core the families it gave up and takes back when it returns, one bit each (R492). -/
structure UnitState where
  slice  : Option (Nat × Nat × Nat) := none
  tiles  : List (Nat × Nat) := []
  /-- tiles made READY while their receiver was OFF (R489) -/
  late   : List (Nat × Nat) := []
  cal    : List Nat := []
  update : Option (Nat × List Nat × Nat) := none
  halted : Nat := 0
  loops  : List Nat := [0, 1, 2, 3]
  gave   : List Nat := [0, 0, 0, 0]
deriving DecidableEq, Repr

/-- A burst in progress (R367): its master, whether it writes, the address and number of its remaining beats, the status of its first beat
that was not OK and that beat's address. -/
structure Burst where
  m      : Nat
  write  : Bool
  addr   : Nat
  left   : Nat
  status : Nat := 0
  bad    : Nat := 0
deriving DecidableEq, Repr

/-- The fabric beyond its registers: bursts that hold a path (R367, R369). -/
structure FabState where
  bursts : List Burst := []
deriving DecidableEq, Repr

/-- The state of the block. -/
structure State where
  part    : Part := .lyk4802
  /-- every register field, by key, as its difference from the reset value -/
  regs    : Sparse Nat := []
  /-- read latches (R512): partner address × 16 + master -/
  latches : Sparse Nat := []
  port0   : PortState := {}
  port1   : PortState := {}
  jnl     : Journal := {}
  /-- SRAM words, 2^22 × instance + word (R376): a valid word as its data + 1; table RAM is instance 1, shared SRAM 8 -/
  sram    : Sparse Nat := []
  /-- check bits + 1 of words that a raw write left with other check bits than those of their data (R375) -/
  sramChk : Sparse Nat := []
  /-- errors of each instance: key 4 × instance + 0 correctable, 1 uncorrectable, 2 word of the last uncorrectable (R372) -/
  ecc     : Sparse Nat := []
  pwr     : PwrState := {}
  img     : ImgState := {}
  fec     : FecState := {}
  swc     : SwcState := {}
  cli     : CliState := {}
  lcx     : LcxState := {}
  mce     : MceState := {}
  clk     : ClkState := {}
  sec     : SecState := {}
  stl     : StlState := {}
  pmc     : PmcState := {}
  fmn     : FmnState := {}
  hif     : HifState := {}
  flc     : FlashState := {}
  thm     : ThmState := {}
  hdg     : HdgState := {}
  units   : UnitState := {}
  fab     : FabState := {}
  resp    : Resp := {}
  /-- the model's own: how many free values have been drawn -/
  freeCtr : Nat := 0
  /-- commands that wait, first in, first out -/
  pending : List Instr := []
deriving DecidableEq, Repr

/-- The block right after reset: every register at its reset value, every memory invalid, nothing waiting. -/
def State.reset : State := {}

/-- Line port `p`. -/
def State.port (s : State) (p : Nat) : PortState := if p = 0 then s.port0 else s.port1

/-- Line port `p` changed. -/
def State.modPort (s : State) (p : Nat) (f : PortState → PortState) : State :=
  if p = 0 then { s with port0 := f s.port0 } else { s with port1 := f s.port1 }

end Sys2Proof.Machine
end

