-- ==== Sys2Proof/Machine/Ops.lean ====
section
/-! DEFINITION. The named operations over State: bit fields, sparse data, register fields, ports. -/
namespace Sys2Proof.Machine

/-- What a command answers. -/
abbrev Out := Host.Outcome State Fault Refusal

/-! ### Numbers -/

/-- Bits hi:lo of `v` (R5). -/
def bits (v hi lo : Nat) : Nat := v / 2 ^ lo % 2 ^ (hi + 1 - lo)

/-- Bit `i` of `v`, 0 or 1. -/
def bitAt (v i : Nat) : Nat := v / 2 ^ i % 2

/-- The two's complement reading of a `w`-bit field. -/
def signed (w v : Nat) : Int := if v < 2 ^ (w - 1) then (v : Int) else (v : Int) - 2 ^ w

/-- A number as a `w`-bit two's complement field. -/
def toField (w : Nat) (x : Int) : Nat := (x % (2 ^ w : Int)).toNat

/-- `x` held between `lo` and `hi`. -/
def clampInt (lo hi x : Int) : Int := if x < lo then lo else if hi < x then hi else x

/-- Ceiling of a quotient; 0 for divisor 0. -/
def ceilDiv (a b : Nat) : Nat := (a + b - 1) / b

/-- `a` with the bits of mask `m` taken from `b`. -/
def mixBits (m a b : Nat) : Nat := (a &&& ((2 ^ 128 - 1) ^^^ m)) ||| (b &&& m)

/-- Addition that stops at `top` (a saturating counter). -/
def satAdd (top a b : Nat) : Nat := if top ≤ a + b then top else a + b

/-! ### Sparse data -/

/-- The value stored under `k`. -/
def look {α : Type} (k : Nat) : Sparse α → Option α
  | [] => none
  | (j, v) :: r => if j = k then some v else look k r

/-- `m` without an entry at `k`. -/
def dropKey {α : Type} (k : Nat) (m : Sparse α) : Sparse α := m.filter (fun e => e.1 != k)

/-- `m` with `v` at `k`, in its place. -/
def putKey {α : Type} (k : Nat) (v : α) : Sparse α → Sparse α
  | [] => [(k, v)]
  | (j, w) :: r => if j = k then (k, v) :: r else if k < j then (k, v) :: (j, w) :: r else (j, w) :: putKey k v r

/-- Read: an unlisted key reads as `d`. -/
def getAt {α : Type} (d : α) (m : Sparse α) (k : Nat) : α := (look k m).getD d

/-- Write: storing `d` removes the entry, so equal contents are equal data. -/
def setAt {α : Type} [DecidableEq α] (d : α) (m : Sparse α) (k : Nat) (v : α) : Sparse α :=
  if v = d then dropKey k m else putKey k v m

/-- Read, change, write. -/
def modAt {α : Type} [DecidableEq α] (d : α) (m : Sparse α) (k : Nat) (f : α → α) : Sparse α :=
  setAt d m k (f (getAt d m k))

/-- Every key of `m` is at or above `lo`, and the keys strictly rise. -/
def risingFrom {α : Type} : Nat → Sparse α → Bool
  | _, [] => true
  | lo, (k, _) :: r => decide (lo ≤ k) && risingFrom (k + 1) r

/-- The canonical form: keys strictly rising and no entry equal to what an unlisted key reads as. -/
def sparseWf {α : Type} [DecidableEq α] (d : α) (m : Sparse α) : Bool :=
  risingFrom 0 m && m.all (fun e => decide (e.2 ≠ d))

/-- The entries whose key satisfies `f`. -/
def keepKeys {α : Type} (f : Nat → Bool) (m : Sparse α) : Sparse α := m.filter (fun e => f e.1)

/-- Element `i` of a list replaced through `f` (nothing happens beyond its end). -/
def modNth {α : Type} (i : Nat) (f : α → α) (l : List α) : List α := l.modify i f

/-- Fold `f` over 0, 1, …, n − 1. -/
def iter (n : Nat) (f : Nat → State → State) (s : State) : State :=
  (List.range n).foldl (fun s i => f i s) s

/-! ### Register fields -/

/-- The value of a register field. -/
def State.get (s : State) (f : Fld) : Nat := getAt 0 s.regs f.key ^^^ f.rst

/-- A field set to `v` (taken modulo 2^width); what is stored is the difference from the reset value. -/
def State.set (s : State) (f : Fld) (v : Nat) : State :=
  { s with regs := setAt 0 s.regs f.key ((v % 2 ^ f.w) ^^^ f.rst) }

/-- A field that is 1. -/
def State.isOn (s : State) (f : Fld) : Bool := s.get f == 1

/-- A field as a two's complement number. -/
def State.getI (s : State) (f : Fld) : Int := signed f.w (s.get f)

/-- A field set to a two's complement number. -/
def State.setI (s : State) (f : Fld) (x : Int) : State := s.set f (toField f.w x)

/-- A saturating counter field raised by `n`. -/
def State.addSat (s : State) (f : Fld) (n : Nat) : State := s.set f (satAdd (2 ^ f.w - 1) (s.get f) n)

/-- Registers with addresses in [lo, hi) back at their reset values. -/
def State.clearRegs (s : State) (lo hi : Nat) : State :=
  { s with regs := keepKeys (fun k => k < 32 * lo || 32 * hi ≤ k) s.regs }

/-! ### Parts and answers -/

/-- Line port `p` exists on this part (R2). -/
def State.hasPort (s : State) (p : Nat) : Bool := p == 0 || (p == 1 && s.part == .lyk4802)

/-- Port-direction `d` exists on this part (R32). -/
def State.hasPd (s : State) (d : Nat) : Bool := d < 4 && s.hasPort (d / 2)

/-- The answer to a command: its status of R10 and the words it returns. -/
def State.answer (s : State) (status : Nat) (data : List Nat) : State := { s with resp := ⟨status, data⟩ }

/-- A happening on port `p`: on a port the part does not have it cannot come about, and the state stays (log entry 5). -/
def onPort (s : State) (p : Nat) (t : State) : Out := .next (if s.hasPort p then t else s)

/-- A happening on unit `i` of `n`. -/
def onUnit (s : State) (i n : Nat) (t : State) : Out := .next (if i < n then t else s)

/-- A happening on unit `i` of `n` of port `p`. -/
def onPortUnit (s : State) (p i n : Nat) (t : State) : Out := .next (if s.hasPort p && decide (i < n) then t else s)

/-- A happening on port-direction `d`. -/
def onPd (s : State) (d : Nat) (t : State) : Out := .next (if s.hasPd d then t else s)

/-! ### Values the spec leaves open -/

/-- The next free value, below `n` where `n` is not 0: nothing constrains it (assumption log). -/
def State.draw (s : State) (n : Nat) : Nat × State :=
  ((if n = 0 then Config.freeValue s.freeCtr else Config.freeValue s.freeCtr % n), { s with freeCtr := s.freeCtr + 1 })

/-! ### Status codes (R10) -/

namespace St
def ok : Nat := 0x00
def decerr : Nat := 0x01
def length : Nat := 0x02
def denied : Nat := 0x03
def busy : Nat := 0x04
def conflict : Nat := 0x05
def tempInhibit : Nat := 0x06
def uncorr : Nat := 0x07
def timeout : Nat := 0x08
def stale : Nat := 0x09
def horizon : Nat := 0x0A
def full : Nat := 0x0B
def aborted : Nat := 0x0C
def late : Nat := 0x0D
def approvalMissing : Nat := 0x0E
def quarantined : Nat := 0x0F
end St

end Sys2Proof.Machine
end

