-- ==== Sys2Proof/Machine/Flags.lean ====
section
/-! DEFINITION. Events: the sticky status bit, the counters (R463 to R465), the preset unit's count (R468) and the event
latches of the sequencers (R355), all set by the one operation `State.raise`. -/
namespace Sys2Proof.Machine

/-- Base address of the STATUS register of unit `u` (R29, R30, R463; GCTL_STATUS and SWC_STATUS lie at 0x0004). -/
def statusAddr (u : Nat) : Nat :=
  [0x4, 0x10000, 0x20000, 0x30000, 0x40000, 0x50000, 0x60000, 0x70000, 0x80000, 0x90000, 0xA0000, 0xB0000, 0x100004,
   0x200000, 0x400000, 0x800000, 0x1000000, 0x1100000, 0x1200000, 0x1400000, 0x1600000, 0x1700000,
   0x2000000, 0x2100000, 0x2200000, 0x2400000, 0x2600000, 0x2700000, 0x3000000, 0x4000000].getD u 0

/-- The sticky bit of event `i` = 128 × unit + bit. -/
def stickyBit (i : Nat) : Fld := ⟨statusAddr (i / 128), i % 128, 1, 0⟩

/-- The mode bit of counter `i`: 0 edge, 1 level (R464). -/
def modeBit (i : Nat) : Fld := R.PMC_MODE_BITS (i / 32) (i % 32)

/-- The overflow bit of counter `i` (R465). -/
def ovfBit (i : Nat) : Fld := R.PMC_OVF_BITS (i / 32) (i % 32)

/-- Event `i` latched in every running sequencer (R355). -/
def latchEvent (i : Nat) (s : State) : State :=
  { s with hdg := { s.hdg with seqs := s.hdg.seqs.map (fun q =>
      if q.run = 1 && !q.evs.contains i then { q with evs := q.evs ++ [i] } else q) } }

/-- The preset unit counts `n` increments of the counter HDG_SAMP_CTRL.COUNTER names (R468). -/
def presetCount (i n : Nat) (s : State) : State :=
  if s.pmc.period = 0 || s.get R.HDG_SAMP_CTRL_COUNTER ≠ i then s
  else { s with pmc := { s.pmc with presetCnt := s.pmc.presetCnt + n } }

/-- Counter `i` raised by `n`, without the overflow event (R464, R465). -/
def addCount (i n : Nat) (s : State) : State :=
  let v := getAt 0 s.pmc.cnt i + n
  let s := { s with pmc := { s.pmc with cnt := setAt 0 s.pmc.cnt i (v % 2 ^ 48) } }
  let s := if 2 ^ 48 ≤ v then s.set (ovfBit i) 1 else s
  latchEvent i (presetCount i n s)

/-- Counter `i` raised by `n`; on wrapping, EV_PMC_OVERFLOW is set and counted (R465). -/
def countUp (i n : Nat) (s : State) : State :=
  let wraps := 2 ^ 48 ≤ getAt 0 s.pmc.cnt i + n
  let s := addCount i n s
  if wraps then
    let s := s.set (stickyBit Ev.PMC_OVERFLOW) 1
    if s.get (modeBit Ev.PMC_OVERFLOW) = 1 then { s with pmc := { s.pmc with tick := insertTick Ev.PMC_OVERFLOW s.pmc.tick } }
    else addCount Ev.PMC_OVERFLOW 1 s
  else s
where
  insertTick (i : Nat) (l : List Nat) : List Nat := if l.contains i then l else l ++ [i]

/-- `n` occurrences of the event of counter `i` in one core clock: an edge counter adds them at once, a level counter notes
the tick that held them (R464). -/
def countEvent (i n : Nat) (s : State) : State :=
  if n = 0 then s
  else if s.get (modeBit i) = 1 then
    { s with pmc := { s.pmc with tick := if s.pmc.tick.contains i then s.pmc.tick else s.pmc.tick ++ [i] } }
  else countUp i n s

/-- Event `i` occurs: its sticky bit is set and its counter counts it (R463, R464). -/
def State.raise (s : State) (i : Nat) : State := countEvent i 1 (s.set (stickyBit i) 1)

/-- Event `i` occurs if `c` holds. -/
def State.raiseIf (s : State) (c : Bool) (i : Nat) : State := if c then s.raise i else s

/-- A client lane or group event: the block-wide event and its own counter together (R463). -/
def State.raiseClient (s : State) (i own : Nat) : State := countEvent own 1 (s.raise i)

end Sys2Proof.Machine
end

