-- ==== Sys2Proof/Machine/Memory.lean ====
section
/-! DEFINITION. SRAM under the word code (R371 to R376): table RAM is instance 1, shared SRAM instance 8. -/
namespace Sys2Proof.Machine

/-- The number a word of an instance is stored under. -/
def sramKey (inst w : Nat) : Nat := 2 ^ 22 * inst + w

/-- Words of each instance (R376). -/
def sramSize (inst : Nat) : Nat :=
  [2359296, 2097152, 786432, 786432, 393216, 393216, 393216, 655360, 262144, 196608, 65536, 131072, 32768].getD inst 0

/-- A word as stored: data, check bits, valid bit. -/
def State.sramRaw (s : State) (k : Nat) : Nat × Nat × Bool :=
  let e := getAt 0 s.sram k
  if e = 0 then (0, 0, false)
  else
    let c := getAt 0 s.sramChk k
    (e - 1, if c = 0 then Config.eccCheck (e - 1) else c - 1, true)

/-- A word with check bits `c` decoded (R372): the data where it is right or one bit is wrong, none where it is uncorrectable. -/
def eccDecode (d c : Nat) : Option Nat :=
  let syn := Config.eccCheck d ^^^ c
  if syn = 0 then some d
  else match (List.range 128).find? (fun i => Config.eccCheck (d ^^^ 2 ^ i) ^^^ c == 0) with
    | some i => some (d ^^^ 2 ^ i)
    | none => if (List.range 9).any (fun i => syn == 2 ^ i) then some d else none

/-- The data a functional read of a word gives: corrected; zero where it is invalid or uncorrectable. -/
def State.sramView (s : State) (k : Nat) : Nat :=
  let e := getAt 0 s.sram k
  if getAt 0 s.sramChk k = 0 then e - 1 else (eccDecode (e - 1) (getAt 0 s.sramChk k - 1)).getD 0

/-- A full-word write: data with new check bits, valid (R373). -/
def State.sramPut (s : State) (k v : Nat) : State :=
  { s with sram := setAt 0 s.sram k (v % 2 ^ 128 + 1), sramChk := setAt 0 s.sramChk k 0 }

/-- A raw write: data and check bits as given (R375). -/
def State.sramPutRaw (s : State) (k v c : Nat) : State :=
  let s := s.sramPut k v
  if Config.eccCheck (v % 2 ^ 128) = c then s else { s with sramChk := setAt 0 s.sramChk k (c + 1) }

/-- Every valid bit of an instance cleared (R371). -/
def sramClear (inst : Nat) (s : State) : State :=
  let out := fun k => decide (k < sramKey inst 0) || decide (sramKey (inst + 1) 0 ≤ k)
  { s with sram := keepKeys out s.sram, sramChk := keepKeys out s.sramChk }

/-- An error counted against its instance (R372): saturating counts, the word of the last uncorrectable one. -/
def eccCount (k : Nat) (ue : Bool) (s : State) : State :=
  let inst := k / 2 ^ 22
  let s := { s with ecc := modAt 0 s.ecc (4 * inst + ue.toNat) (satAdd (2 ^ 32 - 1) 1) }
  if ue then ({ s with ecc := setAt 0 s.ecc (4 * inst + 2) (k % 2 ^ 22) }).raise Ev.FAB_UE else s.raise Ev.FAB_CE

/-- A checked read of a word (R372): OK with the data, corrected in place where one bit was wrong, or UNCORR with zero. -/
def sramRead (k : Nat) (s : State) : Nat × Nat × State :=
  let e := getAt 0 s.sram k
  let c := getAt 0 s.sramChk k
  if c = 0 then (0, e - 1, s)
  else match eccDecode (e - 1) (c - 1) with
    | some d => (0, d, eccCount k false (s.sramPut k d))
    | none => (7, 0, eccCount k true s)

/-- The mask of the bytes that 16 byte enables select. -/
def byteMask (n be : Nat) : Nat := ((List.range n).map (fun i => bitAt be i * 255 * 2 ^ (8 * i))).sum

/-- A write with 16 byte enables (R373): full words overwrite, partial ones merge with what a checked read gives. -/
def sramWrite (k be v : Nat) (s : State) : Nat × State :=
  if be % 65536 = 65535 then (0, s.sramPut k v)
  else
    let (st, d, s) := sramRead k s
    if st ≠ 0 then (st, s) else (0, s.sramPut k (mixBits (byteMask 16 be) d v))

end Sys2Proof.Machine
end

