-- ==== Sys2Proof/Machine/Tables.lean ====
section
/-! DEFINITION. Table RAM and its directory (R344, R351, R352), and the content of the rate ladder, adjustment, PCS and
throttle tables (R141, R142, R148, R149, R155, R156, R353), read from raw 128-bit words. -/
namespace Sys2Proof.Machine

/-! ### Directory and banks -/

/-- The directory entry of table `t` in the STRUCT in force. -/
def State.findTab (s : State) (t : Nat) : Option TblEnt := s.img.struct.dir.find? (fun e => e.num == t)

/-- The active bank of table `t`, for receive with `rx`. -/
def State.actBank (s : State) (t : Nat) (rx : Bool) : Nat :=
  match s.findTab t with
  | some e => if e.perDir && rx then getAt 0 s.img.actRx t else getAt 0 s.img.actTx t
  | none => 0

/-- Word `w` of bank `b` of the table of `e`. -/
def State.bankWord (s : State) (e : TblEnt) (b w : Nat) : Nat :=
  if w < e.words then s.sramView (sramKey 1 (e.base + b * e.words + w)) else 0

/-- Every word of bank `b` of table `t`. -/
def State.bankWords (s : State) (t b : Nat) : List Nat :=
  match s.findTab t with
  | some e => (List.range e.words).map (s.bankWord e b)
  | none => []

/-- Word `w` of the active bank of table `t`; zero where the directory does not name it. -/
def State.tabWord (s : State) (t : Nat) (rx : Bool) (w : Nat) : Nat :=
  match s.findTab t with
  | some e => s.bankWord e (s.actBank t rx) w
  | none => 0

/-- A table word written. -/
def State.setBankWord (s : State) (e : TblEnt) (b w v : Nat) : State :=
  s.sramPut (sramKey 1 (e.base + b * e.words + w)) v

/-- Consecutive words of bank `b` of table `t` written from word `w` on; the directory names the table. -/
def State.setBankWords (s : State) (t b w : Nat) : List Nat → State
  | [] => s
  | v :: r =>
    match s.findTab t with
    | some e => (s.setBankWord e b w v).setBankWords t b (w + 1) r
    | none => s

/-- Bank `b` of table `t` made active (R352): for the direction `rx` of a PER_DIR table, else for every use. -/
def State.makeActive (s : State) (t b : Nat) (rx : Bool) : State :=
  match s.findTab t with
  | some e =>
    if e.perDir && rx then { s with img := { s.img with actRx := setAt 0 s.img.actRx t b } }
    else { s with img := { s.img with actTx := setAt 0 s.img.actTx t b } }
  | none => s

/-- A table with a header counts as loaded when its header has the directory's TYPE and VALID (R353). -/
def State.loaded (s : State) (t : Nat) : Bool :=
  match s.findTab t with
  | some e => bits (s.tabWord t false 0) 7 0 == e.typ && bitAt (s.tabWord t false 0) 127 == 1
  | none => false

/-- The words of table `t`, where it is loaded and of type `typ`; none else, as for 0xFFFF (R353). -/
def State.curve (s : State) (t typ : Nat) : Option (Nat → Nat) :=
  if t ≠ 0xFFFF && s.loaded t && ((s.findTab t).map (·.typ)) == some typ then some (s.tabWord t false) else none

/-! ### Rungs (R155) -/

/-- A rung of the ladder. `clean` says that every reserved bit and every field for j ≥ S is zero. -/
structure Rung where
  valid   : Bool
  baud    : Nat
  sc      : Nat
  m       : Nat
  rc      : Nat
  n       : Nat
  rolloff : Nat
  pilot   : Nat
  hq      : List Nat
  pw      : List Int
  clean   : Bool
deriving DecidableEq, Repr

/-- Subcarriers of a rung. -/
def Rung.subs (r : Rung) : Nat := 2 ^ r.sc

/-- Bits per 2D symbol of the base constellation. -/
def Rung.bitsPer (r : Rung) : Nat := 2 * (r.m + 1)

/-- Information length of the code (R168). -/
def Rung.infoLen (r : Rung) : Nat := 6912 + 384 * r.rc

/-- 1 / p of the pilot ratio. -/
def Rung.pilotInv (r : Rung) : Nat := 16 * 2 ^ r.pilot

/-- Data 2D symbols of a frame, both polarisations and all subcarriers (R138). -/
def Rung.dataSyms (r : Rung) : Nat := 2 * 64512 * (r.pilotInv - 1) / r.pilotInv

/-- A rung from its four words. -/
def rungOf (w0 w1 w2 w3 : Nat) : Rung :=
  let sc := bits w0 18 16
  let n := 2 ^ sc
  let hq := (List.range 16).map (fun j => if j < 8 then bits w1 (16 * j + 8) (16 * j) else bits w2 (16 * (j - 8) + 8) (16 * (j - 8)))
  let pw := (List.range 16).map (fun j => signed 8 (bits w3 (8 * j + 7) (8 * j)))
  let rsv0 := bits w0 19 19 + bits w0 23 22 + bits w0 126 38
  let rsvH := fun w => (List.range 8).all (fun j => bits w (16 * j + 15) (16 * j + 9) == 0)
  { valid := bitAt w0 127 == 1, baud := bits w0 15 0, sc := sc, m := bits w0 21 20, rc := bits w0 25 24,
    n := bits w0 31 26, rolloff := bits w0 35 32, pilot := bits w0 37 36, hq := hq, pw := pw,
    clean := rsv0 == 0 && rsvH w1 && rsvH w2 &&
      (List.range 16).all (fun j => decide (j < n) || (hq.getD j 0 == 0 && pw.getD j 0 == 0)) }

/-- H × 64 is a valid shaping entropy for m bits per symbol (R141). -/
def hqValid (m hq : Nat) : Bool :=
  if m = 2 then hq == 128
  else if m = 4 then (160 ≤ hq && hq ≤ 248) || hq == 256
  else if m = 6 then (224 ≤ hq && hq ≤ 376) || hq == 384
  else if m = 8 then (288 ≤ hq && hq ≤ 504) || hq == 512
  else false

/-- H × 64 = 64 m: the matcher is bypassed. -/
def unshaped (m hq : Nat) : Bool := hq == 64 * m

/-- The capacity of a rung with the sum `sum` of H_j × 64 reaches 1.001 × n × 105.25814 Gb/s (R156), in whole numbers. -/
def capacityOk (r : Rung) (sum : Nat) : Bool :=
  decide ((r.n : Int) * 10536339814 * 9216 * (r.subs : Int) * 262144 ≤
    (r.dataSyms : Int) * ((sum : Int) * 144 - ((9216 - r.infoLen : Nat) : Int) * (r.bitsPer : Int) * (r.subs : Int)) *
      (r.baud : Int) * 100000000)

/-- A rung that the device accepts (R156). -/
def Rung.ok (r : Rung) : Bool :=
  r.valid && r.clean && (240 ≤ r.baud && r.baud ≤ 1200) && decide (r.sc ≤ 4) && (1 ≤ r.n && r.n ≤ 24) &&
  (1 ≤ r.rolloff && r.rolloff ≤ 10) && decide (r.pilot ≤ 2) &&
  (List.range r.subs).all (fun j => hqValid r.bitsPer (r.hq.getD j 0) && decide (-30 ≤ r.pw.getD j 0 ∧ r.pw.getD j 0 ≤ 30)) &&
  capacityOk r ((r.hq.take r.subs).sum)

/-- The ladder table of port `p`. -/
def ladderTab (p : Nat) : Nat := 0xF000 + 0x100 * p

/-- Rung `i` of a list of ladder words. -/
def rungIn (ws : List Nat) (i : Nat) : Rung :=
  rungOf (ws.getD (4 * i) 0) (ws.getD (4 * i + 1) 0) (ws.getD (4 * i + 2) 0) (ws.getD (4 * i + 3) 0)

/-- Rung `i` of the active ladder of port `p`. -/
def State.rung (s : State) (p i : Nat) : Rung :=
  let w := s.tabWord (ladderTab p) false
  rungOf (w (4 * i)) (w (4 * i + 1)) (w (4 * i + 2)) (w (4 * i + 3))

/-- Rung `i` is a valid rung of the active ladder of port `p`. -/
def State.rungOk (s : State) (p i : Nat) : Bool := decide (i < 64) && (s.rung p i).ok

/-- Whether two rungs differ in symbol rate or subcarriers: the class that loses lock (R157). -/
def Rung.reacquires (a b : Rung) : Bool := a.baud != b.baud || a.sc != b.sc

/-- Whether the codeword stream restarts between two rungs (R174). -/
def Rung.restartsCode (a b : Rung) : Bool := a.reacquires b || a.m != b.m || a.rc != b.rc || a.n != b.n

/-- Whether the matchers restart between two rungs (R145). -/
def Rung.restartsMatch (a b : Rung) : Bool := a.restartsCode b || a.rolloff != b.rolloff || a.pilot != b.pilot

/-- The receiver's and the transmitter's dispersion reach in ps/nm (R110), towards zero. -/
def Rung.rxReach (r : Rung) : Nat :=
  if r.baud = 0 then 0 else [12000, 12000, 18000, 36000, 60000].getD r.sc 0 * 1440000 / (r.baud * r.baud)
def Rung.txReach (r : Rung) : Nat :=
  if r.baud = 0 then 0 else [8000, 8000, 12000, 24000, 40000].getD r.sc 0 * 1440000 / (r.baud * r.baud)

/-- The largest tap count for a subcarrier count (R113). -/
def Rung.tapsMax (r : Rung) : Nat := [511, 255, 127, 63, 31].getD r.sc 0

/-! ### Shaping points (R142) -/

/-- n! -/
def fact : Nat → Nat
  | 0 => 1
  | n + 1 => (n + 1) * fact n

/-- Amplitude levels of one dimension at m bits per symbol (R140). -/
def levels (m : Nat) : Nat := 2 ^ (m / 2 - 1)

/-- Payload bits of a matcher block: k = 256 × (H − 2) (R141). -/
def matchBits (hq : Nat) : Nat := 4 * hq - 512

/-- The counts of a PCS point. -/
def pcsCounts (w : Nat) : List Nat := (List.range 8).map (fun a => bits w (16 + 10 * a + 9) (16 + 10 * a))

/-- The PCS table of a constellation with m bits per symbol. -/
def pcsTab (m : Nat) : Nat := 0xF010 + (m / 2 - 2)

/-- A PCS word is a valid point of the constellation with m bits per symbol. -/
def pcsPointOk (m w : Nat) : Bool :=
  let c := pcsCounts w
  bitAt w 127 == 1 && bits w 11 10 == m / 2 - 1 && c.sum == 512 &&
  (List.range 8).all (fun a => decide (a < levels m) || c.getD a 0 == 0) &&
  decide (2 ^ matchBits (bits w 8 0) * (c.map fact).prod ≤ fact 512)

/-- The composition held for (m, H), if its table holds a valid point for it. -/
def State.pcsPoint (s : State) (m hq : Nat) : Option (List Nat) :=
  match ((s.bankWords (pcsTab m) (s.actBank (pcsTab m) false)).find? (fun w => bits w 8 0 == hq && pcsPointOk m w)) with
  | some w => some ((pcsCounts w).take (levels m))
  | none => none

/-! ### Adjustment sets (R148, R149) -/

/-- An adjustment set. -/
structure AdjSet where
  id : Nat := 0
  dh : List Int := List.replicate 16 0
  dp : List Int := List.replicate 16 0
deriving DecidableEq, Repr

/-- The adjustment table of port `p` for direction `d`: 0 transmit, 1 receive. -/
def adjTab (p d : Nat) : Nat := 0xF001 + 0x100 * p + d

/-- The set in three words. -/
def adjOf (w0 w1 w2 : Nat) : AdjSet :=
  { id := bits w0 7 0,
    dh := (List.range 16).map (fun j => signed 8 (bits w1 (8 * j + 7) (8 * j))),
    dp := (List.range 16).map (fun j => signed 8 (bits w2 (8 * j + 7) (8 * j))) }

/-- The three words of a set. -/
def adjWords (a : AdjSet) : List Nat :=
  [a.id,
   ((List.range 16).map (fun j => toField 8 (a.dh.getD j 0) * 2 ^ (8 * j))).sum,
   ((List.range 16).map (fun j => toField 8 (a.dp.getD j 0) * 2 ^ (8 * j))).sum]

/-- The set in bank `b` of the adjustment table. -/
def State.adjBank (s : State) (p d b : Nat) : AdjSet :=
  match s.findTab (adjTab p d) with
  | some e => adjOf (s.bankWord e b 0) (s.bankWord e b 1) (s.bankWord e b 2)
  | none => {}

/-- The set in the active bank, and the one in the idle bank. -/
def State.adjActive (s : State) (p d : Nat) : AdjSet := s.adjBank p d (s.actBank (adjTab p d) false)
def State.adjIdle (s : State) (p d : Nat) : AdjSet := s.adjBank p d (1 - s.actBank (adjTab p d) false)

/-- H'_j × 64 of subcarrier j under a set. -/
def hqEff (r : Rung) (a : AdjSet) (j : Nat) : Int := (r.hq.getD j 0 : Int) + a.dh.getD j 0

/-- A set is void against a rung (R149). -/
def State.adjVoid (s : State) (r : Rung) (a : AdjSet) : Bool :=
  let js := List.range r.subs
  let hs := js.map (fun j => (hqEff r a j).toNat)
  js.any (fun j => decide (hqEff r a j < 0) || !hqValid r.bitsPer (hqEff r a j).toNat ||
    (!unshaped r.bitsPer (hqEff r a j).toNat && (s.pcsPoint r.bitsPer (hqEff r a j).toNat).isNone)) ||
  js.any (fun j => decide (30 < (r.pw.getD j 0 + a.dp.getD j 0).natAbs)) ||
  !capacityOk r hs.sum

/-- The set as applied: a void set is applied as all zero but keeps its identity (R149). -/
def applied (void : Bool) (a : AdjSet) : AdjSet := if void then { id := a.id } else a

/-! ### Throttle curve (R353) -/

/-- The throttle entry of level `v`: CAP 5:0, NLC_OFF 6, TAPS 15:7; without the table every level reads as level 0. -/
def State.throttleEntry (s : State) (v : Nat) : Nat :=
  if s.loaded 0xF030 then bits (s.tabWord 0xF030 false (1 + v / 8)) (16 * (v % 8) + 15) (16 * (v % 8)) else 48

/-! ### Nonlinear compensation sets (R121, R353) -/

/-- The (LAUNCH, SPANS) of the sets of an NLC table whose S code is `sc`, walking set after set. -/
def nlcSets (word : Nat → Nat) (sc : Nat) : Nat → Nat → List (Int × Nat)
  | 0, _ => []
  | n + 1, w =>
    let h := word w
    let rest := nlcSets word sc n (w + 1 + bits h 31 20)
    if bits h 18 16 = sc then (signed 8 (bits h 7 0), bits h 13 8) :: rest else rest

/-- The coefficient words of the set (launch, spans) for the S code `sc`, the first where several are. -/
def nlcCoefs (word : Nat → Nat) (sc : Nat) (launch : Int) (spans : Nat) : Nat → Nat → List Nat
  | 0, _ => []
  | n + 1, w =>
    let h := word w
    if bits h 18 16 = sc ∧ signed 8 (bits h 7 0) = launch ∧ bits h 13 8 = spans then (List.range (bits h 31 20)).map (fun i => word (w + 1 + i))
    else nlcCoefs word sc launch spans n (w + 1 + bits h 31 20)

/-- The launch entry nearest at or below `x`, or the lowest. -/
def pickLaunch (x : Int) (l : List Int) : Option Int :=
  let below := l.filter (· ≤ x)
  match below with
  | b :: r => some (r.foldl max b)
  | [] => match l with
    | b :: r => some (r.foldl min b)
    | [] => none

/-- The span entry nearest `x`, the lower on a tie. -/
def pickSpans (x : Nat) : List Nat → Option Nat
  | [] => none
  | b :: r => some (r.foldl (fun a v =>
      let da := (a - x) + (x - a)
      let dv := (v - x) + (x - v)
      if dv < da || (dv = da && v < a) then v else a) b)

/-- The set R121 chooses for launch and spans. -/
def State.nlcPick (s : State) (t sc : Nat) (launch : Int) (spans : Nat) : Option (Int × Nat) :=
  match s.findTab t with
  | none => none
  | some e =>
    if e.typ ≠ 3 || !s.loaded t then none
    else
      let sets := nlcSets (s.tabWord t false) sc (bits (s.tabWord t false 0) 23 8) 1
      match pickLaunch launch (sets.map (·.1)) with
      | none => none
      | some l =>
        match pickSpans spans ((sets.filter (fun x => x.1 == l)).map (·.2)) with
        | none => none
        | some n => some (l, n)

end Sys2Proof.Machine
end

