-- ==== Sys2Proof/Machine/Fabric.lean ====
section
/-! DEFINITION. The fabric: masters, targets, access rights and error responses (R363 to R370), and byte buffers that lie in
memories of the device. -/
namespace Sys2Proof.Machine

/-! ### Masters (R363) -/

namespace M
def host : Nat := 0
def ling : Nat := 1
def br (k : Nat) : Nat := 2 + k
def gr (k : Nat) : Nat := 6 + k
def sedge : Nat := 8
def loader : Nat := 9
def flashDma : Nat := 10
def executor : Nat := 11
def hedgerow : Nat := 12
def debug : Nat := 13
end M

/-! ### Targets (R29, R364) -/

/-- The target port of a 48-bit address, and the end of the range it lies in; 11 is the default target. -/
def targetOf (a : Nat) : Nat × Nat :=
  if a < 0x80000 then (0, 0x80000)
  else if a < 0xA0000 then (1, 0xA0000)
  else if a < 0xC0000 then (0, 0xC0000)
  else if a < 0x100000 then (11, 0x100000)
  else if a < 0x800000 then (2, 0x800000)
  else if a < 0x1000000 then (3, 0x1000000)
  else if a < 0x2000000 then (4, 0x2000000)
  else if a < 0x3000000 then (5, 0x3000000)
  else if a < 0x4000000 then (6, 0x4000000)
  else if a < 0x8000000 then (3, 0x8000000)
  else if a < 0xA000000 then (7, 0xA000000)
  else if a < 0x10000000 then (11, 0x10000000)
  else if a < 0x10400000 then (8, 0x10400000)
  else if a < 0x7F0000000000 then (11, 0x7F0000000000)
  else if a < 0x7F0001000000 then (10, 0x7F0001000000)
  else if a < 0x800000000000 then (11, 0x800000000000)
  else if a < 0x1000000000000 then (9, 0x1000000000000)
  else (11, a + 1)

/-- The rights of R365; `debugOn` is DEBUG of the secure-boot policy in force (R325). -/
def mayAccess (debugOn : Bool) (m t : Nat) : Bool :=
  if t = 11 then true
  else if t = 10 then m == M.ling
  else if m = M.debug then debugOn
  else if t = 9 then m == 6 || m == 7 || m == M.flashDma
  else if m = M.flashDma then t == 8
  else if m = M.host then t ≤ 7
  else true

/-! ### Error responses (R370) -/

/-- A response of the fabric: an error is counted, sets its event, and is recorded where no record is held. -/
def fabRespond (m a status : Nat) (s : State) : State :=
  if status = St.decerr || status = St.denied || status = St.uncorr || status = St.aborted then
    let s := s.addSat R.FAB_ERR_CNT_COUNT 1
    let s := if s.isOn R.FAB_ERR_LOG_VALID then s
      else
        let s := ((s.set R.FAB_ERR_LOG_VALID 1).set R.FAB_ERR_LOG_STATUS status).set R.FAB_ERR_LOG_TARGET (targetOf a).1
        ((s.set R.FAB_ERR_LOG_MASTER m).set R.FAB_ERR_ADDR_LO_ADDR_L a).set R.FAB_ERR_ADDR_HI_ADDR_H (a / 2 ^ 32)
    if status = St.decerr then s.raise Ev.FAB_DECERR
    else if status = St.denied then s.raise Ev.FAB_DENIED
    else if status = St.aborted then s.raise Ev.FAB_ABORTED
    else s
  else s

/-! ### Bursts (R367 to R369) -/

def State.modFab (s : State) (f : FabState → FabState) : State := { s with fab := f s.fab }

/-- The burst of master `m` that goes on at address `a` with `n` beats after this one. -/
def State.burstAt (s : State) (m : Nat) (write : Bool) (a n : Nat) : Option Burst :=
  s.fab.bursts.find? (fun b => b.m == m && b.write == write && b.addr == a && b.left == n + 1)

/-- A burst that starts at `a` with `n` beats to come crosses from its target to another. -/
def crosses (a n : Nat) : Bool := decide ((targetOf a).2 < a + 16 * (n + 1))

/-- Beat at `a` of a burst has ended with `st`, `n` beats to come: the burst's status so far, with the address it came from, and the
path held or released. -/
def beatEnd (m : Nat) (write : Bool) (a n st : Nat) (s : State) : Nat × Nat × State :=
  let b := (s.burstAt m write a n).getD { m := m, write := write, addr := a, left := n + 1 }
  let b := if b.status = 0 && st ≠ 0 then { b with status := st, bad := a } else b
  let rest := s.fab.bursts.filter (fun x => x.m != m)
  (b.status, b.bad, s.modFab (fun f => { f with bursts := if n = 0 then rest else rest ++ [{ b with addr := a + 16, left := n }] }))

/-- Master `m` is reset: the beats written stay, the rest of its burst is dropped and its path released (R369). -/
def masterAbort (m : Nat) (s : State) : State := s.modFab (fun f => { f with bursts := f.bursts.filter (fun b => b.m != m) })

/-- The block at addresses `lo` to `hi − 1` is reset: the remaining beats of a burst there return ABORTED and its path is released. -/
def blockAbort (lo hi : Nat) (s : State) : State :=
  let hit := fun (b : Burst) => decide (lo ≤ b.addr) && decide (b.addr < hi)
  let s' := s.modFab (fun f => { f with bursts := f.bursts.filter (fun b => !hit b) })
  (s.fab.bursts.filter hit).foldl (fun s b =>
    if b.write then fabRespond b.m (if b.status = 0 then b.addr else b.bad) (if b.status = 0 then St.aborted else b.status) s
    else (List.range b.left).foldl (fun s i => fabRespond b.m (b.addr + 16 * i) St.aborted s) s) s'

/-- A command that writes the register at `a`, where the part and the map have it (`has`), leaves `t`; else the access is answered
DECERR (R2, R29, R370). Such a row names no master: it is the host's write (log entry 5). -/
def onReg (s : State) (has : Bool) (a : Nat) (t : State) : Out :=
  .next (if has then t else (fabRespond M.host a St.decerr s).answer St.decerr [])

/-- The same for the register at offset `o` of line port `p`. -/
def onPortReg (s : State) (p o : Nat) (t : State) : Out := onReg s (s.hasPort p) (0x1000000 * (p + 1) + o) t

/-! ### Byte buffers in the memories of targets 7 and 8 -/

/-- The word of SRAM at a fabric address, for table RAM and shared SRAM. -/
def sramAt (a : Nat) : Option Nat :=
  let t := (targetOf a).1
  if t = 7 then some (sramKey 1 ((a - 0x8000000) / 16)) else if t = 8 then some (sramKey 8 ((a - 0x10000000) / 16)) else none

/-- Bytes at `a`: those of a memory of the device, else what the buffer outside holds. -/
def State.bufBytes (s : State) (a n : Nat) (ext : List Nat) : List Nat :=
  match sramAt a with
  | none => ext.take n
  | some _ => (List.range n).map (fun i => match sramAt (a + i) with
      | some k => s.sramView k / 2 ^ (8 * ((a + i) % 16)) % 256
      | none => 0)

/-- The words of `n` bytes at `a` read under the word code: the first answer that is not OK (R372). -/
def bufCheck (a n : Nat) (s : State) : Nat × State :=
  (List.range ((a % 16 + n + 15) / 16)).foldl (fun r i =>
    match sramAt (a / 16 * 16 + 16 * i) with
    | some k => let y := sramRead k r.2; (if r.1 = 0 then y.1 else r.1, y.2.2)
    | none => r) (0, s)

/-- Bytes written from `a` on into shared SRAM. -/
def bufWrite (a : Nat) : List Nat → State → State
  | [], s => s
  | b :: r, s => bufWrite (a + 1) r (match sramAt a with
      | some k => if (targetOf a).1 = 8 then (sramWrite k (2 ^ (a % 16)) (b % 256 * 2 ^ (8 * (a % 16))) s).2 else s
      | none => s)

end Sys2Proof.Machine
end

