-- ==== Sys2Proof/Machine/LineCode.lean ====
section
/-! DEFINITION. The coding of the line, as functions on bits: shift-register generators (R146, R205), CRCs, the
Reed–Solomon code (R200), labels and the distribution matcher (R140, R141, R143), the LDPC code and its mapping (R168 to
R173), justification (R206). Bits are lists of 0 and 1, first bit first. -/
namespace Sys2Proof.Machine

/-! ### Bits and generators -/

/-- `n` bits of `v`, most significant first (R6). -/
def bitsMsb (n v : Nat) : List Nat := (List.range n).map (fun i => bitAt v (n - 1 - i))

/-- The number whose bits, most significant first, are `l`. -/
def ofMsb (l : List Nat) : Nat := l.foldl (fun a b => 2 * a + b) 0

/-- Bytes sent most significant bit first. -/
def bytesBits (l : List Nat) : List Nat := l.flatMap (bitsMsb 8)

/-- Bits gathered into bytes. -/
def bitsBytes : Nat → List Nat → List Nat
  | 0, _ => []
  | n + 1, l => ofMsb (l.take 8) :: bitsBytes n (l.drop 8)

/-- `n` output bits of a shift register of width `w` with taps `a` and `b`, from state `x`. -/
def lfsr (w a b : Nat) : Nat → Nat → List Nat
  | _, 0 => []
  | x, n + 1 =>
    let o := bitAt x a ^^^ bitAt x b
    o :: lfsr w a b ((2 * x + o) % 2 ^ w) n

/-- The generator of R146, and that of R205. -/
def prbs23 (seed n : Nat) : List Nat := lfsr 23 22 17 seed n
def prbs31 (n : Nat) : List Nat := lfsr 31 30 27 0x7FFFFFFF n

/-- Bit by bit exclusive or. -/
def xorBits (a b : List Nat) : List Nat := List.zipWith (· ^^^ ·) a b

/-- The seed of the pilots of subcarrier j on polarisation q, and the first `n` pilots as signs (R146). -/
def pilotSeed (j q : Nat) : Nat := 0x400001 + 0x100 * j + 0x10 * q
def pilotSigns (j q n : Nat) : List (Int × Int) :=
  let b := prbs23 (pilotSeed j q) (2 * n)
  (List.range n).map (fun i => (1 - 2 * (b.getD (2 * i) 0 : Int), 1 - 2 * (b.getD (2 * i + 1) 0 : Int)))

/-- A CRC of width `w` and polynomial `poly` over bits, without reflection. -/
def crcMsb (w poly : Nat) : Nat → List Nat → Nat
  | c, [] => c
  | c, b :: r =>
    let top := bitAt c (w - 1) ^^^ b
    let c' := 2 * c % 2 ^ w
    crcMsb w poly (if top = 1 then c' ^^^ poly else c') r

/-- The CRC-16 of R199. -/
def crc16 (bytes : List Nat) : Nat := crcMsb 16 0x1021 0xFFFF (bytesBits bytes)

/-- The CRC-32 of IEEE 802.3, reflected (R98). -/
def crc32 (bytes : List Nat) : Nat :=
  (bytes.flatMap (fun b => (bitsMsb 8 b).reverse)).foldl (fun c b =>
    if (c % 2) ^^^ b = 1 then c / 2 ^^^ 0xEDB88320 else c / 2) 0xFFFFFFFF ^^^ 0xFFFFFFFF

/-- `n` bytes of a number, lowest first, and highest first. -/
def bytesLe (n v : Nat) : List Nat := (List.range n).map (fun i => v / 2 ^ (8 * i) % 256)
def bytesBe (n v : Nat) : List Nat := (bytesLe n v).reverse

/-- The number of bytes given lowest first, and highest first. -/
def ofLe : List Nat → Nat
  | [] => 0
  | b :: r => b + 256 * ofLe r
def ofBe (l : List Nat) : Nat := ofLe l.reverse

/-- Bytes `i` to `i + n − 1` of a message as a number, highest first (R6). -/
def beAt (l : List Nat) (i n : Nat) : Nat := ofBe ((List.range n).map (fun k => l.getD (i + k) 0))

/-- The same lowest byte first; byte `i`; and `n` bytes from `i` on, where bytes beyond the end are zero. -/
def leAt (l : List Nat) (i n : Nat) : Nat := ofLe ((List.range n).map (fun k => l.getD (i + k) 0))
def byteAt (l : List Nat) (i : Nat) : Nat := l.getD i 0
def slice (l : List Nat) (i n : Nat) : List Nat := (List.range n).map (fun k => l.getD (i + k) 0)

/-! ### Sedge on the line (R249, R251, R253 to R255) -/

/-- The m-sequence a of x^10 + x^3 + 1, 1,023 chips; b is a decimated by 5. -/
def goldA : List Nat :=
  ((List.range 1013).foldl (fun (w : List Nat) n => w ++ [w.getD (n + 3) 0 ^^^ w.getD n 0]) (List.replicate 10 1)).take 1023
def goldB : List Nat := (List.range 1023).map (fun n => goldA.getD (5 * n % 1023) 0)

/-- Code index i of the Gold family. -/
def goldCode (i : Nat) : List Nat :=
  if i = 0 then goldA else if i = 1 then goldB
  else (List.range 1023).map (fun n => goldA.getD n 0 ^^^ goldB.getD ((n + i - 2) % 1023) 0)

/-- The convolutional code of R253 over block bits and 6 zero tail bits. -/
def convCode (block : List Nat) : List Nat :=
  ((block ++ List.replicate 6 0).foldl (fun (st : Nat × List Nat) x =>
    let reg := st.1 / 2 ||| x * 64
    let par := fun g => ((List.range 7).map (bitAt (reg &&& g))).sum % 2
    (reg, par 0x5B :: par 0x79 :: st.2)) (0, [])).2.reverse

/-- The 64-bit header of a packet (R255). -/
def packetHeader (typ sec len seq code : Nat) : Nat :=
  let h := typ * 2 ^ 56 + sec * 2 ^ 54 + len * 2 ^ 40 + seq * 2 ^ 28 + code * 2 ^ 17
  h + crc16 (bytesBe 6 (h / 2 ^ 16))

/-- The symbol bits of a packet (R254): preamble, start delimiter, header, body with its CRC-32. -/
def packetSymbols (header : Nat) (body : List Nat) : List Nat :=
  List.replicate 64 0 ++ bitsMsb 16 0x35E2 ++ convCode (bitsMsb 64 header) ++
    convCode (bytesBits (body ++ bytesBe 4 (crc32 body)))

/-! ### Reed–Solomon over GF(2^8) (R200) -/

/-- Product in the field of x^8 + x^4 + x^3 + x^2 + 1. -/
def gfMul (a b : Nat) : Nat :=
  (List.range 8).foldl (fun acc i =>
    let acc := if 128 ≤ acc then (2 * acc) % 256 ^^^ 0x1D else 2 * acc
    if bitAt b (7 - i) = 1 then acc ^^^ a else acc) 0

/-- α^n, α = 2. -/
def gfPow : Nat → Nat
  | 0 => 1
  | n + 1 => gfMul 2 (gfPow n)

/-- The inverse a^254 of a non-zero element. -/
def gfInv (a : Nat) : Nat := (List.range 253).foldl (fun x _ => gfMul x a) a

/-- A polynomial, lowest coefficient first, at a point. -/
def polyAt (p : List Nat) (x : Nat) : Nat := p.foldr (fun c a => c ^^^ gfMul a x) 0

/-- Sum and scalings of polynomials, lowest coefficient first. -/
def polyAdd : List Nat → List Nat → List Nat
  | [], b => b
  | a, [] => a
  | x :: a, y :: b => (x ^^^ y) :: polyAdd a b
def polyScale (c : Nat) (p : List Nat) : List Nat := p.map (gfMul c)
def polyMul (a b : List Nat) : List Nat := a.foldr (fun c acc => polyAdd (polyScale c b) (0 :: acc)) []

/-- The generator Π (x − α^i), i = 0 to 31, lowest coefficient first. -/
def rsGen : List Nat := (List.range 32).foldl (fun g i => polyMul g [gfPow i, 1]) [1]

/-- Parity symbols 160 to 191 of the data symbols 0 to 159: the remainder of division by the generator, highest first. -/
def rsParity (data : List Nat) : List Nat :=
  let g := (rsGen.take 32).reverse
  data.foldl (fun reg d =>
    let f := reg.getD 0 0 ^^^ d
    List.zipWith (fun r c => r ^^^ gfMul f c) (reg.drop 1 ++ [0]) g) (List.replicate 32 0)

/-- Syndromes of a word of 192 symbols, symbol 0 of highest degree. -/
def rsSyndromes (w : List Nat) : List Nat :=
  (List.range 32).map (fun i => w.foldl (fun a s => gfMul a (gfPow i) ^^^ s) 0)

/-- One step of the search for the error locator. -/
structure BmState where
  c : List Nat
  b : List Nat
  l : Nat
  m : Nat
  d : Nat
deriving DecidableEq, Repr

def bmStep (syn : List Nat) (st : BmState) (n : Nat) : BmState :=
  let d := (List.range (st.l + 1)).foldl (fun a i => a ^^^ gfMul (st.c.getD i 0) (syn.getD (n - i) 0)) 0
  if d = 0 then { st with m := st.m + 1 }
  else
    let c' := polyAdd st.c (List.replicate st.m 0 ++ polyScale (gfMul d (gfInv st.d)) st.b)
    if 2 * st.l ≤ n then { c := c', b := st.c, l := n + 1 - st.l, m := 1, d := d }
    else { st with c := c', m := st.m + 1 }

/-- The corrected word, where at most 16 symbols are in error (R200). -/
def rsDecode (w : List Nat) : Option (List Nat) :=
  let syn := rsSyndromes w
  if syn.all (· == 0) then some w
  else
    let st := (List.range 32).foldl (bmStep syn) { c := [1], b := [1], l := 0, m := 1, d := 1 }
    let deg := fun t => 191 - t
    let inv := fun t => gfPow ((255 - deg t) % 255)
    let errs := (List.range 192).filter (fun t => polyAt st.c (inv t) == 0)
    if 16 < st.l || errs.length ≠ st.l then none
    else
      let om := (polyMul syn st.c).take 32
      let dv := (List.range st.c.length).map (fun i => if i % 2 = 0 then st.c.getD (i + 1) 0 else 0)
      let fixed := (List.range 192).map (fun t =>
        if errs.contains t then
          w.getD t 0 ^^^ gfMul (gfPow (deg t)) (gfMul (polyAt om (inv t)) (gfInv (polyAt dv (inv t))))
        else w.getD t 0)
      if (rsSyndromes fixed).all (· == 0) then some fixed else none

/-! ### Labels and matcher (R140, R141, R143) -/

/-- The amplitude label of an amplitude index, and back. -/
def gray (a : Nat) : Nat := a ^^^ (a / 2)
def ungray (g : Nat) : Nat := g ^^^ (g / 2) ^^^ (g / 4) ^^^ (g / 8)

/-- r! / Π n[a]! -/
def multinom (r : Nat) (n : List Nat) : Nat := fact r / (n.map fact).prod

/-- One element less of kind `a`. -/
def takeOne (n : List Nat) (a : Nat) : List Nat := n.modify a (· - 1)

/-- The amplitude index that sequence number `v` begins with when `r` more follow, from index `a` on. -/
def matchPick (n : List Nat) (r : Nat) : Nat → Nat → Nat → Nat × Nat
  | 0, a, v => (a, v)
  | f + 1, a, v =>
    if n.getD a 0 = 0 then matchPick n r f (a + 1) v
    else
      let c := multinom r (takeOne n a)
      if v < c then (a, v) else matchPick n r f (a + 1) (v - c)

/-- The `v`-th sequence of a composition in lexicographic order (R143). -/
def matchEncode : Nat → List Nat → Nat → List Nat
  | 0, _, _ => []
  | r + 1, n, v =>
    let (a, v') := matchPick n r n.length 0 v
    a :: matchEncode r (takeOne n a) v'

/-- The number of a sequence among those of its composition. -/
def matchRank : List Nat → List Nat → Nat
  | _, [] => 0
  | n, a :: l =>
    let r := l.length
    ((List.range a).map (fun b => if n.getD b 0 = 0 then 0 else multinom r (takeOne n b))).sum + matchRank (takeOne n a) l

/-- The block of 512 amplitudes for `v` at (m, H): through the composition, or by labels where the matcher is bypassed. -/
def blockAmps (m hq : Nat) (counts : List Nat) (v : Nat) : List Nat :=
  if m = 2 then List.replicate 512 0
  else if unshaped m hq then
    let d := m / 2 - 1
    (List.range 512).map (fun i => ungray (v / 2 ^ (d * (511 - i)) % 2 ^ d))
  else matchEncode 512 counts v

/-- The bits of a received block, or none where its amplitudes do not have the composition (R183). -/
def blockBits (m hq : Nat) (counts : List Nat) (amps : List Nat) : Option (List Nat) :=
  if m = 2 then some []
  else if unshaped m hq then some (amps.flatMap (fun a => bitsMsb (m / 2 - 1) (gray a)))
  else if (List.range (levels m)).all (fun a => amps.count a == counts.getD a 0) && amps.length == 512 then
    some (bitsMsb (matchBits hq) (matchRank counts amps))
  else none

/-! ### LDPC (R168 to R172) -/

def ldpcBeta : List Nat := [5, 11, 2, 17, 29, 41, 8, 53, 23, 67, 37, 79, 14, 59, 91, 31, 73, 47, 85, 62, 19]

/-- Information blocks and check blocks of a code. -/
def ldpcK (rc : Nat) : Nat := 18 + rc
def ldpcM (rc : Nat) : Nat := 6 - rc

/-- shift(v, e)[r] = v[(r + e) mod 384], on 384-bit numbers. -/
def rot384 (v e : Nat) : Nat := v / 2 ^ e + v % 2 ^ e * 2 ^ (384 - e)

/-- Block c of a word, bit n of the word being bit n of the number. -/
def ldpcBlock (x c : Nat) : Nat := x / 2 ^ (384 * c) % 2 ^ 384

/-- The sum of the information blocks in row block i. -/
def ldpcRow (rc x i : Nat) : Nat :=
  (List.range (ldpcK rc)).foldl (fun a c => a ^^^ rot384 (ldpcBlock x c) ((i + 1) * ldpcBeta.getD c 0 % 384)) 0

/-- The parity blocks, first to last (R172). -/
def ldpcParity (rc u : Nat) : List Nat :=
  (List.range (ldpcM rc)).foldl (fun q i => q ++ [ldpcRow rc u i ^^^ (if i = 0 then 0 else q.getD (i - 1) 0)]) []

/-- The codeword of information bits `u`. -/
def ldpcEncode (rc u : Nat) : Nat :=
  (List.range (ldpcM rc)).foldl (fun x i => x + (ldpcParity rc u).getD i 0 * 2 ^ (384 * (ldpcK rc + i))) (u % 2 ^ (384 * ldpcK rc))

/-- Every check is satisfied (R170). -/
def ldpcOk (rc x : Nat) : Bool :=
  (List.range (ldpcM rc)).all (fun i =>
    (ldpcRow rc x i ^^^ ldpcBlock x (ldpcK rc + i) ^^^ (if i = 0 then 0 else ldpcBlock x (ldpcK rc + i - 1))) == 0)

/-- A word from its bits in codeword order, and back. -/
def wordOf : List Nat → Nat
  | [] => 0
  | b :: r => b + 2 * wordOf r
def wordBits (n x : Nat) : List Nat := (List.range n).map (bitAt x)

/-! ### Mapping (R173, R176) -/

/-- Amplitudes of a codeword, and parity bits of it. -/
def cwAmps (m : Nat) : Nat := 18432 / m
def cwParity (rc : Nat) : Nat := 384 * ldpcM rc

/-- The sign of amplitude t of a codeword of `a` amplitudes carries parity. -/
def paritySign (par a t : Nat) : Bool := decide (t * par / a < (t + 1) * par / a)

/-! ### Allotment and justification (R145, R205, R206) -/

/-- Data amplitudes of one subcarrier, and of all, in a frame. -/
def subAmps (r : Rung) : Nat := 2 * r.dataSyms / r.subs
def frameAmps (r : Rung) : Nat := 2 * r.dataSyms

/-- Amplitudes of the last codeword begun in a frame after which the codewords restart, and those of them that are fill (R176). -/
def tailAmps (r : Rung) (ct : Nat) (endCode : Bool) : Nat := if endCode then (ct + frameAmps r) % cwAmps r.bitsPer else 0
def fillAmps (r : Rung) (tail : Nat) : Nat := if tail ≤ cwParity r.rc then tail else 0

/-- Those of the last `n` amplitudes of a frame that belong to subcarrier `j` (R139). -/
def tailOf (r : Rung) (n j : Nat) : Nat := 4 * (n / (4 * r.subs)) + min 4 (n % (4 * r.subs) - 4 * (r.subs - 1 - j))

/-- Payload bits of a frame (R144, R205): the bits of every matcher block that begins in it and its systematic signs. `endMatch` and
`endCode` say that matchers or codewords restart at the next frame: a block that would cross that boundary, or reach into fill, is a fill
block and takes none (R145, R176). -/
def allotment (r : Rung) (hqs : List Nat) (st : Stream) (endMatch endCode : Bool) : Nat :=
  let n := subAmps r
  let first := (512 - st.ph) % 512
  let fill := fillAmps r (tailAmps r st.ct endCode)
  let blocks := fun j => if endMatch then (n - tailOf r fill j - first) / 512 else (n - first + 511) / 512
  let matchers := ((List.range r.subs).map (fun j => blocks j * matchBits (hqs.getD j 0))).sum
  let a := cwAmps r.bitsPer
  let par := cwParity r.rc
  let tail := tailAmps r st.ct endCode
  let body := frameAmps r - tail
  let signs := body - ((st.ct + body) * par / a - st.ct * par / a)
  matchers + signs + (tail - par)

/-- The stream after one frame. -/
def Stream.next (st : Stream) (r : Rung) (endMatch endCode : Bool) : Stream :=
  { ph := if endMatch then 0 else (st.ph + subAmps r) % 512,
    ct := if endCode then 0 else (st.ct + frameAmps r) % cwAmps r.bitsPer }

/-- The codeword pointer of a frame (R175). -/
def Stream.pointer (st : Stream) (r : Rung) : Nat := (cwAmps r.bitsPer - st.ct) % cwAmps r.bitsPer

/-- Position i of the allotment carries an OTUCn bit (R206). -/
def carries (n jc i : Nat) : Bool := decide (i * jc / n < (i + 1) * jc / n)

/-- The allotment of `n` positions that carries `jc` of the bits `q`, from position `i` on, before scrambling. -/
def justify (n jc : Nat) : Nat → Nat → List Nat → List Nat
  | 0, _, _ => []
  | f + 1, i, q =>
    if carries n jc i then q.headD 0 :: justify n jc f (i + 1) q.tail else 0 :: justify n jc f (i + 1) q

/-! ### The shaping encoder (R136 stage 2, R139, R144, R172 to R176) -/

/-- What the encoder works on in one frame: payload bits left, the amplitudes sent, codewords completed, and the amplitudes of completed
codewords and of fill with their signs, newest first. -/
structure ShapeRun where
  sh    : Shaper
  bits  : List Nat
  amps  : List Nat := []
  words : List Nat := []
  out   : List (Nat × Nat) := []
deriving DecidableEq, Repr

/-- The signs of a codeword, newest first, with its parity put in: parity bits go in rising order of amplitude (R173). -/
def signParity (held : List (Nat × Nat)) (parity : List Nat) : List (Nat × Nat) :=
  (held.reverse.foldl (fun (x : List (Nat × Nat) × List Nat) a =>
    if a.2 = 2 then ((a.1, x.2.headD 0) :: x.1, x.2.tail) else (a :: x.1, x.2)) ([], parity)).1

/-- One data amplitude of the line order (R139): index i of `total`, in subcarrier (i / 4) mod S. -/
def shapeStep (r : Rung) (hqs : List Nat) (comps : List (List Nat)) (endMatch endCode : Bool) (x : ShapeRun) (i : Nat) : ShapeRun :=
  let j := i / 4 % r.subs
  let m := r.bitsPer
  let a := cwAmps m
  let total := frameAmps r
  let left := (total - i + 4 * r.subs - 1) / (4 * r.subs) * 4
  let fresh := x.sh.blocks.getD j [] == []
  let tail := if endCode then (x.sh.ct + (total - i)) % a else 0
  let last := endCode && decide (x.sh.ct + (total - i) < a)
  let len := if last then x.sh.ct + (total - i) else a
  let par := cwParity r.rc
  let isFill := last && decide (len ≤ par)
  let fill := fresh && endMatch && decide (left < 512 + tailOf r (fillAmps r tail) j)
  let k := if fresh && !fill then matchBits (hqs.getD j 0) else 0
  let block := if fresh then blockAmps m (hqs.getD j 0) (comps.getD j []) (ofMsb (x.bits.take k)) else x.sh.blocks.getD j []
  let bs := x.bits.drop k
  let amp := block.headD 0
  let p := paritySign par len x.sh.ct
  let label := bitsMsb (m / 2 - 1) (gray amp)
  let sys := !isFill && !p
  let info := if isFill then x.sh.info else x.sh.info ++ label ++ (if sys then [bs.headD 0] else [])
  let held := (amp, if isFill then 0 else if p then 2 else bs.headD 0) :: x.sh.held
  let bs := if sys then bs.tail else bs
  let done := x.sh.ct + 1 = len
  let word := ldpcEncode r.rc (wordOf info)
  let out := if isFill then held else signParity held ((List.range par).map (fun k => bitAt word (384 * ldpcK r.rc + k)))
  { sh := { blocks := (if x.sh.blocks.length < 16 then List.replicate 16 [] else x.sh.blocks).set j block.tail,
            info := if done then [] else info, ct := if done then 0 else x.sh.ct + 1, held := if done then [] else held },
    bits := bs,
    amps := amp :: x.amps,
    words := if done && !isFill then word :: x.words else x.words,
    out := if done then out ++ x.out else x.out }

/-- The encoder over one frame; amplitudes and codewords come out in line order. -/
def shapeFrame (r : Rung) (hqs : List Nat) (comps : List (List Nat)) (endMatch endCode : Bool) (sh : Shaper) (payload : List Nat) :
    ShapeRun :=
  let x := (List.range (frameAmps r)).foldl (shapeStep r hqs comps endMatch endCode) { sh := sh, bits := payload }
  let sh := if endMatch then { x.sh with blocks := [] } else x.sh
  let sh := if endCode then { sh with info := [], ct := 0, held := [] } else sh
  { x with sh := sh, amps := x.amps.reverse, words := x.words.reverse, out := x.out.reverse }

end Sys2Proof.Machine
end

