-- ==== Sys2Proof/Machine/FlashCode.lean ====
section
/-! DEFINITION. The page code of the flash store (R392 to R396): BCH over GF(2^16), the spare area, and what a read of a page gives. -/
namespace Sys2Proof.Machine

/-! ### GF(2^16), x^16 + x^12 + x^3 + x + 1 -/

/-- Product of two field elements. -/
def gf16Mul (a b : Nat) : Nat :=
  (List.range 16).foldl (fun acc i =>
    let acc := if 2 ^ 15 ≤ acc then 2 * acc ^^^ 0x1100B else 2 * acc
    if bitAt b (15 - i) = 1 then acc ^^^ a else acc) 0

/-- a^n for n below 2^16, and α^n with α = x. -/
def gf16Pow (a n : Nat) : Nat :=
  (List.range 16).foldl (fun acc i =>
    let acc := gf16Mul acc acc
    if bitAt n (15 - i) = 1 then gf16Mul acc a else acc) 1
def gf16Alpha (n : Nat) : Nat := gf16Pow 2 (n % 65535)
def gf16Inv (a : Nat) : Nat := gf16Pow a 65534

/-- The value at `x` of a polynomial over the field, lowest coefficient first. -/
def gf16Eval (f : List Nat) (x : Nat) : Nat := f.foldr (fun c acc => gf16Mul acc x ^^^ c) 0

/-- The product of a polynomial over the field with (X + r). -/
def gf16Root (f : List Nat) (r : Nat) : List Nat :=
  (List.range (f.length + 1)).map (fun i => (if i = 0 then 0 else f.getD (i - 1) 0) ^^^ gf16Mul r (f.getD i 0))

/-! ### The generator (R392) -/

/-- The exponents conjugate to `j`: j, 2j, 4j, … modulo 65,535, each once. -/
def coset (j : Nat) : List Nat :=
  (List.range 16).foldl (fun l i => let k := j * 2 ^ i % 65535; if l.contains k then l else l ++ [k]) []

/-- The minimal polynomial of α^j, a number whose bit i is the coefficient of X^i. -/
def minPoly (j : Nat) : Nat := ((coset j).foldl (fun f k => gf16Root f (gf16Alpha k)) [1]).foldr (fun c acc => 2 * acc + c % 2) 0

/-- Product of binary polynomials. -/
def clMul (a b : Nat) : Nat := (List.range (Nat.log2 (b + 1) + 1)).foldl (fun acc i => if bitAt b i = 1 then acc ^^^ a * 2 ^ i else acc) 0

/-- The generator for strength `t`: the product of the minimal polynomials of α^1 to α^(2t), each once. An odd exponent that is not the
lowest of its conjugates, and every even one, has been taken. -/
def bchGen (t : Nat) : Nat :=
  (List.range t).foldl (fun g i => let j := 2 * i + 1; if (coset j).all (j ≤ ·) then clMul g (minPoly j) else g) 1

/-- The remainder of a binary polynomial, its coefficients highest first, by a generator of degree `d`. -/
def polyRem (g d : Nat) (l : List Nat) : Nat :=
  l.foldl (fun r b => let r := 2 * r + b; if bitAt r d = 1 then r ^^^ g else r) 0

/-- The 16 t parity bits of a message, highest first. -/
def bchParity (t : Nat) (msg : List Nat) : List Nat :=
  bitsMsb (16 * t) (polyRem (bchGen t) (16 * t) (msg ++ List.replicate (16 * t) 0))

/-! ### Decoding -/

/-- The state of the search for an error locator: the locator, the one before its last change, its degree, the steps since that change
and the discrepancy at it. -/
structure Locator where
  c : List Nat := [1]
  b : List Nat := [1]
  l : Nat := 0
  m : Nat := 1
  d : Nat := 1

/-- One syndrome taken into the locator (Berlekamp and Massey). -/
def locStep (syn : List Nat) (x : Locator) (n : Nat) : Locator :=
  let d := (List.range (x.l + 1)).foldl (fun a i => a ^^^ gf16Mul (x.c.getD i 0) (syn.getD (n - i) 0)) 0
  if d = 0 then { x with m := x.m + 1 }
  else
    let k := gf16Mul d (gf16Inv x.d)
    let c := (List.range (max x.c.length (x.b.length + x.m))).map (fun i =>
      x.c.getD i 0 ^^^ (if x.m ≤ i then gf16Mul k (x.b.getD (i - x.m) 0) else 0))
    if 2 * x.l ≤ n then { c := c, b := x.c, l := n + 1 - x.l, m := 1, d := d } else { x with c := c, m := x.m + 1 }

/-- The flipped bits of a received word of the code of strength `t`, numbered from its first bit: none where no codeword lies within t
bits of it. -/
def bchErrors (t : Nat) (word : List Nat) : Option (List Nat) :=
  let r := polyRem (bchGen t) (16 * t) word
  if r = 0 then some []
  else
    let rem := (List.range (16 * t)).map (bitAt r)
    let syn := (List.range (2 * t)).map (fun i => gf16Eval rem (gf16Alpha (i + 1)))
    let x := (List.range (2 * t)).foldl (locStep syn) {}
    let n := word.length
    let l := (List.range n).filter (fun i => gf16Eval x.c (gf16Alpha (65535 - (n - 1 - i))) == 0)
    if x.l ≤ t && l.length == x.l then some l else none

/-! ### Pages (R393, R394, R396) -/

/-- The metadata bytes. -/
def pageMeta (x : FlashPage) : List Nat :=
  [x.part % 256, x.final.toNat] ++ bytesLe 2 x.gen ++ bytesLe 2 x.lblk ++ bytesLe 2 x.lpage

/-- The message: 4,096 data bytes, bytes beyond those given 0xFF (R400), and the metadata, bit 7 of a byte first. -/
def pageMessage (x : FlashPage) : List Nat := bytesBits ((List.range 4096).map (fun i => x.data.getD i 255) ++ pageMeta x)

/-- The TCODE bytes as they stand in the spare. -/
def pageTcodes (x : FlashPage) : List Nat := if x.tcode.isEmpty then List.replicate 3 (x.t / 8) else x.tcode

/-- The t that a read decodes with: the majority of the three TCODE bytes, where the spare holds it (R393, R395). -/
def pageT (x : FlashPage) (spare : Nat) : Option Nat :=
  let a := (pageTcodes x).getD 0 0
  let b := (pageTcodes x).getD 1 0
  let c := (pageTcodes x).getD 2 0
  let k := if a = b || a = c then some a else if b = c then some b else none
  k.bind (fun k => if 1 ≤ k && k ≤ 14 && 16 * k + 32 ≤ spare then some (8 * k) else none)

/-- Bits of a word with those numbered in `l` flipped; a bit named twice is as it was. -/
def flipBits (l word : List Nat) : List Nat :=
  let odd := l.filter (fun i => l.count i % 2 == 1)
  if odd.isEmpty then word else word.zipIdx.map (fun x => if odd.contains x.2 then 1 - x.1 else x.1)

/-- The word a read finds from the first data bit on: message, parity of the t the page was written with, 0xFF behind it. -/
def pageWord (x : FlashPage) (t : Nat) (flips : List Nat) : List Nat :=
  let n := 8 * 4104 + 16 * t
  flipBits (x.flips ++ flips) ((pageMessage x ++ bchParity x.t (pageMessage x) ++ List.replicate (16 * t) 1).take n)

/-- A read of a programmed page in which `flips` flip in the reading: the corrected bits and the data, none where it is uncorrectable.
Where it decodes with the t it was written with and at most t bits are wrong, the codeword is the one that was written (R392). -/
def pageRead (x : FlashPage) (spare : Nat) (flips : List Nat) : Option (Nat × List Nat) :=
  let full := (List.range 4096).map (fun i => x.data.getD i 255)
  (pageT x spare).bind (fun t =>
    let l := x.flips ++ flips
    let odd := (l.filter (fun i => l.count i % 2 == 1)).eraseDups
    if t = x.t && odd.length ≤ t then some (odd.length, full)
    else
      let w := pageWord x t flips
      (bchErrors t w).map (fun e => (e.length, bitsBytes 4096 (flipBits e w))))

/-- Zero bits among bits. -/
def zeroBits (l : List Nat) : Nat := (l.filter (· == 0)).length

/-- A programmed page that still counts as blank for strength `T`: its data and spare together hold at most T zero bits (R396). -/
def pageBlank (x : FlashPage) (T : Nat) : Bool :=
  decide (zeroBits (bytesBits x.data) ≤ T + (x.flips.length)) &&
    decide (zeroBits (pageWord x x.t []) + zeroBits (bytesBits (pageTcodes x)) ≤ T)

end Sys2Proof.Machine
end

