-- ==== Sys2Proof/Machine/Calendar.lean ====
section
/-! DEFINITION. The swath calendar as a store (chapter 02): descriptors, positions, handles, results, bank locks, removal and
what a lost position does. The tests of an insertion are in Insert, execution is in Executor. -/
namespace Sys2Proof.Machine

/-! ### Descriptors (R43) -/

def dSwath (d : Nat) : Nat := bits d 127 80
def dFrame (d : Nat) : Nat := bits d 79 72
def dPos (d : Nat) : Nat := bits d 127 72
def dRank (d : Nat) : Nat := bits d 71 70
def dPd (d : Nat) : Nat := bits d 69 68
def dKind (d : Nat) : Nat := bits d 67 64
def dArg (d : Nat) : Nat := bits d 63 0

/-- A descriptor with the rank that hardware writes. -/
def withRank (d rank : Nat) : Nat := mixBits (3 * 2 ^ 70) d (rank * 2 ^ 70)

/-- A descriptor from its parts. -/
def descOf (swath frame pd kind arg : Nat) : Nat :=
  swath % 2 ^ 48 * 2 ^ 80 + frame % 256 * 2 ^ 72 + pd % 4 * 2 ^ 68 + kind % 16 * 2 ^ 64 + arg % 2 ^ 64

/-! ### Positions (R31 to R34) -/

def State.pdPos (s : State) (d : Nat) : PdPos := s.swc.pds.getD d {}

def State.modSwc (s : State) (f : SwcState → SwcState) : State := { s with swc := f s.swc }

def State.modPd (s : State) (d : Nat) (f : PdPos → PdPos) : State := s.modSwc (fun c => { c with pds := modNth d f c.pds })

/-- Frame position P of a position (R31). -/
def PdPos.pos (q : PdPos) : Nat := 256 * q.swath + q.frame

/-- Transmit and receive port-directions of port `p`. -/
def txPd (p : Nat) : Nat := 2 * p
def rxPd (p : Nat) : Nat := 2 * p + 1

/-- N of R38: the frame in progress; for a receive direction whose position is not valid the last valid one, or 0 (R39). -/
def State.posN (s : State) (d : Nat) : Nat :=
  let q := s.pdPos d
  if d % 2 = 1 && !q.valid && !q.ever then 0 else q.pos

/-! ### Masters, banks, pool (R35, R41, R42) -/

/-- The bank of a master; GR0 and GR1 share one. -/
def bankOf (m : Nat) : Nat := if m = 7 then 6 else m

/-- Masters that may insert. -/
def mayInsert (m : Nat) : Bool := m ≤ 8 || m == 12

/-- Rank by master (R20, R42). -/
def rankOf (m : Nat) : Nat :=
  if m = 8 then 0 else if 2 ≤ m && m ≤ 5 then 1 else if m = 12 then 2 else 3

def State.poolFree (s : State) : Nat := 65536 - s.swc.acts.length

/-- Actions of port-direction `d` that have no result yet. R57 counts pending and staged ones and the worked example has the count fall
at staging: the model follows R57, and counts a deferred action, which was staged, too (DESIGN CHOICE, log entry 161). -/
def State.pendCount (s : State) (d : Nat) : Nat := (s.swc.acts.filter (fun a => dPd a.desc == d)).length

def bucketOf (swath : Nat) : Nat := swath % 262144

/-- Actions stored in a bucket. -/
def State.bucketOcc (s : State) (b : Nat) : Nat := (s.swc.acts.filter (fun a => bucketOf (dSwath a.desc) == b)).length

/-- The action a bank holds under a handle. -/
def State.findAct (s : State) (bank handle : Nat) : Option Act :=
  s.swc.acts.find? (fun a => a.bank == bank && a.handle == handle)

/-- A handle of `bank` that is not in use (R42, R54), the first from a free value on. -/
def State.newHandle (s : State) (bank : Nat) : Nat × State :=
  let (x, s) := s.draw 65536
  match (List.range (s.swc.acts.length + 1)).find? (fun i => (s.findAct bank ((x + i) % 65536)).isNone) with
  | some i => ((x + i) % 65536, s)
  | none => (x, s)

/-! ### Results (R54, R55) -/

/-- Results waiting for a bank, first first. -/
def State.results (s : State) (bank : Nat) : List Res := s.swc.res.filter (fun r => r.bank == bank)

/-- The events of a result (R55). -/
def resultEvents (status : Nat) (s : State) : State :=
  if status = St.ok || status = St.aborted then s
  else if status = St.late then s.raise Ev.SWC_LATE
  else if status = St.conflict then s.raise Ev.SWC_CONFLICT
  else if status = St.stale then s.raise Ev.SWC_STALE
  else s.raise Ev.SWC_EXEC_ERROR

/-- HDG drains its own queue, of an action that sequencer `n` inserted: a result other than OK or LATE is recorded (R358), but not STALE of a write to LFR_DOH_TX
(R360). -/
def hdgResult (a : Act) (n status : Nat) (s : State) : State :=
  let dohTx := dKind a.desc = 1 && (bits (dArg a.desc) 57 32 = 0x580014 || bits (dArg a.desc) 57 32 = 0x980014)
  if status = St.ok || status = St.late || (dohTx && status = St.stale) then s
  else (((s.set R.HDG_CAL_FAIL_SEQ n).set R.HDG_CAL_FAIL_STATUS status).set R.HDG_CAL_FAIL_HANDLE a.handle).raise Ev.HDG_CAL_FAIL

/-- A result put into its queue of 256, or dropped (R55). -/
def pushResult (r : Res) (s : State) : State :=
  if 256 ≤ (s.results r.bank).length then s.raise Ev.SWC_RESULT_LOST
  else s.modSwc (fun c => { c with res := c.res ++ [r] })

/-- The frame position that begins at the next boundary of direction `d`. -/
def State.nextPos (s : State) (d : Nat) : Nat := let q := s.pdPos d; if q.first then q.pos else q.pos + 1

/-- The swath in which an action ends: one that is at its boundary (phase 3) ends in the frame that begins there. -/
def State.endSwath (s : State) (a : Act) : Nat :=
  if a.phase = 3 then s.nextPos (dPd a.desc) / 256 else (s.pdPos (dPd a.desc)).swath

/-- An action ends with its one result: the descriptor returns to the pool, the result goes to its bank, and the exchange the
action belongs to learns of it (R54, R55). Gorse takes the result of a ring command at once, and Hedgerow every result of its own. -/
def complete (a : Act) (status late : Nat) (s : State) : State :=
  let value := if dKind a.desc = 9 then dArg a.desc % 2 ^ 32 else s.endSwath a % 2 ^ 32
  let s := s.modSwc (fun c => { c with acts := c.acts.filter (fun b => !(b.bank == a.bank && b.handle == a.handle)) })
  let s := match a.owner with
    | .hdg n => hdgResult a n status s
    | .ring _ _ => s
    | _ =>
      if a.bank = M.hedgerow then
        let (n, s) := s.draw 16
        hdgResult a n status s
      else pushResult { handle := a.handle, bank := a.bank, status := status, late := late, value := value } s
  let s := resultEvents status s
  let s := if a.owner = .none then s else s.modSwc (fun c => { c with ended := c.ended ++ [(a.owner, status)] })
  if dKind a.desc = 3 then
    let took := status = St.ok || status = St.late
    let s := if took then s else s.modSwc (fun c => { c with jobs := c.jobs.filter (fun j => !(j.bank == a.bank && j.handle == a.handle)) })
    s.raise (if took then Ev.IMG_ACT_DONE else Ev.IMG_ACT_FAIL)
  else s

/-- Every action that satisfies `f` completes with `status`, in insertion order. -/
def completeAll (f : Act → Bool) (status : Nat) (s : State) : State :=
  (s.swc.acts.filter f).foldl (fun s a => complete a status 0 s) s

/-! ### Locks (R21, R348) -/

/-- The idle bank of a table, as a region activation fills it. -/
def State.idleBank (s : State) (t : Nat) : Nat := 1 - getAt 0 s.img.actTx t

/-- Bank `b` of table `t` is locked: a pending swap would make it active, or an activation fills it. -/
def State.bankLocked (s : State) (t b : Nat) : Bool :=
  s.swc.acts.any (fun a => dKind a.desc == 2 && bits (dArg a.desc) 15 0 == t && bitAt (dArg a.desc) 16 == b) ||
  s.swc.jobs.any (fun j => (j.phase == 1 || j.phase == 2) && s.idleBank t == b &&
    (match s.findTab t with | some e => e.region == j.region | none => false))

/-! ### Removal (R52) -/

/-- SWC_REM by a bank: the status, and the action ended with ABORTED where it is OK. -/
def removeAct (bank handle : Nat) (s : State) : Nat × State :=
  match s.findAct bank handle with
  | none =>
    if s.swc.res.any (fun r => r.bank == bank && r.handle == handle) then (St.stale, s) else (St.denied, s)
  | some a => if a.phase = 0 then (St.ok, complete a St.aborted 0 s) else (St.stale, s)

/-! ### Positions lost and gained (R39, R40) -/

/-- The position of `d` stops: its staged and deferred actions complete with STALE, and a region that has executed takes
effect at once (R39, R40, R348). -/
def posStops (d : Nat) (s : State) : State :=
  let s := completeAll (fun a => dPd a.desc == d && (a.phase == 1 || a.phase == 2)) St.stale s
  s.modSwc (fun c => { c with jobs := c.jobs.map (fun j => if j.pd = d && j.phase = 4 then { j with due := true } else j) })

/-- Pending actions of `d` keyed below frame position `n` complete with STALE. -/
def staleBelow (d n : Nat) (s : State) : State :=
  completeAll (fun a => dPd a.desc == d && a.phase == 0 && decide (dPos a.desc < n)) St.stale s

/-! ### Storing (R38, after its tests) -/

/-- The lowest place in the descriptor pool that is free; the spec does not lay SRAM instance 11 out (DESIGN CHOICE, log entry 162). -/
def State.freeSlot (s : State) : Nat :=
  ((List.range (s.swc.acts.length + 1)).find? (fun i => !s.swc.acts.any (fun a => a.slot == i))).getD 0

/-- The word of SRAM that holds the descriptor of `a` (R35). -/
def Act.sram (a : Act) : Nat := sramKey 11 a.slot

/-- An action stored under the word code: its handle, and the highest occupancy of a bucket. Reserved bits of ARG are stored as written
and read back so (DESIGN CHOICE, log entry 30). -/
def storeAct (m desc : Nat) (owner : Owner) (s : State) : Nat × State :=
  let (h, s) := s.newHandle (bankOf m)
  let a : Act := { handle := h, bank := bankOf m, seq := s.swc.seq, desc := withRank desc (rankOf m), slot := s.freeSlot, owner := owner }
  let s := (s.modSwc (fun c => { c with acts := c.acts ++ [a], seq := c.seq + 1 })).sramPut a.sram a.desc
  let occ := s.bucketOcc (bucketOf (dSwath desc))
  (h, if s.get R.SWC_BKT_MAX_MAX < occ then s.set R.SWC_BKT_MAX_MAX occ else s)

/-- The checked read of the descriptor of `a` (R372): its status. `bad` says that its bits have gone uncorrectable in the cells. -/
def descRead (a : Act) (bad : Bool) (s : State) : Nat × State :=
  if bad then (St.uncorr, eccCount a.sram true s) else ((sramRead a.sram s).1, (sramRead a.sram s).2.2)

/-- A raw write of word `k` changes the descriptor that lies there (R375), where it can still be read. -/
def descFollow (k : Nat) (s : State) : State :=
  let d := s.sramView k
  let whole := getAt 0 s.sramChk k = 0 || (eccDecode (getAt 0 s.sram k - 1) (getAt 0 s.sramChk k - 1)).isSome
  if whole then s.modSwc (fun c => { c with acts := c.acts.map (fun a => if a.sram = k then { a with desc := d } else a) }) else s

end Sys2Proof.Machine
end

