-- ==== Sys2Proof/Machine/Power.lean ====
section
/-! DEFINITION. Switching of the 248 power domains (R455, R456), shared by every owner. -/
namespace Sys2Proof.Machine

/-- Domain `d` may be powered: its PWR_MAP bit, shown in PWR_ALLOW (R455). -/
def State.mayPower (s : State) (d : Nat) : Bool := bitAt (s.get (R.PWR_ALLOW_ALLOW (d / 32))) (d % 32) == 1

/-- Domain `d` is on. -/
def State.domainOn (s : State) (d : Nat) : Bool := bitAt (s.get (R.PWR_ON_ON (d / 32))) (d % 32) == 1

/-- The on bit of domain `d` set or cleared. -/
def State.setDomain (s : State) (d : Nat) (on : Bool) : State :=
  let f := R.PWR_ON_ON (d / 32)
  let v := s.get f
  let b := 2 ^ (d % 32)
  if on == (bitAt v (d % 32) == 1) then s else s.set f (if on then v + b else v - b)

/-- `d` put in its place among the waiting requests, lowest first. -/
def insertAsc (d : Nat) : List Nat → List Nat
  | [] => [d]
  | x :: r => if d < x then d :: x :: r else if d = x then x :: r else x :: insertAsc d r

/-- A power-up request of domain `d` (R456): refused with CONFLICT and EV_PWR_DENIED where PWR_MAP forbids it, and
with CONFLICT in SHUTDOWN (R451); at most 4
domains power up at once and the others wait. -/
def powerUp (d : Nat) (s : State) : Nat × State :=
  if s.get R.THM_SD_STAT_STATE = 1 then (St.conflict, s)
  else if !s.mayPower d then (St.conflict, s.raise Ev.PWR_DENIED)
  else if s.domainOn d || s.pwr.going.contains d || s.pwr.waiting.contains d then (St.ok, s)
  else if s.pwr.going.length < 4 then (St.ok, { s with pwr := { s.pwr with going := s.pwr.going ++ [d] } })
  else (St.ok, { s with pwr := { s.pwr with waiting := insertAsc d s.pwr.waiting } })

/-- The power-up of domain `d` is no longer under way or waiting; the lowest that waits begins where fewer than 4 are under way (R456). -/
def powerNext (d : Nat) (s : State) : State :=
  let going := s.pwr.going.filter (· ≠ d)
  let waiting := s.pwr.waiting.filter (· ≠ d)
  { s with pwr := { going := going ++ waiting.take (4 - going.length), waiting := waiting.drop (4 - going.length) } }

/-- A power-down of domain `d`: it is off, and a waiting or running power-up of it ends (R456). -/
def powerDown (d : Nat) (s : State) : State := powerNext d (s.setDomain d false)

/-- Core `c` of BR0 to BR3, GR0, GR1, Sedge does its work: RUNNING or still handing over (R490, R491), and not halted. -/
def State.coreRuns (s : State) (c : Nat) : Bool := s.get (R.GCTL_PROC_STATE_STATE c) ≤ 1 && bitAt s.units.halted c == 0

end Sys2Proof.Machine
end

