-- ==== Sys2Proof/Machine/Converters.lean ====
section
/-! DEFINITION. Converters, gain control and DAC mutes of a port (chapter 03). -/
namespace Sys2Proof.Machine

/-- Band `i` of a port is c = i / 8, l = i / 2 mod 4, b = i mod 2 (R81). -/
def bandSpare (p i : Nat) : Fld := R.CNV_BAND_STAT_SPARE p (i / 8) (i / 2 % 4) (i % 2)
def bandPos (p i : Nat) : Fld := R.CNV_BAND_STAT_POS p (i / 8) (i / 2 % 4) (i % 2)
def bandIdle (p i : Nat) : Fld := R.CNV_BAND_STAT_IDLE_SLICE p (i / 8) (i / 2 % 4) (i % 2)

/-- The power domain of band `i` of port `p` (R455). -/
def bandDomain (p i : Nat) : Nat := 128 + 16 * p + i

def State.modCnv (s : State) (p : Nat) (f : CnvState → CnvState) : State :=
  s.modPort p (fun q => { q with cnv := f q.cnv })

/-- Synthesiser and LO both locked (R65). -/
def State.cnvLocked (s : State) (p : Nat) : Bool := s.isOn (R.CNV_SYN_SYN_LOCK p) && s.isOn (R.CNV_SYN_LO_LOCK p)

/-- Frame alignment holds on the port's receive direction (R212). -/
def State.faHolds (s : State) (p : Nat) : Bool := s.isOn (R.LFR_ALIGN_STAT_FA p)

/-- Band `i` carries samples: its domain on, clocks locked and past their hold, trims loaded (R78, R86). -/
def State.bandCarries (s : State) (p i : Nat) : Bool :=
  s.domainOn (bandDomain p i) && s.cnvLocked p && (s.port p).cnv.samples && s.get (R.CAL_STATE_STATE p) == 3

/-- The band whose next calibration applies the value of key `k` again: that of a slice or band word, band A of the lane for a VGA. -/
def dieBand (k : Nat) : Nat := if k < 4096 then k / 128 else if k < 8192 then (k - 4096) / 32 else 2 * (k - 8192)

/-- The value of key `k` in the register files of the core die: a live trim word, or the gain code of lane k − 8192 (R83, R69). -/
def State.fileWord (s : State) (p k : Nat) : Nat :=
  if k < 8192 then getAt 0 (s.port p).cal.live k else s.get (R.CNV_VGA_GAIN p (k - 8192))

/-- The values of keys `l` as the converter die holds them become those of the register files (R14, R15). -/
def dieLoad (p : Nat) (l : List Nat) (s : State) : State :=
  s.modCnv p (fun c => { c with die := l.foldl (fun d k => setAt 0 d k (s.fileWord p k)) c.die })

/-- The keys of band `i`: 65 slice words, 32 band words, and with band A of an ADC lane the gain of the lane. -/
def dieKeys (i : Nat) : List Nat :=
  (List.range 65).map (128 * i + ·) ++ (List.range 32).map (4096 + 32 * i + ·) ++ (if i < 8 && i % 2 = 0 then [8192 + i / 2] else [])

/-- Calibration of band `i` applies again what a sideband transfer failed to bring to the die (R14). -/
def dieReapply (p i : Nat) (s : State) : State :=
  let l := (s.port p).cnv.reapply.filter (fun k => dieBand k == i)
  (dieLoad p l s).modCnv p (fun c => { c with reapply := c.reapply.filter (fun k => dieBand k != i) })

/-! ### AGC (R70 to R74) -/

/-- The AGC enters state `st`; entry to MANUAL applies the manual codes, and leaving FROZEN stops the refast timer. -/
def agcEnter (p st : Nat) (s : State) : State :=
  let s := s.set (R.CNV_AGC_STATE_STATE p) st
  let s := if st = 1 then iter 4 (fun l s => s.set (R.CNV_VGA_GAIN p l) (s.get (R.CNV_VGA_MANUAL p l))) s else s
  if st = 3 then s else s.modCnv p (fun c => { c with refast := false })

/-- The refast timer starts, unless REFAST_SW = 0 or frame alignment holds (R73). -/
def refastStart (p : Nat) (s : State) : State :=
  s.modCnv p (fun c => { c with refast := s.get (R.CNV_AGC_CTRL_REFAST_SW p) != 0 && !s.faHolds p })

/-- REFAST_SW = 0 stops a timer that runs (R73). -/
def refastOff (p : Nat) (s : State) : State :=
  if s.get (R.CNV_AGC_CTRL_REFAST_SW p) = 0 then s.modCnv p (fun c => { c with refast := false }) else s

/-- One judgement of the conditions of R71 that are levels, in the order of its table. -/
def agcJudge (p : Nat) (s : State) : State :=
  let st := s.get (R.CNV_AGC_STATE_STATE p)
  let auto := s.isOn (R.CNV_AGC_CTRL_MODE p)
  let trk := s.isOn (R.CNV_AGC_CTRL_TRACK_EN p)
  let fa := s.faHolds p
  if !s.isOn (R.RXD_CTRL_EN p) then if st = 0 then s else agcEnter p 0 s
  else if !auto then if st = 1 then s else agcEnter p 1 s
  else if st = 0 then agcEnter p 2 s
  else if st = 1 then agcEnter p (if fa then (if trk then 4 else 3) else 2) s
  else if st = 3 && fa && trk then agcEnter p 4 s
  else if st = 4 && !trk then refastStart p (agcEnter p 3 s)
  else if st = 4 && !fa then refastStart p (agcEnter p 3 s)
  else s

/-- The judgements of the following core clocks, one transition each (R71). -/
def agcSettle (p : Nat) (s : State) : State := agcJudge p (agcJudge p (agcJudge p s))

/-- The freeze from FAST (R72): once, with the cause bits of this freeze; a preamble freezes only with FRZ_SEDGE = 1. -/
def agcFreeze (p : Nat) (sedge frame : Bool) (s : State) : State :=
  let sedge := sedge && s.isOn (R.CNV_AGC_CTRL_FRZ_SEDGE p)
  if s.get (R.CNV_AGC_STATE_STATE p) = 2 && s.isOn (R.CNV_AGC_CTRL_MODE p) && (sedge || frame) then
    let s := agcEnter p 3 s
    let s := s.set (R.CNV_AGC_STATE_CAUSE_SEDGE p) sedge.toNat
    let s := s.set (R.CNV_AGC_STATE_CAUSE_FRAME p) frame.toNat
    s.raise (Ev.CNV_AGC_FROZEN p)
  else s

/-- Frame alignment declared, as the AGC sees it: freeze, the refast timer stops, then TRACK (R71, R73). -/
def agcFaDeclared (p : Nat) (s : State) : State :=
  agcSettle p ((agcFreeze p false true s).modCnv p (fun c => { c with refast := false }))

/-- A preamble on the far-end correlator, as the AGC sees it. With `joint` it comes in the core clock whose alignment has just
frozen the AGC: that freeze then shows both causes, and no second one is counted (R72). -/
def agcPreamble (p : Nat) (joint : Bool) (s : State) : State :=
  let s := if joint && s.isOn (R.CNV_AGC_STATE_CAUSE_FRAME p) && s.isOn (R.CNV_AGC_CTRL_FRZ_SEDGE p) then s.set (R.CNV_AGC_STATE_CAUSE_SEDGE p) 1
    else agcFreeze p true false s
  s.modCnv p (fun c => { c with refast := false })

/-- Frame alignment lost, as the AGC sees it: TRACK to FROZEN, and in FROZEN the refast timer starts (R71, R73). -/
def agcFaLost (p : Nat) (s : State) : State :=
  let s := if s.get (R.CNV_AGC_STATE_STATE p) = 3 then refastStart p s else s
  agcSettle p s

/-- AGC_REFAST_EXPIRY (R73). Out of lock the gain holds, and the states of the AGC go on: R65 says only that the AGC is held at its current
values (DESIGN CHOICE, log entry 169). -/
def agcRefast (p : Nat) (s : State) : State :=
  if s.get (R.CNV_AGC_STATE_STATE p) = 3 && (s.port p).cnv.refast then
    (agcEnter p 2 s).raise (Ev.CNV_AGC_REFAST p)
  else s

/-! ### DC estimator (R75) -/

/-- A mode of the DC estimator takes effect: bypass reads zero. -/
def dcMode (p : Nat) (s : State) : State :=
  if s.get (R.CNV_DC_CTRL_MODE p) = 0 then
    iter 8 (fun j s => (s.set (R.CNV_DC_EST_EST p (j / 2) (j % 2)) 0).set (R.CNV_DC_EST_LIMIT p (j / 2) (j % 2)) 0) s
  else s

/-- Estimates move only while the estimator tracks: mode 0b01, or 0b11 with the AGC in FAST. -/
def dcTracks (p : Nat) (s : State) : Bool :=
  s.get (R.CNV_DC_CTRL_MODE p) == 1 || (s.get (R.CNV_DC_CTRL_MODE p) == 3 && s.get (R.CNV_AGC_STATE_STATE p) == 2)

/-- One update of the slow loop of TRACK (R70): `rms` is what its averaging of bandwidth TRACK_BW shows, in 1/8 LSB. The error
20 log(TARGET/rms) lies within ± `db` × 0.1 dB where the ratio to the power 200 lies within 10^db and its inverse; beyond it the gain
moves one code of 0.1 dB towards TARGET. -/
def trackStep (target db rms gain : Nat) : Nat :=
  if rms ^ 200 * 10 ^ db < target ^ 200 then min 240 (gain + 1)
  else if target ^ 200 * 10 ^ db < rms ^ 200 then gain - 1
  else gain

/-- The gain of lane `l` after the frame: in FAST what the loop has settled on, in TRACK one step at most of the update that falls in
the frame, if one does; held in every other state (R70). -/
def gainAfter (p l : Nat) (m : LaneMeasure) (s : State) : Nat :=
  let g := s.get (R.CNV_VGA_GAIN p l)
  let agc := s.get (R.CNV_AGC_STATE_STATE p)
  if agc = 2 then (if m.gain.length ≤ l then g else min 240 (m.gain.getD l 0))
  else if agc = 4 then
    (if m.slow.length ≤ l then g else trackStep (s.get (R.CNV_AGC_TARGET_TARGET p)) (s.get (R.CNV_AGC_TARGET_DEADBAND p)) (m.slow.getD l 0) g)
  else g

/-- RMS and clips of lane `l` over the frame: those of samples that are zero where band A does not carry (R65, R78, R86). -/
def laneMeasure (p l : Nat) (m : LaneMeasure) (s : State) : State :=
  let flows := s.bandCarries p (2 * l)
  let thr := s.get (R.CNV_CLIP_THR_THR p)
  let c := if flows then min 65535 (m.clips.getD l 0) else 0
  let s := (s.set (R.CNV_PWR_RMS p l) (if flows then min 511 (m.rms.getD l 0) else 0)).set (R.CNV_PWR_CLIPS p l) c
  s.raiseIf (thr != 0 && decide (thr ≤ c)) (Ev.CNV_CLIP p l)

/-- DC estimate `j` (lane j / 2, band j mod 2) moved by its loop (R75). -/
def dcUpdate (p j : Nat) (e : Int) (s : State) : State :=
  let s := s.setI (R.CNV_DC_EST_EST p (j / 2) (j % 2)) (clampInt (-1024) 1023 e)
  s.set (R.CNV_DC_EST_LIMIT p (j / 2) (j % 2)) (decide (e < -1024 ∨ 1023 < e)).toNat

/-- The measurements of one complete frame (R79). Gains and DC estimates hold while the converter is out of lock (R65), until both
locks read 1: R65 gives the delay of one swath for the mute and the samples alone (DESIGN CHOICE, log entry 169). A saturated estimate sets
its event at every frame, held or not (R75). -/
def frameMeasure (p : Nat) (m : LaneMeasure) (s : State) : State :=
  let held := !s.cnvLocked p
  let s := iter 4 (fun l s =>
    let s := laneMeasure p l m s
    if held then s else s.set (R.CNV_VGA_GAIN p l) (gainAfter p l m s)) s
  let s := if held || !dcTracks p s then s
    else iter 8 (fun j s => if m.dc.length ≤ j then s else dcUpdate p j (m.dc.getD j 0) s) s
  iter 8 (fun j s => s.raiseIf (s.isOn (R.CNV_DC_EST_LIMIT p (j / 2) (j % 2))) (Ev.CNV_DC_LIMIT p)) s

/-! ### Mutes and lock (R65, R77) -/

/-- A hardware mute applied: its cause and HW_MUTE set, and EV_CNV_DAC_MUTE where the cause was not already in force. -/
def hwMute (p : Nat) (cause : Fld) (s : State) : State :=
  if s.isOn cause then s else ((s.set cause 1).set (R.CNV_DAC_CTRL_HW_MUTE p) 1).raise (Ev.CNV_DAC_MUTE p)

/-- A hardware mute cause cleared; HW_MUTE stays while another cause holds. -/
def hwUnmute (p : Nat) (cause : Fld) (s : State) : State :=
  let s := s.set cause 0
  s.set (R.CNV_DAC_CTRL_HW_MUTE p)
    (if s.isOn (R.CNV_DAC_CTRL_HW_SYN p) || s.isOn (R.CNV_DAC_CTRL_HW_THERM p) then 1 else 0)

/-- A DAC lane carries signal (R76 to R78, R86): no mute of hardware or software, and band A of the lane powered, clocked past its
hold and trimmed. -/
def State.laneSends (s : State) (p l : Nat) : Bool :=
  !s.isOn (R.CNV_DAC_CTRL_HW_MUTE p) && bitAt (s.get (R.CNV_DAC_CTRL_MUTE p)) l == 0 && s.bandCarries p (8 + 2 * l)

/-- R14: a sideband transfer of value `k` (keys as in `State.fileWord`; from 8196 on a sensor reading, which no file holds) after
`fails` failed attempts. A good one brings the value of the register file to the die. The fourth failure is reported, and the file,
which keeps the value, applies it again at the next calibration of its band. -/
def sideband (p k fails : Nat) (s : State) : State :=
  if 4 ≤ fails then
    (s.modCnv p (fun c => { c with reapply := if c.reapply.contains k || 8196 ≤ k then c.reapply else c.reapply ++ [k] })).raise
      (Ev.CNV_SIDEBAND_FAIL p)
  else if k < 8196 then dieLoad p [k] s
  else s

/-- Loss of lock (R65), and what it ends in calibration (R87, R96). -/
def cnvUnlock (p : Nat) (syn lo : Bool) (s : State) : State :=
  let s := s.raiseIf (!syn && s.isOn (R.CNV_SYN_SYN_LOCK p)) (Ev.CNV_SYN_UNLOCK p)
  let s := s.raiseIf (!lo && s.isOn (R.CNV_SYN_LO_LOCK p)) (Ev.CNV_LO_UNLOCK p)
  let s := (s.set (R.CNV_SYN_SYN_LOCK p) syn.toNat).set (R.CNV_SYN_LO_LOCK p) lo.toNat
  let s := hwMute p (R.CNV_DAC_CTRL_HW_SYN p) s
  let s := s.modCnv p (fun c => { c with hold := false, samples := false })
  let st := s.get (R.CAL_STATE_STATE p)
  if st = 1 || st = 2 then
    let s := s.set (R.CAL_STATE_STATE p) 0
    let s := s.set (R.CAL_CMD_STAT_BUSY p) (s.port p).cal.snapshot.toNat
    let s := s.set (R.CAL_CMD_STAT_STATUS p) St.aborted
    s.raise (Ev.CAL_FG_FAIL p)
  else s

/-- The rest of a mute released at the transmit frame boundary (R65). -/
def muteOff (p : Nat) (s : State) : State :=
  if s.cnvLocked p && (s.port p).cnv.hold then
    hwUnmute p (R.CNV_DAC_CTRL_HW_SYN p) (s.modCnv p (fun c => { c with hold := false, samples := true }))
  else s

/-! ### Meanings -/

/-- SIDEBAND_TRANSFER (R14). -/
def execSidebandTransfer (p k fails : Nat) (s : State) : Out := onPort s p (sideband p k fails s)

/-- CONVERTER_UNLOCK (R65): `syn` and `lo` say which lock is left; with both locked nothing is lost. -/
def execConverterUnlock (p : Nat) (syn lo : Bool) (s : State) : Out :=
  onPort s p (if syn && lo then s else cnvUnlock p syn lo s)

/-- CONVERTER_LOCK (R65): both locks are acquired and the one-swath hold starts. -/
def execConverterLock (p : Nat) (s : State) : Out :=
  onPort s p (if s.cnvLocked p then s
    else ((s.set (R.CNV_SYN_SYN_LOCK p) 1).set (R.CNV_SYN_LO_LOCK p) 1).modCnv p (fun c => { c with hold := true }))

/-- MUTE_RELEASE (R65): the hold has lasted one swath, at the next transmit frame boundary. -/
def execMuteRelease (p : Nat) (s : State) : Out := onPort s p (muteOff p s)

/-- AGC_REFAST_EXPIRY (R73). -/
def execAgcRefastExpiry (p : Nat) (s : State) : Out := onPort s p (agcRefast p s)

end Sys2Proof.Machine
end

