-- ==== Sys2Proof/Machine/Align.lean ====
section
/-! DEFINITION. What losing frame alignment or swath alignment does, shared by the framer and the receiver (R177, R213, R216,
R223, R227, R231), OTN defects and the squelch of a bonded group. -/
namespace Sys2Proof.Machine

def State.modRxd (s : State) (p : Nat) (f : RxdState → RxdState) : State := s.modPort p (fun q => { q with rxd := f q.rxd })
def State.modTxd (s : State) (p : Nat) (f : TxdState → TxdState) : State := s.modPort p (fun q => { q with txd := f q.txd })
def State.modLfr (s : State) (p : Nat) (f : LfrState → LfrState) : State := s.modPort p (fun q => { q with lfr := f q.lfr })
def State.modSgp (s : State) (p : Nat) (f : SgpState → SgpState) : State := s.modPort p (fun q => { q with sgp := f q.sgp })

def State.modLcx (s : State) (f : LcxState → LcxState) : State := { s with lcx := f s.lcx }

/-- Port mode in force: 0 terminal, 1 through, 2 bonded (R24). -/
def State.portMode (s : State) : Nat := s.img.struct.mode

/-- Port `p` is a member of the bonded group. -/
def State.bonded (s : State) : Bool := s.portMode == 2

/-! ### OTN defects (R223, R232) -/

/-- Defects of entity `e` now, as the bits of LFR_OTN_DEF.NOW. -/
def State.defects (s : State) (p e : Nat) : Nat := getAt 0 (s.port p).lfr.otn (4 * e)

/-- Defect `n` of entity `e` raised or cleared; a defect newly raised is latched and sets EV_LFR_OTN_DEFECT. -/
def setDefect (p e n : Nat) (on : Bool) (s : State) : State :=
  let v := s.defects p e
  if (bitAt v n == 1) == on then s
  else
    let s := s.modLfr p (fun l => { l with otn := setAt 0 l.otn (4 * e) (v ^^^ 2 ^ n) })
    if on then
      (s.modLfr p (fun l => { l with otn := modAt 0 l.otn (4 * e + 1) (fun x => x ||| 2 ^ n) })).raise (Ev.LFR_OTN_DEFECT p)
    else s

/-! ### Squelch of the bonded group (R229, R231): its registers are in LP0 -/

/-- A cause of squelch holds: the map, the skew, a member without frame alignment, dLOF or dLOM on a slice. -/
def State.squelchCause (s : State) : Bool :=
  s.isOn (R.LFR_BOND_STAT_MAP_ERR 0) || s.isOn (R.LFR_BOND_STAT_SKEW_ALARM 0) || !s.faHolds 0 || !s.faHolds 1 ||
  bits (s.defects 0 0) 1 0 != 0 || bits (s.defects 1 0) 1 0 != 0

/-- The group is squelched where a cause holds; it is lifted only at a multiframe start. -/
def squelchOn (s : State) : State :=
  if s.bonded && s.squelchCause then
    (s.set (R.LFR_BOND_STAT_SQUELCH 0) 1).set (R.LFR_ALIGN_STAT_SQUELCH 0) 1
  else s

/-! ### Loss of alignment -/

/-- The cipher sections of port `p` on receive end with its position: every context delivers AIS (R285). -/
def cipherLost (p : Nat) (s : State) : State :=
  iter 32 (fun c s => s.modLcx (fun l =>
    { l with ctxs := modAt {} l.ctxs (64 * p + 32 + c) (fun x => { x with sect := none, prev := none, plain := none }) })) s

/-- No section has been sent on port `p` yet: no context has a tag to send (R203). -/
def tagsClear (p : Nat) (s : State) : State :=
  iter 32 (fun c s => s.modLcx (fun l => { l with ctxs := modAt {} l.ctxs (64 * p + c) (fun x => { x with tag := List.replicate 16 0 }) })) s

/-- Swath alignment of port `p` lost, if it holds: the event, the position no longer valid, the calendar (R216, R39). -/
def saDrop (p : Nat) (s : State) : State :=
  let s := s.modLfr p (fun l => { l with mfasDiff := 0, swnDiff := 0 })
  if s.isOn (R.LFR_ALIGN_STAT_SA p) then
    let s := (s.set (R.LFR_ALIGN_STAT_SA p) 0).raise (Ev.LFR_SA_LOST p)
    posStops (rxPd p) (cipherLost p (s.modPd (rxPd p) (fun q => { q with valid := false })))
  else s

/-- The slip buffer that port `p` feeds, in the transmit direction of the other port, emptied (R227). -/
def slipEmpty (p : Nat) (s : State) : State :=
  s.modLfr (1 - p) (fun l => { l with slip := [], slipHold := true, slipLast := none })

/-- The codeword that port `p` has not received whole is discarded uncounted (R177). -/
def cwDrop (p : Nat) (s : State) : State :=
  s.modRxd p (fun r => { r with gap := r.gap || r.cwq.any (fun g => !g.closed), cwq := r.cwq.filter (·.closed) })

/-- Frame alignment of port `p` cleared, if it holds, with all it ends: swath alignment, FEC lock, the codeword in progress,
the slip buffer it feeds; dLOF on every slice; the AGC sees the loss (R213, R177, R223, R227, R71). -/
def faClear (p : Nat) (s : State) : State :=
  if s.faHolds p then
    let s := s.set (R.LFR_ALIGN_STAT_FA p) 0
    let s := s.modLfr p (fun l => { l with
      fasFails := 0, rungDiff := 0, rungSame := 0, adjDiff := 0, adjSwap := false, cwpKnown := false, cwpDiff := 0, lastD0 := none, lastD1 := none,
      thcRun := 0, jcNext := none, epochRun := [], userRun := [], allots := [], otuBits := [], otuErr := false, slices := [], share := [] })
    let s := cwDrop p (s.modRxd p (fun r => { r with fecLock := false, stream := {}, parts := [], fecFrames := 0, fecUnc := 0, fecBad := 0 }))
    let s := slipEmpty p s
    let s := setDefect p 0 0 true s
    squelchOn (agcFaLost p (saDrop p s))
  else s

/-- The candidates of port `p` dropped without being counted (R212). -/
def candClear (p : Nat) (s : State) : State :=
  (iter 4 (fun k s => (((s.set (R.LFR_CAND_VALID p k) 0).set (R.LFR_CAND_HITS p k) 0).set (R.LFR_CAND_MFAS p k) 0).set
    (R.LFR_CAND_POS p k) 0) s).set (R.LFR_ALIGN_STAT_CANDS p) 0

end Sys2Proof.Machine
end

