-- ==== Sys2Proof/Machine/Client.lean ====
section
/-! DEFINITION. Client lanes, client groups, tributaries and slots (chapter 09). -/
namespace Sys2Proof.Machine

/-! ### Group and tributary words (R236, R237, R242, R243) -/

def grpIf (w : Nat) : Nat := bits w 3 0
def grpFirst (w : Nat) : Nat := bits w 13 8
def grpValid (w : Nat) : Bool := bitAt w 127 == 1

/-- Lanes of an interface. -/
def ifLanes (i : Nat) : Nat := [0, 1, 1, 2, 4, 4, 8, 8, 1, 2, 2, 4, 4, 8].getD i 0
def isEthernet (i : Nat) : Bool := 1 ≤ i && i ≤ 7
def isFlexo (i : Nat) : Bool := 8 ≤ i && i ≤ 13

/-- A group that is defined. -/
def grpDefined (w : Nat) : Bool := grpValid w && 1 ≤ grpIf w && grpIf w ≤ 13

/-- The lanes of a group word. -/
def grpLanes (w : Nat) : List Nat := (List.range (ifLanes (grpIf w))).map (grpFirst w + ·)

/-- The word of group `g` in the active bank. -/
def State.grpWord (s : State) (g : Nat) : Nat := s.tabWord 0xF020 false g

def tribValid (w : Nat) : Bool := bitAt w 127 == 1
def tribType (w : Nat) : Nat := bits w 3 0
def tribRole (w : Nat) : Nat := bits w 5 4
def tribGroup (w : Nat) : Nat := bits w 13 8
def tribSub (w : Nat) : Nat := bits w 22 16
def tribSlots (w : Nat) : Nat := bits w 40 32

/-- The ports whose tables are in use: port 0 alone in a bonded group (R242). -/
def State.tablePorts (s : State) : List Nat := if s.bonded || s.part = .lyk4801 then [0] else [0, 1]

/-- The port whose tables of clients and tributaries serve port `p` (R242). -/
def State.tableHome (s : State) (p : Nat) : Nat := if s.bonded then 0 else p

def tribTab (p : Nat) : Nat := 0xF004 + 0x100 * p
def State.tribWord (s : State) (p t : Nat) : Nat := s.tabWord (tribTab p) false t

/-- The slot table of port `p` for transmit (0) or receive (1), and its byte for slot `i`. -/
def slotTab (p d : Nat) : Nat := 0xF005 + d + 0x100 * p
def slotByte (words : List Nat) (i : Nat) : Nat := words.getD (i / 16) 0 / 2 ^ (8 * (i % 16)) % 256
def State.slotOf (s : State) (p d i : Nat) : Nat := s.tabWord (slotTab p d) false (i / 16) / 2 ^ (8 * (i % 16)) % 256

/-- Slots of the active table that tributary `t` holds. -/
def State.tribSlotList (s : State) (p d t : Nat) : List Nat := (List.range 960).filter (fun i => s.slotOf p d i == t)

/-- The tributaries that group `g` feeds, as (port, tributary). -/
def State.fedBy (s : State) (g : Nat) : List (Nat × Nat) :=
  s.tablePorts.flatMap (fun p => ((List.range 128).filter (fun t =>
    tribValid (s.tribWord p t) && tribGroup (s.tribWord p t) == g)).map (fun t => (p, t)))

/-! ### Replacements and groups (R240, R246) -/

def State.grpState (s : State) (g : Nat) : Nat := s.get (R.CLI_GRP_STAT_STATE g)

/-- Block-wide event and counter of group `g`: `e` as in R463. -/
def grpEvent (g i e : Nat) (s : State) : State := s.raiseClient i (4096 + 8 * g + e)
def laneEvent (n i e : Nat) (s : State) : State := s.raiseClient i (3840 + 4 * n + e)

/-- The client-to-line replacement of a group: it starts when a defined group that feeds a tributary is not UP, or a FlexO group has a defect, and
`ends` at a frame boundary (R246). -/
def replaceIn (ends : Bool) (g : Nat) (s : State) : State :=
  let w := s.grpWord g
  let was := s.isOn (R.CLI_GRP_STAT_REPLACE_IN g)
  let cause := grpDefined w && (s.grpState g != 3 || s.cli.flexo.contains g) && !(s.fedBy g).isEmpty
  let on := cause || (was && !ends)
  let s := s.set (R.CLI_GRP_STAT_REPLACE_IN g) on.toNat
  if on && !was && isEthernet (grpIf w) then grpEvent g Ev.CLI_REPLACE 4 s else s

/-- A frame boundary of the direction that carries the tables of port `h`: replacements towards the line end where their cause has gone. -/
def replaceInEnd (h : Nat) (s : State) : State :=
  iter 64 (fun g s => if s.isOn (R.CLI_GRP_STAT_REPLACE_IN g) && (s.fedBy g).all (fun x => x.1 == h) then replaceIn true g s else s) s

/-- A group enters state `st`; entry to UP and leaving it are events. -/
def grpEnter (g st : Nat) (s : State) : State :=
  let old := s.grpState g
  if old = st then s
  else
    let s := s.set (R.CLI_GRP_STAT_STATE g) st
    let s := if st = 3 then grpEvent g Ev.CLI_GRP_UP 0 s else if old = 3 then grpEvent g Ev.CLI_GRP_DOWN 1 s else s
    if 2 ≤ st then s else (s.set (R.CLI_GRP_STAT_LANE_LOCK g) 0).set (R.CLI_GRP_STAT_SKEW_ERR g) 0

/-- A group judged by its lanes (R240). -/
def grpJudge (g : Nat) (s : State) : State :=
  let w := s.grpWord g
  let st := s.grpState g
  let rx := (grpLanes w).map (fun n => s.get (R.CLI_LANE_STAT_RX_STATE n))
  let s := if !grpDefined w || rx.contains 0 then grpEnter g 0 s
    else if rx.all (· == 3) then (if st ≤ 1 then grpEnter g 2 (grpEnter g 1 s) else s)
    else grpEnter g 1 s
  replaceIn false g s

/-- Every group judged: lanes or tables have changed. -/
def grpJudgeAll (s : State) : State := iter 64 grpJudge s

/-- Groups whose word has changed begin anew: from OFF. -/
def grpRedefine (old : List Nat) (s : State) : State :=
  grpJudgeAll (iter 64 (fun g s => if s.grpWord g = old.getD g 0 then s else grpEnter g 0 s) s)

/-- The group of a lane, judged. -/
def laneGroups (n : Nat) (s : State) : State :=
  iter 64 (fun g s => if grpDefined (s.grpWord g) && (grpLanes (s.grpWord g)).contains n then grpJudge g s else s) s

/-! ### Lane directions (R234): `d` is 0 transmit, 1 receive -/

def laneField (n d : Nat) : Fld := if d = 0 then R.CLI_LANE_STAT_TX_STATE n else R.CLI_LANE_STAT_RX_STATE n
def State.laneState (s : State) (n d : Nat) : Nat := s.get (laneField n d)

def setLane (n d st : Nat) (s : State) : State :=
  let s := s.set (laneField n d) st
  let s := { s with cli := { s.cli with passed := s.cli.passed.filter (· ≠ 2 * n + d) } }
  if d = 1 then laneGroups n s else s

/-- The enable field of a lane direction takes a value at its action's frame boundary: the status, and what comes of it. -/
def laneEnable (n d v : Nat) (s : State) : Nat × State :=
  if v = 0 then
    let s := powerDown (2 * n + d) s
    let s := if d = 1 then ((s.set (R.CLI_LANE_STAT_CDR_LOCK n) 0).set (R.CLI_LANE_STAT_LOS n) 0).set (R.CLI_LANE_STAT_PRBS_LOCK n) 0 else s
    (St.ok, setLane n d 0 s)
  else if s.laneState n d ≠ 0 then (St.ok, s)
  else
    let (st, s) := powerUp (2 * n + d) s
    if st = St.ok then (St.ok, setLane n d 1 s) else (st, s)

/-- Lock in WAKE. -/
def laneLock (n d : Nat) (s : State) : State :=
  if s.laneState n d ≠ 1 then s
  else
    let s := if d = 1 then (s.set (R.CLI_LANE_STAT_CDR_LOCK n) 1).set (R.CLI_LANE_STAT_LOS n) 0 else s
    setLane n d 2 s

/-- No lock within 200 µs. -/
def laneWakeTimeout (n d : Nat) (s : State) : State :=
  if s.laneState n d ≠ 1 then s
  else if d = 1 then laneEvent n Ev.CLI_LANE_LOS 0 s
  else laneEvent n Ev.CLI_LANE_FAIL 1 (setLane n d 4 s)

/-- The loop test ends. -/
def laneTestDone (n d : Nat) (bad : Bool) (s : State) : State :=
  if s.laneState n d ≠ 2 then s
  else if bad then laneEvent n Ev.CLI_LANE_FAIL 1 (setLane n d 4 s)
  else { s with cli := { s.cli with passed := s.cli.passed.filter (· ≠ 2 * n + d) ++ [2 * n + d] } }

/-- The next swath boundary of PD 0 turns a tested lane direction ON. -/
def laneJoin (n d : Nat) (s : State) : State :=
  if s.laneState n d = 2 && s.cli.passed.contains (2 * n + d) then setLane n d 3 s else s

/-- An ON receive lane loses its signal, or its CDR lock alone. -/
def laneLos (n : Nat) (los : Bool) (s : State) : State :=
  if s.laneState n 1 ≠ 3 then s
  else
    let s := (s.set (R.CLI_LANE_STAT_CDR_LOCK n) 0).set (R.CLI_LANE_STAT_LOS n) los.toNat
    laneEvent n Ev.CLI_LANE_LOS 0 (setLane n 1 1 s)

/-! ### Groups: lock, deskew, hi_ser -/

/-- Every logical lane has found lock, those of `wrong` to the wrong lane or PHY number, which does not count: UP where none has and the spread, in
0.1 ns, is within the deskew buffer. -/
def groupUp (g spread : Nat) (wrong : List Nat) (s : State) : State :=
  if s.grpState g ≠ 2 then s
  else
    let lanes := List.range (ifLanes (grpIf (s.grpWord g)))
    let s := s.set (R.CLI_GRP_SKEW_SKEW g) (min 65535 spread)
    let s := s.set (R.CLI_GRP_STAT_LANE_LOCK g) ((lanes.filter (fun k => !wrong.contains k)).map (2 ^ ·)).sum
    if lanes.any wrong.contains then s
    else if 1800 < spread then grpEvent g Ev.CLI_SKEW 2 (s.set (R.CLI_GRP_STAT_SKEW_ERR g) 1)
    else replaceIn false g (grpEnter g 3 (s.set (R.CLI_GRP_STAT_SKEW_ERR g) 0))

/-- Logical lane `k` of a group in UP loses lock. -/
def groupLockLoss (g k : Nat) (s : State) : State :=
  if s.grpState g ≠ 3 || ifLanes (grpIf (s.grpWord g)) ≤ k then s
  else
    let v := s.get (R.CLI_GRP_STAT_LANE_LOCK g)
    replaceIn false g (grpEnter g 2 (s.set (R.CLI_GRP_STAT_LANE_LOCK g) (if bitAt v k = 1 then v - 2 ^ k else v)))

/-- hi_ser of an Ethernet group changes (R238). -/
def hiSer (g : Nat) (on : Bool) (s : State) : State :=
  if isEthernet (grpIf (s.grpWord g)) && grpDefined (s.grpWord g) then
    grpEvent g Ev.CLI_HI_SER 3 (s.set (R.CLI_GRP_STAT_HI_SER g) on.toNat)
  else s

/-- A 48-bit counter in two registers raised by `n`. -/
def addPair (lo hi : Fld) (n : Nat) (s : State) : State :=
  let v := s.get lo + 2 ^ 32 * s.get hi + n
  (s.set lo v).set hi (v / 2 ^ 32)

/-- What lanes and groups measured. -/
def prbsTake (m : PrbsMeasure) (s : State) : State :=
  if 64 ≤ m.lane || s.get (R.CLI_LANE_CTRL_PRBS_RX m.lane) = 0 || s.laneState m.lane 1 ≠ 3 then s
  else
    let s := s.set (R.CLI_LANE_STAT_PRBS_LOCK m.lane) m.lock.toNat
    if m.lock then s.addSat (R.CLI_LANE_PRBS_ERRORS m.lane) m.errors else s

/-- A FlexO group: the GID received against the one expected, its frame and multiframe, PHY numbers and the OTUCx and ODUCx it carries (R239, R246). -/
def flexoTake (m : GroupMeasure) (s : State) : State :=
  let w := s.grpWord m.group
  let bad := isFlexo (grpIf w) && (m.lof || (match m.gid with | some x => x != bits w 99 80 | none => false))
  let was := s.cli.flexo.contains m.group
  let s := { s with cli := { s.cli with flexo := (s.cli.flexo.filter (· ≠ m.group)) ++ (if bad then [m.group] else []) } }
  replaceIn false m.group (if bad && !was then grpEvent m.group Ev.CLI_FLEXO_DEF 5 s else s)

/-- The spread of a group's lanes (R240): beyond the deskew buffer it is an error, and a group in UP is no longer deskewed. -/
def skewTake (g skew : Nat) (s : State) : State :=
  let s := s.set (R.CLI_GRP_SKEW_SKEW g) (min 65535 skew)
  if skew ≤ 1800 then s.set (R.CLI_GRP_STAT_SKEW_ERR g) 0
  else
    let s := if s.isOn (R.CLI_GRP_STAT_SKEW_ERR g) then s else grpEvent g Ev.CLI_SKEW 2 (s.set (R.CLI_GRP_STAT_SKEW_ERR g) 1)
    if s.grpState g = 3 then replaceIn false g (grpEnter g 2 s) else s

def groupTake (m : GroupMeasure) (s : State) : State :=
  if 64 ≤ m.group || s.grpState m.group < 2 then s
  else
    let g := m.group
    let s := addPair (R.CLI_GRP_CCW_LO_COUNT_L g) (R.CLI_GRP_CCW_HI_COUNT_H g) m.ccw s
    let s := addPair (R.CLI_GRP_UCW_LO_COUNT_L g) (R.CLI_GRP_UCW_HI_COUNT_H g) m.ucw s
    let s := (s.addSat (R.CLI_GRP_SYM_COUNT g) m.sym).set (R.CLI_GRP_STAT_RF_RX g) m.rf.toNat
    flexoTake m (skewTake g m.skew s)

end Sys2Proof.Machine
end

