-- ==== Sys2Proof/Machine/Calibration.lean ====
section
/-! DEFINITION. Calibration, trimming and the calibration journal (chapter 04). -/
namespace Sys2Proof.Machine

def State.modCal (s : State) (p : Nat) (f : CalState → CalState) : State :=
  s.modPort p (fun q => { q with cal := f q.cal })

/-! ### Slice words (R80, R81) and what a trial proves (R88, R89) -/

/-- Key of the word of slice `sl` of band `i`; of band word `w`. -/
def sliceKey (i sl : Nat) : Nat := 128 * i + sl
def bandKey (i w : Nat) : Nat := 4096 + 32 * i + w

/-- FAILED and CALIBRATED of a slice word. -/
def wFailed (w : Nat) : Bool := bitAt w 64 == 1
def wCal (w : Nat) : Bool := bitAt w 65 == 1

/-- A slice word with its FAILED bit as given. -/
def setFailed (w : Nat) (f : Bool) : Nat := if f then w ||| 2 ^ 64 else (if wFailed w then w - 2 ^ 64 else w)

/-- The slice word of trims `t`, calibrated (R81). -/
def trimWord (t : Trial) : Nat :=
  toField 9 t.offset + 2 ^ 16 * toField 9 t.gain + 2 ^ 32 * toField 10 t.skew + 2 ^ 48 * toField 5 t.bw + 2 ^ 65

/-- Every code lies in its valid range (R80). -/
def trialValid (t : Trial) : Bool :=
  decide (-256 ≤ t.offset ∧ t.offset ≤ 255) && decide (-256 ≤ t.gain ∧ t.gain ≤ 255) &&
  decide (-500 ≤ t.skew ∧ t.skew ≤ 500) && decide (0 ≤ t.bw ∧ t.bw ≤ 31)

/-- The residuals are within the converged limits (R88). -/
def trialConverged (t : Trial) : Bool :=
  decide (t.rOffset ≤ 2 ∧ t.rGain ≤ 3 ∧ t.rSkew ≤ 5 ∧ t.rBw ≤ 1)

/-- The residuals are within the quick-check limits (R88). -/
def trialQuickOk (t : Trial) : Bool :=
  decide (t.rOffset ≤ 8 ∧ t.rGain ≤ 12 ∧ t.rSkew ≤ 20 ∧ t.rBw ≤ 2)

/-- The trims a slice ends with: at most `n` attempts, none beyond a code outside its range (R89). -/
def pickTrial : Nat → List Trial → Option Trial
  | 0, _ => none
  | _ + 1, [] => none
  | n + 1, t :: r => if !trialValid t then none else if trialConverged t then some t else pickTrial n r

/-- A live word stored. -/
def setLive (p k w : Nat) (s : State) : State := s.modCal p (fun c => { c with live := setAt 0 c.live k w })

/-- Band `i` of port `p` is the one being swept. -/
def State.sweeps (s : State) (p i : Nat) : Bool :=
  s.isOn (R.CAL_STATE_SWEEPING p) && s.get (R.CAL_STATE_SWEEP_BAND p) == i

/-- The spare of band `i` is trimmed for the position it is to serve (R80, R89, R90): its live word takes trims that the device measures
there and the spec gives no number for, a free value within the ranges of R80 (log entry 158). -/
def spareTrim (p i : Nat) (s : State) : State :=
  let w := getAt 0 (s.port p).cal.live (sliceKey i 64)
  let (v, s) := s.draw (512 * 512 * 1001 * 32)
  let t : Trial := { offset := (v % 512 : Nat) - 256, gain := (v / 512 % 512 : Nat) - 256, skew := (v / 262144 % 1001 : Nat) - 500,
                     bw := (v / 262406144 % 32 : Nat) }
  setLive p (sliceKey i 64) (setFailed (trimWord t) (wFailed w)) s

/-- The spare of band `i` takes position `sl` for good. -/
def spareConsume (p i sl : Nat) (s : State) : State :=
  (((s.set (bandSpare p i) 2).set (bandPos p i) sl).set (bandIdle p i) sl).set (R.CAL_BAND_NO_SPARE p i) 1

/-- A failed spare is never used again: the band is one whose spare is consumed, and slice 64 stays idle (R89). -/
def spareLost (p i : Nat) (s : State) : State :=
  ((s.set (bandSpare p i) 2).set (bandIdle p i) 64).set (R.CAL_BAND_NO_SPARE p i) 1

/-- Slice `sl` of band `i` fails (R89): FAILED and EV_CAL_SLICE_FAIL; a free spare takes its position for good; a failed
spare is never used again; where the spare is already consumed the slice stays in service and EV_CAL_NO_SPARE is set. -/
def sliceFail (p i sl : Nat) (s : State) : State :=
  let w := getAt 0 (s.port p).cal.live (sliceKey i sl)
  let s := setLive p (sliceKey i sl) (setFailed w true) s
  let s := s.raise (Ev.CAL_SLICE_FAIL p)
  let spare := s.get (bandSpare p i)
  if sl = 64 && spare ≠ 2 then spareLost p i s
  else if spare = 0 then spareConsume p i sl (spareTrim p i s)
  else if spare = 1 && s.get (bandIdle p i) = sl then spareConsume p i sl s
  else (s.set (R.CAL_BAND_NO_SPARE p i) 1).raise (Ev.CAL_NO_SPARE p)

/-- The outcome of calibrating slice `sl` of band `i` with `tries` (R87 to R89). -/
def calSlice (p i sl : Nat) (tries : List Trial) (s : State) : State :=
  match pickTrial 3 tries with
  | some t =>
    let f := wFailed (getAt 0 (s.port p).cal.live (sliceKey i sl))
    setLive p (sliceKey i sl) (setFailed (trimWord t) f) s
  | none => sliceFail p i sl s

/-- Every slice of band `i` that converged without a listed trial holds CALIBRATED. -/
def markCal (p i : Nat) (s : State) : State :=
  iter 65 (fun sl s =>
    let w := getAt 0 (s.port p).cal.live (sliceKey i sl)
    if wFailed w || wCal w then s else setLive p (sliceKey i sl) (w + 2 ^ 65) s) s

/-- The slice that serves a position in band `i` (R60). -/
def State.serves (s : State) (p i sl : Nat) : Bool := s.get (bandIdle p i) != sl

/-- Every serving slice of band `i` has CALIBRATED set (R104). -/
def State.bandCalibrated (s : State) (p i : Nat) : Bool :=
  (List.range 65).all (fun sl => !s.serves p i sl || wCal (getAt 0 (s.port p).cal.live (sliceKey i sl)))

/-- Slices of band `i` with FAILED set (R104). -/
def State.bandFails (s : State) (p i : Nat) : Nat :=
  ((List.range 65).filter (fun sl => wFailed (getAt 0 (s.port p).cal.live (sliceKey i sl)))).length

/-- Band `i` is powered. -/
def State.bandPowered (s : State) (p i : Nat) : Bool := s.domainOn (bandDomain p i)

/-! ### Temperatures and triggers (R91, R92) -/

/-- The sensor of band `i` (R91): TS(8p + 2l + c), sensors 96 on (R443). -/
def bandSensor (p i : Nat) : Nat := 96 + 8 * p + 2 * (i / 2 % 4) + i / 8

/-- A temperature reading in 0.1 °C. -/
def State.temp (s : State) (x : Nat) : Int := s.getI (R.THM_SENSOR_TEMP x)

/-- Sensor `x` does not count: marked suspect where its die's marks are not ignored, or open (R444, R446). -/
def State.suspect (s : State) (x : Nat) : Bool :=
  (s.isOn (R.THM_SENSOR_SUSPECT x) && !s.isOn (R.THM_SENSOR_IGNORED x)) || s.isOn (R.THM_SENSOR_OPEN x)

/-- A number put in order. -/
def insertInt (x : Int) : List Int → List Int
  | [] => [x]
  | y :: r => if x ≤ y then x :: y :: r else y :: insertInt x r

/-- The median, the mean of the middle two where they are two. -/
def median (l : List Int) : Option Int :=
  let o := l.foldl (fun a x => insertInt x a) []
  match o with
  | [] => none
  | _ => some ((o.getD ((o.length - 1) / 2) 0 + o.getD (o.length / 2) 0) / 2)

/-- The reading a band is judged by: its sensor, or the median of the die's sensors that are not suspect. -/
def State.bandTemp (s : State) (p i : Nat) : Option Int :=
  if s.suspect (bandSensor p i) then
    median (((List.range 8).filter (fun j => !s.suspect (96 + 8 * p + j))).map (fun j => s.temp (96 + 8 * p + j)))
  else some (s.temp (bandSensor p i))

/-- T_LAST taken, and whether the median stands in for the sensor. -/
def takeTLast (p i : Nat) (s : State) : State :=
  let s := s.set (R.CAL_BAND_SENSOR_FALLBACK p i) (s.suspect (bandSensor p i)).toNat
  match s.bandTemp p i with
  | some t => s.setI (R.CAL_BAND_T_LAST p i) t
  | none => s

/-- The loop families that Bracken runs: family `p` steers the LO laser and runs the adaptation policy of port `p`, family 2 + p
schedules the calibration of port `p`. Before a core gives its work up, family `i` is on core BR`i` (DESIGN CHOICE, log entry 160). -/
def linkLoops (p : Nat) : Nat := p
def calLoops (p : Nat) : Nat := 2 + p

/-- The core that holds family `i`. -/
def State.loopCore (s : State) (i : Nat) : Nat := s.units.loops.getD i i

/-- Family `i` runs; else its loops hold their last outputs (R18). -/
def State.loopRuns (s : State) (i : Nat) : Bool := s.coreRuns (s.loopCore i)

/-- Band `i` queued for a sweep, once (R92); a band whose spare is consumed is dropped with EV_CAL_NO_SPARE (R90). -/
def queueBand (p i : Nat) (s : State) : State :=
  if s.get (bandSpare p i) = 2 then s.raise (Ev.CAL_NO_SPARE p)
  else
    let q := s.get (R.CAL_QUEUE_QUEUED p)
    if bitAt q i = 1 then s else s.set (R.CAL_QUEUE_QUEUED p) (q + 2 ^ i)

/-- The temperature trigger over the bands of a port (R91), judged in READY (log entry 38); the median stands in for a suspect sensor in
every state. -/
def calTempTrigger (p : Nat) (s : State) : State :=
  iter 16 (fun i s =>
    let s := s.set (R.CAL_BAND_SENSOR_FALLBACK p i) (s.suspect (bandSensor p i)).toNat
    if s.get (R.CAL_STATE_STATE p) ≠ 3 || !s.isOn (R.CAL_TRIG_TEMP_EN p) || !s.loopRuns (calLoops p) || s.sweeps p i then s
    else match s.bandTemp p i with
      | none => s
      | some t =>
        if (s.get (R.CAL_TRIG_DELTA p) : Int) < (t - s.getI (R.CAL_BAND_T_LAST p i)).natAbs then queueBand p i s else s) s

/-! ### Commands (R85) -/

/-- The verdict on CAL_CMD value `cmd` (1 FOREGROUND, 2 RESTORE, 3 SNAPSHOT). -/
def calVerdict (p cmd : Nat) (s : State) : Nat :=
  let st := s.get (R.CAL_STATE_STATE p)
  let load := s.jnl.op == 2
  if cmd = 3 then (if load then St.busy else St.ok)
  else if st = 1 || st = 2 || load then St.busy
  else if s.isOn (R.RXD_CTRL_EN p) || s.get (R.TXD_STATE_STATE p) ≠ 0 || !s.cnvLocked p then St.conflict
  else St.ok

/-- A command accepted, or refused with only ACCEPT changed. -/
def calAccept (p cmd : Nat) (s : State) (go : State → State) : State :=
  let v := calVerdict p cmd s
  let s := s.set (R.CAL_CMD_STAT_ACCEPT p) v
  if v = St.ok then go (s.set (R.CAL_CMD_STAT_BUSY p) 1) else s

/-- The running sweep abandoned: the spare is free again. -/
def sweepStop (p : Nat) (s : State) : State :=
  if !s.isOn (R.CAL_STATE_SWEEPING p) then s
  else
    let i := s.get (R.CAL_STATE_SWEEP_BAND p)
    let s := (s.set (R.CAL_STATE_SWEEPING p) 0).modCal p (fun c => { c with sweepDone := false })
    if s.get (bandSpare p i) = 1 then (((s.set (bandSpare p i) 0).set (bandPos p i) 0).set (bandIdle p i) 64) else s

/-- FOREGROUND written (R84, R85, R92). -/
def calForeground (p : Nat) (s : State) : State :=
  calAccept p 1 s (fun s => ((sweepStop p s).set (R.CAL_QUEUE_QUEUED p) 0).set (R.CAL_STATE_STATE p) 1)

/-- The FAILED bits of apply and restore (R95): staging's and the live ones; the lowest failed serving slice takes a free
spare, any further one stays in service with EV_CAL_NO_SPARE. -/
def applyBand (p i : Nat) (s : State) : State :=
  let old := (s.port p).cal.live
  let stg := (s.port p).cal.staging
  let s := iter 65 (fun sl s =>
    let w := getAt 0 stg (sliceKey i sl)
    setLive p (sliceKey i sl) (setFailed w (wFailed w || wFailed (getAt 0 old (sliceKey i sl)))) s) s
  let s := iter 32 (fun w s => setLive p (bandKey i w) (getAt 0 stg (bandKey i w)) s) s
  let s := if wFailed (getAt 0 (s.port p).cal.live (sliceKey i 64)) && s.get (bandSpare p i) = 0 then spareLost p i s else s
  iter 65 (fun sl s =>
    if wFailed (getAt 0 (s.port p).cal.live (sliceKey i sl)) && s.serves p i sl then
      if s.get (bandSpare p i) = 0 then spareConsume p i sl (spareTrim p i s)
      else (s.set (R.CAL_BAND_NO_SPARE p i) 1).raise (Ev.CAL_NO_SPARE p)
    else s) s

/-- Bands of the staging copy that hold a word whose CALIBRATED bit is 0, one bit each. -/
def State.stagingUncal (s : State) (p : Nat) : Nat :=
  ((List.range 16).map (fun i =>
    ((List.range 65).any (fun sl => !wCal (getAt 0 (s.port p).cal.staging (sliceKey i sl)))).toNat * 2 ^ i)).sum

/-- RESTORE written (R84, R85, R96): staging is copied to live in every band and loaded into the die; which of its bands are uncalibrated
is settled by what was copied. The queue and a sweep in progress go on (R92). -/
def calRestore (p : Nat) (s : State) : State :=
  calAccept p 2 s (fun s =>
    let s := (s.modCal p (fun c => { c with uncal := s.stagingUncal p })).set (R.CAL_STATE_STATE p) 2
    iter 16 (fun i s => dieLoad p (dieKeys i) (applyBand p i s)) s)

/-- SNAPSHOT written (R85, R93). -/
def calSnapshot (p : Nat) (s : State) : State :=
  calAccept p 3 s (fun s => s.modCal p (fun c => { c with snapshot := true }))

/-- CAL_CMD written (R85): 0 is no action. -/
def calCommand (p cmd : Nat) (s : State) : State :=
  if cmd = 1 then calForeground p s else if cmd = 2 then calRestore p s else if cmd = 3 then calSnapshot p s else s

/-- A command ends with `st`: BUSY stays while another one runs (R85). -/
def calEnd (p st : Nat) (s : State) : State :=
  let runs := s.get (R.CAL_STATE_STATE p) = 1 || s.get (R.CAL_STATE_STATE p) = 2 || (s.port p).cal.snapshot
  (s.set (R.CAL_CMD_STAT_BUSY p) runs.toNat).set (R.CAL_CMD_STAT_STATUS p) st

/-- Foreground calibration of band `i` with the trials of its slices; the band's values are applied again (R14). -/
def calBand (p i : Nat) (trials : List SliceTrial) (words : List (Nat × Nat × Nat)) (s : State) : State :=
  let s := (trials.filter (fun t => t.band == i && decide (t.slice ≤ 64))).foldl (fun s t => calSlice p i t.slice t.tries s) s
  let s := markCal p i s
  let s := (words.filter (fun w => w.1 == i && decide (w.2.1 < 32))).foldl (fun s w => setLive p (bandKey i w.2.1) (w.2.2 % 2 ^ 128) s) s
  dieReapply p i (takeTLast p i s)

/-- FOREGROUND_DONE (R84, R87). -/
def calForegroundDone (p : Nat) (trials : List SliceTrial) (words : List (Nat × Nat × Nat)) (failed : Bool) (s : State) : State :=
  if s.get (R.CAL_STATE_STATE p) ≠ 1 then s
  else if failed then (calEnd p St.aborted (s.set (R.CAL_STATE_STATE p) 0)).raise (Ev.CAL_FG_FAIL p)
  else
    let s := iter 16 (fun i s => if s.bandPowered p i then calBand p i trials words s else s) s
    calEnd p St.ok (s.set (R.CAL_STATE_STATE p) 3)

/-- RESTORE_DONE (R96): a band whose quick check fails, or that holds an uncalibrated staging word, is calibrated alone. -/
def calRestoreDone (p : Nat) (checks redo : List SliceTrial) (words : List (Nat × Nat × Nat)) (s : State) : State :=
  if s.get (R.CAL_STATE_STATE p) ≠ 2 then s
  else
    let s := iter 16 (fun i s =>
      if !s.bandPowered p i then s
      else
        let bad := checks.any (fun t => t.band == i && t.tries.any (fun x => !trialQuickOk x))
        if bad || bitAt (s.port p).cal.uncal i = 1 then (calBand p i redo words s).raise (Ev.CAL_RESTORE_REDO p) else s) s
    let s := calEnd p St.ok (s.set (R.CAL_STATE_STATE p) 3)
    iter 16 (fun i s => queueBand p i s) s

/-- SNAPSHOT_DONE (R93): the live copy, as a sweep step left it before it began, becomes the staging copy. -/
def calSnapshotDone (p : Nat) (s : State) : State :=
  if (s.port p).cal.snapshot then
    calEnd p St.ok (s.modCal p (fun c => { c with staging := c.live, snapshot := false }))
  else s

/-! ### Background sweeps (R90, R92) -/

/-- The lowest set bit of a queue word. -/
def lowestBit (n v : Nat) : Option Nat := (List.range n).find? (fun i => bitAt v i == 1)

/-- SWEEP_START: the lowest queued band without a fallowed slice (R486) starts, unless HOLD or a sweep in progress; in READY alone: R92 does
not name the states in which a sweep may start (DESIGN CHOICE, log entry 38). -/
def sweepBegin (p : Nat) (s : State) : State :=
  if s.isOn (R.CAL_STATE_SWEEPING p) || s.isOn (R.CAL_TRIG_HOLD p) || s.get (R.CAL_STATE_STATE p) ≠ 3 then s
  else match (List.range 16).find? (fun i =>
      bitAt (s.get (R.CAL_QUEUE_QUEUED p)) i == 1 && bitAt (s.get (R.GCTL_SLICE_FLW_FALLOWED p)) i == 0) with
    | none => s
    | some i =>
      let s := s.set (R.CAL_QUEUE_QUEUED p) (s.get (R.CAL_QUEUE_QUEUED p) - 2 ^ i)
      if s.get (bandSpare p i) ≠ 0 then s.raise (Ev.CAL_NO_SPARE p)
      else
        let s := ((s.set (R.CAL_STATE_SWEEPING p) 1).set (R.CAL_STATE_SWEEP_BAND p) i).set (R.CAL_STATE_STEP p) 0
        s.modCal p (fun c => { c with sweepDone := false })

/-- SWEEP_STEP_DONE: the slice under calibration is done; the spare stands in for the next position, and after step 64 it is
released. A step that consumes the spare ends the sweep. -/
def sweepStep (p : Nat) (tries : List Trial) (s : State) : State :=
  if !s.isOn (R.CAL_STATE_SWEEPING p) || (s.port p).cal.sweepDone then s
  else
    let i := s.get (R.CAL_STATE_SWEEP_BAND p)
    let step := s.get (R.CAL_STATE_STEP p)
    let s := calSlice p i (s.get (bandIdle p i)) tries s
    if s.get (bandSpare p i) = 2 then sweepStop p s
    else if step < 64 then
      ((((spareTrim p i s).set (R.CAL_STATE_STEP p) (step + 1)).set (bandSpare p i) 1).set (bandPos p i) step).set (bandIdle p i) step
    else
      (((s.set (bandSpare p i) 0).set (bandPos p i) 0).set (bandIdle p i) 64).modCal p (fun c => { c with sweepDone := true })

/-- SWEEP_END: the re-estimated band words replace the live ones, T_LAST is taken and the trigger judged again. -/
def sweepFinish (p : Nat) (words : List (Nat × Nat)) (s : State) : State :=
  if !s.isOn (R.CAL_STATE_SWEEPING p) || !(s.port p).cal.sweepDone then s
  else
    let i := s.get (R.CAL_STATE_SWEEP_BAND p)
    let s := (words.filter (fun w => decide (w.1 < 32))).foldl (fun s w => setLive p (bandKey i w.1) (w.2 % 2 ^ 128) s) s
    sweepStop p (dieReapply p i (takeTLast p i s))

/-- CAL_PERIOD_TRIGGER (R91, R92): PERIOD seconds have passed since the band's last sweep. -/
def calPeriod (p i : Nat) (s : State) : State :=
  if s.get (R.CAL_TRIG_PERIOD p) = 0 || !s.loopRuns (calLoops p) || s.sweeps p i then s
  else queueBand p i s

/-- CAL_APPLY by the calendar executor (R94): staging to live in the bands of the converters named; a sweep of such a band is
abandoned with EV_CAL_SWEEP_ABORT and the band queued again. -/
def calApply (p : Nat) (adc dac : Bool) (s : State) : State :=
  let i := s.get (R.CAL_STATE_SWEEP_BAND p)
  let hit := s.isOn (R.CAL_STATE_SWEEPING p) && ((i < 8 && adc) || (8 ≤ i && dac))
  let s := if hit then queueBand p i ((sweepStop p s).raise (Ev.CAL_SWEEP_ABORT p)) else s
  iter 16 (fun j s => if (j < 8 && adc) || (8 ≤ j && dac) then applyBand p j s else s) s

/-! ### Journal commands (R101, R102) -/

/-- GCTL_IDENT.PART of the part (R3). -/
def State.partNumber (s : State) : Nat := if s.part = .lyk4802 then 0x4802 else 0x4801

/-- GCTL_IDENT as a word (R3). -/
def State.identWord (s : State) : Nat := s.partNumber * 2 ^ 16 + 0xB1 * 256 + (if s.part = .lyk4802 then 2 else 1) * 16

/-- The staging copies of all ports, port 1 at key 8192 on. -/
def stagingAll (s : State) : Sparse Nat :=
  s.port0.cal.staging ++ (if s.hasPort 1 then s.port1.cal.staging.map (fun e => (8192 + e.1, e.2)) else [])

/-- CAL_JNL_CMD written (R101, R102): BUSY while a STORE or LOAD is in progress. -/
def jnlCommand (cmd : Nat) (s : State) : Nat × State :=
  if cmd = 0 || 3 ≤ cmd then (St.ok, s)
  else if s.jnl.op ≠ 0 then (St.busy, s)
  else
    let s := s.set (R.CAL_JNL_STAT_BUSY 0) 1
    if cmd = 1 then (St.ok, { s with jnl := { s.jnl with op := 1, buf := stagingAll s } })
    else (St.ok, { s with jnl := { s.jnl with op := 2 } })

/-- TD3 lies within the flash write window and is neither suspect nor open (R103, R404). -/
def State.writeWindow (s : State) : Bool :=
  !s.suspect 115 &&
  decide (10 * signed 8 (s.get R.FLC_WINDOW_LO) ≤ s.temp 115) && decide (s.temp 115 ≤ 10 * signed 8 (s.get R.FLC_WINDOW_HI))

/-! ### Meanings -/

/-- FOREGROUND (R85, R87): CAL_CMD written with 0b01. -/
def execForeground (p : Nat) (s : State) : Out := onPortReg s p 0x100010 (calForeground p s)
/-- RESTORE (R85, R96): CAL_CMD written with 0b10. -/
def execRestore (p : Nat) (s : State) : Out := onPortReg s p 0x100010 (calRestore p s)
/-- SNAPSHOT (R85, R93): CAL_CMD written with 0b11. -/
def execSnapshot (p : Nat) (s : State) : Out := onPortReg s p 0x100010 (calSnapshot p s)
/-- FOREGROUND_DONE (R87): the trials measured; a slice of a powered band with no trial listed converged with its trims. -/
def execForegroundDone (p : Nat) (slices : List SliceTrial) (words : List (Nat × Nat × Nat)) (failed : Bool) (s : State) : Out :=
  onPort s p (calForegroundDone p slices words failed s)
/-- RESTORE_DONE (R96): quick-check residuals, and the trials of the bands calibrated again. -/
def execRestoreDone (p : Nat) (checks redo : List SliceTrial) (words : List (Nat × Nat × Nat)) (s : State) : Out :=
  onPort s p (calRestoreDone p checks redo words s)
/-- SNAPSHOT_DONE (R93). -/
def execSnapshotDone (p : Nat) (s : State) : Out := onPort s p (calSnapshotDone p s)
/-- SWEEP_START (R92). -/
def execSweepStart (p : Nat) (s : State) : Out := onPort s p (sweepBegin p s)
/-- SWEEP_END (R90). -/
def execSweepEnd (p : Nat) (words : List (Nat × Nat)) (s : State) : Out := onPort s p (sweepFinish p words s)
/-- CAL_PERIOD_TRIGGER (R91). -/
def execCalPeriodTrigger (p band : Nat) (s : State) : Out := onPortUnit s p band 16 (calPeriod p band s)
/-- JOURNAL_STORE (R101): CAL_JNL_CMD of L0 written with 0b01; it answers BUSY while an operation is in progress. -/
def execJournalStore (s : State) : Out := let r := jnlCommand 1 s; .next (r.2.answer r.1 [])
/-- JOURNAL_LOAD (R102): CAL_JNL_CMD of L0 written with 0b10. -/
def execJournalLoad (s : State) : Out := let r := jnlCommand 2 s; .next (r.2.answer r.1 [])
end Sys2Proof.Machine
end

