-- ==== Sys2Proof/Machine/Real.lean ====
section
/-! DEFINITION. Real numbers in whole ones: rounded quotients, roots, powers of ten, logarithms, and complex numbers with their phase.
The spec gives no word lengths for what the signal path computes; those below are the model's (log entry 165). -/
namespace Sys2Proof.Machine

/-- Greatest n below 2^k with `f n`, where `f` holds from 0 up to some number. -/
def bisect (f : Nat → Bool) : Nat → Nat → Nat
  | 0, n => n
  | k + 1, n => if f (n + 2 ^ k) then bisect f k (n + 2 ^ k) else bisect f k n

/-- n / d to the nearest whole number, halves away from zero (R166). -/
def roundAway (n : Int) (d : Nat) : Int :=
  let q : Int := ((2 * n.natAbs + d) / (2 * d) : Nat)
  if n < 0 then -q else q

/-- The square root, towards zero. -/
def rootOf (n : Nat) : Nat := bisect (fun x => decide (x * x ≤ n)) 128 0

/-- 2^32 × 10^(x / d), towards zero. -/
def tenTo (x : Int) (d : Nat) : Nat :=
  bisect (fun n => decide (n ^ d * 10 ^ (-x).toNat ≤ 2 ^ (32 * d) * 10 ^ x.toNat)) 64 0

/-- 20 bits after the point of the binary logarithm of a mantissa in [2^32, 2^33). -/
def log2Bits : Nat → Nat → Nat → Nat
  | 0, _, a => a
  | k + 1, m, a =>
    let q := m * m / 2 ^ 32
    if 2 ^ 33 ≤ q then log2Bits k (q / 2) (2 * a + 1) else log2Bits k q (2 * a)

/-- ln n in units of 2^−20, for n from 1. -/
def lnOf (n : Nat) : Nat :=
  let e := Nat.log2 n
  (e * 2 ^ 20 + log2Bits 20 (n * 2 ^ 32 / 2 ^ e) 0) * 726817 / 2 ^ 20

/-! ### Complex numbers -/

def cxAdd (a b : Cx) : Cx := ⟨a.re + b.re, a.im + b.im⟩
def cxSub (a b : Cx) : Cx := ⟨a.re - b.re, a.im - b.im⟩
def cxMul (a b : Cx) : Cx := ⟨a.re * b.re - a.im * b.im, a.re * b.im + a.im * b.re⟩
def cxConj (a : Cx) : Cx := ⟨a.re, -a.im⟩
def cxNeg (a : Cx) : Cx := ⟨-a.re, -a.im⟩
def cxNorm (a : Cx) : Nat := (a.re * a.re + a.im * a.im).toNat
/-- Both parts divided, to the nearest. -/
def cxDiv (a : Cx) (d : Nat) : Cx := ⟨roundAway a.re d, roundAway a.im d⟩
def cxSum (l : List Cx) : Cx := l.foldl cxAdd {}

/-- e^(2πi / 2^(16 − k)) in units of 2^−30, for k from 0 to 15. -/
def cisTab : List Cx :=
  [⟨1073741819, 102944⟩, ⟨1073741804, 205887⟩, ⟨1073741745, 411775⟩, ⟨1073741508, 823550⟩, ⟨1073740561, 1647099⟩,
   ⟨1073736771, 3294193⟩, ⟨1073721611, 6588356⟩, ⟨1073660973, 13176464⟩, ⟨1073418433, 26350943⟩, ⟨1072448455, 52686014⟩,
   ⟨1068571464, 105245103⟩, ⟨1053110176, 209476638⟩, ⟨992008094, 410903207⟩, ⟨759250125, 759250125⟩, ⟨0, 1073741824⟩,
   ⟨-1073741824, 0⟩]

/-- `z` turned by the angle `t`, in units of 2^−16 of a turn. -/
def cxTurn (t : Nat) (z : Cx) : Cx :=
  (List.range 16).foldl (fun z k => if bitAt t k = 1 then cxDiv (cxMul z (cisTab.getD k {})) (2 ^ 30) else z) z

/-- An angle of either sign as its remainder of a turn, and the remainder nearest zero. -/
def turnOf (t : Int) : Nat := (t % 65536).toNat
def turnNear (t : Int) : Int := if turnOf t < 32768 then (turnOf t : Int) else (turnOf t : Int) - 65536

/-- The angle of `z` in units of 2^−16 of a turn, towards zero: half a turn taken first, then halved again and again; 0 for zero. -/
def cxArg (z : Cx) : Nat :=
  if z = {} then 0 else
  let half := z.im < 0 || (z.im = 0 && z.re < 0)
  let start : Nat × Cx := if half then (32768, cxNeg z) else (0, z)
  ((List.range 15).reverse.foldl (fun (a : Nat × Cx) k =>
    let w := cxMul a.2 (cxConj (cisTab.getD k {}))
    if 0 ≤ w.im && !(w.im = 0 && w.re < 0) then (a.1 + 2 ^ k, cxDiv w (2 ^ 30)) else a) start).1

end Sys2Proof.Machine
end

