-- ==== Sys2Proof/Machine/Signal.lean ====
section
/-! DEFINITION. The signal path of a line port as functions on samples (R107 to R123, R138 to R151, R153, R196): the subcarrier grid, the
places of symbols in a frame, equaliser, carrier recovery, soft demapping, power and scaling, predistortion. A symbol is held as 256 to half
the spacing of its constellation. Word lengths and what the spec leaves to the implementer: log entries 165 to 167. -/
namespace Sys2Proof.Machine

/-! ### Grid and delays (R107, R111, R151) -/

/-- Subcarrier symbol rate Bs, spacing Δ = Bs (1 + ρ) and twice the centre fj of subcarrier `j` from the carrier, in Hz; Bs and Δ are times
100 · S (R107). -/
def Rung.rateHz (r : Rung) : Nat := r.baud * 250000000 * 100
def Rung.spacingHz (r : Rung) : Nat := r.baud * 250000000 * (100 + r.rolloff)
def Rung.centreHz (r : Rung) (j : Nat) : Int := (2 * (j : Int) - ((r.subs : Int) - 1)) * r.spacingHz

/-- The delays D × (λ² / c) × fj of the subcarriers in fs, offset so that the smallest is zero: D in ps/nm, λ in pm (R111). -/
def bulkDelays (d : Int) (wl : Nat) (r : Rung) : List Nat :=
  let raw := (List.range r.subs).map (fun j => roundAway (d * wl * wl * r.centreHz j) (2 * 100 * r.subs * 299792458 * 10 ^ 12))
  let low := raw.foldl min (raw.headD 0)
  raw.map (fun x => (x - low).toNat)

/-! ### Symbol places (R138, R139, R196) -/

/-- Symbol times of a subcarrier in a frame, of its header, and what stands at time `t`: a header symbol, a pilot, or data. -/
def Rung.times (r : Rung) : Nat := 65536 / r.subs
def Rung.headTimes (r : Rung) : Nat := 1024 / r.subs
def Rung.isPilot (r : Rung) (t : Nat) : Bool := decide (r.headTimes ≤ t) && (t - r.headTimes) % r.pilotInv == 0
def Rung.isData (r : Rung) (t : Nat) : Bool := decide (r.headTimes ≤ t) && (t - r.headTimes) % r.pilotInv != 0

/-- Pilots of a subcarrier and polarisation in a frame (R146). -/
def Rung.pilots (r : Rung) : Nat := (r.times - r.headTimes + r.pilotInv - 1) / r.pilotInv

/-- Both polarisations of a symbol, or of a list of samples, by number: 0 is X, 1 is Y. -/
def pol {α : Type} (x : α × α) (q : Nat) : α := if q = 0 then x.1 else x.2

/-- The bits of a header by place: symbol time, subcarrier, X before Y, I before Q (R196). -/
def headPlaces (r : Rung) : List (Nat × Nat × Nat × Nat) :=
  (List.range r.headTimes).flatMap (fun t => (List.range r.subs).flatMap (fun j =>
    [(t, j, 0, 0), (t, j, 0, 1), (t, j, 1, 0), (t, j, 1, 1)]))

/-- The part of a symbol: I, or Q. -/
def part (z : Cx) (d : Nat) : Int := if d = 0 then z.re else z.im

/-- The 512 header bytes as hard QPSK decisions of recovered symbols, by subcarrier (R124, R196). -/
def headDecide (r : Rung) (syms : List (List Cx × List Cx)) : List Nat :=
  bitsBytes 512 ((headPlaces r).map (fun x =>
    if part ((pol (syms.getD x.2.1 ([], [])) x.2.2.1).getD x.1 {}) x.2.2.2 < 0 then 1 else 0))

/-! ### Energies (R147) -/

/-- The counts that weigh the amplitudes of a composition: its own, or equal ones where the matcher is bypassed. -/
def weights (m hq : Nat) (counts : List Nat) : List Nat := if unshaped m hq || counts = [] then List.replicate (levels m) 1 else counts

/-- 2^16 × the mean data energy of a 2D symbol, in units of half the spacing squared. -/
def dataEnergy (m hq : Nat) (counts : List Nat) : Nat :=
  let w := weights m hq counts
  ((List.range w.length).map (fun a => w.getD a 0 * (2 * a + 1) ^ 2)).sum * 2 ^ 17 / max 1 w.sum

/-- The energy of header symbols and pilots at a boost in 0.5 dB, in the same units (R147). -/
def pilotEnergy (e pb : Nat) : Nat := e * tenTo pb 20 / 2 ^ 32

/-- The part of a header symbol or pilot in I or Q, as 256 to half the spacing. -/
def pilotLevel (e pb : Nat) : Nat := rootOf (pilotEnergy e pb / 2)

/-! ### Equaliser (R113, R115) -/

def everyOther : List Cx → List Cx
  | [] => []
  | [a] => [a]
  | a :: _ :: r => a :: everyOther r

/-- The samples that tap `k` of `2 c + 1` meets, at the symbol rate; samples outside the frame are zero. -/
def stride (c k : Nat) (x : List Cx) : List Cx :=
  everyOther ((List.replicate c ({} : Cx) ++ x ++ List.replicate c ({} : Cx)).drop (2 * c - k))

/-- The output of one filter, taps in 2^−20. -/
def filt (h x : List Cx) : List Cx :=
  (List.range h.length).foldl (fun acc k => List.zipWith cxAdd acc ((stride ((h.length - 1) / 2) k x).map (cxMul (h.getD k {}))))
    (List.replicate ((x.length + 1) / 2) {})

/-- Both outputs of the 2×2 equaliser whose filters are `h`: XX, XY, YX, YY. -/
def equalise (h : List (List Cx)) (x : List Cx × List Cx) : List Cx × List Cx :=
  let out := fun i => (List.zipWith cxAdd (filt (h.getD i []) x.1) (filt (h.getD (i + 1) []) x.2)).map (fun z => cxDiv z (2 ^ 20))
  (out 0, out 2)

/-- Filters with a centre tap of 1 on each diagonal, `n` taps each. -/
def centreTaps (n : Nat) : List (List Cx) :=
  let zero := List.replicate n ({} : Cx)
  let one := zero.set ((n - 1) / 2) ⟨1048576, 0⟩
  [one, zero, zero, one]

/-- A filter brought to `n` taps: taps come off, or zeros on, at both outer ends (R113). -/
def fitTaps (n : Nat) (h : List Cx) : List Cx :=
  if n < h.length then (h.drop ((h.length - n) / 2)).take n
  else List.replicate ((n - h.length) / 2) ({} : Cx) ++ h ++ List.replicate (n - h.length - (n - h.length) / 2) ({} : Cx)

/-- A step of 2^−(mu + 4) down the gradient: errors times the samples each tap met, summed over the frame. -/
def adaptFilt (mu : Nat) (err x h : List Cx) : List Cx :=
  (List.range h.length).map (fun k =>
    cxAdd (h.getD k {}) (cxDiv (cxSum (List.zipWith (fun e s => cxMul e (cxConj s)) err (stride ((h.length - 1) / 2) k x))) (2 ^ mu)))

/-- All four filters of a subcarrier adapted. -/
def adaptTaps (mu : Nat) (err x : List Cx × List Cx) (h : List (List Cx)) : List (List Cx) :=
  [adaptFilt mu err.1 x.1 (h.getD 0 []), adaptFilt mu err.1 x.2 (h.getD 1 []),
   adaptFilt mu err.2 x.1 (h.getD 2 []), adaptFilt mu err.2 x.2 (h.getD 3 [])]

/-- The error of the constant-modulus rule: (R − |z|²) z, R in 2^16. -/
def modulusErr (r2 : Nat) (z : Cx) : Cx :=
  let g : Int := (r2 : Int) - cxNorm z
  cxDiv ⟨g * z.re, g * z.im⟩ (2 ^ 16)

/-- The Y output made the orthogonal of X (R115). -/
def orthoTaps (h : List (List Cx)) : List (List Cx) :=
  [h.getD 0 [], h.getD 1 [], ((h.getD 1 []).map (fun z => cxNeg (cxConj z))).reverse, ((h.getD 0 []).map cxConj).reverse]

/-! ### Decisions -/

/-- The level of a constellation of `lv` amplitudes nearest to a part. -/
def nearLevel (lv : Nat) (y : Int) : Int :=
  let a := min (lv - 1) (y.natAbs / 512)
  let v : Int := ((2 * a + 1) * 256 : Nat)
  if y < 0 then -v else v
def nearPoint (lv : Nat) (z : Cx) : Cx := ⟨nearLevel lv z.re, nearLevel lv z.im⟩

/-- A QPSK point at level `v`. -/
def qpsk (v : Nat) (z : Cx) : Cx := ⟨if z.re < 0 then -(v : Int) else v, if z.im < 0 then -(v : Int) else v⟩

/-- What symbol `t` of polarisation `q` of subcarrier `j` is taken to be: a pilot by its rule, a header symbol or data by decision. -/
def decide2D (r : Rung) (lv level : Nat) (pil : List (Int × Int)) (t : Nat) (z : Cx) : Cx :=
  if r.isData t then nearPoint lv z
  else if r.isPilot t then
    let b := pil.getD ((t - r.headTimes) / r.pilotInv) (1, 1)
    ⟨b.1 * level, b.2 * level⟩
  else qpsk level z

/-! ### Carrier recovery (R117) -/

/-- The pilots of a subcarrier against what was received: the sum over both polarisations, one value per pilot. -/
def pilotSums (r : Rung) (j : Nat) (z : List Cx × List Cx) : List Cx :=
  let one := fun q =>
    let signs := pilotSigns j q r.pilots
    (List.range r.pilots).map (fun i =>
      let b := signs.getD i (1, 1)
      cxMul ((pol z q).getD (r.headTimes + i * r.pilotInv) {}) ⟨b.1, -b.2⟩)
  List.zipWith cxAdd (one 0) (one 1)

/-- Phases between pilots, by straight lines the short way round: before the first pilot and after the last, theirs. -/
def spread (r : Rung) (ph : List Nat) : List Int :=
  let leg := fun i =>
    let a : Int := ph.getD i 0
    let d := if i + 1 < ph.length then turnNear ((ph.getD (i + 1) 0 : Int) - a) else 0
    (List.range r.pilotInv).map (fun (k : Nat) => a + roundAway (d * k) r.pilotInv)
  (List.replicate r.headTimes ((ph.getD 0 0 : Int)) ++ (List.range ph.length).flatMap leg).take r.times

/-- Lists cut into blocks of `n`. -/
def blocksOf (n : Nat) : Nat → List Nat → List (List Nat)
  | 0, _ => []
  | f + 1, l => if l = [] then [] else l.take n :: blocksOf n f (l.drop n)

/-- The angle of test phase `b` of `n`, from −π/4 on. -/
def testAngle (n b : Nat) : Int := ((b * 16384 / n : Nat) : Int) - 8192

/-- The distance to the decisions over the data symbols of a block, at one test phase, of symbols already turned by their phase. -/
def testCost (r : Rung) (lv : Nat) (angle : Int) (zs : List (List Cx)) (blk : List Nat) : Nat :=
  (zs.map (fun z => ((blk.filter r.isData).map (fun t =>
    let y := cxTurn (turnOf (-angle)) (z.getD t {})
    cxNorm (cxSub y (nearPoint lv y)))).sum)).sum

/-- The test phase of least distance, the first where several are. -/
def searchBlock (r : Rung) (lv n : Nat) (zs : List (List Cx)) (blk : List Nat) : Int :=
  let cost := fun b => testCost r lv (testAngle n b) zs blk
  testAngle n ((List.range n).foldl (fun (best : Nat × Nat) b => if cost b < best.2 then (b, cost b) else best) (0, cost 0)).1

/-- The search over a frame: an angle for every symbol time. -/
def searchFrame (r : Rung) (lv n blk : Nat) (zs : List (List Cx)) : List Int :=
  (blocksOf (max 1 blk) r.times (List.range r.times)).flatMap (fun b => let a := searchBlock r lv n zs b; b.map (fun _ => a))

/-- Turned back by a phase for every symbol time. -/
def turnBack (z : List Cx) (ph : List Int) : List Cx := List.zipWith (fun z a => cxTurn (turnOf (-a)) z) z ph

/-- The mean of the newest `n` values. -/
def meanOf (n : Nat) (l : List Int) : Int := roundAway ((l.take n).sum) (max 1 (min n l.length))

/-- What carrier recovery takes from its registers: joint phase, pilots averaged, block, test phases. -/
structure Carrier where
  common : Bool
  win    : Nat
  block  : Nat
  tests  : Nat

/-- Carrier recovery of one frame: for every subcarrier the phase at every symbol time, and the offsets of its pilots from the common phase, newest
first, with those of frames before. -/
def carrierPhases (r : Rung) (lv : Nat) (c : Carrier) (zs : List (List Cx × List Cx)) (hist : List (List Int)) : List (List Int × List Int) :=
  let js := List.range r.subs
  let sums := js.map (fun j => pilotSums r j (zs.getD j ([], [])))
  if !c.common then
    js.map (fun j =>
      let base := spread r ((sums.getD j []).map cxArg)
      let z := zs.getD j ([], [])
      let fine := searchFrame r lv c.tests c.block [turnBack z.1 base, turnBack z.2 base]
      (List.zipWith (· + ·) base fine, []))
  else
    let joint := (List.range r.pilots).map (fun i => cxArg (cxSum (sums.map (fun l => l.getD i {}))))
    let base := spread r joint
    let offs := js.map (fun j =>
      ((List.range r.pilots).reverse.map (fun i => turnNear ((cxArg ((sums.getD j []).getD i {}) : Int) - joint.getD i 0)) ++ hist.getD j []).take 255)
    let phase := fun j => base.map (· + meanOf c.win (offs.getD j []))
    let fine := searchFrame r lv c.tests c.block (js.flatMap (fun j =>
      let z := zs.getD j ([], [])
      [turnBack z.1 (phase j), turnBack z.2 (phase j)]))
    js.map (fun j => (List.zipWith (· + ·) (phase j) fine, offs.getD j []))

/-! ### Sedge cancellation (R249 to R251, R266) -/

/-- The level of chip `n` of a packet on code `code`, of the symbols known so far; 0 outside the packet and where a symbol is not known yet. -/
def packetChip (code : List Nat) (len : Option Nat) (hard : List Nat) (n : Nat) : Int :=
  let i := n / 1023
  let d := if i < 64 then some 0 else if i < 80 then (bitsMsb 16 0x35E2)[i - 64]? else hard[i - 80]?
  let inside := match len with | some l => decide (i < 296 + 16 * l) | none => true
  match d with
  | some d => if inside then (1 - 2 * (code.getD (n % 1023) 0 : Int)) * (1 - 2 * (d : Int)) else 0
  | none => 0

/-- The regenerated packet taken off a recovered subcarrier: a chip lasts 256 / S symbol times. -/
def cancelChips (subs : Nat) (levels : List Int) (gain : Cx) (z : List Cx) : List Cx :=
  List.zipWith (fun x t => let v := levels.getD (t * subs / 256) 0; cxSub x ⟨gain.re * v, gain.im * v⟩) z (List.range z.length)

/-! ### Soft demapper (R123) -/

/-- A received data amplitude that waits for its codeword: its dimension as 4 j + 2 q + d, the part received and the other part of its symbol,
H × 64 of its subcarrier, and whether a matcher block begins with it. -/
def ampsOf (r : Rung) (hqs : List Nat) (ph : Nat) (syms : List (List Cx × List Cx)) : List RxAmp :=
  let data := (List.range r.times).filter r.isData
  ((List.range data.length).zip data).flatMap (fun it => (List.range r.subs).flatMap (fun j =>
    let x := (syms.getD j ([], [])).1.getD it.2 {}
    let y := (syms.getD j ([], [])).2.getD it.2 {}
    let amp := fun d a b => ({ dim := 4 * j + d, y := a, o := b, hq := hqs.getD j 0, first := (ph + 4 * it.1 + d) % 512 == 0 } : RxAmp)
    [amp 0 x.re x.im, amp 1 x.im x.re, amp 2 y.re y.im, amp 3 y.im y.re]))

/-- The amplitudes of frame number `k`. -/
def ofFrame (k : Nat) : List RxAmp → List RxAmp
  | [] => []
  | a :: r => { a with frame := some k } :: r

/-- A data amplitude turned back by `k` quarter turns (R118). -/
def RxAmp.turn (k : Nat) (a : RxAmp) : RxAmp :=
  let z : Cx := if a.dim % 2 = 0 then ⟨a.y, a.o⟩ else ⟨a.o, a.y⟩
  let w : Cx := match k % 4 with | 0 => z | 1 => ⟨z.im, -z.re⟩ | 2 => cxNeg z | _ => ⟨-z.im, z.re⟩
  if a.dim % 2 = 0 then { a with y := w.re, o := w.im } else { a with y := w.im, o := w.re }

/-- The points of a dimension with their labels and the logarithm of their weight, in 2^−20: those of weight 0 are left out. -/
def pointsOf (m : Nat) (w : List Nat) : List (Int × List Nat × Int) :=
  (List.range (levels m)).flatMap (fun a =>
    if w.getD a 0 = 0 then []
    else
      let g := bitsMsb (m / 2 - 1) (gray a)
      let v : Int := ((2 * a + 1) * 256 : Nat)
      [(v, 0 :: g, (lnOf (w.getD a 0) : Int)), (-v, 1 :: g, (lnOf (w.getD a 0) : Int))])

/-- The greatest of a list. -/
def greatest : List Int → Option Int
  | [] => none
  | x :: r => some (r.foldl max x)

/-- The LLR of bit `i` of the label, in 2^−20, at noise variance `v` in 2^−16; beyond every step where no point has one of the values. -/
def llrOf (pts : List (Int × List Nat × Int)) (v : Nat) (y : Int) (i : Nat) : Int :=
  let best := fun (b : Nat) => greatest ((pts.filter (fun x => x.2.1.getD i 0 == b)).map (fun x =>
    x.2.2 - ((y - x.1) * (y - x.1) * 2 ^ 20) / (max 1 v : Nat)))
  match best 0, best 1 with
  | some a, some b => a - b
  | some _, none => 2 ^ 60
  | none, some _ => -(2 ^ 60)
  | none, none => 0

/-- The quantised LLR, at step num / den in 2^−20: −7 to 7 (R123). -/
def llrQuant (num den : Nat) (l : Int) : Int := clampInt (-7) 7 (roundAway (l * den) (max 1 num))

/-- The value below which 99 of 100 of a histogram lie: keys in 1/64, values counts. -/
def percentile99 (h : Sparse Nat) : Nat :=
  let total := (h.map (·.2)).sum
  let walk := h.foldl (fun (a : Nat × Option Nat) e =>
    match a.2 with
    | some v => (a.1, some v)
    | none => (a.1 + e.2, if 99 * total ≤ 100 * (a.1 + e.2) then some e.1 else none)) (0, none)
  walk.2.getD 0

/-! ### Power and scaling (R140, R146, R147, R150) -/

/-- 2^32 × w_j / Σ w of the subcarriers, w_j = 10^(P'_j / 10), P' in 0.1 dB (R150). -/
def powerShares (pw : List Int) : List Nat :=
  let w := pw.map (fun x => tenTo x 100)
  w.map (fun x => x * 2 ^ 32 / max 1 w.sum)

/-- The square of the scale of a subcarrier, in 2^−48, by which its mean power over the frame is its share: `e` and `ep` are the energies of
data, and of header symbols and pilots. -/
def scaleSq (r : Rung) (share e ep : Nat) : Nat :=
  let np := r.headTimes + r.pilots
  let mean := ((r.times - np) * e + np * ep) / max 1 r.times
  share * 2 ^ 32 / max 1 mean

/-- The value of a dimension: sign s and amplitude index a (R140). -/
def dimValue (s a : Nat) : Int := (1 - 2 * (s : Int)) * (2 * (a : Int) + 1)

/-- The places of symbols by the rung a frame was built under. -/
def TxFrame.rung (x : TxFrame) : Rung := { rungOf 0 0 0 0 with sc := x.sc, m := x.m, pilot := x.pilot }

/-- The scaled symbols of subcarrier `j` on X and Y over a frame, in 2^−24 of the port's total (R138, R140, R146, R147, R150, R196): `head` is
its header bits, `amps` its data amplitudes as (index, sign), four to a symbol time. -/
def subSymbols (x : TxFrame) (j : Nat) (head : List Nat) (amps : List (Nat × Nat)) : List Cx × List Cx :=
  let r := x.rung
  let e := dataEnergy r.bitsPer (x.hqs.getD j 0) (x.comps.getD j [])
  let ep := pilotEnergy e x.boost
  let sq := scaleSq r (x.shares.getD j 0) e ep
  let g : Int := rootOf sq
  let lvl : Int := rootOf (sq * ep / 2 ^ 17)
  let one := fun q =>
    let pil := pilotSigns j q r.pilots
    let value := fun (t : Nat) =>
      if t < r.headTimes then
        (⟨(1 - 2 * (head.getD (4 * t + 2 * q) 0 : Int)) * lvl, (1 - 2 * (head.getD (4 * t + 2 * q + 1) 0 : Int)) * lvl⟩ : Cx)
      else if r.isPilot t then
        let b := pil.getD ((t - r.headTimes) / r.pilotInv) (1, 1)
        ⟨b.1 * lvl, b.2 * lvl⟩
      else
        let u := t - r.headTimes
        let k := 4 * (u - u / r.pilotInv - 1) + 2 * q
        let a := amps.getD k (0, 0)
        let b := amps.getD (k + 1) (0, 0)
        ⟨dimValue a.2 a.1 * g, dimValue b.2 b.1 * g⟩
    (List.range r.times).map value
  (one 0, one 1)

/-- A list in line order taken apart into the parts of every subcarrier, four entries to each in turn (R139, R196). -/
def lanesApart {α : Type} (subs : Nat) (l : List α) : List (List α) :=
  (List.range subs).map (fun j => ((List.range l.length).zip l).filterMap (fun x => if x.1 / 4 % subs = j then some x.2 else none))

/-- The symbols of a frame on every subcarrier. -/
def frameSymbols (x : TxFrame) (amps : List (Nat × Nat)) : List (List Cx × List Cx) :=
  let heads := lanesApart x.rung.subs (bytesBits x.header)
  let parts := lanesApart x.rung.subs amps
  (List.range x.rung.subs).map (fun j => subSymbols x j (heads.getD j []) (parts.getD j []))

/-! ### Front end (R109, R153, R353) -/

/-- A filter of 65 taps in 1/16,384, tap 32 at the centre; samples outside the list are zero. -/
def fir65 (h x : List Int) : List Int :=
  let p := List.replicate 32 0 ++ x ++ List.replicate 32 0
  ((List.range 65).foldl (fun acc k => List.zipWith (· + ·) acc ((p.drop (64 - k)).map (· * h.getD k 0))) (x.map (fun _ => 0))).map
    (fun v => roundAway v 16384)

/-- The taps of lane `l` in the words of a front-end response table. -/
def frontTaps (word : Nat → Nat) (l : Nat) : List Int :=
  (List.range 65).map (fun k => signed 16 (bits (word (1 + 9 * l + k / 8)) (16 * (k % 8) + 15) (16 * (k % 8))))

/-- The output code of input `v` of lane `l` in the words of a predistortion table; the input is held to 8 bits. -/
def staticCode (word : Nat → Nat) (l : Nat) (v : Int) : Int :=
  let i := (clampInt (-128) 127 v + 128).toNat
  signed 8 (bits (word (1 + 16 * l + i / 16)) (8 * (i % 16) + 7) (8 * (i % 16)))

/-- A gain in 0.01 dB of amplitude. -/
def gainOf (x g : Int) : Int := roundAway (x * tenTo g 2000) (2 ^ 32)

end Sys2Proof.Machine
end

