-- ==== Sys2Proof/Machine/Receive.lean ====
section
/-! DEFINITION. The receiver of a port (chapter 05): acquisition, lock, estimates, and what the throttle and the tiles take from
it. -/
namespace Sys2Proof.Machine

/-- State of the receiver (R125). -/
def State.rxState (s : State) (p : Nat) : Nat := s.get (R.RXD_ACQ_STATE p)

/-- The rung in force on receive: the acquisition rung from EN until the first rate point change (R130). -/
def State.rxRungIx (s : State) (p : Nat) : Nat := s.get (R.RXD_ACQ_RUNG p)
def State.rxRung (s : State) (p : Nat) : Rung := s.rung p (s.rxRungIx p)

/-- The two's complement dispersion of a 24-bit field. -/
def State.cd (s : State) (f : Fld) : Int := s.getI f

/-! ### Taps, compensation and cap at a receive frame boundary (R113, R114, R121, R122, R187) -/

/-- Tiles of the group that serves subcarrier `j` (R114), as logical tile numbers. -/
def tileGroup (r : Rung) (j : Nat) : List Nat :=
  if r.subs = 16 then [j / 2 * 2, j / 2 * 2 + 1]
  else (List.range (16 / r.subs)).map (fun i => j * (16 / r.subs) + i)

/-- The taps of subcarrier `j`: the least of the configured, the throttle and the fallow limit. -/
def State.tapsOf (s : State) (p j : Nat) : Nat :=
  let r := s.rxRung p
  let n := r.tapsMax
  let cfg := s.get (R.RXD_EQ_CTRL_TAPS p)
  let thr := bits (s.port p).rxd.entry 15 7
  let base := if cfg = 0 then n else min cfg n
  let base := if thr = 0 then base else min base thr
  if (tileGroup r j).any (fun t => bitAt (s.port p).rxd.tiles t == 1) then min base ((n + 1) / 2 - 1) else base

/-- The latency of the chain of port `p` changes to a value the spec gives no figure for (R106): once LOCKED, with the applied dispersion or the tap
count. -/
def rxLatency (p : Nat) (s : State) : State :=
  if s.rxState p ≠ 7 then s
  else
    let (x, s) := s.draw (2 ^ 20)
    s.set (R.RXD_LAT_LATENCY p) x

/-- The filters of every subcarrier brought to its tap count. -/
def State.tapsFit (s : State) (p : Nat) : List (List Cx) :=
  (List.range (s.rxRung p).subs).flatMap (fun j =>
    (((s.port p).rxd.taps.drop (4 * j)).take 4).map (fitTaps (s.tapsOf p j)))

/-- The tap count in force taken at a frame boundary; EV_RXD_TAPS_REDUCED when it falls (R113). -/
def rxTaps (p : Nat) (s : State) : State :=
  let r := s.rxRung p
  let n := r.tapsMax
  let cfg := s.get (R.RXD_EQ_CTRL_TAPS p)
  let base := if cfg = 0 then n else min cfg n
  let thr := bits (s.port p).rxd.entry 15 7
  let least := (List.range r.subs).foldl (fun a j => min a (s.tapsOf p j)) 511
  let old := s.get (R.RXD_EQ_STAT_TAPS_IN_USE p)
  let s := s.set (R.RXD_EQ_STAT_TAPS_IN_USE p) least
  let fit := s.tapsFit p
  let s := if fit = (s.port p).rxd.taps then s else rxLatency p (s.modRxd p (fun x => { x with taps := fit }))
  let s := s.set (R.RXD_EQ_STAT_THROTTLED p) (decide (thr ≠ 0 ∧ thr < base)).toNat
  let s := s.set (R.RXD_EQ_STAT_FALLOW_RED p)
    ((List.range r.subs).any (fun j => (tileGroup r j).any (fun t => bitAt (s.port p).rxd.tiles t == 1))).toNat
  s.raiseIf (decide (old ≠ 0 ∧ least < old)) (Ev.RXD_TAPS_REDUCED p)

/-- Nonlinear compensation at a frame boundary: the set chosen, and whether it is active (R121, R122). -/
def rxNlc (p : Nat) (s : State) : State :=
  let t := s.get (R.RXD_NLC_CTRL_TABLE p)
  let pick := if t = 0xFFFF then none
    else s.nlcPick t (s.rxRung p).sc (s.getI (R.RXD_NLC_CTRL_LAUNCH p)) (s.get (R.RXD_NLC_CTRL_SPANS p))
  let off := bitAt (s.port p).rxd.entry 6 == 1
  let en := s.isOn (R.RXD_NLC_CTRL_EN p)
  let s := match pick with
    | some (l, n) => ((s.setI (R.RXD_NLC_STAT_SEL_LAUNCH p) l).set (R.RXD_NLC_STAT_SEL_SPANS p) n).set (R.RXD_NLC_STAT_NO_SET p) 0
    | none => ((s.set (R.RXD_NLC_STAT_SEL_LAUNCH p) 0).set (R.RXD_NLC_STAT_SEL_SPANS p) 0).set (R.RXD_NLC_STAT_NO_SET p) 1
  let s := s.set (R.RXD_NLC_STAT_THROTTLE_OFF p) (en && pick.isSome && off).toNat
  s.set (R.RXD_NLC_STAT_ACTIVE p) (en && pick.isSome && !off).toNat

/-- The iteration cap in force for a port: the lesser of CAP and the throttle's (R187). -/
def fecCap (p : Nat) (s : State) : State :=
  let c := s.get (R.FEC_CAP_CAP p)
  let t := bits (s.port p).rxd.entry 5 0
  (s.set (R.FEC_CAP_EFFECTIVE p) (min c t)).set (R.FEC_CAP_THROTTLED p) (decide (t < c)).toNat

/-- What comes into force at a receive frame boundary. -/
def rxFrameStep (p : Nat) (s : State) : State := fecCap p (rxNlc p (rxTaps p s))

/-- The receive direction takes the throttle entry of the level (R450). -/
def throttleApply (p : Nat) (s : State) : State :=
  rxFrameStep p (s.modRxd p (fun r => { r with entry := s.throttleEntry (s.get R.THM_LEVEL_LEVEL) }))

/-! ### Correlators (R260, R262) -/

/-- Every correlator back to SEARCH: a change of chip rate. -/
def corrRestart (p : Nat) (s : State) : State :=
  iter 4 (fun k s => if s.get (R.SGP_CORR_STAT_STATE p k) = 0 then s else s.set (R.SGP_CORR_STAT_STATE p k) 1) s

/-- A Sedge transmitter or correlator of the part is enabled (R455). -/
def State.phyWanted (s : State) : Bool :=
  (List.range 2).any (fun p => s.hasPort p &&
    (s.isOn (R.SGP_TX_CTRL_EN p) || (List.range 4).any (fun k => s.isOn (R.SGP_CORR_EN p k))))

/-- Domain 247 follows the enables (R455). -/
def phyFollow (s : State) : State :=
  if !s.phyWanted then powerDown 247 s else if s.mayPower 247 then (powerUp 247 s).2 else s

/-- An enable `f` of the Sedge PHY written: one that rises powers domain 247, and is refused where that is (R455, R456). -/
def phyWrite (f : Fld) (old new : State) : Nat × State :=
  if new.isOn f && !old.isOn f then
    let x := powerUp 247 new
    if x.1 = St.ok then x else (x.1, x.2.set f 0)
  else (St.ok, phyFollow new)

/-- The correlators follow their domain, the receiver and their EN: IDLE or SEARCH; leaving IDLE forgets the last SEQ (R262, R268). -/
def corrFollow (p : Nat) (s : State) : State :=
  iter 4 (fun k s =>
    let run := s.domainOn 247 && s.isOn (R.SGP_CORR_EN p k) && s.rxState p != 0
    let st := s.get (R.SGP_CORR_STAT_STATE p k)
    if !run then
      (s.set (R.SGP_CORR_STAT_STATE p k) 0).modSgp p (fun g => { g with last := g.last.set k none })
    else if st = 0 then s.set (R.SGP_CORR_STAT_STATE p k) 1
    else s) s

/-- The symbol rate the Sedge receiver runs at, in 0.25 GBd: the beacon's in BEACON, else that of the rung. -/
def State.sedgeBaud (s : State) (p : Nat) : Nat :=
  if s.rxState p ≤ 1 then s.get (R.SGP_BEACON_BAUD p) else (s.rxRung p).baud

/-! ### Acquisition (R125 to R130) -/

/-- Dispersion clipped to the reach of the rung; whether it was clipped. -/
def State.clipCd (s : State) (p : Nat) (x : Int) : Int × Bool :=
  let r : Int := (s.rxRung p).rxReach
  (clampInt (-r) r x, decide (x < -r ∨ r < x))

/-- The dispersion applied becomes `x`, with the bulk delays it asks at the wavelength read at acquisition start (R111); a change changes the
latency of a locked chain (R106). -/
def setCd (p : Nat) (x : Int) (s : State) : State :=
  let old := s.cd (R.RXD_CD_APPLIED_CD p)
  let s := s.setI (R.RXD_CD_APPLIED_CD p) x
  let r := s.rxRung p
  let s := s.modRxd p (fun y => { y with delays := bulkDelays x y.wl r })
  if x = old then s else rxLatency p s

/-- The dispersion applied, by acquisition or RXD_CD_SET: tracking restarts from it. -/
def applyCd (p : Nat) (x : Int) (s : State) : State := setCd p x (s.modRxd p (fun r => { r with cdBase := x }))

/-- Acquisition starts: RXD_WL is read, and the latency of the chain is new (R106, R111). -/
def acqStart (p : Nat) (s : State) : State :=
  let wl := s.get (R.RXD_WL_WL p)
  s.modRxd p (fun r => { r with wl := wl, fresh := true })

/-- EQ is entered: a centre tap on each diagonal, and no pilots averaged yet (R115, R117). -/
def eqStart (p : Nat) (s : State) : State :=
  let taps := (List.range (s.rxRung p).subs).flatMap (fun j => centreTaps (s.tapsOf p j))
  s.modRxd p (fun r => { r with taps := taps, offs := [] })

/-- The receiver enters state `st`. Leaving FRAME, FEC and LOCKED for another state clears frame alignment (R213); FREQ starts an acquisition, EQ
the equaliser; the chip rate of Sedge may change (R260). -/
def rxEnter (p st : Nat) (s : State) : State :=
  let old := s.rxState p
  let baud := s.sedgeBaud p
  let s := s.set (R.RXD_ACQ_STATE p) st
  let s := if st = 2 then acqStart p s else if st = 4 then eqStart p s else s
  let s := if 5 ≤ old && st < 5 then candClear p (faClear p s) else s
  if s.sedgeBaud p = baud then s else corrRestart p s

/-- BEACON is entered: a new attempt has seen nothing yet. -/
def rxBeacon (p : Nat) (s : State) : State :=
  let s := rxEnter p 1 s
  let s := s.set (R.RXD_ACQ_SEDGE_SEEN p) 0
  let s := s.set (R.RXD_ACQ_RUNG_BAD p) (!s.rungOk p (s.rxRungIx p)).toNat
  s.modRxd p (fun r => { r with payload := false })

/-- The attempt fails (R126, R128): the failing state is recorded; a failed warm attempt clears what was held. -/
def rxFail (p : Nat) (s : State) : State :=
  let st := s.rxState p
  let s := s.raise (Ev.RXD_ACQ_FAIL p)
  let s := s.addSat (R.RXD_ACQ_ATTEMPTS p) 1
  let s := s.set (R.RXD_ACQ_LAST_FAIL p) st
  let s := if s.isOn (R.RXD_ACQ_WARM p) then s.modRxd p (fun r => { r with reached := false, hintOff := true }) else s
  rxBeacon p s

/-- An attempt begins in FREQ: warm where a hint or a held value serves (R128). -/
def rxFreq (p : Nat) (s : State) : State :=
  let x := (s.port p).rxd
  let warm := (s.isOn (R.RXD_CTRL_CD_KNOWN p) && !x.hintOff) || x.reached
  let s := (s.set (R.RXD_ACQ_WARM p) warm.toNat).set (R.RXD_ACQ_CD_CLIPPED p) 0
  let s := s.set (R.RXD_FO_VALID p) 0
  rxEnter p 2 s

/-- BEACON judged: no LOS, payload present, the preamble where it is required, the rung defined (R126). -/
def rxJudge (p : Nat) (s : State) : State :=
  if s.rxState p ≠ 1 then s
  else
    let ok := s.rungOk p (s.rxRungIx p)
    let s := s.set (R.RXD_ACQ_RUNG_BAD p) (!ok).toNat
    let x := (s.port p).rxd
    if !x.los && x.payload && (!s.isOn (R.RXD_CTRL_BEACON_REQ p) || s.isOn (R.RXD_ACQ_SEDGE_SEEN p)) && ok then rxFreq p s else s

/-! ### Chains of the field monitor (R471, R477, R478) -/

def State.chain (s : State) (c : Nat) : FmnChain := s.fmn.chains.getD c {}
def State.modChain (s : State) (c : Nat) (f : FmnChain → FmnChain) : State := { s with fmn := { s.fmn with chains := modNth c f s.fmn.chains } }

/-- Group delay in inputs (R477). -/
def fmnDelay (h n : Nat) : Nat := 15 * (2 ^ h - 1) + (n - 1) * 2 ^ h / 2

/-- Outputs marked UNSETTLED after a reset (R478). -/
def State.fmnSettle (s : State) (c : Nat) : Nat :=
  let h := s.get (R.FMN_CTRL_HB c)
  let n := s.get (R.FMN_CTRL_N c)
  ceilDiv (30 * (2 ^ h - 1) + (n - 1) * 2 ^ h) (2 * 2 ^ h * (s.get (R.FMN_CTRL_DM1 c) + 1)) + 1

/-- A chain reset (R478, R479). -/
def fmnReset (c : Nat) (s : State) : State :=
  let s := s.modChain c (fun _ => {})
  let s := ((s.set (R.FMN_COUNT_LO_COUNT_L c) 0).set (R.FMN_COUNT_HI_COUNT_H c) 0).set (R.FMN_DCEST_EST c) 0
  (s.set (R.FMN_STAT_ABOVE c) 0).set (R.FMN_STAT_SETTLE_LEFT c) (s.fmnSettle c)

/-- The chains that watch port `p` take inputs again once its receiver is not OFF, after a reset (R471). -/
def fmnResume (p : Nat) (s : State) : State :=
  iter 16 (fun c s =>
    if s.isOn (R.FMN_CTRL_EN c) && s.get (R.FMN_SRC_PORT c) = p && s.isOn (R.FMN_STAT_STALLED c) then
      fmnReset c (s.set (R.FMN_STAT_STALLED c) 0)
    else s) s

/-- EN written 1 while the receiver is OFF: BEACON (R126, R128). -/
def rxEnable (p : Nat) (s : State) : State :=
  let s := s.set (R.RXD_CTRL_EN p) 1
  if s.rxState p ≠ 0 then s
  else
    let s := (s.set (R.RXD_ACQ_ATTEMPTS p) 0).set (R.RXD_ACQ_RUNG p) (s.get (R.RXD_CTRL_ACQ_RUNG p))
    let s := s.modRxd p (fun r => { r with hintOff := false })
    setDefect p 0 0 (!s.faHolds p) (fmnResume p (agcSettle p (corrFollow p (rxBeacon p s))))

/-- The peer no longer counts as seen (R271). -/
def negDrop (p : Nat) (s : State) : State :=
  let was := s.isOn (R.SGP_NEG_STAT_PEER_SEEN p)
  ((s.set (R.SGP_NEG_STAT_PEER_SEEN p) 0).set (R.SGP_NEG_STAT_AGREED p) 0).raiseIf was (Ev.SGP_NEG_LOST p)

/-- The chains of the field monitor that watch port `p` stall while its receiver is OFF (R471). -/
def fmnStall (p : Nat) (s : State) : State :=
  iter 16 (fun c s =>
    if s.isOn (R.FMN_CTRL_EN c) && s.get (R.FMN_SRC_PORT c) = p && !s.isOn (R.FMN_STAT_STALLED c) then
      (s.set (R.FMN_STAT_STALLED c) 1).raise Ev.FMN_STALL
    else s) s

/-- EN written 0: OFF, at once (R126, R262, R271, R471). -/
def rxDisable (p : Nat) (s : State) : State :=
  let s := s.set (R.RXD_CTRL_EN p) 0
  if s.rxState p = 0 then s
  else
    let s := rxEnter p 0 s
    let s := ((s.set (R.RXD_FO_VALID p) 0).set (R.RXD_ACQ_SEDGE_SEEN p) 0).set (R.SGP_RX_FO_VALID p) 0
    let s := s.modRxd p (fun r => { r with payload := false })
    fmnStall p (agcSettle p (negDrop p (corrFollow p s)))

/-- LOS declared (R126, R130). -/
def losDeclare (p : Nat) (s : State) : State :=
  let was := (s.port p).rxd.los
  let s := s.modRxd p (fun r => { r with los := true })
  let st := s.rxState p
  if st = 0 || was then s
  else
    let s := s.raise (Ev.RXD_LOS p)
    if st = 7 then rxBeacon p (s.raise (Ev.RXD_LOCK_LOST p))
    else if 2 ≤ st then rxFail p s
    else s

/-- LOS clears (R130). -/
def losClear (p : Nat) (s : State) : State := rxJudge p (s.modRxd p (fun r => { r with los := false }))

/-- One more in a row, to 255, or none. -/
def runOn (hit : Bool) (n : Nat) : Nat := if hit then min 255 (n + 1) else 0

/-- LOS judged over a frame by the RMS of the four lanes (R130): every lane below the threshold, or a lane at or above it, for FRAMES frames. -/
def losJudge (p : Nat) (s : State) : State :=
  let low := (List.range 4).all (fun l => decide (s.get (R.CNV_PWR_RMS p l) < s.get (R.RXD_LOS_THR p)))
  let s := s.modRxd p (fun r => { r with losLow := runOn low r.losLow, losHigh := runOn (!low) r.losHigh })
  let x := (s.port p).rxd
  let n := s.get (R.RXD_LOS_FRAMES p)
  if !x.los && n ≤ x.losLow then losDeclare p s else if x.los && n ≤ x.losHigh then losClear p s else s

/-- The judgement of recombined power: payload present or not (R126). -/
def payloadSeen (p : Nat) (present : Bool) (s : State) : State :=
  if s.rxState p = 1 then rxJudge p (s.modRxd p (fun r => { r with payload := present })) else s

/-- The preamble of the far end is detected: seen in this attempt (R126). -/
def rxPreamble (p : Nat) (s : State) : State :=
  if s.rxState p = 0 then s else rxJudge p (s.set (R.RXD_ACQ_SEDGE_SEEN p) 1)

/-- A warm attempt applies its dispersion, clipped to the reach (R128). -/
def warmCd (p : Nat) (s : State) : State :=
  let x := (s.port p).rxd
  let v := if s.isOn (R.RXD_CTRL_CD_KNOWN p) && !x.hintOff then s.cd (R.RXD_CD_HINT_CD p) else s.cd (R.RXD_CD_APPLIED_CD p)
  let (c, clipped) := s.clipCd p v
  let s := if clipped then s.set (R.RXD_ACQ_CD_CLIPPED p) 1 else s
  applyCd p c s

/-- Scan limits clipped to the reach, each on its own (R128, R129). -/
def State.scanRange (s : State) (p : Nat) : Int × Int × Bool :=
  let (lo, a) := s.clipCd p (s.cd (R.RXD_CD_MIN_CD p))
  let (hi, b) := s.clipCd p (s.cd (R.RXD_CD_MAX_CD p))
  (lo, hi, a || b)

/-- The scan fails: EV_RXD_CD_SCAN_FAIL and a failed attempt. -/
def scanFail (p : Nat) (s : State) : State := rxFail p (s.raise (Ev.RXD_CD_SCAN_FAIL p))

/-- The coarse estimate of FREQ ends (R119, R126); an empty scan range fails at once (R129). -/
def freqDone (p : Nat) (fo : Int) (s : State) : State :=
  if s.rxState p ≠ 2 then s
  else
    let s := (s.setI (R.RXD_FO_FO p) (clampInt (-32768) 32767 fo)).set (R.RXD_FO_VALID p) 1
    if fo < -5000 || 5000 < fo then s
    else if s.isOn (R.RXD_ACQ_WARM p) then rxEnter p 4 (warmCd p s)
    else
      let s := rxEnter p 3 s
      let (lo, hi, clipped) := s.scanRange p
      let s := if clipped then s.set (R.RXD_ACQ_CD_CLIPPED p) 1 else s
      if hi < lo then scanFail p s else s

/-- The coarse step: STEP, or 1,000 × (300 / B)² (R129). -/
def State.scanStep (s : State) (p : Nat) : Nat :=
  let st := s.get (R.RXD_CD_SCAN_STEP p)
  let b := (s.rxRung p).baud
  if st ≠ 0 then st else if b = 0 then 0 else 1440000000 / (b * b)

/-- Index of the greatest metric, the first where several are. -/
def bestAt (l : List Nat) : Nat :=
  ((List.range l.length).foldl (fun (b : Nat) i => if l.getD b 0 < l.getD i 0 then i else b) 0)

/-- Ascending order. -/
def insertNat (x : Nat) : List Nat → List Nat
  | [] => [x]
  | y :: r => if x ≤ y then x :: y :: r else y :: insertNat x r
def sortNat (l : List Nat) : List Nat := l.foldr insertNat []

/-- The blind scan ends (R129): `coarse` and `fine` list the metrics of the candidates in ascending order of dispersion. A best fine
candidate beyond the receiver's reach is held to the reach of R110 before it is applied (DESIGN CHOICE, log entry 168). -/
def scanEnd (p : Nat) (coarse fine : List Nat) (s : State) : State :=
  if s.rxState p ≠ 3 then s
  else
    let (lo, hi, _) := s.scanRange p
    let step := s.scanStep p
    let sorted := sortNat coarse
    let med2 := sorted.getD ((sorted.length - 1) / 2) 0 + sorted.getD (sorted.length / 2) 0
    let best := fine.getD (bestAt fine) 0
    let cand := if lo = hi then lo
      else lo + (bestAt coarse : Int) * step - step + (((bestAt fine * step + 5) / 10 : Nat) : Int)
    if fine = [] || best < med2 then scanFail p s
    else rxEnter p 4 (applyCd p (s.clipCd p cand).1 s)

/-- Every active subcarrier has a stable pilot SNR (R126). -/
def eqDone (p : Nat) (s : State) : State := if s.rxState p = 4 then rxEnter p 5 s else s

/-- The timer of FREQ, EQ, FRAME or FEC expires (R126, R127). -/
def acqExpiry (p : Nat) (s : State) : State :=
  let st := s.rxState p
  if st = 2 || st = 4 || st = 5 || st = 6 then rxFail p s else s

/-- Frame alignment declared or lost, as the receiver sees it (R126). -/
def rxFaDeclared (p : Nat) (s : State) : State := if s.rxState p = 5 then rxEnter p 6 s else s
def rxFaLost (p : Nat) (s : State) : State :=
  let st := s.rxState p
  if st = 7 then rxEnter p 5 (s.raise (Ev.RXD_LOCK_LOST p)) else if st = 6 then rxEnter p 5 s else s

/-- FEC lock declared: LOCKED (R126). The latency of the chain is a new one after a new acquisition alone (R106). -/
def fecLock (p : Nat) (s : State) : State :=
  if s.rxState p ≠ 6 || !s.faHolds p then s
  else
    let fresh := (s.port p).rxd.fresh
    let s := rxEnter p 7 (s.modRxd p (fun r => { r with fecLock := true, reached := true, fresh := false }))
    let s := if fresh then rxLatency p s else s
    (s.set (R.RXD_ACQ_ATTEMPTS p) 0).raise (Ev.RXD_LOCKED p)

/-- FEC lock lost (R126, R130). -/
def fecUnlock (p : Nat) (s : State) : State :=
  if s.rxState p = 7 then
    rxEnter p 6 ((s.modRxd p (fun r => { r with fecLock := false })).raise (Ev.RXD_LOCK_LOST p))
  else s

/-- One more frame under frame alignment: at the end of a run of 256 FEC lock is judged by the codewords released uncorrected in it (R130). -/
def fecJudge (p : Nat) (s : State) : State :=
  let s := s.modRxd p (fun r => { r with fecFrames := r.fecFrames + 1 })
  let x := (s.port p).rxd
  if x.fecFrames < 256 then s
  else
    let bad := decide (s.get (R.RXD_FEC_LOCK_UNC_MAX p) < x.fecUnc)
    let n := if bad then x.fecBad + 1 else 0
    let s := s.modRxd p (fun r => { r with fecFrames := 0, fecUnc := 0, fecBad := n })
    if !bad then fecLock p s
    else if s.get (R.RXD_FEC_LOCK_LOSS p) ≤ n then fecUnlock p s
    else s

/-- The estimate refined from EQ on; beyond ±5.000 GHz in LOCKED it ends lock (R119, R126). -/
def foUpdate (p : Nat) (fo : Int) (s : State) : State :=
  if s.rxState p < 4 then s
  else
    let s := s.setI (R.RXD_FO_FO p) (clampInt (-32768) 32767 fo)
    if s.rxState p = 7 && (fo < -5000 || 5000 < fo) then rxBeacon p (s.raise (Ev.RXD_LOCK_LOST p)) else s

/-- Slow tracking of dispersion by one swath's step, within its bounds and the receiver's reach (R110, R112). -/
def cdTrack (p : Nat) (step : Int) (s : State) : State :=
  let b := (s.rxRung p).baud
  if s.rxState p ≠ 7 || b = 0 then s
  else
    let m : Int := 2 * 1440000 / (b * b)
    let w : Int := 500 * 1440000 / (b * b)
    let base := (s.port p).rxd.cdBase
    setCd p (s.clipCd p (clampInt (base - w) (base + w) (s.cd (R.RXD_CD_APPLIED_CD p) + clampInt (-m) m step))).1 s

/-- The rung now in force on receive follows `old`; `baud` is the symbol rate of Sedge before (R126, R157, R216). -/
def rxRungTaken (p : Nat) (old : Rung) (baud : Nat) (s : State) : State :=
  let new := s.rxRung p
  let s := if s.sedgeBaud p = baud then s else corrRestart p s
  if old.reacquires new then
    let s := saDrop p s
    if s.rxState p = 7 then
      let s := rxEnter p 2 s
      (s.set (R.RXD_ACQ_WARM p) 1).set (R.RXD_FO_VALID p) 0
    else s
  else
    s.modRxd p (fun r => { r with stream :=
      { ph := if old.restartsMatch new then 0 else r.stream.ph, ct := if old.restartsCode new then 0 else r.stream.ct } })

/-- A rate point change on the receive direction (R126, R157, R216): the new rung; a different B or S loses swath alignment and
sends a locked receiver to FREQ, warm. -/
def rxRateChange (p i : Nat) (s : State) : State :=
  rxRungTaken p (s.rxRung p) (s.sedgeBaud p) (s.set (R.RXD_ACQ_RUNG p) i)

/-! ### Estimates (R132 to R134) -/

/-- 10^(x / 1000) × 10^12, towards zero: a level in 0.01 dB as a ratio. -/
def ratioOf (x : Int) : Nat := bisect (fun n => decide (n ^ 1000 ≤ 10 ^ (x + 12000).toNat)) 60 0

/-- 1,000 × log10(num / den) to the nearest whole number, where the quotient is at least 1. -/
def levelOf (num den : Nat) : Nat := bisect (fun v => v == 0 || decide (10 ^ (2 * v - 1) * den ^ 2000 ≤ num ^ 2000)) 14 0

/-- OSNR in 0.01 dB (R134) from the subcarrier SNRs, the nonlinear share and BTB_SNR; none where the right-hand side is not
positive. Reciprocals are held in units of 10^−12. -/
def osnrOf (snr : List Int) (nl btb baud : Nat) : Option Nat :=
  let inv := fun x => 10 ^ 24 / (max 1 (ratioOf x))
  let mean := (snr.map inv).sum / max 1 snr.length
  let a := (256 - nl) * mean / 256
  let b := inv btb
  if a ≤ b || baud < 50 then none else some (levelOf (10 ^ 12 * baud) ((a - b) * 50))

/-- The estimates are valid at this moment (R133): SNR from EQ exit, most from LOCKED, BER and GMI from FEC lock. -/
def estValid (p : Nat) (osnr : Option Nat) (s : State) : Nat :=
  let st := s.rxState p
  let l := (st == 7).toNat
  let nl := (st == 7 && s.isOn (R.RXD_NLC_STAT_ACTIVE p)).toNat
  let f := ((s.port p).rxd.fecLock).toNat
  (decide (5 ≤ st)).toNat + 2 * l + 4 * l + 8 * l + 16 * l + 32 * (st == 7 && osnr.isSome).toNat + 64 * nl + 128 * f + 256 * f

/-- The sequence, swath and validity fields of a latch (R132, R133). -/
def estHead (p swath v : Nat) (sa act : Bool) (s : State) : State :=
  let s := s.set (R.RXD_EST_SEQ_VALUE p) (s.get (R.RXD_EST_SEQ_VALUE p) + 1)
  let s := s.set (R.RXD_EST_SWATH_VALUE p) (if sa then swath else 0)
  let s := s.set (R.RXD_EST_VALID_SW_VALID p) sa.toNat
  let s := s.set (R.RXD_EST_VALID_VALID p) v
  s.set (R.RXD_EST_VALID_OSNR_NL0 p) (!act).toNat

/-- The per-subcarrier estimates of a latch: SNR and GMI, 0 where not valid or not used. -/
def estLanes (p v subs : Nat) (e : Estimates) (s : State) : State :=
  iter 16 (fun j s =>
    let s := if decide (j < subs) && bitAt v 0 == 1 then s.setI (R.RXD_SC_SNR p j) (e.snr.getD j 0) else s.set (R.RXD_SC_SNR p j) 0
    if decide (j < subs) && bitAt v 8 == 1 then s.set (R.RXD_SC_GMI p j) (e.gmi.getD j 0) else s.set (R.RXD_SC_GMI p j) 0) s

/-- The estimates of the whole line of a latch, each where it is valid; dispersion is the value applied with the residual. -/
def estLine (p v nl osnr : Nat) (e : Estimates) (s : State) : State :=
  let s := if bitAt v 1 == 1 then s.setI (R.RXD_CD_EST_CD p) (s.cd (R.RXD_CD_APPLIED_CD p) + e.cd) else s
  let s := if bitAt v 2 == 1 then s.set (R.RXD_DGD_PDL_DGD p) (min 65535 e.dgd) else s
  let s := if bitAt v 3 == 1 then s.set (R.RXD_DGD_PDL_PDL p) (min 65535 e.pdl) else s
  let s := if bitAt v 4 == 1 then s.set (R.RXD_SOP_RATE p) (min 0xFFFFFF e.sop) else s
  let s := if bitAt v 5 == 1 then s.set (R.RXD_OSNR_OSNR p) osnr else s
  if bitAt v 6 == 1 then s.set (R.RXD_OSNR_NL_SHARE p) nl else s

/-- The error count of a latch, which takes the counted bits and starts them anew. -/
def estBer (p v : Nat) (x : RxdState) (s : State) : State :=
  let s := if bitAt v 7 == 1 then
      let s := (s.set (R.RXD_BER_ERR_LO_COUNT_L p) x.berErr).set (R.RXD_BER_ERR_HI_COUNT_H p) (x.berErr / 2 ^ 32)
      (s.set (R.RXD_BER_BITS_LO_COUNT_L p) x.berBits).set (R.RXD_BER_BITS_HI_COUNT_H p) (x.berBits / 2 ^ 32)
    else s
  s.modRxd p (fun r => { r with berErr := 0, berBits := 0 })

/-- What the demapper takes from a latch (R123): the noise of every subcarrier, and Lsat from |LLR| over the window that ends. -/
def estDemap (p : Nat) (e : Estimates) (s : State) : State :=
  let n := (s.rxRung p).subs
  s.modRxd p (fun r => { r with
    noise := e.noise.take n, absL := [],
    lsat := (List.range n).map (fun j =>
      let h := (r.absL.filter (fun x => x.1 / 65536 == j)).map (fun x => (x.1 % 65536, x.2))
      if h = [] then r.lsat.getD j 256 else percentile99 h) })

/-- The correction values of the two I/Q pairs, clamped to their ranges. -/
def estIqc (p : Nat) (l : List (Int × Int × Int)) (s : State) : State :=
  iter (min 2 l.length) (fun q s =>
    let x := l.getD q (0, 0, 0)
    ((s.setI (R.RXD_IQC_SKEW p q) (clampInt (-2000) 2000 x.1)).setI (R.RXD_IQC_GAIN p q) (clampInt (-300) 300 x.2.1)).setI
      (R.RXD_IQC_PHASE p q) (clampInt (-200) 200 x.2.2)) s

/-- A latch of the estimates may fall now (R132): the receiver is not OFF, and under swath alignment the swath is a multiple of 2^WIN. -/
def State.latchDue (s : State) (p : Nat) : Bool :=
  s.rxState p != 0 &&
    !(s.isOn (R.LFR_ALIGN_STAT_SA p) && (s.pdPos (rxPd p)).swath % 2 ^ (s.get (R.RXD_EST_CTRL_WIN p)) != 0)

/-- One latch of the estimates (R132). -/
def estLatch (p : Nat) (e : Estimates) (s : State) : State :=
  let pos := s.pdPos (rxPd p)
  let sa := s.isOn (R.LFR_ALIGN_STAT_SA p)
  if !s.latchDue p then s
  else
    let r := s.rxRung p
    let act := s.isOn (R.RXD_NLC_STAT_ACTIVE p)
    let nl := if act then min 255 e.nl else 0
    let osnr := osnrOf (e.snr.take r.subs) nl (s.get (R.RXD_EST_CTRL_BTB_SNR p)) r.baud
    let v := estValid p osnr s
    let s := estLanes p v r.subs e (estHead p pos.swath v sa act s)
    let s := estLine p v nl (osnr.getD 0) e s
    let s := estDemap p e (estBer p v (s.port p).rxd s)
    let s := if s.isOn (R.RXD_IQC_CTRL_ADAPT p) then estIqc p e.iqc s else s
    s.raise (Ev.RXD_EST_READY p)

end Sys2Proof.Machine
end

