-- ==== Sys2Proof/Machine/Clock.lean ====
section
/-! DEFINITION. References, qualification, selection and the three DPLLs (chapter 16). -/
namespace Sys2Proof.Machine

def State.modClk (s : State) (f : ClkState → ClkState) : State := { s with clk := f s.clk }
def State.dp (s : State) (n : Nat) : Dpll := s.clk.dps.getD n {}
def State.modDp (s : State) (n : Nat) (f : Dpll → Dpll) : State := s.modClk (fun c => { c with dps := modNth n f c.dps })

/-- DPLL `n` is powered; DP2 stays off on the LYK4801 (R2, R409). -/
def State.dpOn (s : State) (n : Nat) : Bool := s.domainOn (244 + n) && (n != 2 || s.part == .lyk4802)

/-! ### References (R410, R413) -/

/-- KIND of reference `i`: 0 off, 1 clock, 2 1PPS. -/
def State.refKind (s : State) (i : Nat) : Nat :=
  if i ≤ 3 then s.get (R.CLK_REF_CFG_KIND i)
  else if i ≤ 5 then (s.hasPort (i - 4)).toNat
  else if i ≤ 13 then s.get (R.CLK_CLIREF_EN (i - 6))
  else 0

/-- Reference `i` is usable, its activity apart. -/
def State.refUsable (s : State) (i : Nat) : Bool :=
  s.refKind i != 0 &&
  (decide (i ≤ 3) || (decide (i ≤ 5) && s.rxState (i - 4) == 7) ||
   (decide (6 ≤ i) && s.laneState (s.get (R.CLK_CLIREF_LANE (i - 6))) 1 == 3))

def State.refOffset (s : State) (i : Nat) : Int := s.getI (R.CLK_REF_STAT_OFFSET i)
def State.refQualified (s : State) (i : Nat) : Bool := decide (i < 14) && s.isOn (R.CLK_REF_STAT_QUALIFIED i)
def setRun (i v : Nat) (s : State) : State := s.modClk (fun c => { c with runs := setAt 0 c.runs i v })

/-- The median of the offsets of the other qualified references. -/
def State.refMedian (s : State) (i : Nat) : Option Int :=
  median (((List.range 14).filter (fun j => j != i && s.refQualified j)).map s.refOffset)

/-! ### Selection (R411, R417) -/

/-- Priority of reference `r` for DPLL `n`. -/
def State.refPrio (s : State) (n r : Nat) : Nat :=
  if r < 8 then s.get (R.CLK_DP_PRIO_LO_PRIO n r) else s.get (R.CLK_DP_PRIO_HI_PRIO n (r - 8))

/-- Reference `r` is qualified for use: reference 15 is while DP0 is powered, for DP1 and DP2. -/
def State.refGood (s : State) (n r : Nat) : Bool := if r = 15 then n != 0 && s.dpOn 0 else s.refQualified r

def State.dpMode (s : State) (n : Nat) : Nat := s.get (R.CLK_DP_CTRL_MODE n)

/-- Reference `r` is eligible for DPLL `n`. -/
def State.eligible (s : State) (n r : Nat) : Bool :=
  s.refGood n r && (s.refKind r != 2 || decide (s.get (R.CLK_DP_CTRL_BW_LOCK n) ≤ 2)) &&
  (if s.dpMode n = 1 then r == s.get (R.CLK_DP_CTRL_FORCE_REF n) else s.refPrio n r != 0)

/-- Reference `a` is preferred over `b`. -/
def State.prefers (s : State) (n a b : Nat) : Bool :=
  decide (s.refPrio n a < s.refPrio n b) || (s.refPrio n a == s.refPrio n b && decide (a < b))

/-- The reference that R417 gives. -/
def State.bestRef (s : State) (n : Nat) : Option Nat :=
  match (List.range 16).filter (s.eligible n) with
  | [] => none
  | r :: l => some (l.foldl (fun a b => if s.prefers n b a then b else a) r)

/-! ### DCO (R421, R423, R424): units of 2^−48, within ±100 ppm -/

def dcoMax : Int := 28147497671
def clampDco (x : Int) : Int := clampInt (-dcoMax) dcoMax x
def setFreq (n : Nat) (x : Int) (s : State) : State :=
  let v := toField 40 (clampDco x)
  (s.set (R.CLK_DP_FREQ_LO_VALUE_L n) v).set (R.CLK_DP_FREQ_HI_VALUE_H n) (v / 2 ^ 32)
/-- The offset that the last write of CLK_DPn_DCO_HI formed with CLK_DPn_DCO_LO (R424). -/
def State.dcoWritten (s : State) (n : Nat) : Int :=
  signed 40 (s.get (R.CLK_DP_DCO_LO_DCO_L n) + 2 ^ 32 * s.get (R.CLK_DP_DCO_HI_DCO_H n))

/-- The recorded entries of the averaging window. -/
def State.histWindow (s : State) (n : Nat) : List Int :=
  (((s.dp n).hist.drop (s.get (R.CLK_DP_HIST_CFG_HIST_EXCL n))).take (s.get (R.CLK_DP_HIST_CFG_HIST_LEN n))).filterMap id
def State.histValid (s : State) (n : Nat) : Bool :=
  decide (s.get (R.CLK_DP_HIST_CFG_HIST_LEN n) ≤ 4 * (s.histWindow n).length)
def histShow (n : Nat) (s : State) : State := s.set (R.CLK_DP_STAT_HIST_VALID n) (s.histValid n).toNat

/-- Event `e` of DPLL `n` (R425). -/
def dpEvent (n e : Nat) (s : State) : State := s.raise (Ev.CLK_DPn_EV (5 * n + e))

def dpState (n st : Nat) (s : State) : State := s.set (R.CLK_DP_STAT_STATE n) st
def State.dpStateOf (s : State) (n : Nat) : Nat := s.get (R.CLK_DP_STAT_STATE n)

def setSel (n : Nat) (r : Option Nat) (s : State) : State :=
  (s.modDp n (fun d => { d with sel := r })).set (R.CLK_DP_STAT_SEL_REF n) (r.getD 0)

/-- A switch begins, or is abandoned. -/
def setTarget (n : Nat) (r : Option Nat) (s : State) : State :=
  (s.modDp n (fun d => { d with target := r, due := if r.isNone then none else d.due })).set (R.CLK_DP_STAT_SWITCHING n) r.isSome.toNat

def wtrOff (n : Nat) (s : State) : State :=
  ((s.set (R.CLK_DP_STAT_WTR_RUN n) 0).set (R.CLK_DP_STAT_WTR_REF n) 0).set (R.CLK_DP_STAT_WTR_LEFT n) 0

/-- HOLDOVER, or FREE without a valid history (R422, R423). -/
def dpHold (n : Nat) (s : State) : State :=
  if s.histValid n then
    let w := s.histWindow n
    let v := clampDco (w.sum / (max 1 w.length : Nat))
    let f := toField 40 v
    let s := (s.set (R.CLK_DP_HOLD_LO_VALUE_L n) f).set (R.CLK_DP_HOLD_HI_VALUE_H n) (f / 2 ^ 32)
    setFreq n v (dpEvent n 2 (dpState n 3 s))
  else setFreq n 0 (dpState n 0 s)

/-- DPLL `n` off: FREE, its history cleared (R409, R423). -/
def dpOff (n : Nat) (s : State) : State :=
  let s := wtrOff n (setTarget n none (setSel n none (dpState n 0 s)))
  histShow n (setFreq n 0 (s.modDp n (fun d => { d with hist := [] })))

/-- A DPLL judged after a change (R417 to R422). One that comes on with MODE open opens its loop (log entry 179). -/
def dpJudge (n : Nat) (s : State) : State :=
  if !s.dpOn n then (if s.dp n = { dco := (s.dp n).dco } && s.dpStateOf n = 0 then s else dpOff n s)
  else
    let s := if s.isOn (R.CLK_DP_STAT_WTR_RUN n) && !s.eligible n (s.get (R.CLK_DP_STAT_WTR_REF n)) then wtrOff n s else s
    let st := s.dpStateOf n
    let d := s.dp n
    let lostTarget := match d.target with | some t => !s.eligible n t | none => false
    let s := if lostTarget then setTarget n none s else s
    if s.dpMode n = 2 && st ≠ 4 then setFreq n d.dco (dpState n 4 s)
    else if (s.dp n).target.isSome then s
    else
      let held := match d.sel with | some r => s.eligible n r | none => false
      if held then
        match d.due, d.sel with
        | some r, some c => if lostTarget && s.eligible n r && s.prefers n r c then setTarget n (some r) s else s
        | _, _ => s
      else match s.bestRef n with
        | some b =>
          if st = 0 || st = 3 then dpState n 1 (setSel n (some b) s)
          else if d.sel.isNone then setSel n (some b) s
          else setTarget n (some b) s
        | none =>
          let s := if d.sel.isSome then setSel n none s else s
          if st = 2 then dpHold n (dpEvent n 0 s) else if st = 1 then dpHold n s else s

def dpJudgeAll (s : State) : State := iter 3 dpJudge s

/-- Wait-to-restore of reference `r` for DPLL `n`, which has become qualified (R419). -/
def wtrStart (n r : Nat) (s : State) : State :=
  let d := s.dp n
  match d.target.orElse (fun _ => d.sel) with
  | none => s
  | some cur =>
    if !s.dpOn n || s.dpMode n = 1 || !s.isOn (R.CLK_DP_CTRL_REVERT n) || !s.eligible n r || s.refPrio n cur ≤ s.refPrio n r then s
    else if s.isOn (R.CLK_DP_STAT_WTR_RUN n) && !s.prefers n r (s.get (R.CLK_DP_STAT_WTR_REF n)) then s
    else
      let w := s.get (R.CLK_DP_TMR_WTR n)
      if w = 0 then
        let s := wtrOff n s
        if d.target.isSome then s.modDp n (fun d => { d with due := some r }) else setTarget n (some r) s
      else ((s.set (R.CLK_DP_STAT_WTR_RUN n) 1).set (R.CLK_DP_STAT_WTR_REF n) r).set (R.CLK_DP_STAT_WTR_LEFT n) w

/-! ### Qualification (R414 to R416) -/

/-- Reference `i` is disqualified. -/
def disqualify (i : Nat) (s : State) : State :=
  let was := s.refQualified i
  let s := (setRun i 0 s).set (R.CLK_REF_STAT_DRIFT i) 0
  if !was then s
  else
    let s := s.set (R.CLK_REF_STAT_QUALIFIED i) 0
    dpJudgeAll (iter 3 (fun n s => if s.refPrio n i ≠ 0 then dpEvent n 3 s else s) s)

/-- DRIFT of reference `i` follows its last measurement and the threshold; its rise alarms the DPLLs that have it selected (R416). -/
def driftJudge (i : Nat) (s : State) : State :=
  let drift := s.refQualified i && s.isOn (R.CLK_REF_STAT_VALID i) && decide (s.get R.CLK_THR_DISQ_THR < 2 * (s.refOffset i).natAbs)
  let was := s.isOn (R.CLK_REF_STAT_DRIFT i)
  let s := s.set (R.CLK_REF_STAT_DRIFT i) drift.toNat
  if drift && !was then iter 3 (fun n s => if (s.dp n).sel = some i then dpEvent n 4 s else s) s else s

/-- Reference `i` becomes qualified. -/
def qualify (i : Nat) (s : State) : State :=
  let s := driftJudge i ((setRun i 0 s).set (R.CLK_REF_STAT_QUALIFIED i) 1)
  dpJudgeAll (iter 3 (fun n s => wtrStart n i s) s)

/-- Loss of activity (R413). -/
def refLos (i : Nat) (s : State) : State :=
  if 14 ≤ i then s else disqualify i ((s.set (R.CLK_REF_STAT_LOS i) 1).set (R.CLK_REF_STAT_VALID i) 0)

/-- Edges return: the qualification count starts. -/
def refReturn (i : Nat) (s : State) : State :=
  if 14 ≤ i || !s.isOn (R.CLK_REF_STAT_LOS i) || !s.refUsable i then s else setRun i 1 (s.set (R.CLK_REF_STAT_LOS i) 0)

/-- OSCIN judged (R415). -/
def oscJudge (s : State) : State :=
  let disq : Int := s.get R.CLK_THR_DISQ_THR
  let qual : Int := s.get R.CLK_THR_QUAL_THR
  let q := (List.range 14).filter s.refQualified
  let pair := q.any (fun i => q.any (fun j => i != j && decide ((s.refOffset i - s.refOffset j).natAbs ≤ qual) &&
    decide (disq < (s.refOffset i).natAbs) && decide (disq < (s.refOffset j).natAbs)))
  if q.any (fun i => decide (((s.refOffset i).natAbs : Int) ≤ qual)) then s.set R.CLK_OSC_SUSPECT 0
  else if pair && !s.isOn R.CLK_OSC_SUSPECT then (s.set R.CLK_OSC_SUSPECT 1).raise Ev.CLK_OSC_SUSPECT
  else s

/-- A measurement of reference `i`, in ppb. -/
def refMeasure (i : Nat) (x : Int) (s : State) : State :=
  if 14 ≤ i || !s.refUsable i || s.isOn (R.CLK_REF_STAT_LOS i) then s
  else
    let x := clampInt (-8388608) 8388607 x
    let s := ((s.setI (R.CLK_REF_STAT_OFFSET i) x).set (R.CLK_REF_STAT_VALID i) 1).set R.CLK_OSC_ACTIVE 1
    let disq := s.get R.CLK_THR_DISQ_THR
    let qual := s.get R.CLK_THR_QUAL_THR
    let med := s.refMedian i
    let out := decide (disq < x.natAbs) && (match med with | some m => decide (disq < (x - m).natAbs) | none => true)
    let inTol := decide (x.natAbs < qual) || (match med with | some m => decide ((x - m).natAbs < qual) | none => false)
    let s := if s.refQualified i then setRun i (if out then 2 else 0) s
      else setRun i (if inTol then 1 else 0) s
    oscJudge (driftJudge i s)

/-- QUAL_TIME of a running count elapses. -/
def qualExpiry (i : Nat) (s : State) : State :=
  let run := getAt 0 s.clk.runs i
  if run = 1 && !s.isOn (R.CLK_REF_STAT_LOS i) then oscJudge (qualify i s)
  else if run = 2 then oscJudge (disqualify i s)
  else s

/-- References that stopped being usable, or whose KIND is off, count as lost (R410). -/
def clkFollow (s : State) : State :=
  iter 14 (fun i s =>
    if !s.refUsable i && (s.refQualified i || s.isOn (R.CLK_REF_STAT_VALID i) || getAt 0 s.clk.runs i != 0) then refLos i s else s) s

/-! ### What a DPLL does of itself (R418, R419, R422 to R424) -/

/-- A switch completes. -/
def switchDone (n : Nat) (s : State) : State :=
  match (s.dp n).target with
  | none => s
  | some t =>
    let due := (s.dp n).due
    let s := dpEvent n 1 (setSel n (some t) (setTarget n none s))
    match due with
    | some r => if s.eligible n r && s.prefers n r t then setTarget n (some r) s else s
    | none => s

/-- Wait-to-restore expires. -/
def wtrEnd (n : Nat) (s : State) : State :=
  if !s.isOn (R.CLK_DP_STAT_WTR_RUN n) then s
  else
    let r := s.get (R.CLK_DP_STAT_WTR_REF n)
    let s := wtrOff n s
    let d := s.dp n
    match d.target, d.sel with
    | some _, _ => if s.eligible n r then s.modDp n (fun d => { d with due := some r }) else s
    | none, some c => if s.eligible n r && s.prefers n r c then setTarget n (some r) s else s
    | none, none => s

def dpLocks (n : Nat) (s : State) : State :=
  if s.dpOn n && s.dpStateOf n = 1 && (s.dp n).sel.isSome then dpState n 2 s else s
def dpUnlocks (n : Nat) (s : State) : State :=
  if s.dpOn n && s.dpStateOf n = 2 then dpState n 1 (dpEvent n 0 s) else s

/-- One second: the mean DCO offset is recorded where the DPLL is LOCKED and does not switch; the last phase error, in ps. -/
def histRecord (n : Nat) (mean phase : Int) (s : State) : State :=
  if !s.dpOn n then s
  else
    let st := s.dpStateOf n
    let run := (s.dp n).target.isNone
    let s := if (st = 1 || st = 2) && run then setFreq n mean s else s
    let s := if (s.dp n).sel.isSome then s.setI (R.CLK_DP_PHASE_PHASE n) phase else s
    let s := s.modDp n (fun d => { d with hist := ((if st = 2 && run then some (clampDco mean) else none) :: d.hist).take 2048 })
    let left := s.get (R.CLK_DP_STAT_WTR_LEFT n)
    histShow n (if s.isOn (R.CLK_DP_STAT_WTR_RUN n) then s.set (R.CLK_DP_STAT_WTR_LEFT n) (left - 1) else s)

/-- MODE written (R422). -/
def dpModeSet (n mode : Nat) (s : State) : State :=
  if 3 ≤ mode || (n = 2 && s.part == .lyk4801) then s
  else
    let s := s.set (R.CLK_DP_CTRL_MODE n) mode
    if !s.dpOn n then s
    else
      let st := s.dpStateOf n
      if mode = 2 then (if st = 4 then s else setFreq n (s.dp n).dco (dpState n 4 s))
      else
        let s := if mode = 1 then wtrOff n s else s
        if st = 4 then
          match s.bestRef n with
          | some b =>
            let s := dpState n 1 (setTarget n none s)
            dpJudge n (match (s.dp n).sel with
              | some r => if s.eligible n r then s else setSel n (some b) s
              | none => setSel n (some b) s)
          | none => dpHold n (setTarget n none (setSel n none s))
        else dpJudge n s

/-- CLK_DPn_DCO_HI written (R424). -/
def dcoSet (n hi : Nat) (s : State) : State :=
  if n = 2 && s.part == .lyk4801 then s
  else
    let s := s.set (R.CLK_DP_DCO_HI_DCO_H n) hi
    let s := s.modDp n (fun d => { d with dco := s.dcoWritten n })
    if s.dpStateOf n = 4 then setFreq n (s.dp n).dco s else s

/-- The priorities that STRUCT gives DP1 and DP2 (R411). -/
def dpStruct (s : State) : State :=
  iter 2 (fun k s =>
    let n := 1 + k
    let line := s.portMode == 1 && bitAt s.img.struct.dpSrc k == 1
    let s := iter 8 (fun r s => (s.set (R.CLK_DP_PRIO_LO_PRIO n r) 0).set (R.CLK_DP_PRIO_HI_PRIO n r) 0) s
    let s := s.set (R.CLK_DP_PRIO_HI_PRIO n 7) (if line then 2 else 1)
    if line then s.set (R.CLK_DP_PRIO_LO_PRIO n (5 - k)) 1 else s) s

/-! ### Commands -/

/-- REF_MONITOR_UPDATE (R414). -/
def execRefMonitorUpdate (i : Nat) (offset : Int) (s : State) : Out := onUnit s i 14 (refMeasure i offset s)
/-- REF_LOS (R413). -/
def execRefLos (i : Nat) (s : State) : Out := onUnit s i 14 (if s.refKind i = 0 then s else refLos i s)
/-- REF_ACTIVITY_RETURN (R413). -/
def execRefActivityReturn (i : Nat) (s : State) : Out := onUnit s i 14 (refReturn i s)
/-- REF_QUAL_TIMER_EXPIRY (R414). -/
def execRefQualTimerExpiry (i : Nat) (s : State) : Out := onUnit s i 14 (qualExpiry i s)
/-- REF_SWITCH_DONE (R418). -/
def execRefSwitchDone (n : Nat) (s : State) : Out := onUnit s n 3 (switchDone n s)
/-- WTR_EXPIRY (R419). -/
def execWtrExpiry (n : Nat) (s : State) : Out := onUnit s n 3 (wtrEnd n s)
/-- DPLL_LOCK (R422). -/
def execDpllLock (n : Nat) (s : State) : Out := onUnit s n 3 (dpLocks n s)
/-- DPLL_LOCK_LOSS (R422). -/
def execDpllLockLoss (n : Nat) (s : State) : Out := onUnit s n 3 (dpUnlocks n s)
/-- HISTORY_RECORD (R423). -/
def execHistoryRecord (n : Nat) (mean phase : Int) (s : State) : Out := onUnit s n 3 (histRecord n mean phase s)
/-- DPLL_MODE_WRITE (R422). -/
def execDpllModeWrite (n mode : Nat) (s : State) : Out :=
  onUnit s n 3 ((if n = 2 && s.part == .lyk4801 then s else dpModeSet n mode s).answer St.ok [])
/-- DCO_WRITE (R424). -/
def execDcoWrite (n hi : Nat) (s : State) : Out :=
  onUnit s n 3 ((if n = 2 && s.part == .lyk4801 then s else dcoSet n hi s).answer St.ok [])

end Sys2Proof.Machine
end

