-- ==== Sys2Proof/Machine/Gcm.lean ====
section
/-! DEFINITION. AES-256-GCM with 96-bit IVs as NIST SP 800-38D lays it down, over the block cipher, in segments (R304). -/
namespace Sys2Proof.Machine

/-- The product in the field of GHASH, the most significant bit first. -/
def ghashMul (x y : Nat) : Nat :=
  ((List.range 128).foldl (fun (a : Nat × Nat) i =>
    (if bitAt x (127 - i) = 1 then a.1 ^^^ a.2 else a.1, if a.2 % 2 = 1 then a.2 / 2 ^^^ 0xE1 * 2 ^ 120 else a.2 / 2)) (0, y)).1

/-- Block `i` of a string of bytes, filled up with zeros. -/
def blockOf (l : List Nat) (i : Nat) : Nat := ofBe ((List.range 16).map (fun j => l.getD (16 * i + j) 0))

/-- GHASH carried on over a string that begins at a block boundary. -/
def ghash (key h : Nat) (l : List Nat) : Nat :=
  (List.range (ceilDiv l.length 16)).foldl (fun h i => ghashMul (h ^^^ blockOf l i) (Config.aesBlock key 0)) h

/-- The counter block `n` of an IV: 1 makes the tag, the data begins at 2. -/
def counterBlock (iv : List Nat) (n : Nat) : Nat := ofBe ((List.range 12).map (fun i => iv.getD i 0)) * 2 ^ 32 + n % 2 ^ 32

/-- The chaining state of a message that begins. -/
def chainStart (key : Nat) (iv aad : List Nat) : Chain := { iv := iv, hash := ghash key 0 aad, aad := aad.length }

/-- The data of a segment through the counter mode. -/
def chainCrypt (key : Nat) (c : Chain) (l : List Nat) : List Nat :=
  (List.range l.length).map (fun i =>
    let b := Config.aesBlock key (counterBlock c.iv (2 + (c.len + i) / 16))
    l.getD i 0 ^^^ b / 2 ^ (8 * (15 - (c.len + i) % 16)) % 256)

/-- The chaining state after a segment with ciphertext `l`. -/
def chainNext (key : Nat) (c : Chain) (l : List Nat) : Chain := { c with hash := ghash key c.hash l, len := c.len + l.length }

/-- The tag of the message. -/
def chainTag (key : Nat) (c : Chain) : List Nat :=
  bytesBe 16 (ghashMul (c.hash ^^^ (8 * c.aad * 2 ^ 64 + 8 * c.len)) (Config.aesBlock key 0) ^^^ Config.aesBlock key (counterBlock c.iv 1))

end Sys2Proof.Machine

namespace Sys2Proof.Config
open Sys2Proof.Machine

/-- The counter-mode output of AES-256-GCM: key, IV and data to data of the other side. -/
def gcmCrypt (key : Nat) (iv data : List Nat) : List Nat := chainCrypt key { iv := iv } data

/-- The tag of AES-256-GCM: key, IV, additional data, ciphertext. -/
def gcmTag (key : Nat) (iv aad data : List Nat) : List Nat := chainTag key (chainNext key (chainStart key iv aad) data)

end Sys2Proof.Config
end

