-- ==== Sys2Proof/Machine/Sedge.lean ====
section
/-! DEFINITION. The Sedge channel of a port (chapter 10): sending, receiving, delivery, HELLO. -/
namespace Sys2Proof.Machine

/-! ### Message types (R269) -/

/-- A type routed to the core, and a type of the table at all. -/
def isCoreType (t : Nat) : Bool := [0x01, 0x10, 0x11, 0x12, 0x13, 0x14, 0x15, 0x20, 0x21, 0x22, 0x28, 0x29, 0x2A].contains t
def isType (t : Nat) : Bool := isCoreType t || t == 0x30 || t == 0x38 || (0x40 ≤ t && t ≤ 0x7F)

/-- Send class. -/
def sendClass (t : Nat) : Nat := if t = 0x10 || t = 0x38 then 1 else if t = 0x30 || 0x40 ≤ t then 2 else 0

/-- Body bytes without security that a type allows. -/
def bodyLenOk (t n : Nat) : Bool :=
  if t = 0x01 then n == 36 else if t = 0x10 then n == 84 else if t = 0x11 then n == 9 || n == 56
  else if t = 0x12 || t = 0x14 || t = 0x15 then n == 2 else if t = 0x13 then n == 3 else if t = 0x20 then n == 13
  else if t = 0x21 then n == 8 else if t = 0x22 then n == 3 else if t = 0x28 then n == 47 else if t = 0x29 then n == 33
  else if t = 0x2A then n == 34 else if t = 0x30 then 1 ≤ n && n ≤ 2048 else if t = 0x38 then n == 16
  else n ≤ 2048

/-- Types that are always protected. -/
def alwaysProtected (t : Nat) : Bool := [0x20, 0x21, 0x22, 0x28, 0x29, 0x2A].contains t

/-- The port's policy requires protection for a type (R269, SGP_AUTH_POL). -/
def State.requiresSec (s : State) (p t : Nat) : Bool :=
  alwaysProtected t ||
  (if t = 0x01 || (0x11 ≤ t && t ≤ 0x15) then s.isOn (R.SGP_AUTH_POL_REQ_LINK p)
   else if t = 0x10 || t = 0x38 then s.isOn (R.SGP_AUTH_POL_REQ_REPORT p)
   else if t = 0x30 then s.isOn (R.SGP_AUTH_POL_REQ_TUNNEL p)
   else decide (0x40 ≤ t) && decide (t ≤ 0x7F) && s.isOn (R.SGP_AUTH_POL_REQ_USER p))

/-! ### Sending (R258) -/

def State.bufState (s : State) (p b : Nat) : Nat := s.get (R.SGP_TXB_CTRL_STATE p b)

/-- The length of the queue shown. -/
def txqShow (p : Nat) (s : State) : State := s.set (R.SGP_TX_STAT_QUEUED p) (s.port p).sgp.queue.length

/-- The verdict on ARM of buffer `b` (R258), the ownership of buffers 0 to 7 apart. -/
def State.armVerdict (s : State) (p b : Nat) : Nat :=
  let sec := s.get (R.SGP_TXB_CTRL_SEC p b)
  if 2 ≤ s.bufState p b then St.busy
  else if s.bufState p b = 0 then St.ok
  else if (if sec = 0 then 2048 else 2024) < s.get (R.SGP_TXB_CTRL_LENGTH p b) then St.length
  else if 8 ≤ b && isCoreType (s.get (R.SGP_TXB_CTRL_TYPE p b)) then St.denied
  else St.ok

/-- ARM written 1 (R258): a LOADED buffer is queued; on an EMPTY one EV_SGP_TX_FAIL. -/
def armBuf (p b : Nat) (s : State) : Nat × State :=
  let v := s.armVerdict p b
  if v ≠ St.ok then (v, s)
  else if s.bufState p b = 0 then (St.ok, s.raise (Ev.SGP_TX_FAIL p))
  else (St.ok, txqShow p ((s.set (R.SGP_TXB_CTRL_STATE p b) 2).modSgp p (fun g => { g with queue := g.queue ++ [b] })))

/-- TYPE written: 0 empties the buffer, a type of the table loads it, any other value is not acted on (R258). -/
def setTxType (p b t : Nat) (s : State) : State :=
  if t = 0 then (s.set (R.SGP_TXB_CTRL_TYPE p b) 0).set (R.SGP_TXB_CTRL_STATE p b) 0
  else if isType t then (s.set (R.SGP_TXB_CTRL_TYPE p b) t).set (R.SGP_TXB_CTRL_STATE p b) 1
  else s

/-- A message put into buffer `b`. -/
def loadBuf (p b : Nat) (m : CoreMsg) (s : State) : State :=
  let put := fun (d : Sparse Nat) i => setAt 0 d (2048 * b + i) (m.body.getD i 0 % 256)
  let s := s.modSgp p (fun g => { g with data := (List.range m.body.length).foldl put g.data })
  setTxType p b m.typ ((s.set (R.SGP_TXB_CTRL_SEC p b) m.sec).set (R.SGP_TXB_CTRL_LENGTH p b) m.body.length)

/-- The core loads and queues its waiting messages into its free buffers, lowest first. -/
def corePump (p : Nat) : Nat → State → State
  | 0, s => s
  | n + 1, s =>
    match (s.port p).sgp.coreOut, (List.range 8).find? (fun b => decide (s.bufState p b ≤ 1)) with
    | m :: r, some b =>
      corePump p n (armBuf p b (loadBuf p b m (s.modSgp p (fun g => { g with coreOut := r })))).2
    | _, _ => s

/-- The Sedge core sends a message, with the protection its policy or the table asks (R269); a core that does not run sends
nothing. -/
def coreSend (p t : Nat) (body : List Nat) (s : State) : State :=
  if !s.coreRuns 6 then s
  else
    let sec := if t = 0x20 || t = 0x28 then 2 else if s.requiresSec p t then 1 else 0
    corePump p 8 (s.modSgp p (fun g => { g with coreOut := g.coreOut ++ [{ typ := t, sec := sec, body := body.map (· % 256) }] }))

/-- The session of Sedge on a port. -/
def State.sess (s : State) (n : Nat) : Session := s.mce.sess.getD n {}
def State.modSess (s : State) (n : Nat) (f : Session → Session) : State :=
  { s with mce := { s.mce with sess := modNth n f s.mce.sess } }

/-- The queued buffer that goes next: lowest class, then order of queuing. -/
def State.nextBuf (s : State) (p : Nat) : Option Nat :=
  let q := (s.port p).sgp.queue
  let cls := fun b => sendClass (s.get (R.SGP_TXB_CTRL_TYPE p b))
  match q.filter (fun b => cls b == 0), q.filter (fun b => cls b == 1), q with
  | b :: _, _, _ => some b
  | [], b :: _, _ => some b
  | [], [], b :: _ => some b
  | [], [], [] => none

/-- The next packet starts, `gap` symbols after the one before (R251 to R258): not before 16 have elapsed, and a protected one only with a key and a
counter left. In BEACON the gap was filled with idle symbols. -/
def packetStart (p gap : Nat) (s : State) : State :=
  if !s.domainOn 247 || !s.isOn (R.SGP_TX_CTRL_EN p) || s.get (R.TXD_STATE_STATE p) = 0 || (s.port p).sgp.sending.isSome || gap < 16 then s
  else match s.nextBuf p with
    | none => s
    | some b =>
      let s := txqShow p (s.modSgp p (fun g => { g with queue := g.queue.filter (· ≠ b) }))
      let sec := s.get (R.SGP_TXB_CTRL_SEC p b)
      let n := s.get (R.SGP_AUTH_POL_SESSION p)
      let se := s.sess n
      if sec ≠ 0 && (se.key.isNone || 2 ^ 48 ≤ se.txCtr) then
        (s.set (R.SGP_TXB_CTRL_STATE p b) 1).raise (Ev.SGP_TX_FAIL p)
      else
        let typ := s.get (R.SGP_TXB_CTRL_TYPE p b)
        let len := s.get (R.SGP_TXB_CTRL_LENGTH p b)
        let msg := (List.range len).map (fun i => getAt 0 (s.port p).sgp.data (2048 * b + i))
        let seq := s.get (R.SGP_TX_STAT_SEQ p)
        let code := s.get (R.SGP_TX_CTRL_OWN_CODE p)
        let wire := if sec = 0 then len else len + 24
        let hdr := packetHeader typ sec wire seq code
        let pre := [0, 0] ++ bytesBe 6 se.txCtr
        let iv := bytesBe 4 se.salt ++ bytesBe 2 code ++ bytesBe 6 se.txCtr
        let aad := bytesBe 6 (hdr / 2 ^ 16) ++ pre
        let key := se.key.getD 0
        let sealed := if sec = 1 then msg ++ Config.gcmTag key iv (aad ++ msg) []
          else Config.gcmCrypt key iv msg ++ Config.gcmTag key iv aad (Config.gcmCrypt key iv msg)
        let body := if sec = 0 then msg else pre ++ sealed
        let pkt : TxPacket := { buf := b, typ := typ, sec := sec, len := wire, seq := seq, code := code,
                                ctr := if sec = 0 then none else some se.txCtr, body := msg, syms := packetSymbols hdr body }
        let s := if sec = 0 then s else s.modSess n (fun x => { x with txCtr := x.txCtr + 1 })
        let idle := if s.get (R.TXD_STATE_STATE p) = 1 then prbs23 0x2AAAAA gap else []
        let s := s.modSgp p (fun g => { g with sending := some pkt, idle := idle })
        let s := (s.set (R.SGP_TXB_CTRL_STATE p b) 3).set (R.SGP_TX_STAT_SEQ p) ((seq + 1) % 4096)
        (s.set (R.SGP_TX_STAT_SENDING p) 1).set (R.SGP_TX_STAT_BUF p) b

/-- A packet has been sent (R258): its buffer is LOADED again, content kept. -/
def txDone (p : Nat) (s : State) : State :=
  match (s.port p).sgp.sending with
  | none => s
  | some k =>
    let s := s.modSgp p (fun g => { g with sending := none })
    let s := ((s.set (R.SGP_TXB_CTRL_STATE p k.buf) 1).set (R.SGP_TX_STAT_SENDING p) 0).raise (Ev.SGP_TX_DONE p)
    corePump p 8 s

/-! ### Receiving (R261 to R268) -/

def State.corrState (s : State) (p k : Nat) : Nat := s.get (R.SGP_CORR_STAT_STATE p k)

/-- Counter `i` of correlator `k`. -/
def corrCount (p k i n : Nat) (s : State) : State := s.addSat (R.SGP_CNT_COUNT p k i) n

def State.modCorr (s : State) (p k : Nat) (f : CorrPkt → CorrPkt) : State :=
  s.modSgp p (fun g => { g with corr := modNth k f g.corr })

/-- The correlator takes a preamble of metric `m`. -/
def corrSync (p k m : Nat) (rel fo : Int) (s : State) : State :=
  let s := ((s.set (R.SGP_CORR_STAT_STATE p k) 2).set (R.SGP_CORR_STAT_METRIC p k) m).modCorr p k (fun _ => { det := m })
  if k = 0 then (s.setI (R.SGP_RX_FO_FO p) fo).set (R.SGP_RX_FO_VALID p) 1
  else s.setI (R.SGP_CORR_STAT_REL p k) rel

/-- A preamble of metric `m`, while the packet in progress runs at `run` (R262 to R264); `joint` as in `agcPreamble`. -/
def preamble (p k m run : Nat) (rel fo : Int) (joint : Bool) (s : State) : State :=
  let st := s.corrState p k
  if st = 1 then
    if s.get (R.SGP_CORR_DET_THR p k) ≤ m then
      let s := corrSync p k m rel fo s
      if k = 0 then rxPreamble p (agcPreamble p joint (s.raise (Ev.SGP_PREAMBLE p))) else s
    else s
  else if st = 2 || st = 3 then
    if ((s.port p).sgp.corr.getD k {}).det < m then
      corrCount p k 3 1 ((corrSync p k m rel fo s).raise (Ev.SGP_RESTART p))
    else s
  else if st = 4 then
    let s := s.set (R.SGP_CORR_STAT_METRIC p k) run
    if run + 2 * s.get (R.SGP_RX_CTRL_CAPTURE p) ≤ m then
      corrCount p k 4 1 ((corrSync p k m rel fo s).raise (Ev.SGP_CAPTURED p))
    else s
  else s

/-- The start delimiter is found: HEADER, with the receive position at its end (R262, R278). -/
def delimiter (p k : Nat) (s : State) : State :=
  if s.corrState p k ≠ 2 then s
  else
    let q := s.pdPos (rxPd p)
    (s.set (R.SGP_CORR_STAT_STATE p k) 3).modCorr p k (fun c => { c with swValid := q.valid, swath := if q.valid then q.swath % 2 ^ 32 else 0 })

/-- 96 symbols without a delimiter (R262). -/
def delimTimeout (p k : Nat) (s : State) : State :=
  if s.corrState p k ≠ 2 then s else corrCount p k 1 1 (s.set (R.SGP_CORR_STAT_STATE p k) 1)

/-- The decoded header `h` is checked (R255, R256, R262). -/
def headerDecode (p k h : Nat) (s : State) : State :=
  if s.corrState p k ≠ 3 then s
  else if crc16 (bytesBe 6 (bits h 63 16)) ≠ bits h 15 0 then
    corrCount p k 2 1 ((s.set (R.SGP_CORR_STAT_STATE p k) 1).raise (Ev.SGP_HDR_FAIL p))
  else
    let sec := bits h 55 54
    let len := bits h 51 40
    if 2048 < len || sec = 3 || (sec ≠ 0 && len < 24) || bits h 27 17 ≠ s.get (R.SGP_CORR_CODE p k) then
      corrCount p k 5 1 ((s.set (R.SGP_CORR_STAT_STATE p k) 1).raise (Ev.SGP_MALFORMED p))
    else
      (s.set (R.SGP_CORR_STAT_STATE p k) 4).modCorr p k (fun c =>
        { c with typ := bits h 63 56, sec := sec, len := len, seq := bits h 39 28 })

/-- The gap in SEQ since the last packet of the correlator (R268). -/
def seqGap (p k seq : Nat) (s : State) : State :=
  let gap := match (s.port p).sgp.last.getD k none with
    | none => 0
    | some l => (seq + 4096 - l + 4095) % 4096
  let s := s.modSgp p (fun g => { g with last := g.last.set k (some seq) })
  if gap = 0 then s else corrCount p k 9 gap (s.raise (Ev.SGP_SEQ_GAP p))

/-- Undelivered (R267). -/
def undelivered (p k : Nat) (s : State) : State := corrCount p k 10 1 s

/-- A good message routed (R267): to the core or to the host queue of 8. -/
def route (p k : Nat) (c : CorrPkt) (msg : List Nat) (s : State) : State :=
  let deliver := fun (s : State) => corrCount p k 0 1 (s.raise (Ev.SGP_RX_PKT p))
  if isCoreType c.typ && k = 0 then
    if s.coreRuns 6 then deliver (s.modSgp p (fun g => { g with coreIn := g.coreIn ++ [(c.typ, msg)] }))
    else undelivered p k s
  else if k ≠ 0 && !s.isOn (R.SGP_RX_CTRL_FWD_NBR p) then undelivered p k s
  else if 8 ≤ (s.port p).sgp.rxq.length then s.raise (Ev.SGP_RXQ_FULL p)
  else
    let e : RxPkt := { typ := c.typ, sec := c.sec, corr := k, seq := c.seq, swValid := c.swValid, swath := c.swath, body := msg }
    deliver (s.modSgp p (fun g => { g with rxq := g.rxq ++ [e] }))

/-- The message of a protected body, where its tag verifies under the session's key (R257): the sender's CODE is the one that
the correlator watches. -/
def State.unseal (s : State) (p k : Nat) (c : CorrPkt) (body : List Nat) : Option (List Nat) :=
  let se := s.sess (s.get (R.SGP_AUTH_POL_SESSION p))
  match se.key with
  | none => none
  | some key =>
    let code := s.get (R.SGP_CORR_CODE p k)
    let pre := body.take 8
    let mid := (body.drop 8).take (c.len - 24)
    let tag := body.drop (c.len - 16)
    let iv := bytesBe 4 se.salt ++ bytesBe 2 code ++ pre.drop 2
    let aad := bytesBe 6 (packetHeader c.typ c.sec c.len c.seq code / 2 ^ 16) ++ pre
    if c.sec = 1 then (if tag = Config.gcmTag key iv (aad ++ mid) [] then some mid else none)
    else if tag = Config.gcmTag key iv aad mid then some (Config.gcmCrypt key iv mid) else none

/-- A packet judged (R257, R267). -/
def deliverPkt (p k : Nat) (c : CorrPkt) (body : List Nat) (s : State) : State :=
  let n := s.get (R.SGP_AUTH_POL_SESSION p)
  let ctr := beAt body 2 6
  let plain := if c.sec = 0 then some body else s.unseal p k c body
  let secFail := (c.sec = 0 && s.requiresSec p c.typ) || plain.isNone
  let replay := c.sec ≠ 0 && (match (s.sess n).rxMark with | some m => decide (ctr ≤ m) | none => false)
  if secFail then corrCount p k 7 1 (s.raise (Ev.SGP_AUTH_FAIL p))
  else if replay then corrCount p k 8 1 s
  else
    let s := if c.sec = 0 then s else s.modSess n (fun x => { x with rxMark := some ctr })
    let len := if c.sec = 0 then c.len else c.len - 24
    if !isType c.typ || !bodyLenOk c.typ len then corrCount p k 5 1 (s.raise (Ev.SGP_MALFORMED p))
    else route p k c (plain.getD []) s

/-- The last body symbol is decoded: LENGTH bytes and a CRC-32 (R256, R262). -/
def bodyDecode (p k : Nat) (body : List Nat) (crc : Nat) (s : State) : State :=
  if s.corrState p k ≠ 4 then s
  else
    let c := (s.port p).sgp.corr.getD k {}
    let s := s.set (R.SGP_CORR_STAT_STATE p k) 1
    if body.length ≠ c.len || crc32 body ≠ crc then corrCount p k 6 1 (s.raise (Ev.SGP_CRC_FAIL p))
    else deliverPkt p k c body (seqGap p k c.seq s)

/-- A message is taken by the core: one that was delivered leaves its queue. -/
def takeMsg (p t : Nat) (body : List Nat) (s : State) : State :=
  s.modSgp p (fun g => { g with coreIn := g.coreIn.erase (t, body) })

/-- The head of the host queue removed (R278). -/
def rxqPop (p : Nat) (s : State) : State := s.modSgp p (fun g => { g with rxq := g.rxq.tail })

/-- SGP_CORR_k written field by field (R261): two enabled correlators never hold one CODE. -/
def corrWrite (p k : Nat) (en code thr : Option Nat) (s : State) : State :=
  let other := fun c => (List.range 4).any (fun j => j != k && s.isOn (R.SGP_CORR_EN p j) && s.get (R.SGP_CORR_CODE p j) == c)
  let code0 := s.get (R.SGP_CORR_CODE p k)
  let en0 := s.get (R.SGP_CORR_EN p k)
  let enW := en.getD en0
  let codeW := match code with | some c => if c ≤ 1024 then c else code0 | none => code0
  let clash := enW = 1 && other codeW
  let codeN := if clash then code0 else codeW
  let enN := if clash && en0 = 0 && other code0 then 0 else enW
  let thrN := match thr with | some t => if 16 ≤ t && t ≤ 160 then t else s.get (R.SGP_CORR_DET_THR p k)
                             | none => s.get (R.SGP_CORR_DET_THR p k)
  ((s.set (R.SGP_CORR_CODE p k) codeN).set (R.SGP_CORR_EN p k) enN).set (R.SGP_CORR_DET_THR p k) thrN

/-! ### HELLO (R270, R271) -/

/-- The CRC of the active ladder, and that of the valid points of the PCS tables. -/
def State.ladderCrc (s : State) (p : Nat) : Nat :=
  crc32 ((List.range 256).flatMap (fun w => bytesLe 16 (s.tabWord (ladderTab p) false w)))
def insertHq (w : Nat) : List Nat → List Nat
  | [] => [w]
  | x :: r => if bits w 8 0 ≤ bits x 8 0 then w :: x :: r else x :: insertHq w r
def State.pcsCrc (s : State) : Nat :=
  crc32 ([4, 6, 8].flatMap (fun m =>
    (((s.bankWords (pcsTab m) (s.actBank (pcsTab m) false)).filter (pcsPointOk m)).foldr insertHq []).flatMap (bytesLe 16)))

/-- The rung a port reports for its transmit and receive directions. -/
def State.helloTx (s : State) (p : Nat) : Nat :=
  if s.get (R.TXD_STATE_STATE p) = 2 then s.get (R.TXD_STATE_RUNG p) else s.get (R.TXD_CTRL_RUNG_INIT p)
def State.helloRx (s : State) (p : Nat) : Nat :=
  if s.rxState p = 7 then s.rxRungIx p else s.get (R.RXD_CTRL_ACQ_RUNG p)

def State.nodeId (s : State) (p : Nat) : Nat := s.get (R.SGP_NODE_ID_HI_ID p) * 2 ^ 32 + s.get (R.SGP_NODE_ID_LO_ID p)

/-- The body of a HELLO. -/
def State.hello (s : State) (p : Nat) : List Nat :=
  let cdOk := bitAt (s.get (R.RXD_EST_VALID_VALID p)) 1 == 1
  let foOk := s.isOn (R.RXD_FO_VALID p)
  bytesBe 8 (s.nodeId p) ++ [s.get (R.SGP_NODE_RANK p)] ++
  [s.get (R.SGP_NEG_STAT_PEER_SEEN p) + 2 * (cdOk || s.rxState p ≥ 4).toNat + 4 * (foOk || s.isOn (R.SGP_RX_FO_VALID p)).toNat] ++
  bytesBe 2 (s.get (R.SGP_CORR_CODE p 0)) ++ [s.helloTx p] ++ [s.helloRx p] ++
  [s.get (R.TXD_STATE_STATE p) + 16 * s.rxState p] ++ [s.portMode % 16 + 16 * p] ++
  bytesBe 4 (s.ladderCrc p) ++ bytesBe 4 s.pcsCrc ++
  bytesBe 3 (if cdOk then s.get (R.RXD_CD_EST_CD p) else s.get (R.RXD_CD_APPLIED_CD p)) ++
  bytesBe 2 (if foOk then s.get (R.RXD_FO_FO p) else s.get (R.SGP_RX_FO_FO p)) ++
  bytesBe 3 (s.get (R.TXD_PRECD_APPLIED_SHARE p)) ++ [0, 0, 0, 0]

/-- The core sends a HELLO: in BEACON, or in PAYLOAD at a TSW that is a multiple of HELLO_P (R270). -/
def helloSend (p : Nat) (s : State) : State :=
  let st := s.get (R.TXD_STATE_STATE p)
  let hp := s.get (R.SGP_NEG_CTRL_HELLO_P p)
  let due := st = 1 || (st = 2 && hp ≠ 0 && (s.pdPos (txPd p)).swath % hp = 0)
  if s.isOn (R.SGP_NEG_CTRL_NEG_EN p) && due then coreSend p 0x01 (s.hello p) s else s

/-- AGREED judged, and its event (R271). -/
def negJudge (p : Nat) (s : State) : State :=
  let all := [R.SGP_NEG_STAT_RXR_OK p, R.SGP_NEG_STAT_TXR_OK p, R.SGP_NEG_STAT_PCS_OK p, R.SGP_NEG_STAT_LADDER_OK p,
    R.SGP_NEG_STAT_CODE_OK p, R.SGP_NEG_STAT_MUTUAL p, R.SGP_NEG_STAT_PEER_SEEN p].all s.isOn
  let was := s.isOn (R.SGP_NEG_STAT_AGREED p)
  (s.set (R.SGP_NEG_STAT_AGREED p) all.toNat).raiseIf (all && !was) (Ev.SGP_NEG_AGREED p)

/-- A HELLO received (R271): the negotiation bits and the hints. -/
def helloReceive (p : Nat) (b : List Nat) (s : State) : State :=
  if !s.coreRuns 6 || b.length ≠ 36 then takeMsg p 0x01 b s
  else
    let s := takeMsg p 0x01 b s
    let flags := b.getD 9 0
    let s := s.modSgp p (fun g => { g with peer := some (b.getD 8 0, beAt b 0 8), peerTx := bits (b.getD 14 0) 1 0 })
    let s := (s.set (R.SGP_NEG_STAT_PEER_RANK p) (b.getD 8 0)).set (R.SGP_NEG_STAT_PEER_SEEN p) 1
    let s := s.set (R.SGP_NEG_STAT_MUTUAL p) (bitAt flags 0)
    let s := s.set (R.SGP_NEG_STAT_CODE_OK p) (decide (beAt b 10 2 % 2048 = s.get (R.SGP_TX_CTRL_OWN_CODE p))).toNat
    let s := s.set (R.SGP_NEG_STAT_LADDER_OK p) (decide (beAt b 16 4 = s.ladderCrc p)).toNat
    let s := s.set (R.SGP_NEG_STAT_PCS_OK p) (decide (beAt b 20 4 = s.pcsCrc)).toNat
    let s := s.set (R.SGP_NEG_STAT_TXR_OK p) (decide (b.getD 13 0 % 64 = s.helloTx p)).toNat
    let s := s.set (R.SGP_NEG_STAT_RXR_OK p) (decide (b.getD 12 0 % 64 = s.helloRx p)).toNat
    let s := negJudge p s
    if s.isOn (R.SGP_NEG_CTRL_HINT_EN p) && s.rxState p = 1 && bitAt flags 1 = 1 then
      (s.set (R.RXD_CD_HINT_CD p) (beAt b 24 3)).set (R.RXD_CTRL_CD_KNOWN p) 1
    else s

/-- No HELLO within 3 intervals (R271): no timeout runs while the peer reports PAYLOAD and HELLO_P is 0. -/
def peerTimeout (p : Nat) (s : State) : State :=
  if (s.port p).sgp.peerTx = 2 && s.get (R.SGP_NEG_CTRL_HELLO_P p) = 0 then s
  else if s.isOn (R.SGP_NEG_STAT_PEER_SEEN p) then negDrop p s else s

/-! ### SENSE (R275) -/

/-- A SENSE alert of chain `c`: at most one per chain per 64 swaths. -/
def senseSend (p c kind rate : Nat) (s : State) : State :=
  let sw := (s.pdPos (rxPd p)).swath
  let due := match look c (s.port p).sgp.senseAt with
    | some l => decide (l + 64 ≤ sw)
    | none => true
  if s.isOn (R.SGP_NEG_CTRL_SENSE_EN p) && due then
    coreSend p 0x38 (bytesBe 6 sw ++ [c, kind] ++ bytesBe 4 rate ++ [0, 0, 0, 0])
      (s.modSgp p (fun g => { g with senseAt := putKey c sw g.senseAt }))
  else s

end Sys2Proof.Machine
end

