-- ==== Sys2Proof/Machine/Cipher.lean ====
section
/-! DEFINITION. The line cipher (chapter 11): policy words, key slots, sections, epoch switches. Groups of pipelines are in
Groups, exchanges of keys in Adapt. -/
namespace Sys2Proof.Machine

/-! ### Policy (R286) -/

/-- The cipher policy table of port `p`; a bonded group uses that of port 0. -/
def State.policyTab (s : State) (p : Nat) : Nat := 0xF008 + (if s.bonded then 0 else 0x100 * p)

/-- The policy word of context `c`, zero where it is not valid. -/
def policyWord (w : Nat) : Nat := if bitAt w 127 = 1 then w else 0
def State.policy (s : State) (p c : Nat) : Nat := policyWord (s.tabWord (s.policyTab p) false c)

def polMode (w : Nat) : Nat := bits w 1 0
def polWhole (w : Nat) : Bool := bitAt w 2 == 1
def polTrib (w : Nat) : Nat := bits w 10 4
def polHold (w : Nat) : Bool := bitAt w 12 == 1
def polOnFail (w : Nat) : Bool := bitAt w 13 == 1
def polRollReq (w : Nat) : Bool := bitAt w 14 == 1
def polBudget (w : Nat) : Nat := bits w 21 16

/-- MODE of context `c` of port `p`: 0 unused, 1 encrypt, 2 bypass. -/
def State.ctxMode (s : State) (p c : Nat) : Nat := polMode (s.policy p c)

/-! ### Contexts and slots (R287) -/

def ctxKey (p d c : Nat) : Nat := 64 * p + 32 * d + c
def State.ctx (s : State) (p d c : Nat) : CipherCtx := getAt {} s.lcx.ctxs (ctxKey p d c)
def State.modCtx (s : State) (p d c : Nat) (f : CipherCtx → CipherCtx) : State :=
  s.modLcx (fun l => { l with ctxs := modAt {} l.ctxs (ctxKey p d c) f })

def CipherCtx.slot (x : CipherCtx) (k : Nat) : KeySlot := if k = 0 then x.slot0 else x.slot1
def CipherCtx.setSlot (x : CipherCtx) (k : Nat) (v : KeySlot) : CipherCtx :=
  if k = 0 then { x with slot0 := v } else { x with slot1 := v }

/-- Counter `i` of a context raised, saturating. -/
def CipherCtx.count (x : CipherCtx) (i : Nat) : CipherCtx := { x with cnt := modNth i (satAdd (2 ^ 32 - 1) 1) x.cnt }

/-- A transmit key leaves use: the last 256 are kept (R295). -/
def retireKey (k : KeySlot) (s : State) : State :=
  s.modLcx (fun l => { l with retired := ({ print := Config.keyPrint k.key, salt := k.salt, mark := k.mark } :: l.retired).take 256 })

/-- The mark a transmit key takes over from the record. -/
def State.recordMark (s : State) (key salt : Nat) : Option Nat :=
  match s.lcx.retired.find? (fun r => r.print == Config.keyPrint key && r.salt == salt) with
  | some r => r.mark
  | none => none

/-- The key check value (R289). -/
def kcv (key salt : Nat) : Nat := Config.aesBlock key (salt * 2 ^ 96) / 2 ^ 96

/-- What Ling answers to an install (R288): the status, and the slot filled. -/
def installKey (p d c k key salt : Nat) (s : State) : Nat × State :=
  let x := s.ctx p d c
  let old := x.slot k
  if s.ctxMode p c = 0 || old.state = 2 then (St.conflict, s)
  else
    let s := if d = 0 && old.state ≠ 0 then retireKey old s else s
    let new : KeySlot := { state := if x.cur = k then 2 else 1, key := key, salt := salt,
                           mark := if d = 0 then s.recordMark key salt else none }
    (St.ok, s.modCtx p d c (fun x => x.setSlot k new))

/-- What Ling answers to an erase (R288). -/
def eraseKey (p d c k : Nat) (s : State) : Nat × State :=
  let old := (s.ctx p d c).slot k
  if old.state = 2 then (St.conflict, s)
  else
    let s := if d = 0 && old.state ≠ 0 then retireKey old s else s
    (St.ok, s.modCtx p d c (fun x => x.setSlot k {}))

/-- A salt that no installed transmit slot holds with the same key (R288), from a draw on. -/
def drawSalt (key : Nat) (s : State) : Nat × State :=
  let (x, s) := s.draw (2 ^ 32)
  let used := s.lcx.ctxs.flatMap (fun e =>
    if e.1 / 32 % 2 = 1 then []
    else ([e.2.slot0, e.2.slot1].filter (fun k => k.state != 0 && k.key == key)).map (·.salt))
  match (List.range (used.length + 1)).find? (fun i => !used.contains ((x + i) % 2 ^ 32)) with
  | some i => ((x + i) % 2 ^ 32, s)
  | none => (x, s)

/-! ### Epoch switch (R290, R291) -/

/-- A switch of a context to slot `k`: its result, and the slots after it. -/
def keySwitch (p d c k : Nat) (s : State) : Nat × State :=
  let x := s.ctx p d c
  let st := (x.slot k).state
  if st = 0 then (St.conflict, s)
  else if st = 3 then (St.quarantined, s)
  else if st = 2 then (St.ok, s)
  else
    let old := x.slot x.cur
    let x := x.setSlot x.cur (if old.state = 2 then { old with state := 1 } else old)
    let x := x.setSlot k { x.slot k with state := 2 }
    (St.ok, s.modCtx p d c (fun _ => { x with cur := k }))

/-- The accepted KEY_EPOCH bits of a valid control block compared (R291): 3 frames in a row that differ are a mismatch, told
once until they agree, and a READY slot becomes current from the next section boundary. -/
def epochCompare (p epoch : Nat) (s : State) : State :=
  iter 32 (fun c s =>
    let x := s.ctx p 1 c
    let k := bitAt epoch c
    if s.ctxMode p c ≠ 1 || k = x.cur then s.modLfr p (fun l => { l with epochRun := setAt 0 l.epochRun c 0 })
    else
      let n := getAt 0 (s.port p).lfr.epochRun c
      let s := s.modLfr p (fun l => { l with epochRun := setAt 0 l.epochRun c (min 3 (n + 1)) })
      let s := s.raiseIf (n == 2) (Ev.LCX_EPOCH_MISMATCH p)
      if 2 ≤ n && (x.slot k).state = 1 then s.modCtx p 1 c (fun x => { x with next := some k }) else s) s

/-! ### Sections (R283, R284, R294 to R300) -/

/-- The 96-bit IV of a context in the section that begins at frame position `n`. -/
def sectionIv (salt n c : Nat) : Nat := salt * 2 ^ 64 + n / 256 % 2 ^ 48 * 2 ^ 16 + n % 256 / 4 * 2 ^ 10 + c * 2 ^ 5

/-- A null section of a context on transmit (R297). -/
def nullSection (p c len : Nat) (s : State) : State :=
  s.modCtx p 0 c (fun x => { x.count 4 with null := true, out := List.replicate len 0, tag := List.replicate 16 0 })

/-- A transmit key quarantined at a section start (R294, R296). -/
def quarantine (p c : Nat) (s : State) : State :=
  s.modCtx p 0 c (fun x => x.setSlot x.cur { x.slot x.cur with state := 3 })

/-- One context at the start of the transmit section that begins at frame position `n`; `plain` is what it will carry. -/
def cipherTx (p c n : Nat) (plain : List Nat) (s : State) : State :=
  let w := s.policy p c
  let x := s.ctx p 0 c
  let k := x.slot x.cur
  if polMode w = 2 then s.modCtx p 0 c (fun x => { x with null := false, out := plain, tag := List.replicate 16 0 })
  else if polMode w ≠ 1 then s.modCtx p 0 c (fun x => { x with null := false, out := [], tag := List.replicate 16 0 })
  else if k.state ≠ 2 then nullSection p c plain.length s
  else
    let budget := 2 ^ min (polBudget w) (s.get R.LCX_BUDGET_LOG)
    if budget ≤ k.used then nullSection p c plain.length ((quarantine p c s).raise (Ev.LCX_BUDGET_END p))
    else if (match k.mark with | some m => decide (n ≤ m) | none => false) then
      nullSection p c plain.length ((quarantine p c s).raise (Ev.LCX_NONCE_REUSE p))
    else
      let iv := sectionIv k.salt n c
      let ivb := bytesBe 12 iv
      let out := Config.gcmCrypt k.key ivb plain
      let used := k.used + ceilDiv plain.length 16
      let warn := !k.warned && decide (15 * budget ≤ 16 * used)
      let k := { k with used := used, mark := some n, warned := k.warned || warn }
      let s := s.modCtx p 0 c (fun x =>
        let x := (x.count 5).setSlot x.cur k
        { x with null := false, iv := iv, out := out, tag := Config.gcmTag k.key ivb [] out })
      s.raiseIf warn (Ev.LCX_BUDGET_WARN p)

/-- The frame position of the next transmit frame. -/
def State.txNext (s : State) (p : Nat) : Nat := let q := s.pdPos (txPd p); if q.first then q.pos else q.pos + 1

/-- Context `c` of port `p` covers the whole payload of a port in through mode. -/
def State.regenerates (s : State) (p c : Nat) : Bool := s.portMode == 1 && polMode (s.policy p c) != 0 && polWhole (s.policy p c)

/-- What a section of a context carries, from the bytes `b` given for it: in through mode a context of the whole payload carries what the other port
has deciphered, as far as it reaches (R26). -/
def sectionTake (p c : Nat) (b : List Nat) (s : State) : List Nat × State :=
  if s.regenerates p c then
    let q := getAt [] s.lcx.onward p
    (q.take b.length ++ b.drop q.length, s.modLcx (fun l => { l with onward := setAt [] l.onward p (q.drop b.length) }))
  else (b, s)

/-- A transmit section starts at the next frame (R294, R296, R297): `plain` lists the bytes of each context. -/
def cipherSectionTx (p : Nat) (plain : List (Nat × List Nat)) (s : State) : State :=
  let n := s.txNext p
  if s.get (R.TXD_STATE_STATE p) ≠ 2 || n % 4 ≠ 0 then s
  else iter 32 (fun c s =>
    let x := sectionTake p c ((plain.find? (·.1 == c)).map (·.2) |>.getD []) s
    cipherTx p c n x.1 (x.2.modCtx p 0 c (fun x => { x with prevTag := x.tag }))) s

/-- A receive section begins: switches that waited for it, and the slot that serves it (R288, R291). -/
def cipherRxBoundary (p : Nat) (s : State) : State :=
  iter 32 (fun c s =>
    let s := match (s.ctx p 1 c).next with
      | some k => (keySwitch p 1 c k (s.modCtx p 1 c (fun x => { x with next := none }))).2
      | none => s
    if s.ctxMode p c = 0 then s
    else s.modCtx p 1 c (fun x =>
      let k := x.slot x.cur
      { x with prev := x.sect, sect := some (if k.state = 2 then some k else none) })) s

/-- The live slot that holds the key a section was received under. -/
def CipherCtx.holder (x : CipherCtx) (k : KeySlot) : Option Nat :=
  if x.slot0.state ≠ 0 && x.slot0.key = k.key && x.slot0.salt = k.salt then some 0
  else if x.slot1.state ≠ 0 && x.slot1.key = k.key && x.slot1.salt = k.salt then some 1
  else none

/-- The section before the one in progress judged (R297 to R300): `cipher` its bytes, `nul` that NULL_CTX was accepted for it. -/
def cipherRx (p c : Nat) (cipher : List Nat) (nul : Bool) (s : State) : State :=
  let q := s.pdPos (rxPd p)
  let x := s.ctx p 1 c
  let w := s.policy p c
  let ais := fun (s : State) => s.modCtx p 1 c (fun x => { x with plain := none })
  if polMode w = 2 then s.modCtx p 1 c (fun x => { x with plain := some cipher })
  else if polMode w ≠ 1 then s
  else if !q.valid then ais s
  else match x.prev with
    | none => ais s
    | some slot =>
      let n := q.pos / 4 * 4 - 4
      let s := s.modCtx p 1 c (fun x => { x with null := nul })
      if nul then ais ((s.modCtx p 1 c (·.count 3)).raise (Ev.LCX_NULL_RX p))
      else match slot with
        | none => ais ((s.modCtx p 1 c (·.count 0)).raise (Ev.LCX_TAG_FAIL p))
        | some k =>
          let mark := match x.holder k with | some i => (x.slot i).mark | none => k.mark
          let iv := sectionIv k.salt n c
          let ivb := bytesBe 12 iv
          let plain := Config.gcmCrypt k.key ivb cipher
          let tag := look c (s.port p).lfr.tags
          let s := s.modLfr p (fun l => { l with tags := dropKey c l.tags })
          let s := s.modCtx p 1 c (fun x => { x.count 5 with iv := iv })
          let fail := fun (i ev : Nat) =>
            let s := (s.modCtx p 1 c (fun x => x.count i)).raise ev
            s.modCtx p 1 c (fun x => { x with plain := if polHold w && polOnFail w then none else some plain })
          if (match mark with | some m => decide (n ≤ m) | none => false) then fail 2 (Ev.LCX_REPLAY p)
          else match tag with
            | none => fail 1 (Ev.LCX_TAG_MISSING p)
            | some t =>
              if t ≠ Config.gcmTag k.key ivb [] cipher then fail 0 (Ev.LCX_TAG_FAIL p)
              else s.modCtx p 1 c (fun x =>
                let x := match x.holder k with
                  | some i => x.setSlot i { x.slot i with mark := some n }
                  | none => x
                { x with plain := some plain })

/-- What a receive section of the whole payload delivers goes to the other port in through mode: AIS, all ones, where it is replaced (R26). -/
def cipherOnward (p c n : Nat) (s : State) : State :=
  if s.regenerates p c then
    let b := ((s.ctx p 1 c).plain).getD (List.replicate n 255)
    s.modLcx (fun l => { l with onward := modAt [] l.onward (1 - p) (· ++ b) })
  else s

/-! ### Commands -/

/-- CIPHER_SECTION_TX (R296). -/
def execCipherSectionTx (p : Nat) (plain : List (Nat × List Nat)) (s : State) : Out := onPort s p (cipherSectionTx p plain s)

/-- CIPHER_SECTION_RX (R298). -/
def execCipherSectionRx (p c : Nat) (cipher : List Nat) (nul : Bool) (s : State) : Out :=
  onPortUnit s p c 32 (cipherOnward p c cipher.length (cipherRx p c cipher nul s))

end Sys2Proof.Machine
end

