-- ==== Sys2Proof/Machine/Transmit.lean ====
section
/-! DEFINITION. The transmitter of a port (chapter 06): its states, the rung and adjustment set in force, the
pre-compensation share. Frames are built in Frame, the exchange of proposals is in Adapt. -/
namespace Sys2Proof.Machine

/-- State of the transmitter (R154). -/
def State.txState (s : State) (p : Nat) : Nat := s.get (R.TXD_STATE_STATE p)

/-- The rung in force on transmit. -/
def State.txRungIx (s : State) (p : Nat) : Nat := s.get (R.TXD_STATE_RUNG p)
def State.txRung (s : State) (p : Nat) : Rung := s.rung p (s.txRungIx p)

/-- The rung in force on direction `d` of port `p`: 0 transmit, 1 receive. -/
def State.dirRungIx (s : State) (p d : Nat) : Nat := if d = 0 then s.txRungIx p else s.rxRungIx p
def State.dirRung (s : State) (p d : Nat) : Rung := s.rung p (s.dirRungIx p d)

/-- Voidness of the set in force on direction `d` judged against the rung in force, and what shows the set (R149, R159). A
direction with no rung in force, its transmitter not in PAYLOAD or its receiver OFF, has nothing to be judged against. -/
def judgeAdj (p d : Nat) (s : State) : State :=
  let a := s.adjActive p d
  let live := if d = 0 then s.get (R.TXD_STATE_STATE p) = 2 else s.get (R.RXD_ACQ_STATE p) ≠ 0
  let void := live && s.rungOk p (s.dirRungIx p d) && s.adjVoid (s.dirRung p d) a
  let bank := s.actBank (adjTab p d) false
  let s := if d = 0 then
      ((s.set (R.TXD_STATE_ADJ_VOID p) void.toNat).set (R.TXD_STATE_ADJ_ID p) a.id).set (R.TXD_STATE_ADJ_BANK p) bank
    else
      ((s.set (R.TXD_ADJ_STAT_RX_VOID p) void.toNat).set (R.TXD_ADJ_STAT_RX_ADJ_ID p) a.id).set (R.TXD_ADJ_STAT_RX_BANK p) bank
  s.raiseIf void (Ev.TXD_ADJ_VOID p)

/-- The set applied on direction `d`: all zero where it was found void. -/
def State.adjApplied (s : State) (p d : Nat) : AdjSet :=
  applied (s.isOn (if d = 0 then R.TXD_STATE_ADJ_VOID p else R.TXD_ADJ_STAT_RX_VOID p)) (s.adjActive p d)

/-- H' × 64 of every subcarrier in force on direction `d`, and the compositions that serve them (R141, R148). -/
def State.dirHqs (s : State) (p d : Nat) : List Nat :=
  let r := s.dirRung p d
  (List.range r.subs).map (fun j => (hqEff r (s.adjApplied p d) j).toNat)
def State.dirComps (s : State) (p d : Nat) : List (List Nat) :=
  let m := (s.dirRung p d).bitsPer
  (s.dirHqs p d).map (fun h => (s.pcsPoint m h).getD [])

/-! ### Pre-compensation share (R152) -/

/-- The latency of the chain is a value the spec gives no figure for; it changes with B, S and the share (R137). -/
def txLatency (p : Nat) (s : State) : State :=
  let (x, s) := s.draw (2 ^ 20)
  s.set (R.TXD_LAT_LATENCY p) x

/-- The bulk delays of the share in force, at the wavelength in TXD_WL (R151). -/
def txDelays (p : Nat) (s : State) : State :=
  let d := bulkDelays (-(s.getI (R.TXD_PRECD_APPLIED_SHARE p))) (s.get (R.TXD_WL_WL p)) (s.txRung p)
  s.modTxd p (fun t => { t with delays := d })

/-- The share in force becomes `c`; a change changes the latency of the chain (R137). -/
def setShare (p : Nat) (c : Int) (s : State) : State :=
  let old := s.getI (R.TXD_PRECD_APPLIED_SHARE p)
  let s := txDelays p (s.setI (R.TXD_PRECD_APPLIED_SHARE p) c)
  if c = old then s else txLatency p s

/-- Share `x` applied, clipped to the limit of the rung in force where the transmitter is in PAYLOAD. -/
def applyShare (p : Nat) (x : Int) (s : State) : State :=
  let lim : Int := (s.txRung p).txReach
  let c := if s.txState p = 2 then clampInt (-lim) lim x else x
  setShare p c ((s.modTxd p (fun t => { t with held := x })).raiseIf (decide (c ≠ x)) (Ev.TXD_PRECD_CLIP p))

/-- After a change of the rung in force: a share beyond a lower limit is clipped (R152); one that the limit no longer clips is not beyond it any more, and
applies in full (DEDUCED, log entry 50). -/
def shareFollow (p : Nat) (s : State) : State :=
  let lim : Int := (s.txRung p).txReach
  let x := (s.port p).txd.held
  let c := clampInt (-lim) lim x
  if lim < (s.getI (R.TXD_PRECD_APPLIED_SHARE p)).natAbs then applyShare p x s
  else setShare p c s

/-- A share that waits takes effect at a swath boundary. -/
def sharePending (p : Nat) (s : State) : State :=
  match (s.port p).txd.share with
  | some x => applyShare p x (s.modTxd p (fun t => { t with share := none }))
  | none => s

/-- A share written by an action at a boundary: at once at a swath boundary, else at the next one. -/
def shareWrite (p : Nat) (x : Int) (boundary : Bool) (s : State) : State :=
  if boundary then applyShare p x (s.modTxd p (fun t => { t with share := none })) else s.modTxd p (fun t => { t with share := some x })

/-! ### States (R154) -/

/-- PAYLOAD is entered: RUNG_INIT comes into force, matchers and codewords restart, the position becomes valid at frame 0 of the
loaded swath, and pending actions below it are stale (R33, R40, R145, R152, R174). -/
def txPayload (p : Nat) (s : State) : State :=
  let s := (s.set (R.TXD_STATE_STATE p) 2).set (R.TXD_STATE_RUNG p) (s.get (R.TXD_CTRL_RUNG_INIT p))
  let s := (tagsClear p s).modTxd p (fun t => { t with
    stream := {}, shaper := {}, buf := [], jcNext := 0, first := true, share := none, frames := [], ready := [] })
  let d := txPd p
  let s := s.modPd d (fun q => { q with frame := 0, valid := true, ever := true, first := true })
  let s := staleBelow d (s.pdPos d).pos s
  judgeAdj p 0 (txLatency p (applyShare p (s.getI (R.TXD_PRECD_SHARE p)) s))

/-- TXD_CTRL.MODE written (R154, R451, R453): the status, and what comes of it. -/
def txModeWrite (p mode : Nat) (s : State) : Nat × State :=
  if 3 ≤ mode then (St.ok, s)
  else if mode ≠ 0 && s.isOn R.THM_SD_STAT_PEND then (St.tempInhibit, s)
  else if mode ≠ 0 && s.get R.THM_SD_STAT_STATE = 1 then (St.conflict, s)
  else if s.txState p = 2 then (St.ok, s.set (R.TXD_CTRL_MODE p) mode)
  else if mode = 2 then
    if s.rungOk p (s.get (R.TXD_CTRL_RUNG_INIT p)) then
      (St.ok, txPayload p ((s.set (R.TXD_CTRL_MODE p) 2).set (R.TXD_STATE_RUNG_BAD p) 0))
    else (St.ok, s.set (R.TXD_STATE_RUNG_BAD p) 1)
  else (St.ok, (s.set (R.TXD_CTRL_MODE p) mode).set (R.TXD_STATE_STATE p) mode)

/-- The frame boundary at which the transmitter leaves PAYLOAD, where MODE holds another value then (R33, R40, R154). -/
def txStop (p : Nat) (s : State) : State :=
  let mode := s.get (R.TXD_CTRL_MODE p)
  if s.txState p ≠ 2 || mode = 2 then s
  else
    let s := s.set (R.TXD_STATE_STATE p) mode
    let s := s.modPd (txPd p) (fun q =>
      { q with swath := if q.first then q.swath else (q.swath + 1) % 2 ^ 48, frame := 0, valid := false, first := false })
    posStops (txPd p) s

/-- The transmitter off at once, without a frame boundary: a region reset of its LP region (R154). -/
def txOff (p : Nat) (s : State) : State :=
  let s := s.set (R.TXD_STATE_STATE p) 0
  s.modPd (txPd p) (fun q =>
    { q with swath := if q.first || !q.valid then q.swath else (q.swath + 1) % 2 ^ 48, frame := 0, valid := false, first := false })

/-- The rung now in force on transmit follows `old` (R137, R152, R157). -/
def txRungTaken (p : Nat) (old : Rung) (s : State) : State :=
  let new := s.txRung p
  let s := s.modTxd p (fun t =>
    { t with stream := { ph := if old.restartsMatch new then 0 else t.stream.ph, ct := if old.restartsCode new then 0 else t.stream.ct } })
  shareFollow p (if old.reacquires new then txLatency p s else s)

/-- A rate point change on the transmit direction (R152, R157). -/
def txRateChange (p i : Nat) (s : State) : State := txRungTaken p (s.txRung p) (s.set (R.TXD_STATE_RUNG p) i)

/-- A rate point change takes the new rung into force on direction `d` (R157). -/
def rateChange (p d i : Nat) (s : State) : State := if d = 0 then txRateChange p i s else rxRateChange p i s

/-- Clipped codes of one frame on lane `l` (R153). -/
def clipCount (p l n : Nat) (s : State) : State :=
  if n = 0 then s
  else countEvent (Ev.TXD_CLIP p) n ((s.addSat (R.TXD_CLIP_COUNT p l) n).set (stickyBit (Ev.TXD_CLIP p)) 1)

end Sys2Proof.Machine
end

