-- ==== Sys2Proof/Machine/Fec.lean ====
section
/-! DEFINITION. The decoder pool (chapter 07): arrival, engines, deadlines, release, statistics; and the groups of decoder
engines and of cipher pipelines, which share one state machine (R191, R192, R302). -/
namespace Sys2Proof.Machine

def State.modFec (s : State) (f : FecState → FecState) : State := { s with fec := f s.fec }

/-! ### Groups (R191 to R194, R302): `l` is false for decoder groups, true for cipher groups -/

def grpField (l : Bool) (g : Nat) : Fld :=
  if l then R.LCX_GRP_STATE_STATE g else if g < 8 then R.FEC_GRP_STATE_0_STATE g else R.FEC_GRP_STATE_1_STATE (g - 8)
def grpCount (l : Bool) : Nat := if l then 8 else 16
def grpDomain (l : Bool) (g : Nat) : Nat := if l then 208 + g else 192 + g
def evGrpOff (l : Bool) : Nat := if l then Ev.LCX_GRP_OFF else Ev.FEC_GRP_OFF
def evGrpReady (l : Bool) : Nat := if l then Ev.LCX_GRP_READY else Ev.FEC_GRP_READY
def evGrpFail (l : Bool) : Nat := if l then Ev.LCX_GRP_FAIL else Ev.FEC_GRP_FAIL

def State.unitState (s : State) (l : Bool) (g : Nat) : Nat := s.get (grpField l g)

/-- Groups that are IN_SERVICE. -/
def State.inService (s : State) (l : Bool) : List Nat := (List.range (grpCount l)).filter (fun g => s.unitState l g == 0)

def direct (l : Bool) (s : State) : Nat := if l then s.lcx.direct else s.fec.direct
def setDirect (l : Bool) (v : Nat) (s : State) : State :=
  if l then s.modLcx (fun x => { x with direct := v }) else s.modFec (fun x => { x with direct := v })

/-! ### Engines (R185, R186) -/

/-- Engines in service, lowest first. -/
def State.engines (s : State) : List Nat := (s.inService false).flatMap (fun g => (List.range 16).map (16 * g + ·))

/-- Codewords of port `p` on engines. -/
def State.engaged (s : State) (p : Nat) : Nat := (s.fec.cws.filter (fun c => c.port == p && c.engine.isSome)).length

/-- The guarantee of port `p` (R186). -/
def State.guarantee (s : State) (p : Nat) : Nat :=
  let e := s.engines.length
  let w0 := s.get R.FEC_SHARE_WGT_0
  let w1 := s.get R.FEC_SHARE_WGT_1
  if s.part = .lyk4801 then (if p = 0 then e else 0) else e * (if p = 0 then w0 else w1) / (w0 + w1)

def Codeword.eligible (c : Codeword) : Bool := !c.conv && !c.stopped && c.engine.isNone && !c.noSlot

/-- Codeword `a` goes before `b`: earlier D, then lower port, then earlier arrival. -/
def Codeword.before (a b : Codeword) : Bool :=
  decide (a.dl * b.baud < b.dl * a.baud) ||
  (a.dl * b.baud == b.dl * a.baud && (decide (a.port < b.port) || (a.port == b.port && decide (a.id < b.id))))

/-- The codeword that goes before all others. -/
def firstOf : List Codeword → Option Codeword
  | [] => none
  | c :: r => some (r.foldl (fun a b => if b.before a then b else a) c)

/-- The slots in use: those of codewords in the pool, and of the one that each port is writing (R178). -/
def State.slotsUsed (s : State) : List Nat :=
  (s.fec.cws.filter (fun c => !c.noSlot)).map (·.slot) ++ [0, 1].filterMap (fun p => (s.port p).rxd.cwq.head?.bind (·.slot))

/-- FEC_OCC and FEC_OCC_PEAK follow the store. -/
def fecShow (s : State) : State :=
  let n := s.slotsUsed.length
  let e := (s.fec.cws.filter (fun c => c.engine.isSome)).length
  let s := (s.set R.FEC_OCC_SLOTS n).set R.FEC_OCC_ENGINES e
  if s.get R.FEC_OCC_PEAK_SLOTS < n then s.set R.FEC_OCC_PEAK_SLOTS n else s

/-- Free engines in service take eligible codewords in the order of R185. -/
def dispatch : Nat → State → State
  | 0, s => s
  | n + 1, s =>
    let busy := s.fec.cws.filterMap (·.engine)
    let el := s.fec.cws.filter (·.eligible)
    let poor := fun p => decide (s.engaged p < s.guarantee p) && el.any (·.port == p)
    let el := if poor 0 || poor 1 then el.filter (fun c => poor c.port) else el
    match s.engines.find? (fun e => !busy.contains e), firstOf el with
    | some e, some c =>
      dispatch n (s.modFec (fun f => { f with cws := f.cws.map (fun x => if x.id = c.id then { x with engine := some e, used := true } else x) }))
    | _, _ => s

/-- Engines filled, and what shows it. -/
def fecRun (s : State) : State := fecShow (dispatch 256 s)

/-! ### Counters (R190) -/

def satPair (lo hi : Fld) (n : Nat) (s : State) : State :=
  let v := satAdd (2 ^ 48 - 1) (s.get lo + 2 ^ 32 * s.get hi) n
  (s.set lo v).set hi (v / 2 ^ 32)
def fecCount (p k n : Nat) (s : State) : State :=
  if n = 0 then s else satPair (R.FEC_CNT_LO_COUNT_L p k) (R.FEC_CNT_HI_COUNT_H p k) n s
def iterHist (p i : Nat) (s : State) : State := satPair (R.FEC_IHIST_LO_COUNT_L p i) (R.FEC_IHIST_HI_COUNT_H p i) 1 s
def marginHist (p b : Nat) (s : State) : State := satPair (R.FEC_MHIST_LO_COUNT_L p b) (R.FEC_MHIST_HI_COUNT_H p b) 1 s

/-- FEC_STAT_CLR: every counter and histogram of a port cleared. -/
def statClear (p : Nat) (s : State) : State :=
  ((s.clearRegs (0x800100 + 0x80 * p) (0x800140 + 0x80 * p)).clearRegs (0x801000 + 0x200 * p) (0x801188 + 0x200 * p)).clearRegs
    (0x801400 + 0x200 * p) (0x801600 + 0x200 * p)

/-! ### Arrival, iteration, deadline (R178 to R181) -/

/-- The first LLR of the codeword that port `p` receives next is written: it takes the lowest free slot, or none is free (R178). -/
def segHead (p : Nat) (s : State) : State :=
  match (s.port p).rxd.cwq with
  | [] => s
  | g :: r =>
    if g.amps = [] || g.slot.isSome || g.noSlot then s
    else
      let used := s.slotsUsed
      match (List.range 8192).find? (fun i => !used.contains i) with
      | some i => fecShow (s.modRxd p (fun x => { x with cwq := { g with slot := some i } :: r }))
      | none => (s.modRxd p (fun x => { x with cwq := { g with noSlot := true } :: r })).raise Ev.FEC_SLOT_OVERRUN

/-- The noise variance of subcarrier `j` in force (R123); before the first window the spec gives none, and it is a free value. -/
def State.noiseOf (s : State) (p free j : Nat) : Nat := (s.port p).rxd.noise.getD j free

/-- The LLRs of the label bits of amplitude `a`, sign first, in 2^−20 (R123). -/
def State.ampLlrs (s : State) (p m free : Nat) (a : RxAmp) : List Int :=
  let pts := pointsOf m (weights m a.hq ((s.pcsPoint m a.hq).getD []))
  (List.range (m / 2)).map (llrOf pts (s.noiseOf p free (a.dim / 4)) a.y)

/-- An LLR of subcarrier `j` in 4 bits (R123). -/
def State.quantAt (s : State) (p j : Nat) (l : Int) : Int :=
  if s.isOn (R.RXD_LLR_CTRL_AUTO p) then llrQuant ((s.port p).rxd.lsat.getD j 256 * 2 ^ 14) 7 l
  else llrQuant (s.get (R.RXD_LLR_CTRL_SCALE p) * 2 ^ 16) 1 l

/-- The LLRs of a codeword in codeword bit order, from those of its amplitudes, sign first (R173, R176): none for a shortened bit. -/
def codeLlrs (rc : Nat) (amps : List (List Int)) : List (Option Int) :=
  let par := cwParity rc
  let x := ((List.range amps.length).zip amps).foldl (fun (x : List Int × List Int) it =>
    if paritySign par amps.length it.1 then (it.2.tail.reverse ++ x.1, it.2.headD 0 :: x.2)
    else (it.2.headD 0 :: it.2.tail.reverse ++ x.1, x.2)) ([], [])
  x.1.reverse.map some ++ List.replicate (384 * ldpcK rc - x.1.length) none ++ x.2.reverse.map some

/-- Word `k` of a slot: 32 LLRs as 4-bit two's complement, none where none of them is stored (R178). -/
def slotWord (l : List (Option Int)) (k : Nat) : Option Nat :=
  let c := (l.drop (32 * k)).take 32
  if c.all (·.isNone) then none
  else some (((List.range 32).map (fun i => toField 4 ((c.getD i none).getD 0) * 16 ^ i)).sum)

/-- Hard decisions: a negative LLR is bit 1; a slot word that reads UNCORR gives 32 LLRs of 0 (R179, R180). -/
def hardOf (l : List (Option Int)) (bad : List Nat) : Nat :=
  wordOf (((List.range l.length).zip l).map (fun x => if bad.contains (x.1 / 32) then 0 else if x.2.getD 0 < 0 then 1 else 0))

/-- |LLR| of a codeword counted towards the percentile of its window (R123). -/
def absCount (amps : List RxAmp) (raw : List (List Int)) (h : Sparse Nat) : Sparse Nat :=
  (amps.zip raw).foldl (fun h x => x.2.foldl (fun h (l : Int) =>
    modAt 0 h (65536 * (x.1.dim / 4) + min 65535 (l.natAbs / 2 ^ 14)) (· + 1)) h) h

/-- Words of a slot that read UNCORR, counted (R179, R372). -/
def memUncorr (slot : Nat) (bad : List Nat) (s : State) : State :=
  if bad = [] then s
  else
    let s := bad.foldl (fun s k => eccCount (sramKey 0 (288 * slot + k % 288)) true s) s
    countEvent Ev.FEC_MEM_UNCORR bad.length (s.set (stickyBit Ev.FEC_MEM_UNCORR) 1)

/-- The last LLR of the codeword that port `p` receives next is written: its LLRs are in the hayrick, and it arrives (R123, R178 to R180). D and the
code of the check are those of the rung in force when its first amplitude came, and stay (DESIGN CHOICE, log entry 171). -/
def cwArrive (x : RxCodeword) (s : State) : State :=
  let p := x.port
  match (s.port p).rxd.cwq with
  | [] => s
  | g :: rest =>
    if !g.closed then s
    else
      let w := s.get R.FEC_POOL_W
      let (free, s) := if (s.port p).rxd.noise = [] then s.draw 0 else (1, s)
      let raw := g.amps.map (s.ampLlrs p g.m free)
      let llrs := codeLlrs g.rc (List.zipWith (fun (a : RxAmp) l => l.map (s.quantAt p (a.dim / 4))) g.amps raw)
      let slot := g.slot.getD 0
      let hard := if g.noSlot then 0 else hardOf llrs x.bad
      let ok := !g.noSlot && ldpcOk g.rc hard
      let c : Codeword :=
        { id := s.fec.nextId, port := p, dl := x.now * g.baud + w * 294912, baud := g.baud, chan := hard, word := hard, rc := g.rc, m := g.m,
          tags := g.amps.map (fun a => ⟨a.dim / 4, a.hq, a.first, a.frame⟩), gap := g.gap, slot := slot, conv := ok, margin := min w 63,
          stopped := ok || g.noSlot, noSlot := g.noSlot }
      let s := if g.noSlot then s else iter 288 (fun k s => match slotWord llrs k with
        | some v => s.sramPut (sramKey 0 (288 * slot + k)) v
        | none => s) s
      let s := s.modRxd p (fun y => { y with cwq := rest, absL := absCount g.amps raw y.absL })
      let s := s.modFec (fun f => { f with cws := f.cws ++ [c], nextId := f.nextId + 1 })
      fecRun (segHead p (memUncorr slot (if g.noSlot then [] else x.bad) s))

def State.modCw (s : State) (id : Nat) (f : Codeword → Codeword) : State :=
  s.modFec (fun x => { x with cws := x.cws.map (fun c => if c.id = id then f c else c) })

/-- An iteration of a codeword on an engine ends in core clock `now` with hard decisions `word`; `bad` words of its slot read UNCORR. -/
def iterEnd (id now word : Nat) (bad : List Nat) (s : State) : State :=
  match s.fec.cws.find? (fun c => c.id == id && c.engine.isSome) with
  | none => s
  | some c =>
    let it := c.iters + 1
    let ok := ldpcOk c.rc word
    let stop := ok || decide (s.get (R.FEC_CAP_EFFECTIVE c.port) ≤ it)
    let margin := if c.baud = 0 then 0 else min 63 ((c.dl - now * c.baud) / 294912)
    fecRun ((memUncorr c.slot bad s).modCw id (fun c =>
      { c with
        word := word, iters := it, conv := ok, margin := (if ok then margin else c.margin), stopped := stop,
        engine := (if stop then none else c.engine) }))

/-- Deadline D of a codeword: decoding stops, the last completed decisions stand. -/
def cwDeadline (id : Nat) (s : State) : State :=
  fecRun (s.modCw id (fun c => { c with stopped := true, engine := none }))

/-! ### Release (R182, R183) -/

/-- Bits set in the low `n` bits of a number. -/
def popCount (n v : Nat) : Nat := ((List.range n).map (bitAt v)).sum

/-- Amplitudes of a codeword, and the systematic bits it carries: all information bits, or L × d − P where it is shortened (R176). -/
def Codeword.amps (c : Codeword) : Nat := c.tags.length
def Codeword.sysBits (c : Codeword) : Nat := c.amps * (c.m / 2) - cwParity c.rc

/-- The bits of a codeword that were sent. -/
def Codeword.sentMask (c : Codeword) : Nat := 2 ^ c.sysBits - 1 + (2 ^ 9216 - 2 ^ (384 * ldpcK c.rc))

/-- A codeword walked back to amplitude indices and systematic sign bits (R173). -/
def Codeword.walk (c : Codeword) : List Nat × List Nat :=
  let par := cwParity c.rc
  let d := c.m / 2
  let r := (List.range c.amps).foldl (fun (st : Nat × List Nat × List Nat) t =>
    let g := ofMsb ((List.range (d - 1)).map (fun i => bitAt c.word (st.1 + i)))
    if paritySign par c.amps t then (st.1 + (d - 1), ungray g :: st.2.1, st.2.2)
    else (st.1 + d, ungray g :: st.2.1, bitAt c.word (st.1 + (d - 1)) :: st.2.2)) (0, [], [])
  (r.2.1.reverse, r.2.2.reverse)

/-- A piece of payload released on port `p`. -/
def addPart (p : Nat) (x : PayPart) (s : State) : State := s.modRxd p (fun r => { r with parts := r.parts ++ [x] })

/-- The oldest matcher block of subcarrier `j` that waits becomes `l`. -/
def fillPart (j : Nat) (l : List Nat) (err : Bool) : List PayPart → List PayPart
  | [] => []
  | .block i :: r => if i = j then .bits l err :: r else .block i :: fillPart j l err r
  | x :: r => x :: fillPart j l err r

def partFill (p j : Nat) (l : List Nat) (err : Bool) (s : State) : State := s.modRxd p (fun r => { r with parts := fillPart j l err r.parts })

/-- The matcher blocks in progress of port `p` are dropped: amplitudes of theirs are lost. -/
def blocksDrop (p : Nat) (s : State) : State :=
  (s.modFec (fun f => { f with
    blocks := keepKeys (fun k => k / 16 != p) f.blocks, blockH := keepKeys (fun k => k / 16 != p) f.blockH,
    errs := keepKeys (fun k => k / 16 != p) f.errs })).modRxd p (fun r =>
      { r with parts := r.parts.map (fun x => match x with | .block _ => .bits [] true | y => y) })

/-- One released amplitude into the block of its subcarrier (R145, R183): a block runs under the H of its first amplitude, a full one is ranked, one that
the matcher left for a new one is a fill block and carries nothing, and amplitudes before any block begins are dropped. -/
def blockTake (c : Codeword) (s : State) (tag : CwTag) (a : Nat) : State :=
  let k := 16 * c.port + tag.sub
  let old := getAt [] s.fec.blocks k
  if !tag.first && old = [] then s
  else
    let s := if tag.first then addPart c.port (.block tag.sub) (if old = [] then s else partFill c.port tag.sub [] false s) else s
    let l := if tag.first then [a] else old ++ [a]
    let h := if tag.first then tag.hq else getAt 0 s.fec.blockH k
    let e := (if tag.first then 0 else getAt 0 s.fec.errs k) ||| (!c.conv).toNat
    if l.length < 512 then
      s.modFec (fun f => { f with blocks := setAt [] f.blocks k l, blockH := setAt 0 f.blockH k h, errs := setAt 0 f.errs k e })
    else
      let out := blockBits c.m h ((s.pcsPoint c.m h).getD []) l
      let bits := out.getD (List.replicate (matchBits h) 0)
      let s := s.modFec (fun f =>
        { f with blocks := setAt [] f.blocks k [], blockH := setAt 0 f.blockH k 0, errs := setAt 0 f.errs k 0,
                 ranked := f.ranked ++ [(tag.sub, bits, e == 1)] })
      let s := partFill c.port tag.sub bits (e == 1) s
      s.raiseIf out.isNone (Ev.FEC_DM_INVALID c.port)

/-- Amplitude `t` of a released codeword towards the framer: the block that begins with it, then its sign where it carries one (R144); `x.2` lists the
sign bits left. -/
def ampTake (c : Codeword) (x : State × List Nat) (it : Nat × CwTag × Nat) : State × List Nat :=
  let s := match it.2.1.frame with | some k => addPart c.port (.frame k) x.1 | none => x.1
  let s := blockTake c s it.2.1 it.2.2
  if paritySign (cwParity c.rc) c.amps it.1 then (s, x.2) else (addPart c.port (.sign (x.2.headD 0) (!c.conv)) s, x.2.tail)

/-- The first codeword of port `p` is released, with its flag and its counts. -/
def cwRelease (p : Nat) (s : State) : State :=
  match s.fec.cws.find? (·.port == p) with
  | none => s
  | some c =>
    let s := s.modFec (fun f => { f with cws := f.cws.filter (fun x => x.id != c.id), ranked := [] })
    let corr := if c.conv then popCount 9216 ((c.chan ^^^ c.word) &&& c.sentMask) else 0
    let starved := !c.conv && !c.used && !c.noSlot
    let s := fecCount p 0 1 s
    let s := fecCount p 1 (c.conv && c.iters == 0).toNat s
    let s := fecCount p 2 corr s
    let s := fecCount p 3 (!c.conv).toNat s
    let s := fecCount p 4 starved.toNat s
    let s := fecCount p 5 c.iters s
    let s := fecCount p 6 (decide (c.amps < cwAmps c.m)).toNat s
    let s := iterHist p c.iters s
    let s := if c.conv then marginHist p c.margin s else s
    let s := s.raiseIf (!c.conv) (Ev.FEC_UNCORR p)
    let s := s.modRxd p (fun r => { r with fecUnc := r.fecUnc + (!c.conv && s.faHolds p).toNat })
    let s := s.raiseIf starved (Ev.FEC_STARVED p)
    let s := if c.conv then
        s.modRxd p (fun r => { r with berErr := r.berErr + corr, berBits := r.berBits + popCount 9216 c.sentMask })
      else s
    let (amps, signs) := c.walk
    let s := s.modFec (fun f => { f with signs := signs, signsErr := !c.conv })
    let s := if c.gap then blocksDrop p s else s
    fecRun (((List.range c.amps).zip (c.tags.zip amps)).foldl (ampTake c) (s, signs)).1

/-- Every codeword of a port discarded unreleased (R194). -/
def fecDiscard (p : Nat) (s : State) : State :=
  let s := s.modRxd p (fun r => { r with cwq := [], gap := true, parts := [] })
  fecRun (blocksDrop p (s.modFec (fun f => { f with cws := f.cws.filter (fun c => c.port != p) })))

/-! ### Cipher capacity (R281) -/

/-- Enciphered slots of one direction: policy words, slot table words, n of the rung, the slots of the port's share. -/
def cipherSlots (policy slots : List Nat) (n : Nat) (lo hi : Nat) : Nat :=
  let pol := policy.map policyWord
  if pol.any (fun w => polMode w == 1 && polWhole w) then 20 * n
  else
    let tribs := (pol.filter (fun w => polMode w == 1)).map polTrib
    ((List.range 960).filter (fun i => decide (lo ≤ i ∧ i < hi) && tribs.contains (slotByte slots i))).length

/-- The slots of port `p` in the slot tables: in a bonded group, those of the member's slices (R27). -/
def State.slotShare (s : State) (p : Nat) : Nat × Nat :=
  if s.bonded then
    (if p = 0 then (0, 20 * s.img.struct.n0) else (20 * s.img.struct.n0, 20 * (s.img.struct.n0 + s.img.struct.n1)))
  else (0, 960)

/-- Enciphered slots of port `p` under given policy words and slot tables. -/
def State.cipherReqWith (s : State) (p : Nat) (policy tx rx : List Nat) : Nat :=
  let sh := s.slotShare p
  max (cipherSlots policy tx (s.txRung p).n sh.1 sh.2) (cipherSlots policy rx (s.rxRung p).n sh.1 sh.2)

/-- The words of the active bank of a table. -/
def State.activeWords (s : State) (t : Nat) : List Nat := s.bankWords t (s.actBank t false)

def State.cipherReq (s : State) (p : Nat) : Nat :=
  let h := s.tableHome p
  s.cipherReqWith p (s.activeWords (s.policyTab p)) (s.activeWords (slotTab h 0)) (s.activeWords (slotTab h 1))

/-- The capacity of port `p` with the groups `gs` in service. -/
def State.cipherCapOf (s : State) (p : Nat) (gs : List Nat) : Nat :=
  let n := (gs.filter (fun g => bitAt (s.get R.LCX_CFG_GRP_PORT) g == p)).length
  (if bitAt (s.get R.LCX_CFG_MASKED) p = 1 then 68 else 136) * n
def State.cipherCap (s : State) (p : Nat) : Nat := min 544 (s.cipherCapOf p (s.inService true))

/-! ### Group commands -/

/-- FALLOW of a group: the status, and what comes of it. -/
def grpFallow (l : Bool) (g : Nat) (s : State) : Nat × State :=
  let st := s.unitState l g
  if st = 0 then
    let rest := (s.inService l).filter (· ≠ g)
    let short := l && [0, 1].any (fun p => s.hasPort p && decide (s.cipherCapOf p rest < s.cipherReq p) &&
      decide (0 < s.cipherReq p))
    if rest = [] || short then (St.conflict, s) else (St.ok, s.set (grpField l g) 1)
  else if st = 6 then (St.ok, (powerDown (grpDomain l g) (s.set (grpField l g) 2)).raise (evGrpOff l))
  else (St.conflict, s)

/-- RETURN of a group. -/
def grpReturn (l : Bool) (g : Nat) (s : State) : Nat × State :=
  if s.unitState l g ≠ 2 then (St.conflict, s)
  else
    let (st, s) := powerUp (grpDomain l g) s
    if st = St.ok then (St.ok, s.set (grpField l g) 3) else (st, s)

/-- A group holds no codeword. -/
def State.grpIdle (s : State) (g : Nat) : Bool := s.fec.cws.all (fun c => match c.engine with | some e => e / 16 != g | none => true)

/-- A draining group goes OFF. -/
def grpDrained (l : Bool) (g : Nat) (s : State) : State :=
  if s.unitState l g = 1 && (l || s.grpIdle g) then
    (powerDown (grpDomain l g) (s.set (grpField l g) 2)).raise (evGrpOff l)
  else s

/-- A group that fails. -/
def grpFail (l : Bool) (g : Nat) (s : State) : State := (s.set (grpField l g) 6).raise (evGrpFail l)

/-- The built-in vectors have run. -/
def grpSelftest (l : Bool) (g : Nat) (ok : Bool) (s : State) : State :=
  if s.unitState l g ≠ 3 then s
  else
    let d := direct l s
    let straight := bitAt d g == 1
    let s := if straight then setDirect l (d - 2 ^ g) s else s
    if !ok then grpFail l g s
    else if straight then fecRun (s.set (grpField l g) 0)
    else
      let s := if l then s else s.modFec (fun f => { f with comps := setAt 0 f.comps g 0 })
      s.set (grpField l g) 4

/-- One comparison in SHADOW. -/
def grpCompare (g : Nat) (same : Bool) (s : State) : State :=
  if s.unitState false g ≠ 4 then s
  else if same then s.modFec (fun f => { f with comps := modAt 0 f.comps g (· + 1) })
  else grpFail false g s

/-- SHADOW ends: of a decoder group once 256 comparisons have completed, of a cipher group as its comparison says. -/
def grpShadowDone (l : Bool) (g : Nat) (ok : Bool) (s : State) : State :=
  if s.unitState l g ≠ 4 then s
  else if !ok then grpFail l g s
  else if !l && decide (getAt 0 s.fec.comps g < 256) then s
  else (s.set (grpField l g) 5).raise (evGrpReady l)

/-- READY groups of a mask join service (R193). -/
def grpJoin (l : Bool) (mask : Nat) (s : State) : State :=
  fecRun (iter (grpCount l) (fun g s => if bitAt mask g = 1 && s.unitState l g = 5 then s.set (grpField l g) 0 else s) s)

/-- A write of a JOIN field on port-direction `d`: at once at a swath boundary, else at its next one. -/
def joinWrite (l : Bool) (d mask : Nat) (boundary : Bool) (s : State) : State :=
  if boundary then grpJoin l mask s
  else if l then s.modLcx (fun x => { x with join := modAt 0 x.join d (· ||| mask) })
  else s.modFec (fun x => { x with join := modAt 0 x.join d (· ||| mask) })

/-- The joins that waited for a swath boundary of port-direction `d`. -/
def joinPending (d : Nat) (s : State) : State :=
  let a := getAt 0 s.fec.join d
  let b := getAt 0 s.lcx.join d
  if a = 0 && b = 0 then s
  else
    let s := s.modFec (fun x => { x with join := setAt 0 x.join d 0 })
    grpJoin true b (grpJoin false a (s.modLcx (fun x => { x with join := setAt 0 x.join d 0 })))

/-- A region applied at start-up or by a region reset (R194, R302): the groups it names run SELFTEST, the others are OFF.
Codewords on engines of the pool wait again, with the iterations they have had (DESIGN CHOICE, log entry 172). -/
def grpApply (l : Bool) (mask : Nat) (s : State) : State :=
  let s := setDirect l 0 s
  let s := iter (grpCount l) (fun g s =>
    let s := powerDown (grpDomain l g) (s.set (grpField l g) 2)
    if bitAt mask g = 0 then s
    else
      let (st, s) := powerUp (grpDomain l g) s
      if st = St.ok then setDirect l (direct l s ||| 2 ^ g) (s.set (grpField l g) 3) else s) s
  fecShow (s.modFec (fun f => { f with cws := f.cws.map (fun c => { c with engine := none }) }))

/-- A group command through its register: the status shown. -/
def grpCommand (l : Bool) (cmd g : Nat) (s : State) : Nat × State :=
  if cmd ≠ 1 && cmd ≠ 2 then (St.ok, s)
  else
    let (st, s) := if cmd = 1 then grpFallow l g s else grpReturn l g s
    (st, s.set (if l then R.LCX_GRP_CMD_STAT_STATUS else R.FEC_GRP_CMD_STAT_STATUS) st)

/-! ### Commands -/

/-- CODEWORD_ARRIVAL (R180). -/
def execCodewordArrival (x : RxCodeword) (s : State) : Out := onPort s x.port (cwArrive x s)

/-- ITERATION_END (R181). -/
def execIterationEnd (id now word : Nat) (s : State) (bad : List Nat := []) : Out := .next (iterEnd id now word bad s)

/-- CODEWORD_DEADLINE (R181). -/
def execCodewordDeadline (id : Nat) (s : State) : Out := .next (cwDeadline id s)

/-- GROUP_FALLOW (R192). -/
def execGroupFallow (g : Nat) (s : State) : Out := let r := grpCommand false 1 g s; onUnit s g 16 (r.2.answer r.1 [])

/-- GROUP_RETURN (R192). -/
def execGroupReturn (g : Nat) (s : State) : Out := let r := grpCommand false 2 g s; onUnit s g 16 (r.2.answer r.1 [])

/-- GROUP_DRAIN_DONE (R192). -/
def execGroupDrainDone (g : Nat) (s : State) : Out := onUnit s g 16 (grpDrained false g s)

/-- GROUP_SELFTEST_DONE (R192). -/
def execGroupSelftestDone (g : Nat) (ok : Bool) (s : State) : Out := onUnit s g 16 (grpSelftest false g ok s)

/-- GROUP_SHADOW_COMPARE (R192). -/
def execGroupShadowCompare (g : Nat) (same : Bool) (s : State) : Out := onUnit s g 16 (grpCompare g same s)

/-- GROUP_SHADOW_DONE (R192). -/
def execGroupShadowDone (g : Nat) (s : State) : Out := onUnit s g 16 (grpShadowDone false g true s)

/-- STAT_CLEAR (R190). -/
def execStatClear (p : Nat) (s : State) : Out := onPort s p (statClear p s)

/-- CIPHER_GROUP_FALLOW (R302). -/
def execCipherGroupFallow (g : Nat) (s : State) : Out := let r := grpCommand true 1 g s; onUnit s g 8 (r.2.answer r.1 [])

/-- CIPHER_GROUP_RETURN (R302). -/
def execCipherGroupReturn (g : Nat) (s : State) : Out := let r := grpCommand true 2 g s; onUnit s g 8 (r.2.answer r.1 [])

/-- CIPHER_GROUP_DRAIN_DONE (R302). -/
def execCipherGroupDrainDone (g : Nat) (s : State) : Out := onUnit s g 8 (grpDrained true g s)

/-- CIPHER_GROUP_SELFTEST_DONE (R302). -/
def execCipherGroupSelftestDone (g : Nat) (ok : Bool) (s : State) : Out := onUnit s g 8 (grpSelftest true g ok s)

/-- CIPHER_GROUP_SHADOW_DONE (R302). -/
def execCipherGroupShadowDone (g : Nat) (ok : Bool) (s : State) : Out := onUnit s g 8 (grpShadowDone true g ok s)

end Sys2Proof.Machine
end

