-- ==== Sys2Proof/Machine/Demap.lean ====
section
/-! DEFINITION. From samples to codewords on a receive direction, stages 2 and 6 to 10 of its chain (R105, R109, R115, R117, R118, R121, R123,
R124, R266), and the codewords of the stream (R174 to R177). -/
namespace Sys2Proof.Machine

/-! ### Front end (R109) -/

/-- The samples of the four lanes through the front-end response of FE_TABLE. -/
def rxFront (p : Nat) (adc : List (List Int)) (s : State) : State :=
  let c := s.curve (s.get (R.RXD_IQC_CTRL_FE_TABLE p)) 4
  s.modRxd p (fun r => { r with front := (List.range adc.length).map (fun l =>
    match c with
    | some w => fir65 (frontTaps w l) (adc.getD l [])
    | none => adc.getD l []) })

/-! ### Equaliser to nonlinear compensation -/

/-- The samples of subcarrier `j`, and its filters. -/
def fieldOf (x : RxFrame) (j : Nat) : List Cx × List Cx := x.field.getD j ([], [])
def State.subTaps (s : State) (p j : Nat) : List (List Cx) := ((s.port p).rxd.taps.drop (4 * j)).take 4

/-- The filters of every subcarrier, stepped by their errors unless FREEZE holds them (R115). -/
def eqAdapt (p mu : Nat) (x : RxFrame) (errs : List (List Cx × List Cx)) (s : State) : State :=
  if s.isOn (R.RXD_EQ_CTRL_FREEZE p) then s
  else
    let taps := (List.range errs.length).flatMap (fun j => adaptTaps mu (errs.getD j ([], [])) (fieldOf x j) (s.subTaps p j))
    s.modRxd p (fun r => { r with taps := taps })

/-- What carrier recovery takes from RXD_CR_CTRL (R117). -/
def State.carrier (s : State) (p : Nat) : Carrier :=
  { common := s.isOn (R.RXD_CR_CTRL_COMMON p), win := s.get (R.RXD_CR_CTRL_PILOT_WIN p), block := s.get (R.RXD_CR_CTRL_BLOCK p),
    tests := 16 * 2 ^ s.get (R.RXD_CR_CTRL_BPS_PHASES p) }

/-- The level of header symbols and pilots of subcarrier `j` (R147): the boost is the one this port sends with. -/
def State.pilotAt (s : State) (p j : Nat) : Nat :=
  pilotLevel (dataEnergy (s.rxRung p).bitsPer ((s.dirHqs p 1).getD j 0) ((s.dirComps p 1).getD j [])) (s.get (R.TXD_PILOT_PBOOST p))

/-- What every symbol of subcarrier `j` is taken to be. -/
def State.decided (s : State) (p j : Nat) (z : List Cx × List Cx) : List Cx × List Cx :=
  let r := s.rxRung p
  let level := s.pilotAt p j
  let one := fun q (l : List Cx) =>
    let pil := pilotSigns j q r.pilots
    List.zipWith (fun t y => decide2D r (levels r.bitsPer) level pil t y) (List.range l.length) l
  (one 0 z.1, one 1 z.2)

/-- The chips of the packet that correlator 0 receives, over the frame (R266): none where the correlator is not in a packet. -/
def State.rxChips (s : State) (p : Nat) (x : SedgeField) : List Int :=
  let st := s.corrState p 0
  if !s.isOn (R.SGP_RX_CTRL_CANCEL_EN p) || st < 2 then []
  else
    let code := goldCode (s.get (R.SGP_CORR_CODE p 0))
    let len := if st = 4 then some (((s.port p).sgp.corr.getD 0 {}).len) else none
    (List.range 256).map (fun i => packetChip code len x.hard (x.chip + i))

/-- The overlay taken off the recovered subcarriers (R105 stage 8). -/
def State.cancelled (s : State) (p : Nat) (x : SedgeField) (z : List (List Cx × List Cx)) : List (List Cx × List Cx) :=
  let chips := s.rxChips p x
  if chips = [] then z
  else (List.range z.length).map (fun j =>
    let g := x.gain.getD j ({}, {})
    let y := z.getD j ([], [])
    (cancelChips z.length chips g.1 y.1, cancelChips z.length chips g.2 y.2))

/-- The first-order perturbation taken off, where compensation is active (R121, R122): from the symbols decided on each subcarrier, and with INTER on
its neighbours. -/
def State.compensated (s : State) (p : Nat) (z : List (List Cx × List Cx)) : List (List Cx × List Cx) :=
  if !s.isOn (R.RXD_NLC_STAT_ACTIVE p) then z
  else
    let t := s.get (R.RXD_NLC_CTRL_TABLE p)
    let coefs := nlcCoefs (s.tabWord t false) (s.rxRung p).sc (s.getI (R.RXD_NLC_STAT_SEL_LAUNCH p)) (s.get (R.RXD_NLC_STAT_SEL_SPANS p))
      (bits (s.tabWord t false 0) 23 8) 1
    let pairs := fun (l : List Cx) => l.map (fun y => (y.re, y.im))
    let dec := (List.range z.length).map (fun j => let d := s.decided p j (z.getD j ([], [])); (pairs d.1, pairs d.2))
    let near := fun j => if s.isOn (R.RXD_NLC_CTRL_INTER p) && 2 ≤ z.length then
        (if j = 0 then [] else [dec.getD (j - 1) ([], [])]) ++ (if j + 1 < z.length then [dec.getD (j + 1) ([], [])] else [])
      else []
    (List.range z.length).map (fun j =>
      let own := dec.getD j ([], [])
      let side := (near j).flatMap (fun d => [d.1, d.2])
      let off := fun q (l : List Cx) => List.zipWith (fun t y =>
        let v := Config.perturbation coefs own.1 own.2 side q t
        cxSub y ⟨v.1, v.2⟩) (List.range l.length) l
      let y := z.getD j ([], [])
      (off 0 y.1, off 1 y.2))

/-- The symbols of a frame of every subcarrier, from the samples that dispersion compensation delivers, and what the stages keep: in EQ the filters
adapt by the constant-modulus rule, from FRAME on by least mean squares on pilots and decisions (R115, R117). -/
def rxField (p : Nat) (x : RxFrame) (s : State) : List (List Cx × List Cx) × State :=
  let s := rxFront p x.adc s
  let st := s.rxState p
  if x.field = [] || st < 4 then ([], s)
  else
    let r := s.rxRung p
    let js := List.range r.subs
    let z := js.map (fun j => equalise (s.subTaps p j) (fieldOf x j))
    if st = 4 then
      let r2 := Config.modulus r.bitsPer
      ([], eqAdapt p (s.get (R.RXD_EQ_CTRL_MU_ACQ p)) x (z.map (fun y => (y.1.map (modulusErr r2), y.2.map (modulusErr r2)))) s)
    else
      let ph := carrierPhases r (levels r.bitsPer) (s.carrier p) z (s.port p).rxd.offs
      let y := js.map (fun j =>
        let a := (ph.getD j ([], [])).1
        (turnBack (z.getD j ([], [])).1 a, turnBack (z.getD j ([], [])).2 a))
      let errs := js.map (fun j =>
        let a := (ph.getD j ([], [])).1
        let d := s.decided p j (y.getD j ([], []))
        let err := fun (d w : List Cx) => List.zipWith cxSub (List.zipWith (fun v t => cxTurn (turnOf t) v) d a) w
        (err d.1 (z.getD j ([], [])).1, err d.2 (z.getD j ([], [])).2))
      let t := eqAdapt p (s.get (R.RXD_EQ_CTRL_MU_TRK p)) x errs (s.modRxd p (fun r => { r with offs := ph.map (·.2) }))
      (s.compensated p (s.cancelled p x.sedge y), t)

/-- The Y output of a subcarrier re-initialised as the orthogonal of X (R115). -/
def eqSingular (p j : Nat) (s : State) : State :=
  if s.rxState p < 4 then s
  else
    let taps := (s.port p).rxd.taps
    (s.modRxd p (fun r => { r with taps := taps.take (4 * j) ++ orthoTaps ((taps.drop (4 * j)).take 4) ++ taps.drop (4 * j + 4) })).raise
      (Ev.RXD_EQ_SINGULAR p)

/-! ### Codewords of the stream (R118, R124, R174 to R177) -/

/-- The newest `n` amplitudes of subcarrier `j` turned back by `k` quarter turns: a list of amplitudes, newest first. -/
def turnNewest (j k : Nat) : Nat → List RxAmp → List RxAmp
  | _, [] => []
  | 0, l => l
  | n + 1, a :: r => if a.dim / 4 = j then a.turn k :: turnNewest j k n r else a :: turnNewest j k (n + 1) r

/-- A cycle slip corrected (R118): the last `n` data symbols of subcarrier `j`, on both polarisations, that have not gone to the hayrick yet. -/
def cycleSlip (p j n k : Nat) (s : State) : State :=
  if s.rxState p < 4 then s
  else
    let cut := fun (gs : List RxSeg) =>
      let flat := (turnNewest j k (4 * n) (gs.flatMap (·.amps)).reverse).reverse
      (gs.foldl (fun (x : List RxSeg × List RxAmp) g => (x.1 ++ [{ g with amps := x.2.take g.amps.length }], x.2.drop g.amps.length)) ([], flat)).1
    (s.modRxd p (fun r => { r with cwq := cut r.cwq })).raise (Ev.RXD_CYCLE_SLIP p)

/-- The amplitudes of a frame into codewords of `a`: `ct` of the one in progress have gone by, and where it is not being collected they are
dropped; `new` is a codeword that begins. -/
def cwFill (a : Nat) (new : RxSeg) : Nat → Nat → Bool → List RxAmp → List RxSeg → List RxSeg
  | 0, _, _, _, q => q
  | f + 1, ct, gap, amps, q =>
    if amps = [] then q
    else
      let now := amps.take (a - ct)
      let whole := ct + now.length = a
      let q := if ct = 0 then q ++ [{ new with amps := now, closed := whole, gap := gap }]
        else match q.reverse with
          | g :: r => if g.closed then q else r.reverse ++ [{ g with amps := g.amps ++ now, closed := whole }]
          | [] => q
      cwFill a new f 0 (gap && ct ≠ 0) (amps.drop (a - ct)) q

/-- The codeword in progress at a change that restarts the stream (R176): shortened where parity fits, else its amplitudes are fill. -/
def cwCut (p : Nat) (s : State) : State :=
  match (s.port p).rxd.cwq.reverse with
  | g :: r =>
    if g.closed then s
    else if g.amps.length ≤ cwParity g.rc then
      fecCount p 7 g.amps.length (s.modRxd p (fun x => { x with cwq := r.reverse }))
    else s.modRxd p (fun x => { x with cwq := r.reverse ++ [{ g with closed := true }] })
  | [] => s

/-- The data symbols of a frame demapped (R124): only under frame alignment. Symbols that are not followed are lost to the codeword in progress. -/
def frameDemap (p : Nat) (syms : List (List Cx × List Cx)) (restart : Bool) (s : State) : State :=
  let r := s.rxRung p
  if syms = [] then (cwDrop p s).modRxd p (fun x => { x with gap := true })
  else
    let x := (s.port p).rxd
    let amps := ofFrame (s.port p).lfr.frameNo (ampsOf r (s.dirHqs p 1) x.stream.ph syms)
    let q := cwFill (cwAmps r.bitsPer) { m := r.bitsPer, rc := r.rc, baud := r.baud } (amps.length + 1) x.stream.ct x.gap amps x.cwq
    let s := s.modRxd p (fun y => { y with cwq := q, gap := x.gap && q.length = x.cwq.length })
    segHead p (if restart then cwCut p s else s)

end Sys2Proof.Machine
end

