-- ==== Sys2Proof/Machine/Monitor.lean ====
section
/-! DEFINITION. Performance counters in level mode, snapshots, the preset unit, and the field monitor (chapter 19). -/
namespace Sys2Proof.Machine

/-! ### Level mode (R464) -/

/-- Client lane `n` is enabled for receive and not ON. -/
def State.laneLost (s : State) (n : Nat) : Bool := s.isOn (R.CLI_LANE_CTRL_RX_EN n) && s.laneState n 1 != 3

/-- The condition of counter `i`, for the events that have one. -/
def State.condition (s : State) (i : Nat) : Bool :=
  let port := fun (f : Nat → Nat) (c : Nat → Bool) => [0, 1].any (fun p => s.hasPort p && i == f p && c p)
  port Ev.RXD_LOS (fun p => (s.port p).rxd.los) ||
  port Ev.RXD_LOCK_LOST (fun p => s.isOn (R.RXD_CTRL_EN p) && s.rxState p != 7) ||
  port Ev.LFR_FA_LOST (fun p => s.isOn (R.RXD_CTRL_EN p) && !s.isOn (R.LFR_ALIGN_STAT_FA p)) ||
  port Ev.LFR_SA_LOST (fun p => s.isOn (R.RXD_CTRL_EN p) && !s.isOn (R.LFR_ALIGN_STAT_SA p)) ||
  port Ev.LFR_BOND_SKEW (fun p => s.isOn (R.LFR_ALIGN_STAT_SQUELCH p)) ||
  port Ev.CNV_SYN_UNLOCK (fun p => !s.isOn (R.CNV_SYN_SYN_LOCK p)) ||
  port Ev.CNV_LO_UNLOCK (fun p => !s.isOn (R.CNV_SYN_LO_LOCK p)) ||
  (i == Ev.CLI_LANE_LOS && (List.range 64).any s.laneLost) ||
  (3840 ≤ i && i < 4096 && i % 4 == 0 && s.laneLost ((i - 3840) / 4)) ||
  (List.range 3).any (fun n => i == Ev.CLK_DPn_EV (5 * n + 2) && s.dpStateOf n == 3) ||
  (i == Ev.THM_THROTTLE && s.get R.THM_LEVEL_LEVEL != 0) || (i == Ev.THM_WARN && s.isOn R.THM_STATE_WARN)

/-- Bits that are 1 in a bank of 192 bit registers from `base` on. -/
def State.onBits (s : State) (base : Nat) : List Nat :=
  (s.regs.filter (fun e => 32 * base ≤ e.1 && e.1 < 32 * (base + 768) && (e.1 - 32 * base) % 128 < 32 && e.2 == 1)).map (fun e =>
    (e.1 - 32 * base) / 128 * 32 + (e.1 - 32 * base) % 32)

/-- One tick of device time ends: every level counter whose event occurred, or whose condition held as the tick began or holds now, adds 1. -/
def levelTick (s : State) : State :=
  let on := s.onBits 0x200400
  let now := on.filter s.condition
  let due := on.filter (fun i => s.pmc.tick.contains i || s.pmc.held.contains i || now.contains i)
  let s := { s with pmc := { s.pmc with tick := [], held := now } }
  due.foldl (fun s i => countUp i 1 s) s

/-! ### Snapshots (R22, R467) -/

/-- The position of a snapshot: a swath boundary of `pd`. -/
def snapPos (pd swath : Nat) (s : State) : State :=
  ((s.set R.PMC_SNAP_POS_LO_SW_L swath).set R.PMC_SNAP_POS_HI_SW_H (swath / 2 ^ 32)).set R.PMC_SNAP_POS_HI_PD pd

/-- A snapshot at the swath boundary of `pd`. -/
def snapTake (pd swath : Nat) (s : State) : State :=
  let n := (s.get R.PMC_SNAP_SEQ_LO_SEQ_L + 2 ^ 32 * s.get R.PMC_SNAP_SEQ_HI_SEQ_H + 1) % 2 ^ 48
  let s := { s with pmc := { s.pmc with shd := s.pmc.cnt, shdOvf := (s.onBits 0x200100).map (fun i => (i, 1)) } }
  let s := (s.set R.PMC_SNAP_SEQ_LO_SEQ_L n).set R.PMC_SNAP_SEQ_HI_SEQ_H (n / 2 ^ 32)
  (snapPos pd swath s).raise Ev.PMC_SNAP

/-! ### The preset unit (R468) -/

/-- The period set by a write of PMC_PRESET_HI; the count restarts. -/
def presetSet (s : State) : State :=
  { s with pmc := { s.pmc with period := s.get R.PMC_PRESET_LO_PERIOD_L + 2 ^ 32 * s.get R.PMC_PRESET_HI_PERIOD_H, presetCnt := 0 } }

/-- The unit has reached its period. -/
def State.presetDue (s : State) : Bool := s.pmc.period != 0 && decide (s.pmc.period ≤ s.pmc.presetCnt)

/-- The count returns to zero. -/
def presetOver (s : State) : State := ({ s with pmc := { s.pmc with presetCnt := 0 } }).raise Ev.PMC_PRESET

/-! ### The field monitor (R469 to R479) -/

/-- The group of chain `c` is on while a chain of it is enabled (R455); the status of its power-up. -/
def fmnPower (c : Nat) (s : State) : Nat × State :=
  let any := (List.range 4).any (fun k => s.isOn (R.FMN_CTRL_EN (c / 4 * 4 + k)))
  if any then powerUp (240 + c / 4) s else (St.ok, powerDown (240 + c / 4) s)

/-- The input of chain `c` has a valid value (R472). -/
def State.fmnValid (s : State) (c : Nat) : Bool :=
  let p := s.get (R.FMN_SRC_PORT c)
  let src := s.get (R.FMN_SRC_SRC c)
  let sel := s.get (R.FMN_SRC_SEL c)
  if src = 6 then sel < 4 && s.corrState p sel != 0
  else !(src ≤ 4 && s.rxState p != 7) && (src == 4 || decide (sel < (s.rxRung p).subs))

/-- The source of timing of chain `c`: 1 the line, 2 the local count (R471). -/
def State.fmnTiming (s : State) (c : Nat) : Nat :=
  let p := s.get (R.FMN_SRC_PORT c)
  let on := if s.isOn (R.FMN_CTRL_RATE c) then s.isOn (R.LFR_ALIGN_STAT_SA p) else s.isOn (R.LFR_ALIGN_STAT_FA p)
  if on then 1 else 2

/-- A sample through half-band stage `i`: every second one gives an output. -/
def fmnStage (i : Nat) (x : FmnChain) (y : FmnSample) : FmnChain × Option FmnSample :=
  let w := (y :: x.hbs.getD i []).take 31
  let n := x.taken.getD i 0 + 1
  let x := { x with hbs := x.hbs.set i w, taken := x.taken.set i n }
  (x, if n % 2 = 0 then some { v := Config.halfBand ((List.range 31).map (fun k => (w.getD k {}).v)), hold := w.any (·.hold) } else none)

/-- A sample through the first `h` stages. -/
def fmnStages : Nat → Nat → FmnChain → FmnSample → FmnChain × Option FmnSample
  | 0, _, x, y => (x, some y)
  | h + 1, i, x, y =>
    match fmnStage i x y with
    | (x, some z) => fmnStages h (i + 1) x z
    | (x, none) => (x, none)

/-- Coefficient h[k] of the FIR of chain `c` (R475). -/
def State.fmnCoef (s : State) (c n k : Nat) : Int := signed 18 (s.get (R.FMN_COEF_COEF c (min k (n - 1 - k))))

/-- The detector on a settled output (R479). -/
def fmnDetect (c : Nat) (v : Int) (s : State) : State :=
  let p := s.get (R.FMN_SRC_PORT c)
  if s.get (R.FMN_SRC_SRC c) ≠ 1 || s.get (R.FMN_SRC_COMP c) ≠ 0 || !s.isOn (R.FMN_DET_HI_DET_EN c) then s
  else
    let above := s.isOn (R.FMN_STAT_ABOVE c)
    let hit := fun (kind : Nat) (s : State) =>
      let s := ((s.set (R.FMN_STAT_ABOVE c) (1 - kind)).set (R.FMN_DET_STAT_KIND c) kind).set (R.FMN_DET_STAT_RATE c) (toField 24 (v / 256))
      let s := s.set (R.FMN_DET_SW_SWATH c) ((s.pdPos (rxPd p)).swath)
      senseSend p c kind (toField 32 (v / 256)) (s.raise (if kind = 0 then Ev.FMN_SOP_RISE else Ev.FMN_SOP_FALL))
    if !above && decide (256 * (s.get (R.FMN_DET_HI_THR c) : Int) ≤ v) then hit 0 s
    else if above && decide (v < 256 * (s.get (R.FMN_DET_LO_THR c) : Int)) then hit 1 s
    else s

/-- An output of chain `c` (R476, R478). -/
def fmnOutput (c : Nat) (s : State) : State :=
  let n := s.get (R.FMN_CTRL_N c)
  let w := (s.chain c).fir
  let sum := ((List.range n).map (fun k => s.fmnCoef c n k * (w.getD k {}).v)).sum / 131072
  let hold := (w.take n).any (·.hold)
  let v := clampInt (-2147483647) 2147483647 sum
  let sat := decide (v ≠ sum)
  let left := s.get (R.FMN_STAT_SETTLE_LEFT c)
  let seq := s.get (R.FMN_COUNT_LO_COUNT_L c) + 2 ^ 32 * s.get (R.FMN_COUNT_HI_COUNT_H c)
  let ix := s.get (R.FMN_STAT_WIDX c)
  let e := toField 32 v + 2 ^ 32 * (decide (0 < left)).toNat + 2 ^ 33 * hold.toNat + 2 ^ 34 * sat.toNat + 2 ^ 40 * (seq % 2 ^ 24)
  let s := { s with fmn := { s.fmn with ring := setAt 0 s.fmn.ring (1024 * c + ix) e } }
  let s := ((s.set (R.FMN_STAT_WIDX c) (ix + 1)).set (R.FMN_COUNT_LO_COUNT_L c) (seq + 1)).set (R.FMN_COUNT_HI_COUNT_H c) ((seq + 1) / 2 ^ 32)
  let s := if sat then (s.set (R.FMN_STAT_SAT c) 1).raise Ev.FMN_SATURATE else s
  if 0 < left then s.set (R.FMN_STAT_SETTLE_LEFT c) (left - 1)
  else
    let s := if (s.chain c).begun then s else (s.modChain c (fun x => { x with begun := true })).raise Ev.FMN_SETTLED
    if hold then s else fmnDetect c v s

/-- Input 0 records its frame position (R477). -/
def fmnFirst (c : Nat) (s : State) : State :=
  if (s.chain c).timing ≠ 0 then s
  else
    let q := s.pdPos (rxPd (s.get (R.FMN_SRC_PORT c)))
    ((s.set (R.FMN_T0_LO_P_L c) q.pos).set (R.FMN_T0_HI_P_H c) (q.pos / 2 ^ 32)).set (R.FMN_T0_HI_VALID c) q.valid.toNat

/-- The energy of tap `k` of a subcarrier over its four filters. -/
def tapEnergy (h : List (List Cx)) (k : Nat) : Nat := (h.map (fun f => cxNorm (f.getD k {}))).sum

/-- 2^24 times the share of all taps but the centre (`tap` = 0), or of tap `tap`, in the energy of a subcarrier's filters (R470). -/
def tapShare (h : List (List Cx)) (tap : Nat) : Nat :=
  let n := (h.headD []).length
  let total := ((List.range n).map (tapEnergy h)).sum
  let part := if tap = 0 then total - tapEnergy h (n / 2) else tapEnergy h (tap - 1)
  2 ^ 24 * part / total

/-- The quantity of chain `c` for one frame, in 1/256 of the unit of R470: tap energy stands in the filters in force, dispersion is the one applied
plus the residual `x`, and the others are `x` as measured. -/
def State.fmnQuantity (s : State) (c : Nat) (x : Int) : Int :=
  let p := s.get (R.FMN_SRC_PORT c)
  let src := s.get (R.FMN_SRC_SRC c)
  if src = 2 then tapShare (s.subTaps p (s.get (R.FMN_SRC_SEL c))) (s.get (R.FMN_SRC_TAP c))
  else if src = 4 then 256 * (s.cd (R.RXD_CD_APPLIED_CD p) + x)
  else 256 * x

/-- The mean of 256 frame values, none where one of them has no valid value. -/
def swathMean (l : List (Option Int)) : Option Int := if l.any (·.isNone) then none else some ((l.map (·.getD 0)).sum / 256)

/-- Chain `c` takes an input, in 1/256 of its unit: DC blocker, half-band stages, FIR (R472 to R476). -/
def fmnTake (c : Nat) (q : Option Int) (s : State) : State :=
  let v := q.getD (((s.chain c).last).getD 0)
  let mode := s.get (R.FMN_CTRL_DC_MODE c)
  let e0 := (s.chain c).dc
  let e := if mode = 0 then 0 else if mode = 1 then e0 + (v - e0) / 2 ^ s.get (R.FMN_CTRL_DC_TC c) else e0
  let s := (s.modChain c (fun y => { y with dc := e, last := some v })).set (R.FMN_DCEST_EST c) (toField 32 e)
  match fmnStages (s.get (R.FMN_CTRL_HB c)) 0 (s.chain c) { v := v - e, hold := q.isNone } with
  | (y, none) => s.modChain c (fun _ => y)
  | (y, some z) =>
    let s := s.modChain c (fun _ => { y with fir := (z :: y.fir).take 255, firN := y.firN + 1 })
    if (y.firN + 1) % (s.get (R.FMN_CTRL_DM1 c) + 1) = 0 then fmnOutput c s else s

/-- A frame value of chain `c`, of timing `tm`: an input at the frame rate; at the swath rate the mean of 256, of a received swath from its frame 0
on (R471). -/
def fmnFrame (c tm : Nat) (q : Option Int) (s : State) : State :=
  let l := (s.chain c).frames
  let swath := s.isOn (R.FMN_CTRL_RATE c)
  if swath && l.isEmpty && tm = 1 && (s.pdPos (rxPd (s.get (R.FMN_SRC_PORT c)))).frame ≠ 0 then s
  else
    let s := (fmnFirst c s).modChain c (fun y => { y with timing := tm })
    if !swath then fmnTake c q s
    else if l.length < 255 then s.modChain c (fun y => { y with frames := q :: l })
    else fmnTake c (swathMean (q :: l)) (s.modChain c (fun y => { y with frames := [] }))

/-- A frame of the port of chain `c` ends, received or local: what the chain measured in it is `x` (R469 to R478). -/
def fmnInput (c : Nat) (x : Int) (s : State) : State :=
  let p := s.get (R.FMN_SRC_PORT c)
  if !s.isOn (R.FMN_CTRL_EN c) || !s.domainOn (240 + c / 4) || s.get (R.FMN_SRC_SRC c) = 0 || s.rxState p = 0 then s
  else
    let tm := s.fmnTiming c
    let s := if s.isOn (R.FMN_STAT_STALLED c) || ((s.chain c).timing ≠ 0 && (s.chain c).timing ≠ tm) then fmnReset c (s.set (R.FMN_STAT_STALLED c) 0) else s
    fmnFrame c tm (if s.fmnValid c then some (s.fmnQuantity c x) else none) s

/-- What a write of FMN_CTRL_c or FMN_SRC_c does after its fields are taken; `old` is the state before it (R471, R478). PORT 1 is reserved on the LYK4801 (R470). -/
def fmnChanged (c : Nat) (old s : State) : Nat × State :=
  let s := if s.hasPort (s.get (R.FMN_SRC_PORT c)) then s else s.set (R.FMN_SRC_PORT c) (old.get (R.FMN_SRC_PORT c))
  let on := s.isOn (R.FMN_CTRL_EN c)
  let (st, s) := if on = old.isOn (R.FMN_CTRL_EN c) then (St.ok, s) else fmnPower c s
  if st ≠ St.ok then (st, s.set (R.FMN_CTRL_EN c) 0)
  else
    let changed := fun (f : Fld) => s.get f ≠ old.get f
    let fs := [R.FMN_SRC_TAP c, R.FMN_SRC_SEL c, R.FMN_SRC_COMP c, R.FMN_SRC_PORT c, R.FMN_SRC_SRC c, R.FMN_CTRL_RATE c, R.FMN_CTRL_HB c,
      R.FMN_CTRL_N c, R.FMN_CTRL_DM1 c]
    let s := if (on && !old.isOn (R.FMN_CTRL_EN c)) || fs.any (fun f => decide (changed f)) then fmnReset c s
      else if changed (R.FMN_CTRL_DC_MODE c) && s.get (R.FMN_CTRL_DC_MODE c) = 1 then
        (s.modChain c (fun y => { y with begun := false })).set (R.FMN_STAT_SETTLE_LEFT c) (s.fmnSettle c)
      else s
    let s := if on && s.rxState (s.get (R.FMN_SRC_PORT c)) = 0 then
        (if s.isOn (R.FMN_STAT_STALLED c) then s else (s.set (R.FMN_STAT_STALLED c) 1).raise Ev.FMN_STALL)
      else s.set (R.FMN_STAT_STALLED c) 0
    (St.ok, s)

/-! ### Commands -/

/-- R464. -/
def execCounterLevelTick (s : State) : Out := .next (levelTick s)

/-- R471: a frame value, in the unit of R470. -/
def execFmnInput (c : Nat) (x : Int) (s : State) : Out := onUnit s c 16 (fmnInput c x s)

end Sys2Proof.Machine
end

