-- ==== Sys2Proof/Machine/Mce.lean ====
section
/-! DEFINITION. The message cipher engine (R304 to R311): jobs, chaining state, results, key loading. -/
namespace Sys2Proof.Machine

/-! ### Descriptors (R305) -/

def jOp (d : Nat) : Nat := bits d 3 0
def jPrio (d : Nat) : Nat := bits d 5 4
def jSess (d : Nat) : Nat := bits d 13 8
def jFirst (d : Nat) : Bool := bitAt d 14 == 1
def jLast (d : Nat) : Bool := bitAt d 15 == 1
def jLen (d : Nat) : Nat := bits d 31 16
def jAadb (d : Nat) : Nat := bits d 39 32
def jAddr (d : Nat) : Nat := bits d 127 64
def jGcm (d : Nat) : Bool := jOp d == 1 || jOp d == 2

/-- A descriptor with another operation. -/
def withOp (op d : Nat) : Nat := mixBits 15 d op

def State.modMce (s : State) (f : MceState → MceState) : State := { s with mce := f s.mce }

/-- Masters that have a bank. -/
def mceMaster (m : Nat) : Bool := m == M.host || m == M.ling || m == 6 || m == 7 || m == M.sedge

/-- The session's right for a master (R304, R305). -/
def Session.allows (x : Session) (m : Nat) : Bool :=
  m == M.ling || (if m = M.sedge then bitAt x.rights 1 == 1 else bitAt x.rights 2 == 1)
def Session.sensitive (x : Session) : Bool := bitAt x.rights 0 == 1

/-- Jobs that are not yet complete, in the order accepted last. -/
def MceState.open (x : MceState) : List Job := x.susp ++ x.running.toList ++ x.queue

/-- Bytes of a job's buffer. -/
def State.jobSize (s : State) (d : Nat) : Nat :=
  if jGcm d then (if jFirst d then 16 + 16 * jAadb d else 0) + jLen d + (if jLast d then 16 else 0)
  else if jOp d = 3 || jOp d = 5 then jLen d + 8
  else if 7 ≤ jOp d then (if (s.sess (jSess d)).sensitive then 72 else 64)
  else jLen d

/-- Data bytes of the segment of a session before a new one. -/
def State.lastSegment (s : State) (n : Nat) : Nat :=
  match (s.mce.open.filter (fun j => jSess j.desc == n && jGcm j.desc)).getLast? with
  | some j => jLen j.desc
  | none => (s.sess n).chain.len

/-- The verdict on a submission (R305). -/
def State.jobVerdict (s : State) (m d : Nat) : Nat :=
  let x := s.sess (jSess d)
  let t := targetOf (jAddr d)
  let lingStore := t.1 == 10
  if jOp d = 0 || 8 < jOp d || bits d 63 40 ≠ 0 || 2 ^ 48 ≤ jAddr d then St.decerr
  else if !x.allows m || ((jOp d = 4 || jOp d = 6) && m ≠ M.ling && !lingStore) then St.denied
  else if x.key.isNone then St.conflict
  else if jGcm d && !jFirst d && s.lastSegment (jSess d) % 16 ≠ 0 then St.conflict
  else if t.2 < jAddr d + s.jobSize d then St.length
  else if 16 ≤ (s.mce.queue.filter (·.bank == bankOf m)).length then St.full
  else St.ok

/-- The job that goes next: descending PRIO, then the order accepted. -/
def nextJob (q : List Job) : Option Job :=
  [3, 2, 1, 0].findSome? (fun p => q.find? (fun j => jPrio j.desc == p))

/-- Without a running job, the last suspended one resumes, or a queued one of higher PRIO starts (R306). -/
def mceSchedule (s : State) : State :=
  if s.mce.running.isSome then s
  else match s.mce.susp, nextJob s.mce.queue with
    | t :: r, some q =>
      if jPrio t.desc < jPrio q.desc then s.modMce (fun x => { x with running := some q, queue := x.queue.erase q })
      else s.modMce (fun x => { x with running := some t, susp := r })
    | t :: r, none => s.modMce (fun x => { x with running := some t, susp := r })
    | [], some q => s.modMce (fun x => { x with running := some q, queue := x.queue.erase q })
    | [], none => s

/-- A descriptor submitted by a master: the status, shown in its bank with the handle. -/
def mceSubmit (m d : Nat) (s : State) : Nat × Nat × State :=
  if !mceMaster m then (St.denied, 0, s)
  else
    let b := bankOf m
    let v := s.jobVerdict m d
    let s := s.set (R.MCE_JOB_STAT_STATUS b) v
    if v ≠ St.ok then (v, 0, s)
    else
      let (x, s) := s.draw 65536
      let used := (s.mce.open.filter (·.bank == b)).map (·.handle) ++ (s.mce.results.filter (·.bank == b)).map (·.handle)
      let h := ((List.range (used.length + 1)).map (fun i => (x + i) % 65536)).find? (fun h => !used.contains h) |>.getD x
      let s := s.set (R.MCE_JOB_STAT_HANDLE b) h
      (v, h, mceSchedule (s.modMce (fun y => { y with queue := y.queue ++ [{ handle := h, bank := b, desc := d }] })))

/-- Bytes before the data in the buffer of a GCM job (R305): the IV block and the additional data. -/
def jHead (d : Nat) : Nat := if jFirst d then 16 + 16 * jAadb d else 0

/-- The chaining state that a GCM job goes on from, and the bytes of data it has done: those of its suspension, those of its IV and
additional data, or those of its session. -/
def jobChain (x : Session) (j : Job) (buf : List Nat) : Chain × Nat :=
  match j.part with
  | some c => c
  | none => (if jFirst j.desc then chainStart (x.key.getD 0) (buf.take 12) ((buf.take (jHead j.desc)).drop 16) else x.chain, 0)

/-- The data of a GCM job up to byte `n`: what it leaves there, and the chaining state. -/
def gcmPart (x : Session) (j : Job) (buf : List Nat) (n : Nat) : List Nat × Chain :=
  let c := jobChain x j buf
  let data := (buf.drop (jHead j.desc + c.2)).take (n - c.2)
  let out := chainCrypt (x.key.getD 0) c.1 data
  (out, chainNext (x.key.getD 0) c.1 (if jOp j.desc = 1 then out else data))

/-- What the buffer of a job answers to the rights of the master that submitted it; a host job also reaches target 9 (R365). -/
def jobReach (j : Job) : Nat :=
  let t := (targetOf (jAddr j.desc)).1
  if t = 11 then St.decerr else if !(mayAccess false j.bank t || (j.bank = M.host && t = 9)) then St.denied else St.ok

/-- A job stops after `blocks` blocks of its data, which are written in place (R306, R308): the job as the suspension store keeps it. -/
def jobAdvance (j : Job) (blocks : Nat) (ext : List Nat) (s : State) : Job × State :=
  if !jGcm j.desc || jobReach j ≠ St.ok then (j, s)
  else
    let x := s.sess (jSess j.desc)
    let buf := s.bufBytes (jAddr j.desc) (s.jobSize j.desc) ext
    let m := (jobChain x j buf).2
    let n := max m (min (16 * blocks) (jLen j.desc / 16 * 16))
    let r := gcmPart x j buf n
    ({ j with part := some (r.2, n) }, bufWrite (jAddr j.desc + jHead j.desc + m) r.1 s)

/-- A job of higher PRIO suspends the running one at a block boundary, `blocks` blocks of its data into it (R306). -/
def mceSuspend (blocks : Nat) (ext : List Nat) (s : State) : State :=
  match s.mce.running, nextJob s.mce.queue with
  | some r, some q =>
    if jPrio r.desc < jPrio q.desc && s.mce.susp.length < 4 then
      let a := jobAdvance r blocks ext s
      (a.2.modMce (fun x => { x with running := some q, queue := x.queue.erase q, susp := a.1 :: x.susp })).raise Ev.MCE_SUSPEND
    else s
  | _, _ => s

/-- What a job does: its status, the buffer it leaves, and the session. -/
structure JobDone where
  status : Nat := 0
  out    : List Nat := []
  sess   : Session
  auth   : Bool := false
  fail   : Bool := false
deriving DecidableEq, Repr

/-- The session after a segment. -/
def Session.after (x : Session) (last : Bool) (c : Chain) : Session :=
  if last then { x with chain := {}, mid := false } else { x with chain := c, mid := true }

/-- A GCM segment over a buffer (R305): what was there before the data stays, and the data of a decrypt that fails reads as zero. -/
def gcmJob (x : Session) (j : Job) (buf : List Nat) : JobDone :=
  let d := j.desc
  let r := gcmPart x j buf (jLen d)
  let done := buf.take (jHead d + (jobChain x j buf).2) ++ r.1
  let tag := chainTag (x.key.getD 0) r.2
  let x' := x.after (jLast d) r.2
  if jOp d = 1 then { out := done ++ (if jLast d then tag else []), sess := x' }
  else
    let given := (buf.drop (jHead d + jLen d)).take 16
    if jLast d && given ≠ tag then
      { status := St.denied, out := buf.take (jHead d) ++ List.replicate (jLen d) 0 ++ given, sess := x', auth := true }
    else { out := done ++ (if jLast d then given else []), sess := x' }

/-- A key wrap or unwrap in place. -/
def wrapJob (x : Session) (d : Nat) (buf : List Nat) : JobDone :=
  let key := x.key.getD 0
  let kwp := decide (5 ≤ jOp d)
  let data := buf.take (jLen d)
  if jOp d = 3 || jOp d = 5 then { out := Config.keyWrap kwp key data, sess := x }
  else match Config.keyUnwrap kwp key data with
    | some o => { out := o, sess := x }
    | none => { status := St.denied, out := List.replicate (jLen d) 0, sess := x, auth := true }

/-- The 64 bytes of a chaining state (R307): IV, counter, GHASH, lengths, whether a message is in progress, the session (log entry 176). -/
def chainBytes (n : Nat) (x : Session) : List Nat :=
  bytesBe 12 (ofBe x.chain.iv) ++ bytesBe 4 (2 + x.chain.len / 16) ++ bytesBe 16 x.chain.hash ++
  bytesBe 8 x.chain.aad ++ bytesBe 8 x.chain.len ++ bytesBe 8 x.mid.toNat ++ bytesBe 8 n

/-- A session with the chaining state of 64 bytes. -/
def chainTake (x : Session) (b : List Nat) : Session :=
  { x with mid := beAt b 48 8 == 1,
           chain := if beAt b 48 8 = 1 then { iv := b.take 12, hash := beAt b 16 16, aad := beAt b 32 8, len := beAt b 40 8 } else {} }

/-- SAVE and RESTORE of chaining state (R307). -/
def stateJob (x : Session) (d : Nat) (buf : List Nat) : JobDone :=
  let n := jSess d
  if jOp d = 7 then
    { out := if x.sensitive then Config.keyWrap false Config.wrapKey (chainBytes n x) else chainBytes 0 x, sess := x }
  else if !x.sensitive then { sess := chainTake x buf }
  else match Config.keyUnwrap false Config.wrapKey buf with
    | some b => if beAt b 56 8 = n then { sess := chainTake x b } else { status := St.denied, sess := x, fail := true }
    | none => { status := St.denied, sess := x, fail := true }

/-- The running job of a bank is cut off in the middle: how far it had come the spec leaves open. -/
def mceCut (bank : Nat) (ext : List Nat) (s : State) : State :=
  match s.mce.running with
  | some j => if j.bank = bank then let r := s.draw (jLen j.desc / 16 + 1); (jobAdvance j r.1 ext r.2).2 else s
  | none => s

/-- What the fabric answers to the accesses of a job: the reach of its master, then what the words of its buffer read (R372). -/
def jobAccess (j : Job) (s : State) : Nat × State :=
  if jobReach j = St.ok then bufCheck (jAddr j.desc) (s.jobSize j.desc) s else (jobReach j, s)

/-- The running job `j` leaves, with its result. -/
def jobEnd (j : Job) (status : Nat) (s : State) : State :=
  s.modMce (fun y => { y with running := none, results := y.results ++ [{ bank := j.bank, handle := j.handle, status := status }] })

/-- The running job completes: `ext` is its buffer where that lies outside the memories of the device. `cut` says that the block of the buffer was
reset under it: it ends with ABORTED, and what it has written stays (R369). -/
def mceComplete (ext : List Nat) (cut : Bool) (s : State) : State :=
  match s.mce.running with
  | none => s
  | some j =>
    let d := j.desc
    let x := s.sess (jSess d)
    let buf := s.bufBytes (jAddr d) (s.jobSize d) ext
    let v := jobAccess j s
    let r : JobDone := if cut && v.1 = St.ok then { status := St.aborted, sess := x }
      else if v.1 ≠ St.ok then { status := v.1, sess := x }
      else if jGcm d then gcmJob x j buf else if jOp d ≤ 6 then wrapJob x d buf else stateJob x d buf
    let s := fabRespond j.bank (jAddr d) (if cut && v.1 = St.ok then St.aborted else v.1) v.2
    let s := if cut && v.1 = St.ok then mceCut j.bank ext s else s
    let s := bufWrite (jAddr d) r.out (s.modSess (jSess d) (fun _ => r.sess))
    let s := (s.raiseIf r.auth Ev.MCE_AUTH_FAIL).raiseIf r.fail Ev.MCE_STATE_FAIL
    mceSchedule (((jobEnd j r.status s).raise Ev.MCE_JOB_DONE).answer r.status r.out)

/-- A reset of the submitting master (R308): its jobs end with ABORTED, and what they have written stays. -/
def mceAbort (bank : Nat) (s : State) : State :=
  let js := s.mce.open.filter (·.bank == bank)
  let s := (mceCut bank [] s).modMce (fun y =>
    { y with
      queue := y.queue.filter (·.bank != bank), susp := y.susp.filter (·.bank != bank),
      running := y.running.filter (·.bank != bank),
      results := y.results ++ js.map (fun j => { bank := j.bank, handle := j.handle, status := St.aborted }) })
  mceSchedule s

/-- The head result of a bank, removed (R311). -/
def mcePop (m : Nat) (s : State) : Nat × State :=
  match s.mce.results.find? (·.bank == bankOf m) with
  | none => (0, s)
  | some r => (r.status * 65536 + r.handle, s.modMce (fun y => { y with results := y.results.erase r }))

/-! ### Key loading (R309) -/

/-- A session that a load or an erase must leave alone. -/
def State.sessBusy (s : State) (n : Nat) : Bool := (s.sess n).mid || s.mce.open.any (fun j => jSess j.desc == n)

/-- Key and salt installed. -/
def sessLoad (n key salt : Nat) (s : State) : Nat × State :=
  if s.sessBusy n then (St.busy, s)
  else (St.ok, s.modSess n (fun x => { x with key := some key, salt := salt, mid := false, chain := {}, txCtr := 0, rxMark := none }))

/-- A session zeroised. -/
def sessErase (n : Nat) (s : State) : Nat × State :=
  if s.sessBusy n then (St.busy, s)
  else (St.ok, s.modSess n (fun x => { x with key := none, salt := 0, mid := false, chain := {} }))

/-- The key that the MCE_KEY registers hold. -/
def State.keyRegs (s : State) : Nat := ((List.range 8).map (fun k => s.get (R.MCE_KEY_KEY k) * 2 ^ (32 * k))).sum

/-- MCE_KEY_LOAD written by Ling. -/
def keyLoadWrite (load erase : Bool) (s : State) : Nat × State :=
  let n := s.get R.MCE_KEY_SEL_SESSION
  let (v, s) := if load then
      let r := sessLoad n s.keyRegs (s.get R.MCE_KEY_SALT_SALT) s
      if r.1 = St.ok then (r.1, (iter 8 (fun k s => s.set (R.MCE_KEY_KEY k) 0) r.2).set R.MCE_KEY_SALT_SALT 0) else r
    else (St.ok, s)
  let (v, s) := if erase && v = St.ok then sessErase n s else (v, s)
  if load || erase then (v, s.set R.MCE_KEY_STAT_STATUS v) else (v, s)

/-- The session that MCE_SESS_SEL shows: STATE and KEY (R311). -/
def State.sessState (s : State) (n : Nat) : Nat :=
  if s.mce.running.any (fun j => jSess j.desc == n) then 1
  else if s.mce.susp.any (fun j => jSess j.desc == n) then 2
  else if (s.sess n).mid then 3 else 0

/-! ### Commands -/

/-- A submission answered. -/
def submit (op m d : Nat) (s : State) : Out :=
  let r := mceSubmit m (withOp op d) s
  .next (r.2.2.answer r.1 [r.2.1])

/-- MCE_GCM_ENCRYPT (R305). -/
def execMceGcmEncrypt (m d : Nat) (s : State) : Out := submit 1 m d s
/-- MCE_GCM_DECRYPT (R305). -/
def execMceGcmDecrypt (m d : Nat) (s : State) : Out := submit 2 m d s
/-- MCE_KW_WRAP (R305). -/
def execMceKwWrap (m d : Nat) (s : State) : Out := submit 3 m d s
/-- MCE_KW_UNWRAP (R305). -/
def execMceKwUnwrap (m d : Nat) (s : State) : Out := submit 4 m d s
/-- MCE_KWP_WRAP (R305). -/
def execMceKwpWrap (m d : Nat) (s : State) : Out := submit 5 m d s
/-- MCE_KWP_UNWRAP (R305). -/
def execMceKwpUnwrap (m d : Nat) (s : State) : Out := submit 6 m d s
/-- MCE_SAVE (R307). -/
def execMceSave (m d : Nat) (s : State) : Out := submit 7 m d s
/-- MCE_RESTORE (R307). -/
def execMceRestore (m d : Nat) (s : State) : Out := submit 8 m d s

/-- MCE_SUSPEND (R306). -/
def execMceSuspend (s : State) (blocks : Nat := 0) (ext : List Nat := []) : Out := .next (mceSuspend blocks ext s)

/-- MCE_JOB_COMPLETE (R305). -/
def execMceJobComplete (ext : List Nat) (cut : Bool) (s : State) : Out := .next (mceComplete ext cut s)

/-- MCE_RESULT_POP (R311). -/
def execMceResultPop (m : Nat) (s : State) : Out :=
  if mceMaster m then
    let r := mcePop m s
    .next (r.2.answer St.ok [r.1])
  else .next ((fabRespond m 0x9011C St.denied s).answer St.denied [0])

/-- MCE_KEY_LOAD (R309). -/
def execMceKeyLoad (m : Nat) (s : State) : Out :=
  if m = M.ling then
    let r := keyLoadWrite true false s
    .next (r.2.answer r.1 [])
  else .next ((fabRespond m 0x90048 St.denied s).answer St.denied [])

/-- MCE_KEY_ERASE (R309). -/
def execMceKeyErase (m : Nat) (s : State) : Out :=
  if m = M.ling then
    let r := keyLoadWrite false true s
    .next (r.2.answer r.1 [])
  else .next ((fabRespond m 0x90048 St.denied s).answer St.denied [])

end Sys2Proof.Machine
end

