-- ==== Sys2Proof/Machine/Otn.lean ====
section
/-! DEFINITION. OTN processing (R26, R27, R205 to R208, R220 to R231, R241 to R246): what its entities detect, what follows for clients, released
payload into OTUCn bits, and OTUCn frames: received, delivered, passed on, built, split and merged. -/
namespace Sys2Proof.Machine

/-! ### Entities (R222, R223, R232) -/

/-- Word 0 and MODE of entity `e` of port `p` (R222, R224). -/
def State.otnWord (s : State) (p e : Nat) : Nat := s.tabWord (0xF003 + 0x100 * p) false (16 * e)
def State.otnMode (s : State) (p e : Nat) : Nat :=
  if e = 0 then 2 else if e = 1 && s.portMode = 1 then 1 else bits (s.otnWord p e) 1 0

/-- The TTI sent for an entity (`from` 1) or expected of it (5), as 64 bytes. -/
def State.otnTti (s : State) (p e start : Nat) : List Nat :=
  (List.range 64).map (fun i => s.tabWord (0xF003 + 0x100 * p) false (16 * e + start + i / 16) / 2 ^ (8 * (i % 16)) % 256)

/-- An entity that exists: none is reserved. -/
def otnEntity (e : Nat) : Bool := decide (e < 1032) && (decide (e < 8) || e % 8 != 7)

/-- An entity that counts: that of a tributary not allocated is ignored. -/
def State.otnLive (s : State) (p e : Nat) : Bool :=
  otnEntity e && (decide (e < 8) || tribValid (s.tribWord (s.tableHome p) ((e - 8) / 8)))

/-- The defects that apply to an entity (R223, R232): SM, ODUCn PM with the OPUCn, TCM, PM of a tributary. -/
def otnApplies (e : Nat) : List Nat :=
  if e = 0 then [0, 1, 5, 6, 7, 8, 9]
  else if e = 1 then [2, 3, 4, 5, 6, 7, 8, 9, 12, 13]
  else if 8 ≤ e && e % 8 = 0 then [2, 3, 4, 5, 6, 7, 8, 9, 11]
  else [2, 3, 4, 5, 6, 7, 8, 9, 10]

/-- Defect `d` of an entity found or gone. That of the SM is one of a slice, and shows while any slice has it; a defect of the OPUCn keeps the
tributaries it affects. -/
def otnDefect (p : Nat) (m : OtnMeasure) (s : State) (d : Nat × Bool) : State :=
  if !(otnApplies m.entity).contains d.1 || d.1 = 5 || d.1 = 6 then s
  else if m.entity = 0 && d.1 < 2 then
    let s := s.modLfr p (fun l => { l with slices := modAt 0 l.slices m.slice (fun x => if (bitAt x d.1 == 1) == d.2 then x else x ^^^ 2 ^ d.1) })
    setDefect p 0 d.1 ((s.port p).lfr.slices.any (fun x => bitAt x.2 d.1 == 1)) s
  else if 12 ≤ d.1 then
    setDefect p m.entity d.1 d.2 (s.modLfr p (fun l => { l with affected := if d.2 then m.tribs else [] }))
  else setDefect p m.entity d.1 d.2 s

/-- Traces differ in what TIM_SEL compares: SAPI is bytes 0 to 15, DAPI bytes 16 to 31. -/
def ttiDiffers (sel : Nat) (a b : List Nat) : Bool :=
  (sel != 1 && a.take 16 != b.take 16) || (sel != 0 && slice a 16 16 != slice b 16 16)

/-- The trace accepted on an entity. -/
def State.ttiHeld (s : State) (p e : Nat) : List Nat :=
  (List.range 64).map (fun i => getAt 0 (s.port p).lfr.tti (16 * e + i / 4) / 2 ^ (8 * (i % 4)) % 256)

/-- Trace mismatch judged (R222): off where detection is off. -/
def ttiJudge (p : Nat) (m : OtnMeasure) (s : State) : State :=
  let e := m.entity
  let w := s.otnWord p e
  if bitAt w 2 = 0 then setDefect p e 5 false s
  else if m.tti = [] then s
  else setDefect p e 5 (ttiDiffers (bits w 4 3) (s.ttiHeld p e) (s.otnTti p e 5)) s

/-- A second has ended with `n` errored blocks: DEGM bad seconds in a row raise dDEG, DEGM good ones clear it. -/
def degJudge (p e n : Nat) (s : State) : State :=
  let w := s.otnWord p e
  let bad := decide (bits w 31 16 ≤ n)
  let run := fun k hit (l : LfrState) => { l with deg := modAt 0 l.deg k (fun x => if hit then min 10 (x + 1) else 0) }
  let s := s.modLfr p (fun l => run (2 * e + 1) (!bad) (run (2 * e) bad l))
  let full := fun k => decide (bits w 11 8 ≤ getAt 0 (s.port p).lfr.deg k)
  if full (2 * e) then setDefect p e 6 true s else if full (2 * e + 1) then setDefect p e 6 false s else s

/-- What was detected on an entity. -/
def otnTake (p : Nat) (m : OtnMeasure) (s : State) : State :=
  let e := m.entity
  let mode := s.otnMode p e
  if !s.otnLive p e || mode = 0 || mode = 3 then s
  else
    let s := m.defects.foldl (otnDefect p m) s
    let add := fun k n (l : LfrState) => { l with otn := modAt 0 l.otn (4 * e + k) (satAdd (2 ^ 32 - 1) n) }
    let s := s.modLfr p (fun l => add 3 m.bei (add 2 m.bip { l with beiBack := modAt 0 l.beiBack e (· + m.bip) }))
    let s := if m.tti = [] then s
      else s.modLfr p (fun l => { l with tti := (List.range 16).foldl (fun t w => setAt 0 t (16 * e + w) (m.tti.getD w 0 % 2 ^ 32)) l.tti })
    let s := ttiJudge p m s
    match m.second with
    | some n => degJudge p e n s
    | none => s

/-- AIS downstream of entity `e` by its defects; those of the OPUCn strike tributaries. -/
def State.otnAis (s : State) (p e : Nat) : Bool :=
  let d := s.defects p e
  let w := s.otnWord p e
  (e == 0 && bits d 1 0 != 0) || (bitAt d 5 == 1 && bitAt w 5 == 1) || (bitAt d 10 == 1 && s.otnMode p e == 2) || bitAt d 11 == 1

/-- BDI sent back for entity `e` (R222, R223). -/
def State.otnBdi (s : State) (p e : Nat) : Bool :=
  let d := s.defects p e
  (s.otnMode p e == 2 && bitAt (s.otnWord p e) 6 == 1) || (e == 0 && bits d 1 0 != 0) || bitAt d 5 == 1 || (e != 0 && bits d 4 2 != 0)

/-! ### What clients see of it (R223, R231, R246) -/

/-- The context that ciphers tributary `t` of port `p`, if any: its own, or one of the whole payload (R282, R286). -/
def State.tribCtx (s : State) (p t : Nat) : Option Nat :=
  (List.range 32).find? (fun c => let w := s.policy p c; polMode w != 0 && (polWhole w || polTrib w == t))

/-- Nothing of the OTUCn that arrives on port `p`, or on a member of the group, comes through. -/
def State.lineDown (s : State) (p : Nat) : Bool :=
  (if s.bonded then [0, 1] else [p]).any (fun q => !s.faHolds q || (List.range 8).any (s.otnAis q)) ||
  (s.bonded && s.isOn (R.LFR_BOND_STAT_SQUELCH 0))

/-- Tributary `t` of port `p` delivers AIS, or its receive slots do not all arrive. -/
def State.tribDown (s : State) (p t : Nat) : Bool :=
  s.lineDown p ||
  (if s.bonded then [0, 1] else [p]).any (fun q => bits (s.defects q 1) 13 12 != 0 && (s.port q).lfr.affected.contains t) ||
  (List.range 7).any (fun i => s.otnAis p (8 + 8 * t + i)) ||
  (match s.tribCtx p t with | some c => (s.ctx p 1 c).plain.isNone | none => false)

/-- What stands in for the signal of a tributary towards its client. -/
def State.standIn (s : State) (p t : Nat) : OduKind :=
  if isEthernet (grpIf (s.grpWord (tribGroup (s.tribWord p t)))) then .localFault else .ais

/-- The line-to-client replacement of one tributary: it starts with its cause, and `ends` at a frame boundary. -/
def tribFollow (ends : Bool) (p t : Nat) (s : State) : State :=
  let k := 128 * p + t
  let was := s.cli.down.contains k
  let on := s.tribDown p t || (was && !ends)
  if on == was then s
  else if on then
    { s with cli := { s.cli with down := s.cli.down ++ [k], egress := modAt {} s.cli.egress k (fun e => { e with kind := s.standIn p t, data := [] }) } }
  else { s with cli := { s.cli with down := s.cli.down.filter (· ≠ k), egress := modAt {} s.cli.egress k (fun e => { e with kind := .signal }) } }

/-- The line-to-client replacement of a group: of each tributary it takes, or of all where it takes none; `ends` is the port, if any, whose tables are at a frame
boundary. -/
def replaceOut (ends : Option Nat) (g : Nat) (s : State) : State :=
  let w := s.grpWord g
  if !grpDefined w then s.set (R.CLI_GRP_STAT_REPLACE_OUT g) 0
  else
    let fed := s.fedBy g
    let s := fed.foldl (fun s x => tribFollow (ends == some x.1) x.1 x.2 s) s
    let on := fed.isEmpty || fed.any (fun x => s.cli.down.contains (128 * x.1 + x.2))
    let was := s.isOn (R.CLI_GRP_STAT_REPLACE_OUT g)
    let s := s.set (R.CLI_GRP_STAT_REPLACE_OUT g) on.toNat
    if on && !was && !fed.isEmpty && isEthernet (grpIf w) then grpEvent g Ev.CLI_REPLACE 4 s else s
def replaceOutAll (ends : Option Nat) (s : State) : State := if (s.findTab 0xF020).isNone then s else iter 64 (replaceOut ends) s

/-- Client signal fail received in the OPU of tributaries. -/
def csfTake (p : Nat) (l : List (Nat × Bool)) (s : State) : State :=
  l.foldl (fun s x =>
    let k := 128 * p + x.1 % 128
    { s with cli := { s.cli with csf := (s.cli.csf.filter (· ≠ k)) ++ (if x.2 then [k] else []) } }) s

/-- A lane of group `g` by its logical number (R236): where it is sent and received, and whether its levels are inverted there. -/
def State.txLane (s : State) (g k : Nat) : Nat × Bool :=
  let w := s.grpWord g
  (grpFirst w + bits w (16 + 3 * k + 2) (16 + 3 * k), bitAt w (64 + k) == 1)
def State.rxLane (s : State) (g k : Nat) : Nat × Bool :=
  let w := s.grpWord g
  (grpFirst w + bits w (40 + 3 * k + 2) (40 + 3 * k), bitAt w (72 + k) == 1)

/-- The tributary whose recovered client rate times transmit lane `n`: 100GbE, which GMP maps; none where DP0 times it (R235). -/
def State.laneTiming (s : State) (n : Nat) : Option (Nat × Nat) :=
  match (List.range 64).find? (fun g => grpDefined (s.grpWord g) && (grpLanes (s.grpWord g)).contains n) with
  | some g => if grpIf (s.grpWord g) = 1 then (s.fedBy g).head? else none
  | none => none

/-- After a swap of the tables of port `h`: a tributary whose word or slots have changed is cut, and a new one starts afresh; others are not disturbed
(R245). -/
def tribsCut (h : Nat) (old s : State) : State :=
  iter 128 (fun t s =>
    if old.tribWord h t = s.tribWord h t && old.tribSlotList h 0 t = s.tribSlotList h 0 t && old.tribSlotList h 1 t = s.tribSlotList h 1 t then s
    else
      let k := 128 * h + t
      { s with cli := { s.cli with down := s.cli.down.filter (· ≠ k), egress := setAt {} s.cli.egress k {}, packed := setAt [] s.cli.packed k [] } }) s

/-! ### From released payload to OTUCn bits (R144, R205, R206, R208) -/

/-- The bits of a frame up to the one that follows, once all of them are known, and whether any is marked errored. -/
def partsFrame : List PayPart → Option (List Nat × Bool × List PayPart)
  | [] => none
  | .frame k :: r => some ([], false, .frame k :: r)
  | .sign b e :: r => (partsFrame r).map (fun x => (b :: x.1, e || x.2.1, x.2.2))
  | .bits l e :: r => (partsFrame r).map (fun x => (l ++ x.1, e || x.2.1, x.2.2))
  | .block _ :: _ => none

/-- The allotment of a frame descrambled, and its fill taken out. -/
def dejustify (n jc : Nat) (b : List Nat) : List Nat :=
  ((List.range n).zip (xorBits b (prbs31 n))).filterMap (fun x => if carries n jc x.1 then some x.2 else none)

/-- The payload of frame `k` of port `p`. Where bits of it are lost its OTUCn bits read zero and are errored, so the OTUCn keeps its place. -/
def allotGive (p k : Nat) (b : List Nat) (bad : Bool) (s : State) : State :=
  match look k (s.port p).lfr.allots with
  | none => s
  | some (n, jc, err) =>
    let out := if b.length = n then dejustify n jc b else List.replicate jc 0
    s.modLfr p (fun l => { l with
      allots := dropKey k l.allots, otuBits := l.otuBits ++ out, otuErr := l.otuErr || bad || err || b.length != n })

/-- Frames before number `k` whose payload has not come. -/
def allotsLost (p k : Nat) (s : State) : State :=
  ((s.port p).lfr.allots.filter (fun e => decide (e.1 < k))).foldl (fun s e => allotGive p e.1 [] true s) s

/-- Every whole frame among the pieces of payload taken; pieces before the first frame are dropped. -/
def payDrain (p : Nat) : Nat → State → State
  | 0, s => s
  | f + 1, s =>
    match (s.port p).rxd.parts with
    | [] => s
    | .frame k :: r =>
      match partsFrame r with
      | some (b, bad, rest) => payDrain p f (allotGive p k b bad (allotsLost p k (s.modRxd p (fun x => { x with parts := rest }))))
      | none => s
    | _ :: r => payDrain p f (s.modRxd p (fun x => { x with parts := r }))

/-! ### Sending OTUCn bits (R206, R207, R228) -/

/-- First slice, and slices, of a member of the bonded group. -/
def State.bondFirst (s : State) (p : Nat) : Nat := if p = 0 then 0 else s.img.struct.n0
def State.bondSize (s : State) : Nat := s.img.struct.n0 + s.img.struct.n1

/-- OTUCn bits that arrive at the justification buffer (R207). -/
def otuArrive (p : Nat) (new : List Nat) (s : State) : State :=
  let q := (s.port p).txd.buf ++ new
  (s.modTxd p (fun t => { t with buf := q.take (2 ^ 20) })).raiseIf (decide (2 ^ 20 < q.length)) (Ev.LFR_JC_RANGE p)

/-- A frame is given to the line framer of port `p`. -/
def otuSend (p : Nat) (f : OtuFrame) (s : State) : State :=
  otuArrive p (Config.otuWrite f) (s.modLfr p (fun l => { l with otuTx := some f }))

/-- The overhead of entity `e` that port `p` sends: its own where the entity terminates, BDI and BEI from its receive direction; else what passes (R222 to
R224). -/
def State.layerSent (s : State) (p e : Nat) (base : LayerOh) : LayerOh :=
  if s.otnMode p e = 2 then
    { tti := s.otnTti p e 1, bei := getAt 0 (s.port p).lfr.beiBack e, bdi := s.otnBdi p e, stat := 1 }
  else base

/-- The errors reported back are counted anew. -/
def beiClear (p : Nat) (s : State) : State := s.modLfr p (fun l => { l with beiBack := [] })

/-- The overhead of the layers of a frame, sent on port `p`: SM of `n` slices, ODUCn PM and TCM, GCC that terminates here (R221). -/
def State.frameOver (s : State) (p n : Nat) (f : OtuFrame) : OtuFrame :=
  let own := fun k => getAt [] s.hif.gcc (3 * p + k)
  { f with
    sm := List.replicate n (s.layerSent p 0 {}),
    pm := s.layerSent p 1 f.pm,
    tcm := (List.range 6).map (fun i => s.layerSent p (2 + i) (f.tcm.getD i {})),
    gcc := if s.portMode = 1 then [own 0, f.gcc.getD 1 [], f.gcc.getD 2 []] else [own 0, own 1, own 2] }

/-- The overhead of tributary `t`, sent on port `p`. -/
def State.oduOver (s : State) (p t : Nat) (o : OduSig) : OduSig :=
  { o with pm := s.layerSent p (8 + 8 * t) o.pm, tcm := (List.range 6).map (fun i => s.layerSent p (9 + 8 * t + i) (o.tcm.getD i {})) }

/-- Slots `l` as ODU OCI. -/
def ociSlots (l : List Nat) : List OduSig := l.map (fun i => { trib := 0xFE, slots := [i], kind := .oci })

/-! ### Clients towards the line (R241, R244, R246) -/

/-- An Idle block that may be taken out, or after which one may be put in: never next to an alignment marker. -/
def idleFree (before : Bool) (b : EthBlock) (after : List EthBlock) : Bool :=
  b.idle && !before && !(match after with | x :: _ => x.marker | [] => false)

/-- Up to `n` free Idle blocks taken out. -/
def idleDrop : Nat → Bool → List EthBlock → List EthBlock
  | _, _, [] => []
  | 0, _, l => l
  | n + 1, m, b :: r => if idleFree m b r then idleDrop n m r else b :: idleDrop (n + 1) b.marker r

/-- `n` Idle blocks put in after the first free one. -/
def idleAdd (n : Nat) : Bool → List EthBlock → List EthBlock
  | _, [] => []
  | m, b :: r => if idleFree m b r then b :: List.replicate n b ++ r else b :: idleAdd n b.marker r

/-- The stream matched to `room` blocks, and the blocks discarded because Idle did not suffice (R241). -/
def rateMatch (room : Nat) (l : List EthBlock) : List EthBlock × Nat :=
  if l.length ≤ room then (idleAdd (room - l.length) false l, 0)
  else
    let m := idleDrop (l.length - room) false l
    (m.take room, m.length - room)

/-- The bytes that whole blocks fill, after `held` bits, most significant bit first, and the bits left over. -/
def packBlocks (held : List Nat) (l : List EthBlock) : List Nat × List Nat :=
  let b := held ++ l.flatMap (fun x => if x.bad then Config.errorBlock else x.bits)
  (bitsBytes (b.length / 8) b, b.drop (8 * (b.length / 8)))

/-- The ODU of a tributary of tables `h` from what its client brings. -/
def clientOdu (h : Nat) (c : ClientSig) (s : State) : OduSig × State :=
  let g := tribGroup (s.tribWord h c.trib)
  let i := grpIf (s.grpWord g)
  let o := { c.odu with trib := c.trib, slots := s.tribSlotList h 0 c.trib }
  if s.isOn (R.CLI_GRP_STAT_REPLACE_IN g) then
    (if isEthernet i then { o with kind := .localFault, csf := true, data := [] } else { o with kind := .ais, data := [] }, s)
  else if 5 ≤ i && i ≤ 7 then
    let k := 128 * h + c.trib
    let m := rateMatch c.room c.blocks
    let b := packBlocks (getAt [] s.cli.packed k) m.1
    let s := { s with cli := { s.cli with packed := setAt [] s.cli.packed k b.2 } }
    let s := if m.2 = 0 then s
      else countEvent (4096 + 8 * g + 6) m.2 (countEvent Ev.CLI_RATE_ADJ m.2 (s.set (stickyBit Ev.CLI_RATE_ADJ) 1))
    ({ o with typ := if i = 7 then 0x8B else 0x8A, data := b.1 }, s)
  else (o, s)

/-- The ODUs of tables `h` for one frame, from what clients bring. -/
def clientOdus (h : Nat) (l : List ClientSig) (s : State) : List OduSig × State :=
  (l.filter (fun c => tribValid (s.tribWord h c.trib) && tribRole (s.tribWord h c.trib) != 1)).foldl (fun x c =>
    let y := clientOdu h c x.2
    (x.1 ++ [s.oduOver h c.trib y.1], y.2)) ([], s)

/-! ### Splitting and merging the group's OTUCm (R228, R230, R231) -/

/-- The share of member `p`: its slices, and of every ODU the slots in them, numbered as in the group. -/
def State.shareOf (s : State) (p : Nat) (f : OtuFrame) : OtuFrame :=
  let lo := s.bondFirst p
  let n := if p = 0 then s.img.struct.n0 else s.img.struct.n1
  let mine := fun i => decide (20 * lo ≤ i) && decide (i < 20 * (lo + n))
  { f with
    sm := (f.sm.drop lo).take n, msi := (f.msi.drop (20 * lo)).take (20 * n),
    odus := (f.odus.map (fun o => { o with slots := o.slots.filter mine })).filter (fun o => !o.slots.isEmpty) }

/-- The two shares of one frame as the group's OTUCm. -/
def shareMerge (a b : OtuFrame) : OtuFrame :=
  let both := a.odus.map (fun o => match b.odus.find? (fun x => x.trib == o.trib && o.kind != .oci) with
    | some x => { o with slots := o.slots ++ x.slots, data := o.data ++ x.data }
    | none => o)
  let rest := b.odus.filter (fun x => x.kind == .oci || a.odus.all (fun o => o.trib != x.trib || o.kind == .oci))
  { a with sm := a.sm ++ b.sm, msi := a.msi ++ b.msi, odus := both ++ rest }

/-- Every ODU of a frame as AIS. -/
def frameAis (f : OtuFrame) : OtuFrame := { f with kind := .ais, odus := f.odus.map (fun o => { o with kind := .ais, data := [] }) }

/-- Bytes of the skew store in use: 16,320 of every slice of a frame. -/
def State.skewUse (s : State) : Nat := ((s.port 0).lfr.share ++ (s.port 1).lfr.share).map (fun f => 16320 * f.sm.length) |>.sum

/-- A frame of member `p` enters the skew store of 6 MiB; where that is full its oldest frame gives way. -/
def shareKeep (p : Nat) (f : OtuFrame) (s : State) : State :=
  s.modLfr p (fun l => { l with share := (if s.skewUse + 16320 * f.sm.length ≤ 6 * 2 ^ 20 then l.share else l.share.drop 1) ++ [f] })

/-- The next pair of shares of one multiframe number: a share whose counterpart has gone is dropped. -/
def shareNext : Nat → List OtuFrame → List OtuFrame → Option (OtuFrame × List OtuFrame × List OtuFrame)
  | 0, _, _ => none
  | f + 1, a :: x, b :: y =>
    if a.mfas = b.mfas then some (shareMerge a b, x, y)
    else if (a.mfas + 256 - b.mfas) % 256 < 128 then shareNext f (a :: x) y else shareNext f x (b :: y)
  | _, _, _ => none

/-! ### Frames received (R26, R223 to R225, R239, R246) -/

/-- What frame `f` brings to the clients of tables `h`; `bad` marks its payload errored. -/
def deliver (h : Nat) (f : OtuFrame) (bad : Bool) (s : State) : State :=
  iter 128 (fun t s =>
    let w := s.tribWord h t
    if !tribValid w || tribRole w = 2 then s
    else
      let sl := s.tribSlotList h 1 t
      let o := f.odus.find? (fun o => o.slots == sl)
      let e : Egress := match o with
        | some o => if s.tribDown h t then { kind := s.standIn h t } else { kind := o.kind, typ := o.typ, data := o.data, bad := bad }
        | none => { kind := s.standIn h t }
      { s with cli := { s.cli with egress := setAt {} s.cli.egress (128 * h + t) e } }) s

/-- The ODUs that port `q` sends on in through mode, from frame `f` of the other port (R225, R243): passed slots pass, a dropped tributary's and
unused ones carry ODU OCI, an added tributary's its own. -/
def State.onwardOdus (s : State) (q : Nat) (f : OtuFrame) (adds : List OduSig) : List OduSig :=
  let passes := fun i => s.slotOf q 0 i == 0xFF && s.slotOf (1 - q) 1 i == 0xFF
  let through := (f.odus.map (fun o => { o with slots := o.slots.filter passes })).filter (fun o => !o.slots.isEmpty)
  let idle := (List.range (20 * (s.txRung q).n)).filter (fun i => !passes i && decide (128 ≤ s.slotOf q 0 i))
  through ++ adds ++ ociSlots idle

/-- Frame `f`, received on the other port, goes on over port `q`. -/
def otuOnward (q : Nat) (f : OtuFrame) (s : State) : State :=
  if s.txState q ≠ 2 then s
  else
    let l := (s.port q).lfr
    let f := s.frameOver q (s.txRung q).n { f with odus := s.onwardOdus q f (l.adds.headD []) }
    let f := { f with msi := (List.range (20 * (s.txRung q).n)).map (fun i => ((f.odus.find? (fun o => o.slots.contains i)).map (·.trib)).getD 0xFF) }
    otuSend q f (beiClear q (s.modLfr q (fun l => { l with adds := l.adds.tail })))

/-- A whole frame received on port `p`. -/
def otuSink (p : Nat) (bad : Bool) (f : OtuFrame) (s : State) : State :=
  let s := s.modLfr p (fun l => { l with otuRx := some f })
  let f := if s.lineDown p then frameAis f else f
  if s.portMode = 1 then otuOnward (1 - p) f (deliver p f bad s)
  else if s.bonded then
    let s := shareKeep p { f with odus := f.odus.map (fun o => { o with slots := o.slots.map (· + 20 * s.bondFirst p) }) } s
    match shareNext 64 (s.port 0).lfr.share (s.port 1).lfr.share with
    | some (m, x, y) => deliver 0 m bad ((s.modLfr 0 (fun l => { l with share := x })).modLfr 1 (fun l => { l with share := y }))
    | none => s
  else deliver p f bad s

/-- The frames that the OTUCn bits of port `p` complete. -/
def otuFrames (p : Nat) (s : State) : State :=
  let l := (s.port p).lfr
  let r := Config.otuRead (s.rxRung p).n l.otuBits
  let s := s.modLfr p (fun l => { l with otuBits := l.otuBits.drop r.2, otuErr := l.otuErr && r.1.isEmpty })
  r.1.foldl (fun s f => otuSink p l.otuErr f s) s

/-- Payload released on port `p` goes through the line framer to OTN processing. -/
def payFollow (p : Nat) (s : State) : State :=
  let s := payDrain p ((s.port p).rxd.parts.length + 1) s
  if (s.port p).lfr.otuBits = [] then s else otuFrames p s

/-! ### Frames built (R225, R228, R243) -/

/-- The OTUCn of tables `h` that begins now, of `n` slices: what clients bring, unused slots as ODU OCI. -/
def otuBuild (h n : Nat) (l : List ClientSig) (s : State) : OtuFrame × State :=
  let x := clientOdus h l s
  let last := (s.port h).lfr.otuTx
  let used := fun i => decide (s.slotOf h 0 i < 128)
  let f : OtuFrame := s.frameOver h n
    { mfas := (match last with | some f => (f.mfas + 1) % 256 | none => 0), omfi := (match last with | some f => (f.omfi + 1) % 20 | none => 0),
      msi := (List.range (20 * n)).map (fun i => if used i then s.slotOf h 0 i else 0xFF),
      odus := x.1 ++ ociSlots ((List.range (20 * n)).filter (fun i => !used i)) }
  (f, x.2)

/-- One OTUCn frame begins on port `p`: built and sent, in a bonded group split over the members with L0's frame; in through mode the ODUs added
wait for the frame that goes on. -/
def otuBegin (p : Nat) (s : State) (l : List ClientSig) : State :=
  if s.portMode = 1 then
    let x := clientOdus p l s
    x.2.modLfr p (fun t => { t with adds := t.adds ++ [x.1] })
  else if s.bonded then
    if p ≠ 0 then s
    else
      let x := otuBuild 0 s.bondSize l s
      let one := fun q s => otuSend q { s.shareOf q x.1 with sm := List.replicate (s.shareOf q x.1).sm.length (s.layerSent q 0 {}) } s
      let t := beiClear 1 (beiClear 0 x.2)
      one 1 (one 0 t)
  else
    let x := otuBuild p (s.txRung p).n l s
    otuSend p x.1 (beiClear p x.2)

/-! ### Commands -/

/-- CODEWORD_RELEASE (R182): what it frees of payload goes on to OTN processing. -/
def execCodewordRelease (p : Nat) (s : State) : Out := onPort s p (payFollow p (cwRelease p s))

end Sys2Proof.Machine
end

