-- ==== Sys2Proof/Machine/Frame.lean ====
section
/-! DEFINITION. The line frame (chapter 08): building a transmit frame, alignment, the control block, device overhead, the
through channel, bonding, and what OTN processing finds. -/
namespace Sys2Proof.Machine

/-! ### What the calendar will do at a coming boundary (R145, R176, R205) -/

/-- The action of a kind that wins at frame position `n` of direction `d`: the highest rank, then the last inserted (R50). -/
def State.winner (s : State) (d kind n : Nat) (f : Nat → Bool) : Option Nat :=
  let l := (s.swc.acts.filter (fun a => dPd a.desc == d && dKind a.desc == kind && dPos a.desc == n && f (dArg a.desc))).map (·.desc)
  [3, 2, 1, 0].findSome? (fun r => (l.filter (fun a => dRank a == r)).getLast?)

/-- The bank of table `t` that is active after that boundary. -/
def State.planBank (s : State) (d t n : Nat) : Nat :=
  match s.winner d 2 n (fun a => bits a 15 0 == t) with
  | some a => bitAt (dArg a) 16
  | none => s.actBank t (d % 2 == 1)

/-- The rung in force after it, from rung `i` before it. -/
def State.planRung (s : State) (p d n i : Nat) : Nat × Rung :=
  let ws := s.bankWords (ladderTab p) (s.planBank (2 * p + d) (ladderTab p) n)
  match s.winner (2 * p + d) 5 n (fun _ => true) with
  | some a => if (rungIn ws (bits (dArg a) 5 0)).ok then (bits (dArg a) 5 0, rungIn ws (bits (dArg a) 5 0)) else (i, rungIn ws i)
  | none => (i, rungIn ws i)

/-- H' × 64 of every subcarrier after it, under rung `r`. -/
def State.planHqs (s : State) (p d n : Nat) (r : Rung) : List Nat :=
  let a := s.adjBank p d (s.planBank (2 * p + d) (adjTab p d) n)
  (List.range r.subs).map (fun j => (hqEff r (applied (s.adjVoid r a) a) j).toNat)

/-! ### Header (R196 to R203) -/

def fas : List Nat := bytesBe 16 0x3A5C96E10F7B24D8C5E31B69A0F47D92

/-- Bits in which 16 bytes differ from FAS. -/
def fasErrors (b : List Nat) : Nat := (xorBits (bytesBits (b.take 16)) (bytesBits fas)).sum

/-- Scrambling of header bytes 16 to 511 (R201). -/
def headerKey : List Nat := bitsBytes 496 (prbs23 0x555555 3968)
def scramble (b : List Nat) : List Nat := List.zipWith (· ^^^ ·) b headerKey

/-- A control block copy (R199): MFAS, SWN, RUNG, CWP, KEY_EPOCH, JC_NEXT, JC_CUR. -/
structure Control where
  mfas  : Nat
  swn   : Nat
  rung  : Nat
  cwp   : Nat
  epoch : Nat
  jcNext : Nat
  jcCur : Nat
deriving DecidableEq, Repr

def Control.bytes (c : Control) : List Nat :=
  let b := [c.mfas] ++ bytesBe 6 c.swn ++ [c.rung] ++ bytesBe 3 c.cwp ++ bytesBe 4 c.epoch ++ bytesBe 3 c.jcNext ++
    bytesBe 3 c.jcCur ++ List.replicate 9 0
  b ++ bytesBe 2 (crc16 b)

/-- The copy in 32 bytes, where its CRC holds. -/
def controlOf (b : List Nat) : Option Control :=
  if crc16 (b.take 30) = beAt b 30 2 then
    some { mfas := b.getD 0 0, swn := beAt b 1 6, rung := b.getD 7 0 % 64, cwp := beAt b 8 3 % 2 ^ 18, epoch := beAt b 11 4,
           jcNext := beAt b 15 3 % 2 ^ 20, jcCur := beAt b 18 3 % 2 ^ 20 }
  else none

/-- The lowest-numbered copy that passes, in descrambled bytes 16 to 511, with its number. -/
def controlIn (b : List Nat) : Option (Nat × Control) :=
  [0, 1, 2].findSome? (fun k => (controlOf ((b.drop (32 * k)).take 32)).map (fun c => (k, c)))

/-- The protected area of 320 data bytes with its parity (R200). -/
def protect (d : List Nat) : List Nat :=
  let half := fun w => (List.range 160).map (fun t => d.getD (2 * t + w) 0)
  let p0 := rsParity (half 0)
  let p1 := rsParity (half 1)
  d ++ (List.range 32).flatMap (fun t => [p0.getD t 0, p1.getD t 0])

/-- The 320 data bytes of a received protected area; none where a codeword fails. -/
def unprotect (b : List Nat) : Option (List Nat) :=
  let word := fun w => rsDecode ((List.range 192).map (fun t => b.getD (2 * t + w) 0))
  match word 0, word 1 with
  | some x, some y => some ((List.range 160).flatMap (fun t => [x.getD t 0, y.getD t 0]))
  | _, _ => none

/-- The 512 bytes of a header. -/
def headerBytes (c : Control) (d : List Nat) : List Nat :=
  fas ++ scramble (c.bytes ++ c.bytes ++ c.bytes ++ protect d ++ List.replicate 16 0)

/-! ### The slip buffer of through mode (R226, R227) -/

/-- A frame received on port `p` writes an entry for the other port; `joint` says that a read falls in the same core clock. -/
def slipWrite (p : Nat) (e : Option (List Nat)) (joint : Bool) (s : State) : State :=
  if s.portMode ≠ 1 then s
  else
    let q := 1 - p
    if 4 ≤ (s.port q).lfr.slip.length && !joint then
      (s.addSat (R.LFR_THC_SLIP_DROP q) 1).raise (Ev.LFR_THC_SLIP q)
    else s.modLfr q (fun l => { l with slip := l.slip ++ [e], slipHold := l.slipHold && decide (l.slip.length + 1 < 2) })

/-- A frame sent on port `p` reads an entry. -/
def slipRead (p : Nat) (s : State) : Option (List Nat) × State :=
  let l := (s.port p).lfr
  if l.slipHold then (none, s)
  else match l.slip with
    | e :: r => (e, s.modLfr p (fun l => { l with slip := r, slipLast := e }))
    | [] => (l.slipLast, (s.addSat (R.LFR_THC_SLIP_REPEAT p) 1).raise (Ev.LFR_THC_SLIP p))

/-! ### Sending (R202 to R207) -/

/-- D3 to D5 as STRUCT gives them. -/
def State.bondBytes (s : State) (p : Nat) : List Nat :=
  if s.bonded then [128 + 64 * p + s.bondSize % 64, s.bondFirst p % 64, s.img.struct.group % 256] else [0, 0, 0]

/-- Contexts of port `p` that send a null section. -/
def State.nullMask (s : State) (p : Nat) : Nat :=
  ((List.range 32).map (fun c => if s.ctxMode p c = 1 && (s.ctx p 0 c).null then 2 ^ c else 0)).sum

/-- Key slots current on transmit. -/
def State.txEpoch (s : State) (p : Nat) : Nat := ((List.range 32).map (fun c => (s.ctx p 0 c).cur * 2 ^ c)).sum

/-- D0 to D319 of a frame with MFAS `mf`; `thc` is the through-channel content where it is valid. -/
def State.dataBytes (s : State) (p mf : Nat) (thc : Option (List Nat)) : List Nat :=
  let null := s.nullMask p
  let d0 := s.get (R.LFR_DOH_TX_LINK_STATE p) + 8 * s.get (R.LFR_DOH_TX_ADAPTING p)
  let rdi := !s.faHolds p || s.isOn (R.LFR_DOH_TX_FORCE_RDI p)
  let sq := s.bonded && s.isOn (R.LFR_BOND_STAT_SQUELCH 0)
  let hot := decide (0 < s.get R.THM_LEVEL_LEVEL)
  let d1 := rdi.toNat + 2 * (decide (null ≠ 0)).toNat + 4 * sq.toNat + 8 * hot.toNat + 16 * thc.isSome.toNat
  let user := (List.range 48).map (fun i => (s.port p).lfr.userTx.getD i 0)
  let thcB := match thc with | some b => (List.range 64).map (fun i => b.getD i 0) | none => List.replicate 64 255
  let tags := (List.range 8).flatMap (fun i =>
    let c := 8 * (mf % 4) + i
    (List.range 16).map (fun k => (s.ctx p 0 c).prevTag.getD k 0))
  [d0, d1, s.get (R.TXD_STATE_ADJ_ID p)] ++ s.bondBytes p ++ [0, 0] ++ bytesBe 4 null ++ List.replicate 4 0 ++ user ++ thcB ++
    tags ++ List.replicate 64 0

/-- The position of the transmit frame that begins now (R33). -/
def txAdvance (p : Nat) (s : State) : State :=
  let n := s.txNext p
  s.modPd (txPd p) (fun q => { q with swath := n / 256 % 2 ^ 48, frame := n % 256, first := false })

/-- A frame joins those that wait to be mapped (R138 to R150): its entropies and compositions, the power of its subcarriers under the set applied, the
boost. -/
def State.txFrame (s : State) (p : Nat) (header : List Nat) : TxFrame :=
  let r := s.txRung p
  let a := s.adjApplied p 0
  { header := header, sc := r.sc, m := r.m, pilot := r.pilot, amps := frameAmps r, hqs := s.dirHqs p 0, comps := s.dirComps p 0,
    shares := powerShares ((List.range r.subs).map (fun j => r.pw.getD j 0 + a.dp.getD j 0)), boost := s.get (R.TXD_PILOT_PBOOST p) }

/-- The oldest frame that waits is mapped once the signs of all its amplitudes are known. -/
def mapReady (p : Nat) (s : State) : State :=
  let t := (s.port p).txd
  match t.frames with
  | f :: r =>
    if t.ready.length < f.amps then s
    else s.modTxd p (fun t => { t with frames := r, ready := t.ready.drop f.amps, syms := frameSymbols f (t.ready.take f.amps) })
  | [] => s

/-- The chips of the packet that is being sent, 256 to a frame (R251, R252): total power 10^(L / 10) of the payload's, half of it on each polarisation,
L = −18 − LEVEL / 2 dB. -/
def sedgeOverlay (p : Nat) (s : State) : State :=
  match (s.port p).sgp.sending with
  | none => s.modTxd p (fun t => { t with overlay := [] })
  | some k =>
    let on := s.isOn (R.SGP_TX_CTRL_EN p)
    let a : Int := rootOf (tenTo (-(36 + (s.get (R.SGP_TX_CTRL_LEVEL p) : Int))) 20 * 2 ^ 15)
    let code := goldCode k.code
    let chip := fun (n : Nat) => match k.syms[n / 1023]? with
      | some d => (1 - 2 * (code.getD (n % 1023) 0 : Int)) * (1 - 2 * (d : Int)) * a
      | none => 0
    (s.modTxd p (fun t => { t with overlay := if on then (List.range 256).map (fun i => chip (k.chip + i)) else [] })).modSgp p
      (fun g => { g with sending := some { k with chip := k.chip + 256 } })

/-- DAC lane `l` after predistortion (R153): linear equaliser, static curve, gain and skew. -/
def State.laneOut (s : State) (p l : Nat) (x : List Int) : List Int :=
  let x := match s.curve (s.get (R.TXD_PD_CTRL_LIN_TABLE p)) 4 with | some w => fir65 (frontTaps w l) x | none => x
  let x := match s.curve (s.get (R.TXD_PD_CTRL_NL_TABLE p)) 5 with | some w => x.map (staticCode w l) | none => x
  let skew := s.getI (R.TXD_LANE_SKEW p l)
  let x := x.map (fun v => gainOf v (s.getI (R.TXD_LANE_GAIN p l)))
  if skew = 0 then x else Config.skewed skew x

/-- The lanes' samples to codes of 8 bits, the clipped ones counted by lane (R153). -/
def predistort (p : Nat) (lanes : List (List Int)) (s : State) : State :=
  let out := (List.range lanes.length).map (fun l => s.laneOut p l (lanes.getD l []))
  let s := s.modTxd p (fun t => { t with codes := out.map (fun x => x.map (clampInt (-128) 127)) })
  iter 4 (fun l s => clipCount p l (((out.getD l []).filter (fun v => v < -128 || 127 < v)).length) s) s

/-- The frame that begins now is formed: `user` are bytes sampled for its swath (R354), `clients` what clients bring to each OTUCn frame that begins. -/
def frameSend (p : Nat) (user : List Nat) (clients : List (List ClientSig)) (s : State) : State :=
  let wasFirst := (s.pdPos (txPd p)).first
  let s := txAdvance p s
  let q := s.pdPos (txPd p)
  let s := if q.frame = 0 then
      joinPending (txPd p) (sharePending p (s.modLfr p (fun l => { l with userTx := (List.range 48).map (fun i => user.getD i 0 % 256) })))
    else s
  let s := clients.foldl (otuBegin p) (squelchOn (replaceInEnd (s.tableHome p) s))
  let t := (s.port p).txd
  let r := s.txRung p
  let hqs := s.dirHqs p 0
  let (i1, r1) := s.planRung p 0 (q.pos + 1) (s.txRungIx p)
  let (_, r2) := s.planRung p 0 (q.pos + 2) i1
  let n := allotment r hqs t.stream (r.restartsMatch r1) (r.restartsCode r1)
  let st1 := t.stream.next r (r.restartsMatch r1) (r.restartsCode r1)
  let n1 := allotment r1 (s.planHqs p 0 (q.pos + 1) r1) st1 (r1.restartsMatch r2) (r1.restartsCode r2)
  let jc := if wasFirst then 0 else min t.jcNext n
  let next := min n1 (t.buf.length - jc - 2048)
  let (thc, s) := if s.portMode = 1 then slipRead p s else (none, s)
  let own := if (s.port p).lfr.thcValid then some (s.port p).lfr.thcSent else none
  let thc := if s.portMode = 1 && !s.isOn (R.LFR_THC_CTRL_LOCAL p) then thc else own
  let c : Control := { mfas := q.frame, swn := q.swath, rung := s.txRungIx p, cwp := t.stream.pointer r, epoch := s.txEpoch p,
                       jcNext := next, jcCur := jc }
  let payload := xorBits (justify n jc n 0 (t.buf.take jc)) (prbs31 n)
  let x := shapeFrame r hqs (s.dirComps p 0) (r.restartsMatch r1) (r.restartsCode r1) t.shaper payload
  let hdr := headerBytes c (s.dataBytes p q.frame thc)
  let f := s.txFrame p hdr
  sedgeOverlay p (mapReady p (s.modTxd p (fun t => { t with
    stream := st1, shaper := x.sh, buf := t.buf.drop jc, jcNext := next, header := hdr, amps := x.amps, words := x.words,
    frames := t.frames ++ [f], ready := t.ready ++ x.out })))

/-! ### Frame alignment (R209 to R213) -/

/-- Candidates held. -/
def candShow (p : Nat) (s : State) : State :=
  s.set (R.LFR_ALIGN_STAT_CANDS p) (((List.range 4).filter (fun k => s.isOn (R.LFR_CAND_VALID p k))).length)

/-- The FAS check and a control copy of a header at a position. -/
def State.fasPasses (s : State) (p : Nat) (header : List Nat) : Bool :=
  decide (fasErrors header ≤ s.get (R.LFR_ALIGN_CFG_FAS_ERR_MAX p))
def copyIn (header : List Nat) : Option (Nat × Control) := controlIn (scramble (header.drop 16))

/-- A position of the search examined. -/
def searchHit (p pos : Nat) (header : List Nat) (s : State) : State :=
  if s.faHolds p || s.rxState p ≠ 5 || 65536 / (s.rxRung p).subs ≤ pos || !s.fasPasses p header then s
  else match copyIn header with
    | none => s
    | some (_, c) =>
      if (List.range 4).any (fun k => s.isOn (R.LFR_CAND_VALID p k) && s.get (R.LFR_CAND_POS p k) == pos) then s
      else match (List.range 4).find? (fun k => !s.isOn (R.LFR_CAND_VALID p k)) with
        | none => s.addSat (R.LFR_CAND_STAT_IGNORED p) 1
        | some k =>
          candShow p ((((s.set (R.LFR_CAND_VALID p k) 1).set (R.LFR_CAND_HITS p k) 1).set (R.LFR_CAND_MFAS p k) c.mfas).set
            (R.LFR_CAND_POS p k) pos)

/-- Frame alignment declared on candidate `k`. The matcher phase of a stream joined in its midst is a value the spec gives no
rule for. -/
def faDeclare (p mf : Nat) (s : State) : State :=
  let s := ((candClear p s).set (R.LFR_ALIGN_STAT_FA p) 1).raise (Ev.LFR_FA p)
  let s := s.set (R.LFR_ALIGN_STAT_MFAS p) mf
  let (x, s) := s.draw 512
  let s := s.modRxd p (fun r => { r with stream := { ph := x, ct := 0 } })
  let s := s.modLfr p (fun l => { l with
    fasFails := 0, swFrames := 0, swDirty := true, swSwn := none, cleanSwn := none, mfasDiff := 0, swnDiff := 0, cwpKnown := false, jcNext := none })
  agcFaDeclared p (rxFaDeclared p (setDefect p 0 0 false s))

/-- Candidate `k` examined again one frame later. -/
def candExamine (p k : Nat) (header : List Nat) (s : State) : State :=
  if s.faHolds p || !s.isOn (R.LFR_CAND_VALID p k) then s
  else
    let good := match copyIn header with
      | some (_, c) => if s.fasPasses p header && c.mfas = (s.get (R.LFR_CAND_MFAS p k) + 1) % 256 then some c.mfas else none
      | none => none
    match good with
    | none =>
      let s := (((s.set (R.LFR_CAND_VALID p k) 0).set (R.LFR_CAND_HITS p k) 0).set (R.LFR_CAND_MFAS p k) 0).set (R.LFR_CAND_POS p k) 0
      candShow p ((s.addSat (R.LFR_CAND_STAT_DROPPED p) 1).raise (Ev.LFR_CAND_DROP p))
    | some mf =>
      let h := s.get (R.LFR_CAND_HITS p k) + 1
      if 3 ≤ h then faDeclare p mf s
      else (s.set (R.LFR_CAND_HITS p k) h).set (R.LFR_CAND_MFAS p k) mf

/-- Frame alignment lost after five failing checks (R213). -/
def faLost (p : Nat) (s : State) : State :=
  if s.faHolds p then rxFaLost p (faClear p (s.raise (Ev.LFR_FA_LOST p))) else s

/-! ### Control block (R208, R214 to R216) -/

/-- A run of 3: the count after a frame, and whether it is complete. -/
def run3 (hit : Bool) (n : Nat) : Nat × Bool := if hit then (if 2 ≤ n then (0, true) else (n + 1, false)) else (0, false)

/-- Swath alignment declared at the end of frame 255 of swath `a` (R215, R39). -/
def saDeclare (p a : Nat) (s : State) : State :=
  let s := (s.set (R.LFR_ALIGN_STAT_SA p) 1).raise (Ev.LFR_SA p)
  let s := s.modPd (rxPd p) (fun q => { q with swath := a, frame := 255, valid := true, ever := true })
  let s := s.modLfr p (fun l => { l with mfasDiff := 0, swnDiff := 0 })
  staleBelow (rxPd p) (256 * (a + 1)) s

/-- The swath in progress followed by one frame with MFAS `mf` (R215): `bad` where its valid block disagrees. -/
def swathTrack (p mf : Nat) (swn : Option Nat) (bad : Bool) (s : State) : State :=
  let l := (s.port p).lfr
  let l := if mf = 0 then { l with swFrames := 0, swDirty := false, swSwn := none } else l
  let clash := match swn, l.swSwn with | some a, some b => a != b | _, _ => false
  let l := { l with swFrames := l.swFrames + 1, swDirty := l.swDirty || bad || clash,
                    swSwn := if l.swSwn.isNone then swn else l.swSwn }
  let clean := mf == 255 && l.swFrames == 256 && !l.swDirty && l.swSwn.isSome
  let old := l.cleanSwn
  let l := if mf = 255 then { l with cleanSwn := if clean then l.swSwn else none } else l
  let s := s.modLfr p (fun _ => l)
  if clean && !s.isOn (R.LFR_ALIGN_STAT_SA p) then
    match old, l.swSwn with
    | some a, some b => if b = (a + 1) % 2 ^ 48 then saDeclare p b s else s
    | _, _ => s
  else s

/-- What a valid control block says of the position, before or after swath alignment; the MFAS the frame has then. -/
def judgePos (p mf : Nat) (c : Control) (s : State) : Nat × Bool × State :=
  if s.isOn (R.LFR_ALIGN_STAT_SA p) then
    let l := (s.port p).lfr
    let (m, mLost) := run3 (c.mfas != mf) l.mfasDiff
    let (w, wLost) := run3 (c.swn != (s.pdPos (rxPd p)).swath) l.swnDiff
    let s := s.modLfr p (fun l => { l with mfasDiff := m, swnDiff := w })
    if mLost || wLost then (c.mfas, c.mfas != mf, saDrop p s) else (mf, c.mfas != mf, s)
  else (c.mfas, c.mfas != mf, s)

/-- The received rung compared with the one in force (R214). -/
def judgeRung (p rung : Nat) (s : State) : State :=
  let l := (s.port p).lfr
  let differ := rung != s.rxRungIx p
  let (d, bad) := run3 differ l.rungDiff
  let (g, good) := run3 (!differ) l.rungSame
  let s := s.modLfr p (fun l => { l with rungDiff := d, rungSame := g })
  let s := if bad && !s.isOn (R.LFR_ALIGN_STAT_RUNG_MISMATCH p) then
      (s.set (R.LFR_ALIGN_STAT_RUNG_MISMATCH p) 1).raise (Ev.LFR_RUNG_MISMATCH p) else s
  if good then s.set (R.LFR_ALIGN_STAT_RUNG_MISMATCH p) 0 else s

/-- The codeword pointer (R177). -/
def judgeCwp (p cwp : Nat) (s : State) : State :=
  let r := s.rxRung p
  let a := cwAmps r.bitsPer
  let l := (s.port p).lfr
  let adopt := fun (s : State) =>
    ((cwDrop p s).modRxd p (fun x => { x with stream := { x.stream with ct := (a - cwp % a) % a } })).modLfr p (fun l => { l with cwpKnown := true, cwpDiff := 0 })
  if !l.cwpKnown then adopt s
  else
    let (n, slip) := run3 (cwp != (s.port p).rxd.stream.pointer r) l.cwpDiff
    if slip then (adopt s).raise (Ev.FEC_CWP_SLIP p) else s.modLfr p (fun l => { l with cwpDiff := n })

/-- The rung of port `p`'s next received frame, as the calendar has it. -/
def State.rxNext (s : State) (p : Nat) : Rung :=
  let q := s.pdPos (rxPd p)
  if q.valid then (s.planRung p 1 (q.pos + 1) (s.rxRungIx p)).2 else s.rxRung p

/-- The allotment of a received frame and its justification count (R205, R208); the stream goes on. -/
def judgeJc (p : Nat) (c : Option Control) (s : State) : State :=
  let l := (s.port p).lfr
  let x := (s.port p).rxd
  let r := s.rxRung p
  let r1 := s.rxNext p
  let n := allotment r (s.dirHqs p 1) x.stream (r.restartsMatch r1) (r.restartsCode r1)
  let fit := fun (o : Option Nat) => o.filter (fun v => decide (v ≤ n))
  let jc := match fit l.jcNext, fit (c.map (·.jcCur)) with
    | some v, _ => some v
    | none, some v => some v
    | none, none => none
  let s := (s.set (R.LFR_ALLOT_VALUE p) n).set (R.LFR_JC_VALUE p) (jc.getD l.jc)
  let s := s.modLfr p (fun l => { l with
    jc := jc.getD l.jc, jcNext := c.map (·.jcNext), errored := jc.isNone, frameNo := l.frameNo + 1,
    allots := putKey l.frameNo (n, jc.getD l.jc, jc.isNone) l.allots })
  let s := s.modRxd p (fun x => { x with stream := x.stream.next r (r.restartsMatch r1) (r.restartsCode r1) })
  s.raiseIf jc.isNone (Ev.LFR_JC_LOST p)

/-! ### Device overhead (R165, R217 to R219, R229, R354) -/

/-- LINK_STATE, ADAPTING and the flags of D1, each accepted when two decoded frames in a row agree on it. -/
def acceptFlags (p d0 d1 : Nat) (s : State) : State :=
  let l := (s.port p).lfr
  let s := match l.lastD0 with
    | none => s
    | some o =>
      let s := if o % 8 = d0 % 8 then s.set (R.LFR_DOH_RX_LINK_LINK_STATE p) (d0 % 8) else s
      if bitAt o 3 = bitAt d0 3 then s.set (R.LFR_DOH_RX_LINK_ADAPTING p) (bitAt d0 3) else s
  let s := match l.lastD1 with
    | none => s
    | some o =>
      let was := s.get (R.LFR_DOH_RX_FAST p)
      let now := ((List.range 5).map (fun i => (if bitAt o i = bitAt d1 i then bitAt d1 i else bitAt was i) * 2 ^ i)).sum
      (s.set (R.LFR_DOH_RX_FAST p) now).raiseIf (bitAt now 0 == 1 && bitAt was 0 == 0) (Ev.LFR_RDI p)
  s.modLfr p (fun l => { l with lastD0 := some d0, lastD1 := some d1 })

/-- The received ADJ_ID compared with that of the receive set in force (R165). -/
def judgeAdjId (p id : Nat) (s : State) : State :=
  let differ := id != s.get (R.TXD_ADJ_STAT_RX_ADJ_ID p)
  let n := if differ then min 3 ((s.port p).lfr.adjDiff + 1) else 0
  let s := (s.modLfr p (fun l => { l with adjDiff := n })).set (R.TXD_ADJ_STAT_RCVD_ID p) id
  if n < 2 then s
  else if (s.adjIdle p 1).id = id && (s.findTab (adjTab p 1)).isSome then s.modLfr p (fun l => { l with adjSwap := true })
  else s.raiseIf (n == 2) (Ev.TXD_ADJ_MISMATCH p)

/-- The swap at the next receive frame boundary. -/
def adjSwap (p : Nat) (s : State) : State :=
  let l := (s.port p).lfr
  if l.adjSwap && (s.adjIdle p 1).id = s.get (R.TXD_ADJ_STAT_RCVD_ID p) then
    let t := adjTab p 1
    let s := s.makeActive t (1 - s.actBank t false) false
    (judgeAdj p 1 (s.modLfr p (fun l => { l with adjSwap := false }))).raise (Ev.TXD_ADJ_MISMATCH p)
  else s

/-- Received through-channel content (R219). -/
def thcReceive (p : Nat) (valid : Bool) (b : List Nat) (s : State) : State :=
  let l := (s.port p).lfr
  if !valid then s.modLfr p (fun l => { l with thcRun := 0 })
  else
    let n := if 0 < l.thcRun && l.thcLast = b then min 3 (l.thcRun + 1) else 1
    let s := s.modLfr p (fun l => { l with thcLast := b, thcRun := n })
    let held := (List.range 16).flatMap (fun w => bytesLe 4 (s.get (R.LFR_THC_RX_BYTES p w)))
    if n = 3 && held ≠ b then
      (iter 16 (fun w s => s.set (R.LFR_THC_RX_BYTES p w) (ofLe ((b.drop (4 * w)).take 4))) s).raise (Ev.LFR_THC_RX p)
    else s

/-- User bytes through the DOH format table (R218, R354). -/
def userReceive (p : Nat) (b : List Nat) (s : State) : State :=
  let t := s.get (R.LFR_DOH_TX_TABLE p)
  if t = 0xFFFF || !s.loaded t then s
  else iter 48 (fun i s =>
    let e := s.tabWord t false (1 + i)
    let v := b.getD i 0
    let l := (s.port p).lfr
    let n := if getAt 0 l.userRun i ≠ 0 && getAt 0 l.userLast i = v then min 3 (getAt 0 l.userRun i + 1) else 1
    let s := s.modLfr p (fun l => { l with userLast := setAt 0 l.userLast i v, userRun := setAt 0 l.userRun i n })
    if bitAt e 64 = 1 && bits e 66 65 < 3 && bits e 66 65 + 1 ≤ n then
      let f := R.HDG_DOH_RX_BYTES p (i / 4)
      let o := s.get f
      s.set f (o - o / 2 ^ (8 * (i % 4)) % 256 * 2 ^ (8 * (i % 4)) + v * 2 ^ (8 * (i % 4)))
    else s) s

/-- The bond map of a member compared with STRUCT (R229). -/
def judgeBond (p : Nat) (d : List Nat) (s : State) : State :=
  let s := ((s.set (R.LFR_DOH_RX_BOND p) (d.getD 3 0)).set (R.LFR_DOH_RX_FIRST p) (d.getD 4 0 % 64)).set (R.LFR_DOH_RX_GROUP p) (d.getD 5 0)
  if !s.bonded then s
  else
    let l := (s.port p).lfr
    let want := s.bondBytes p
    let differ := d.getD 3 0 != want.getD 0 0 || d.getD 4 0 % 64 != want.getD 1 0 || d.getD 5 0 != want.getD 2 0
    let (b, bad) := run3 differ l.bondBad
    let (g, good) := run3 (!differ) l.bondGood
    let s := s.modLfr p (fun l => { l with bondBad := b, bondGood := g, bondErr := if bad then true else if good then false else l.bondErr })
    let s := s.raiseIf (bad && !l.bondErr) (Ev.LFR_BOND_MAP p)
    squelchOn (s.set (R.LFR_BOND_STAT_MAP_ERR 0) ((s.port 0).lfr.bondErr || (s.port 1).lfr.bondErr).toNat)

/-- The protected area of a frame with MFAS `mf`. -/
def protectedArea (p mf : Nat) (area : List Nat) (joint : Bool) (s : State) : State :=
  let s := if mf % 4 = 0 then s.modLfr p (fun l => { l with tags := [] }) else s
  match unprotect area with
  | none =>
    let s := (s.addSat (R.LFR_HDR_CNT_DOH_UNCORR p) 1).raise (Ev.LFR_DOH_UNCORR p)
    slipWrite p none joint s
  | some d =>
    let s := iter 8 (fun i s => s.modLfr p (fun l =>
      { l with tags := putKey (8 * (mf % 4) + i) ((d.drop (128 + 16 * i)).take 16) l.tags })) s
    let tc := bitAt (d.getD 1 0) 4 == 1
    let thc := (d.drop 64).take 64
    let s := acceptFlags p (d.getD 0 0) (d.getD 1 0) s
    let s := judgeBond p d (judgeAdjId p (d.getD 2 0) s)
    let s := userReceive p ((d.drop 16).take 48) (thcReceive p tc thc s)
    slipWrite p (if tc then some thc else none) joint s

/-! ### A received frame -/

/-- A frame under frame alignment: `syms` are its symbols, by subcarrier. -/
def frameTake (p : Nat) (x : RxFrame) (syms : List (List Cx × List Cx)) (s : State) : State :=
  let sa := s.isOn (R.LFR_ALIGN_STAT_SA p)
  let mf := (s.get (R.LFR_ALIGN_STAT_MFAS p) + 1) % 256
  let s := if sa then s.modPd (rxPd p) (fun q => { q with swath := (q.pos + 1) / 256 % 2 ^ 48, frame := (q.pos + 1) % 256 }) else s
  let body := scramble (x.header.drop 16)
  let copy := controlIn body
  let c := copy.map (·.2)
  let s := s.set (R.LFR_ALIGN_STAT_COPY p) (match copy with | some k => k.1 | none => 3)
  let s := if copy.isNone then (s.addSat (R.LFR_HDR_CNT_HDR_ERR p) 1).raise (Ev.LFR_HDR_ERR p) else s
  let (mf, bad, s) := match c with | some c => judgePos p mf c s | none => (mf, false, s)
  let s := s.set (R.LFR_ALIGN_STAT_MFAS p) mf
  let q := s.pdPos (rxPd p)
  let s := if q.valid && mf % 4 = 0 then cipherRxBoundary p s else s
  let s := match c with
    | some c =>
      let s := ((s.set (R.LFR_RX_HDR_MFAS p) c.mfas).set (R.LFR_RX_HDR_RUNG p) c.rung).set (R.LFR_RX_EPOCH_KEY_EPOCH p) c.epoch
      epochCompare p c.epoch (judgeCwp p c.cwp (judgeRung p c.rung s))
    | none => s
  let s := s.set (R.FEC_CWP_CWP p) ((s.port p).rxd.stream.pointer (s.rxRung p))
  let s := judgeJc p c (frameDemap p syms ((s.rxRung p).restartsCode (s.rxNext p)) s)
  let s := protectedArea p mf ((body.drop 96).take 384) x.joint s
  let s := x.otn.foldl (fun s m => otnTake p m s) s
  let s := csfTake p x.csf s
  let s := if mf = 0 then joinPending (rxPd p) (cdTrack p x.cdStep s) else s
  swathTrack p mf (c.map (·.swn)) bad s

/-- A frame received on port `p`: alignment is lost at the end of the fifth whose FAS check fails. -/
def frameReceive (p : Nat) (x : RxFrame) (s : State) : State :=
  let s := losJudge p (rxFrameStep p (frameMeasure p x.lanes s))
  let (syms, s) := rxField p x s
  let x := if syms = [] then x else { x with header := headDecide (s.rxRung p) syms }
  if !s.faHolds p then s
  else
    let n := if s.fasPasses p x.header then 0 else (s.port p).lfr.fasFails + 1
    let s := fecJudge p (squelchOn (frameTake p x syms (s.modLfr p (fun l => { l with fasFails := n }))))
    replaceOutAll (some (s.tableHome p)) (if 5 ≤ n then faLost p s else s)

/-! ### Skew of the group (R230, R231) -/

/-- One measurement of skew per OTUC multiframe; none where it could not be made. The squelch is lifted here. -/
def skewMeasure (m : Option Int) (s : State) : State :=
  if !s.bonded then s
  else match m with
    | none => s.set (R.LFR_BOND_STAT_VALID 0) 0
    | some x =>
      let a := x.natAbs
      let s := (s.setI (R.LFR_BOND_STAT_SKEW 0) x).set (R.LFR_BOND_STAT_VALID 0) 1
      let s := if s.get (R.LFR_BOND_PEAK_MAX 0) < a then s.set (R.LFR_BOND_PEAK_MAX 0) (min a (2 ^ 20 - 1)) else s
      let l := (s.port 0).lfr
      let (b, bad) := run3 (decide (16000 < a)) l.skewBad
      let (g, good) := run3 (decide (a ≤ 15000)) l.skewGood
      let s := s.modLfr 0 (fun l => { l with skewBad := b, skewGood := g })
      let s := if bad then (s.set (R.LFR_BOND_STAT_SKEW_ALARM 0) 1).raiseIf (!s.isOn (R.LFR_BOND_STAT_SKEW_ALARM 0)) (Ev.LFR_BOND_SKEW 0)
        else if good then s.set (R.LFR_BOND_STAT_SKEW_ALARM 0) 0 else s
      if s.squelchCause then squelchOn s
      else (s.set (R.LFR_BOND_STAT_SQUELCH 0) 0).set (R.LFR_ALIGN_STAT_SQUELCH 0) 0

end Sys2Proof.Machine
end

