-- ==== Sys2Proof/Machine/TableRules.lean ====
section
/-! DEFINITION. The rules that the content of a table must keep (chapters 06, 08, 09, 11, 13): what image load and the insertion
of a bank swap refuse. A check works on the words of banks, given by table number. -/
namespace Sys2Proof.Machine

/-- The words of the bank of each table that a check looks at. -/
abbrev TabView := Nat → List Nat

/-- Reserved bits of a word are zero: `m` covers the bits in use. -/
def onlyBits (m w : Nat) : Bool := w &&& ((2 ^ 128 - 1) ^^^ m) == 0

/-- A mask from ranges of bits. -/
def rangeMask (l : List (Nat × Nat)) : Nat := (l.map (fun r => 2 ^ (r.1 + 1) - 2 ^ r.2)).sum

def word (ws : List Nat) (i : Nat) : Nat := ws.getD i 0

/-! ### Ladders, PCS tables, adjustment sets, OTN entities (R142, R148, R156, R222) -/

def ladderOk (ws : List Nat) : Bool :=
  (List.range 64).all (fun i => let r := rungIn ws i; !r.valid || r.ok)

def pcsTableOk (m : Nat) (ws : List Nat) : Bool :=
  let v := ws.filter (fun w => bitAt w 127 == 1)
  v.all (pcsPointOk m) && (v.map (fun w => bits w 8 0)).Nodup

def adjTableOk (ws : List Nat) : Bool :=
  let a := adjOf (word ws 0) (word ws 1) (word ws 2)
  onlyBits 255 (word ws 0) && a.dh.all (fun x => decide (-127 ≤ x)) && a.dp.all (fun x => decide (-60 ≤ x ∧ x ≤ 60))

def otnTableOk (ws : List Nat) : Bool :=
  (List.range 1032).all (fun e =>
    let w := word ws (16 * e)
    let mode := bits w 1 0
    (e % 8 == 7 && decide (8 ≤ e)) || mode == 0 ||
    (mode != 3 && bits w 4 3 != 3 && onlyBits (rangeMask [(6, 0), (11, 8), (31, 16)]) w && decide (2 ≤ bits w 11 8 ∧ bits w 11 8 ≤ 10) &&
      decide (1 ≤ bits w 31 16) && (bitAt w 6 == 0 || mode == 2)))

/-- Codewords of the window that a ladder requires with a window of `win` frame periods (R188). -/
def ladderWindow (win : Nat) (ws : List Nat) : Nat :=
  (List.range 64).foldl (fun a i =>
    let r := rungIn ws i
    if r.ok then max a (ceilDiv (r.dataSyms * r.bitsPer * (win + 1)) 9216) else a) 0 + 2

/-! ### Tables with a header (R353, R354) -/

def hdrType (ws : List Nat) : Nat := bits (word ws 0) 7 0
def hdrCount (ws : List Nat) : Nat := bits (word ws 0) 23 8
def hdrValid (ws : List Nat) : Bool := bitAt (word ws 0) 127 == 1

/-- Word `w` of the sets of an NLC table: every set lies within the table. -/
def nlcFits (ws : List Nat) : Nat → Nat → Bool
  | 0, _ => true
  | n + 1, i => let k := bits (word ws i) 31 20; decide (i + k < ws.length) && nlcFits ws n (i + 1 + k)

def agcGain (ws : List Nat) (c : Nat) : Nat := bits (word ws (1 + c / 8)) (16 * (c % 8) + 15) (16 * (c % 8))
def throttleAt (ws : List Nat) (v : Nat) : Nat := agcGain ws v

def throttleOk (ws : List Nat) : Bool :=
  let e := throttleAt ws
  let taps := fun v => let t := bits (e v) 15 7; if t = 0 then 512 else t
  hdrCount ws == 32 && e 0 == 48 &&
  (List.range 256).all (fun v =>
    decide (8 ≤ bits (e v) 5 0 ∧ bits (e v) 5 0 ≤ 48) && (bits (e v) 15 7 == 0 || bits (e v) 15 7 % 2 == 1) &&
    (v == 0 || (decide (bits (e v) 5 0 ≤ bits (e (v - 1)) 5 0) && decide (bitAt (e (v - 1)) 6 ≤ bitAt (e v) 6) &&
      decide (taps v ≤ taps (v - 1)))))

def dohEntryOk (w : Nat) : Bool :=
  decide (bits w 2 0 ≤ 3) && bits w 66 65 != 3 && onlyBits (rangeMask [(2, 0), (15, 8), (17, 16), (23, 20), (26, 24), (57, 32), (66, 64)]) w

/-! ### State machines (R356) -/

def smPool (ws : List Nat) : Nat := bits (word ws 0) 47 32
def smInitial (ws : List Nat) : Nat := bits (word ws 0) 57 48
def smTrans (ws : List Nat) (st t : Nat) : Nat := word ws (1 + 16 * st + t)
def smPoolWord (ws : List Nat) (k : Nat) : Nat := word ws (1 + 16 * hdrCount ws + k)

def smCompareOk (w : Nat) : Bool :=
  let src := bits w 3 0
  decide (1 ≤ src ∧ src ≤ 6) && decide (bits w 7 4 ≤ 5) && onlyBits (rangeMask [(7, 0), (20, 8), (57, 32), (127, 64)]) w &&
  (src != 5 || decide (bits w 13 8 < 48))

def smCondOk (ws : List Nat) (c : Nat) : Bool :=
  let k := bits c 31 28
  decide (k ≤ 4) && bits c 26 13 == 0 &&
  (k != 4 || (decide (bits c 11 0 < smPool ws) && smCompareOk (smPoolWord ws (bits c 11 0))))

def smActionOk (w : Nat) : Bool :=
  let k := bits w 3 0
  if k = 1 then bits w 7 4 != 0 && onlyBits (rangeMask [(7, 0), (57, 32), (95, 64)]) w
  else if k = 2 then decide (1 ≤ bits w 63 32) && onlyBits (rangeMask [(5, 0), (19, 8), (63, 32), (127, 64)]) w
  else if k = 3 then decide (8 ≤ bits w 11 8) && onlyBits (rangeMask [(4, 0), (11, 8)]) w
  else if k = 4 then onlyBits (rangeMask [(3, 0), (63, 32)]) w
  else if k = 5 then decide (bits w 9 8 ≤ 1) && onlyBits (rangeMask [(6, 0), (9, 8), (13, 12), (63, 32)]) w
  else if k = 6 then onlyBits (rangeMask [(6, 0)]) w
  else if k = 7 then onlyBits (rangeMask [(6, 0), (8, 8), (63, 32)]) w
  else if k = 8 then onlyBits (rangeMask [(3, 0), (19, 8)]) w
  else false

def smTransOk (ws : List Nat) (t : Nat) : Bool :=
  bitAt t 127 == 0 ||
  (let comb := bits t 31 30
   let ptr := bits t 111 100
   let cnt := bits t 99 96
   comb != 3 && bitAt t 126 == 0 && bits t 115 112 == 0 && bits t 29 0 == 0 && decide (bits t 125 116 < hdrCount ws) &&
   smCondOk ws (bits t 63 32) && (comb == 0 || smCondOk ws (bits t 95 64)) &&
   decide (cnt = 0 ∨ ptr + cnt ≤ smPool ws) && (List.range cnt).all (fun i => smActionOk (smPoolWord ws (ptr + i))))

def smOk (ws : List Nat) : Bool :=
  decide (1 ≤ hdrCount ws ∧ hdrCount ws ≤ 1024) && decide (smPool ws ≤ 4096) && decide (smInitial ws < hdrCount ws) &&
  decide (1 + 16 * hdrCount ws + smPool ws ≤ ws.length) &&
  (List.range (16 * hdrCount ws)).all (fun i => smTransOk ws (word ws (1 + i)))

/-- The rules of a table with a header, by its type; a table that does not count as loaded breaks none. -/
def curveOk (typ : Nat) (ws : List Nat) : Bool :=
  if hdrType ws ≠ typ || !hdrValid ws then true
  else if typ = 0x03 then nlcFits ws (hdrCount ws) 1
  else if typ = 0x04 then hdrCount ws == 36 &&
    (List.range 4).all (fun l => bits (word ws (9 + 9 * l)) 127 16 == 0)
  else if typ = 0x05 then hdrCount ws == 64
  else if typ = 0x06 then hdrCount ws == 31 && (List.range 240).all (fun c => decide (agcGain ws c ≤ agcGain ws (c + 1)))
  else if typ = 0x07 then hdrCount ws == 1 && (List.range 16).all (fun t =>
    let d := bits (word ws 1) (8 * t + 7) (8 * t); decide (5 ≤ d ∧ d ≤ 100))
  else if typ = 0x08 then throttleOk ws
  else if typ = 0x10 then hdrCount ws == 48 && (List.range 48).all (fun i => dohEntryOk (word ws (1 + i)))
  else if typ = 0x20 then smOk ws
  else true

/-- The rules of one bank by itself; `t` is its table number, `typ` the type of its directory entry. -/
def bankOk (t typ : Nat) (ws : List Nat) : Bool :=
  if typ = 0x01 then ladderOk ws
  else if typ = 0x02 then pcsTableOk (2 * (t - 0xF010) + 4) ws
  else if typ = 0x09 then adjTableOk ws
  else if typ = 0x0A then otnTableOk ws
  else if 0x0B ≤ typ && typ ≤ 0x0E then true
  else curveOk typ ws

/-! ### Client tables (R236, R242 to R244) -/

/-- The client groups. -/
def grpTableOk (ws : List Nat) : Bool :=
  let g := (List.range 64).map (word ws)
  let v := g.filter grpValid
  let perm := fun (w base n : Nat) =>
    let m := (List.range n).map (fun k => bits w (base + 3 * k + 2) (base + 3 * k))
    m.all (fun x => decide (x < n)) && m.Nodup
  v.all (fun w => decide (grpIf w ≤ 13) && (grpIf w == 0 || (grpFirst w % ifLanes (grpIf w) == 0 && decide (grpFirst w + ifLanes (grpIf w) ≤ 64) &&
    perm w 16 (ifLanes (grpIf w)) && perm w 40 (ifLanes (grpIf w)))) &&
    onlyBits (rangeMask [(3, 0), (13, 8), (99, 16), (127, 127)]) w) &&
  (v.flatMap grpLanes).Nodup

/-- The slots a tributary must hold (R244). -/
def tribNeeds (w : Nat) : Nat :=
  let t := tribType w
  if t = 7 then tribSlots w else [0, 1, 1, 2, 2, 8, 20].getD t 0

/-- Slots of an ODUflex that carries an Ethernet interface: those of 200GbE and 400GbE are G.709's (assumption log). -/
def etherSlots (i : Nat) : Nat := [0, 20, 40, 80, 80, 154, 154, 308].getD i 0

def slotHas (ws : List Nat) (t : Nat) : List Nat := (List.range 960).filter (fun i => slotByte ws i == t)

/-- The tributary and slot tables of one port against the group table, in port mode `mode`; `other` is the other port's receive
slot table and tributary table; `n` slices bound the slots. That a mapped tributary uses the same slots in both directions (R243) is no rule that a
swap is refused for: the two slot tables move it in two swaps (R244, R245). -/
def tribTablesOk (mode n : Nat) (groups tribs tx rx otherTribs otherRx : List Nat) : Bool :=
  let ts := (List.range 128).filter (fun t => tribValid (word tribs t))
  let bytesOk := (List.range 960).all (fun i =>
    [slotByte tx i, slotByte rx i].all (fun b => (decide (b < 128) || b == 0xFE || b == 0xFF) && (decide (i < 20 * n) || b == 0xFF)))
  bytesOk && ts.all (fun t =>
    let w := word tribs t
    let role := tribRole w
    let inTx := slotHas tx t
    let inRx := slotHas rx t
    let g := word groups (tribGroup w)
    decide (1 ≤ tribType w ∧ tribType w ≤ 7) && role != 3 && decide (1 ≤ tribNeeds w ∧ tribNeeds w ≤ 320) &&
    onlyBits (rangeMask [(5, 0), (13, 8), (22, 16), (40, 32), (127, 127)]) w &&
    (if role = 0 then mode != 1 && inTx.length == tribNeeds w && inRx.length == tribNeeds w
     else if role = 1 then mode == 1 && inTx.isEmpty && inRx.length == tribNeeds w
     else mode == 1 && inRx.isEmpty && inTx.length == tribNeeds w &&
       inTx.all (fun i => let b := slotByte otherRx i
         b == 0xFE || (decide (b < 128) && tribValid (word otherTribs b) && tribRole (word otherTribs b) == 1))) &&
    (!(grpDefined g && isEthernet (grpIf g)) ||
      (if grpIf g = 1 then tribType w == 6 else tribType w == 7 && tribSlots w == etherSlots (grpIf g))))

/-- Slices of a FlexO interface: FOICx has x (R237, R239). -/
def flexoSlices (i : Nat) : Nat := if i ≤ 9 then 1 else if i ≤ 11 then 2 else 4

/-- Tributaries of the ports in use that groups feed: an Ethernet group feeds exactly one, in through mode one in each direction that it serves, and a
FlexO group distinct SUB values (R244; DEDUCED, log entry 173). -/
def feedsOk (groups : List Nat) (tribs : List (List Nat)) : Bool :=
  let l := (tribs.flatMap (fun ws => ws.take 128)).filter tribValid
  let classOk := fun (f : Nat → Bool) => (List.range 64).all (fun g =>
    let w := word groups g
    let mine := l.filter (fun x => tribGroup x == g && f (tribRole x))
    !grpDefined w || (if isEthernet (grpIf w) then decide (mine.length ≤ 1)
      else (mine.map tribSub).Nodup && decide (mine.length ≤ 20 * flexoSlices (grpIf w))))
  classOk (fun r => r != 1) && classOk (fun r => r != 0 && r != 2) &&
  (List.range 64).all (fun g => !grpDefined (word groups g) || !isEthernet (grpIf (word groups g)) || l.any (fun x => tribGroup x == g))

/-! ### Cipher policy (R286) -/

def policyTableOk (ws tribs : List Nat) : Bool :=
  let v := (ws.take 32).filter (fun w => bitAt w 127 == 1)
  let used := v.filter (fun w => polMode w != 0)
  let named := (used.filter (fun w => !polWhole w)).map polTrib
  v.all (fun w => polMode w != 3 && decide (32 ≤ polBudget w ∧ polBudget w ≤ 44) &&
    onlyBits (rangeMask [(2, 0), (10, 4), (14, 12), (21, 16), (127, 127)]) w && (polHold w || !polOnFail w)) &&
  named.Nodup && (!used.any polWhole || used.length == 1) && named.all (fun t => tribValid (word tribs t))

/-! ### A bank about to become active (R142, R156, R158, R188, R244, R281, R286, R353) -/

/-- The bank of table `u` that the swaps pending on direction `d` up to frame position `n` leave active: the last of them. -/
def State.bankBy (s : State) (d u n : Nat) : Nat :=
  let l := s.swc.acts.filter (fun a => dPd a.desc == d && dKind a.desc == 2 && decide (dPos a.desc ≤ n) && bits (dArg a.desc) 15 0 == u)
  let key := fun (a : Act) => 4 * dPos a.desc + dRank a.desc
  match l with
  | [] => s.actBank u (d % 2 == 1)
  | a :: r => bitAt (dArg (r.foldl (fun x y => if key x ≤ key y then y else x) a).desc) 16

/-- The banks at frame position `n` of direction `d`, with bank `b` of table `t` in its place. -/
def State.viewWith (s : State) (d n t b : Nat) : TabView := fun u => s.bankWords u (if u = t then b else s.bankBy d u n)

/-- n of the rungs in force on port `p`: a direction that is stopped has none (log entry 156). -/
def State.sliceRungs (s : State) (p : Nat) : List Nat :=
  (if s.txState p = 2 then [(s.txRung p).n] else []) ++ (if s.rxState p ≠ 0 then [(s.rxRung p).n] else [])

/-- Slices that bound the slots of port `p`: those of the rungs in force, or of the bonded group; 24 where no rung is in force (log entry 174). -/
def State.sliceBound (s : State) (p : Nat) : Nat :=
  if s.bonded then s.bondSize else (s.sliceRungs p).foldl min 24

/-- The client tables of every port in use against a view. -/
def State.clientOk (s : State) (v : TabView) (bound : Nat → Nat) : Bool :=
  grpTableOk (v 0xF020) && feedsOk (v 0xF020) (s.tablePorts.map (fun p => v (tribTab p))) &&
  s.tablePorts.all (fun p =>
    tribTablesOk s.portMode (bound p) (v 0xF020) (v (tribTab p)) (v (slotTab p 0)) (v (slotTab p 1)) (v (tribTab (1 - p))) (v (slotTab (1 - p) 1)))

/-- Ports in use. -/
def State.portsInUse (s : State) : List Nat := (List.range 2).filter (fun p => s.hasPort p && bitAt s.img.struct.ports p == 1)

/-- The window that the ladders of a view require (R188). -/
def State.windowReq (s : State) (v : TabView) : Nat :=
  ((s.portsInUse).map (fun p => ladderWindow (s.get R.FEC_POOL_W) (v (ladderTab p)))).sum

/-- The cipher capacity of a port holds under a view (R281). -/
def State.cipherFits (s : State) (p : Nat) (v : TabView) : Bool :=
  let h := s.tableHome p
  decide (s.cipherReqWith p (v (s.policyTab p)) (v (slotTab h 0)) (v (slotTab h 1)) ≤ s.cipherCap p)

/-- The port that a table belongs to; none for a device table (R344). -/
def tabPort (t : Nat) : Option Nat :=
  if 0xF000 ≤ t && t ≤ 0xF00F then some 0 else if 0xF100 ≤ t && t ≤ 0xF10F then some 1 else none

/-- Number of a fixed port table without its port. -/
def tabKind (t : Nat) : Nat := if 0xF100 ≤ t && t ≤ 0xF10F then t - 0x100 else t

/-- Content checks on a swap that makes bank `b` of table `t` active at frame position `n` of direction `d`: CONFLICT first, then
LENGTH. Other tables are taken as the swaps before it leave them. A direction that is stopped has no rung in force (DEDUCED, log entry 156). -/
def State.swapContent (s : State) (d n t b : Nat) : Nat :=
  let v := s.viewWith d n t b
  let k := tabKind t
  let p := (tabPort t).getD 0
  let typ := match s.findTab t with | some e => e.typ | none => 0
  let inForce := fun i => (s.txState p == 2 && i == s.txRungIx p) || (s.rxState p != 0 && i == s.rxRungIx p)
  let same := (List.range 64).all (fun i => !inForce i ||
    (List.range 4).all (fun w => word (v t) (4 * i + w) == s.tabWord t false (4 * i + w)))
  if !bankOk t typ (v t) then St.conflict
  else if k = 0xF000 && !same then St.conflict
  else if (k = 0xF004 || k = 0xF005 || k = 0xF006 || k = 0xF020) && !s.clientOk v s.sliceBound then St.conflict
  else if k = 0xF008 && !policyTableOk (v t) (v (tribTab (s.tableHome p))) then St.conflict
  else if k = 0xF000 && decide (8192 < s.windowReq v ∧ s.windowReq s.activeWords < s.windowReq v) then St.length
  else if (k = 0xF005 || k = 0xF006 || k = 0xF008) && !(s.portsInUse).all (fun q => s.cipherFits q v) then St.length
  else St.ok

end Sys2Proof.Machine
end

