-- ==== Sys2Proof/Machine/Operands.lean ====
section
/-! DEFINITION. Operand forms: where a byte address of BAR0 lands (R29, R30, and the address lists of every chapter). -/
namespace Sys2Proof.Machine

/-- What lies at an address. -/
inductive Place where
  /-- a register -/
  | reg (r : RDef)
  /-- a word of the calibration arrays of a port: live or staging, its key, its 32-bit quarter (R83) -/
  | cal (p : Nat) (live : Bool) (key q : Nat)
  /-- four bytes of a Sedge transmit buffer, of the head of the host receive queue (R278) -/
  | sgpTx (p off : Nat)
  | sgpRxq (p off : Nat)
  /-- four bytes of the data window of the flash controller (R408) -/
  | flcWin (off : Nat)
  /-- four bytes of a Stile slot, of the head of the Stile receive queue (R442) -/
  | stlSlot (sl off : Nat)
  | stlRxq (off : Nat)
  /-- half of a ring entry of a field-monitor chain (R481) -/
  | fmnRing (c e hi : Nat)
  /-- four bytes of a bank's mailbox window (R334) -/
  | secWin (off : Nat)
  /-- a word of table RAM (R351) -/
  | tab (w : Nat)
  | none
deriving DecidableEq, Repr

/-- The registers of the block at an address (R29, R30). -/
def blockRegs (a : Nat) : List RDef :=
  if a < 0x10000 then gctlRegs else if a < 0x20000 then pwrRegs else if a < 0x30000 then thmRegs else if a < 0x40000 then clkRegs
  else if a < 0x50000 then fabRegs else if a < 0x60000 then hifRegs else if a < 0x70000 then flcRegs else if a < 0x80000 then stlRegs
  else if a < 0x90000 then secRegs else if a < 0xA0000 then mceRegs else if a < 0xB0000 then imgRegs else if a < 0xC0000 then hdgRegs
  else if a < 0x100000 then [] else if a < 0x200000 then swcRegs else if a < 0x400000 then pmcRegs else if a < 0x800000 then fmnRegs
  else if a < 0x1000000 then fecRegs
  else if a < 0x3000000 then
    let o := a % 0x1000000
    if o < 0x100000 then cnvRegs else if o < 0x200000 then calRegs else if o < 0x400000 then rxdRegs else if o < 0x600000 then txdRegs
    else if o < 0x700000 then lfrRegs else if o < 0x800000 then sgpRegs else []
  else if a < 0x4000000 then cliRegs else if a < 0x8000000 then lcxRegs else []

/-- The arrays of the calibration block at offset `o` of CAL. -/
def calPlace (p o : Nat) : Place :=
  let q := o % 16 / 4
  if 0x10000 ≤ o && o < 0x30000 then
    let x := (o - 0x10000) % 0x10000
    if x / 0x800 < 16 && x % 0x800 / 16 ≤ 64 then .cal p (decide (o < 0x20000)) (sliceKey (x / 0x800) (x % 0x800 / 16)) q else .none
  else if 0x30000 ≤ o && o < 0x40000 then
    let x := (o - 0x30000) % 0x8000
    if x / 0x200 < 16 then .cal p (decide (o < 0x38000)) (bandKey (x / 0x200) (x % 0x200 / 16)) q else .none
  else .none

/-- The word address of table RAM lies in a bank that the directory names (R351). -/
def State.inTable (s : State) (w : Nat) : Option (TblEnt × Nat × Nat) :=
  s.img.struct.dir.findSome? (fun e =>
    if e.base ≤ w && w < e.base + 2 * e.words then some (e, (w - e.base) / e.words, (w - e.base) % e.words) else none)

/-- Addresses that the LYK4801 does not have: the LP1 block and the calendar's registers of PD 2 and PD 3 (R2, R32). -/
def onlyTwoPorts (a : Nat) : Bool :=
  (decide (0x2000000 ≤ a) && decide (a < 0x3000000)) || (decide (0x100060 ≤ a) && decide (a < 0x100080)) || a == 0x100088 || a == 0x10008C

/-- Where a word-aligned byte address lands, on this part. -/
def State.placeOf (s : State) (a : Nat) : Place :=
  if 0x10000000 ≤ a || (s.part == .lyk4801 && onlyTwoPorts a) then .none
  else if 0x8000000 ≤ a then
    if a < 0xA000000 && (s.inTable ((a - 0x8000000) / 16)).isSome then .tab ((a - 0x8000000) / 16) else .none
  else match findReg a (blockRegs a) with
    | some r => .reg r
    | none =>
      if 0x1000000 ≤ a && a < 0x3000000 then
        let p := a / 0x1000000 - 1
        let o := a % 0x1000000
        if 0x100000 ≤ o && o < 0x200000 then calPlace p (o - 0x100000)
        else if 0x710000 ≤ o && o < 0x718000 then .sgpTx p (o - 0x710000)
        else if 0x720000 ≤ o && o < 0x720800 then .sgpRxq p (o - 0x720000)
        else .none
      else if 0x61000 ≤ a && a < 0x62000 then .flcWin (a - 0x61000)
      else if 0x70080 ≤ a && a < 0x700C0 then .stlRxq (a - 0x70080)
      else if 0x71000 ≤ a && a < 0x71400 && (a - 0x71000) % 64 < 60 then .stlSlot ((a - 0x71000) / 64) ((a - 0x71000) % 64)
      else if 0x500000 ≤ a && a < 0x520000 then
        .fmnRing ((a - 0x500000) / 0x2000) ((a - 0x500000) % 0x2000 / 8) ((a - 0x500000) % 8 / 4)
      else if 0x88000 ≤ a && a < 0x8C000 then .secWin (a - 0x88000)
      else .none

/-- An address that a register write action may name (R44). -/
def State.mapped (s : State) (a : Nat) : Bool := s.placeOf a != .none

end Sys2Proof.Machine
end

