-- ==== Sys2Proof/Machine/Insert.lean ====
section
/-! DEFINITION. Insertion into the calendar: the ordered tests of R38 with the checks of R44, R158, R259, R281, R286, R290, R349,
R352 and R488. -/
namespace Sys2Proof.Machine

/-! ### Region activations (R348, R349) -/

/-- The image verified in a slot. -/
def State.image (s : State) (k : Nat) : Option Image := if s.get (R.IMG_SLOT_STAT_STATE k) = 2 then look k s.img.images else none

def imgStruct (i : Image) : StructSec := (i.sects.findSome? (·.struct)).getD {}

/-- The sections of a region, in entry order. -/
def imgRegion (i : Image) (r : Nat) : List Section := i.sects.filter (fun x => x.region == r)

/-- A slot holds a verified image for region `r` under the STRUCT in force (R44, R342). -/
def State.slotServes (s : State) (k r : Nat) : Bool :=
  match s.image k with
  | some i => !(imgRegion i r).isEmpty && (imgStruct i).hash == s.img.struct.hash
  | none => false

/-- The tables of region `r` of an image. -/
def imgTables (i : Image) (r : Nat) : List (Nat × List Nat) := (imgRegion i r).flatMap (·.tables)

/-- A pending swap of a table of region `r`. -/
def State.swapPending (s : State) (r : Nat) : Bool :=
  s.swc.acts.any (fun a => dKind a.desc == 2 &&
    (match s.findTab (bits (dArg a.desc) 15 0) with | some e => e.region == r | none => false))

/-- A table is locked by an activation that stages or has staged. -/
def State.stagingLocks (s : State) (t : Nat) : Bool :=
  s.swc.jobs.any (fun j => (j.phase == 1 || j.phase == 2) && (match s.findTab t with | some e => e.region == j.region | none => false))

/-- The capacity check of a CIPHER region (R281). -/
def State.cipherRegionFits (s : State) (k : Nat) : Bool :=
  match s.image k with
  | none => true
  | some i =>
    (s.portsInUse).all (fun q => s.cipherFits q (fun u =>
      match (imgTables i 5).find? (fun e => e.1 == u) with | some e => e.2 | none => s.activeWords u))

/-! ### Slices (R158) -/

/-- One more than the highest slice of port `p` that holds a slot of a defined tributary. -/
def State.slicesUsed (s : State) (p : Nat) : Nat :=
  let h := s.tableHome p
  (List.range 960).foldl (fun a i =>
    let used := [0, 1].any (fun d => let b := s.slotOf h d i; decide (b < 128) && tribValid (s.tribWord h b))
    if used then i / 20 + 1 else a) 0

/-- The rung change is refused by its n. -/
def State.sliceConflict (s : State) (p d n : Nat) : Bool :=
  if s.bonded then n != (if p = 0 then s.img.struct.n0 else s.img.struct.n1)
  else decide (n < s.slicesUsed p) || (s.portMode == 1 && n != (s.dirRung p d).n)

/-! ### Subcarrier tiles (R114, R343, R488) -/

def tileField (p t : Nat) : Fld := R.GCTL_TILE_STATE_STATE p (t / 8) (t % 8)
def State.tileState (s : State) (p t : Nat) : Nat := s.get (tileField p t)
def tileDomain (p t : Nat) : Nat := 160 + 16 * p + t

/-- The physical tile behind logical tile `l`, and the logical tile of a physical one (R343). -/
def State.physTile (s : State) (p l : Nat) : Nat := (s.img.struct.perm.getD p []).getD l l
def State.logicTile (s : State) (p t : Nat) : Nat := ((List.range 16).find? (fun l => s.physTile p l == t)).getD t

/-- The logical tiles of the groups under `n` subcarriers. -/
def tileGroups (n : Nat) : List (List Nat) :=
  let k := if n = 16 then 2 else 16 / max n 1
  (List.range (16 / k)).map (fun g => (List.range k).map (fun i => g * k + i))

/-- A rung change puts two tiles that are not IN_SERVICE in one group of the receiver (R488). -/
def State.tilesMeet (s : State) (p n : Nat) : Bool :=
  (tileGroups n).any (fun g => decide (2 ≤ (g.filter (fun l => s.tileState p (s.physTile p l) != 0)).length))

/-! ### The tests of R38 -/

/-- Test 1: the master may insert, and may insert this kind. -/
def mayInsertKind (m desc : Nat) : Bool :=
  mayInsert m &&
  (m == M.ling || !(dKind desc == 4 || (dKind desc == 3 && bits (dArg desc) 3 0 == 5) ||
    (dKind desc == 2 && tabKind (bits (dArg desc) 15 0) == 0xF008)))

/-- Test 2: the first check that fails; `approved` says that an approved change proposal names the content. -/
def State.argVerdict (s : State) (desc : Nat) (approved : Bool) : Nat :=
  let k := dKind desc
  let a := dArg desc
  let d := dPd desc
  let t := bits a 15 0
  if k = 0 || 10 ≤ k || !s.hasPd d then St.decerr
  else if k = 1 then (if bits a 63 60 = 0 || !s.mapped (4 * bits a 57 32) then St.decerr else St.ok)
  else if k = 2 then
    if (s.findTab t).isNone then St.decerr
    else if (match tabPort t with | some p => decide (p ≠ d / 2) && !s.bonded | none => false) || s.stagingLocks t then St.conflict
    else
      let v := s.swapContent d (dPos desc) t (bitAt a 16)
      if v ≠ St.ok then v
      else if tabKind t = 0xF008 && !approved then St.approvalMissing
      else St.ok
  else if k = 3 then
    let r := bits a 3 0
    let sl := bits a 11 8
    if 9 ≤ r || (r = 2 && s.part == .lyk4801) || 6 ≤ sl then St.decerr
    else if r = 0 || r = 6 || r = 8 || !s.slotServes sl r || s.swapPending r then St.conflict
    else if r = 5 && !s.cipherRegionFits sl then St.length
    else if r = 5 && !approved then St.approvalMissing
    else St.ok
  else if k = 4 then (if dFrame desc % 4 ≠ 0 then St.conflict else St.ok)
  else if k = 5 then
    let i := bits a 5 0
    let r := s.rung (d / 2) i
    if !s.rungOk (d / 2) i || s.sliceConflict (d / 2) (d % 2) r.n || (d % 2 = 1 && r.sc != (s.rxRung (d / 2)).sc && s.tilesMeet (d / 2) r.subs) then
      St.conflict
    else St.ok
  else if k = 6 then
    let b := bits a 15 0
    if 15 < b then St.decerr else if b < 8 then St.denied else if d % 2 = 1 then St.conflict else St.ok
  else if k = 7 then (if dFrame desc ≠ 0 then St.conflict else St.ok)
  else St.ok

/-- All six tests. -/
def State.insertVerdict (s : State) (m desc : Nat) (approved : Bool) : Nat :=
  let v := s.argVerdict desc approved
  let n := s.posN (dPd desc)
  if !mayInsertKind m desc then St.denied
  else if v ≠ St.ok then v
  else if dPos desc < n + 3 then St.stale
  else if n / 256 + 262143 < dSwath desc then St.horizon
  else if s.poolFree = 0 || (rankOf m ≠ 3 && s.poolFree ≤ s.get R.SWC_CFG_RSV_RANK3) then St.full
  else if 256 ≤ s.bucketOcc (bucketOf (dSwath desc)) then St.full
  else St.ok

/-- The event of a refusal (R57). -/
def refusalEvent (v : Nat) (s : State) : State :=
  if v = St.stale then s.raise Ev.SWC_STALE
  else if v = St.horizon then s.raise Ev.SWC_HORIZON
  else if v = St.full then s.raise Ev.SWC_FULL
  else if v = St.conflict then s.raise Ev.SWC_CONFLICT
  else s

/-- The next region activation that may stage does so (R348): one at a time, in insertion order. -/
def stageNext (s : State) : State :=
  if s.swc.jobs.any (fun j => j.phase == 1) then s
  else match s.swc.jobs.find? (fun j => j.phase == 0) with
    | none => s
    | some j => s.modSwc (fun c => { c with jobs := c.jobs.map (fun x => if x.bank = j.bank && x.handle = j.handle then { x with phase := 1 } else x) })

/-- An insertion by master `m`: the status, and the handle where it is OK. -/
def insertAction (m desc : Nat) (owner : Owner) (approved : Bool) (s : State) : Nat × Nat × State :=
  let v := s.insertVerdict m desc approved
  if v ≠ St.ok then (v, 0, refusalEvent v s)
  else
    let (h, s) := storeAct m desc owner s
    let s := if dKind desc = 3 then
        let j : RegionJob := { bank := bankOf m, handle := h, region := bits (dArg desc) 3 0, slot := bits (dArg desc) 11 8,
                               pd := dPd desc, phase := 0,
                               sects := match s.image (bits (dArg desc) 11 8) with | some i => imgRegion i (bits (dArg desc) 3 0) | none => [] }
        stageNext (s.modSwc (fun c => { c with jobs := c.jobs ++ [j] }))
      else s
    (v, h, s)

end Sys2Proof.Machine
end

