-- ==== Sys2Proof/Machine/Adapt.lean ====
section
/-! DEFINITION. The exchanges of two ends: link adaptation (R160 to R166, R272, R273), key rolls (R292, R274) and crossings (R276).
A direction `d` is 0 for this end's transmit direction and 1 for its receive direction. -/
namespace Sys2Proof.Machine

/-! ### Proposals (R162) -/

def State.prop (s : State) (p d : Nat) : Proposal := if d = 0 then (s.port p).txd.propTx else (s.port p).txd.propRx
def State.modProp (s : State) (p d : Nat) (f : Proposal → Proposal) : State :=
  s.modTxd p (fun t => if d = 0 then { t with propTx := f t.propTx } else { t with propRx := f t.propRx })

def State.propState (s : State) (p d : Nat) : Nat := s.get (R.TXD_PROP_STAT_STATE p d)

/-- A proposal is open: PROPOSED, ACCEPTED or COMMITTED. -/
def State.propOpen (s : State) (p d : Nat) : Bool := 1 ≤ s.propState p d && s.propState p d ≤ 3

/-- The decider this end names for a direction (R161). -/
def State.authority (s : State) (p d : Nat) : Nat := if d = 0 then s.get (R.TXD_ADAPT_TX_AUTH p) else s.get (R.TXD_ADAPT_RX_AUTH p)

/-- The swath in progress on the count of a direction, and the least target. -/
def State.dirSwath (s : State) (p d : Nat) : Nat := s.posN (2 * p + d) / 256
def State.leastTarget (s : State) (p d : Nat) : Nat := s.dirSwath p d + s.get (R.TXD_ADAPT_TMR_MIN_LEAD p)
def roundUp256 (n : Nat) : Nat := (n + 255) / 256 * 256

/-- What TXD_PROP_STAT_d shows. -/
def showProp (p d state role id status : Nat) (s : State) : State :=
  (((s.set (R.TXD_PROP_STAT_STATE p d) state).set (R.TXD_PROP_STAT_ROLE p d) role).set (R.TXD_PROP_STAT_ID p d) id).set
    (R.TXD_PROP_STAT_STATUS p d) status

/-- A proposal ends: DONE (4), REJECTED (5) or ABORTED (6); the hold of a crossing ends with the far end's proposal (R276). -/
def endProp (p d state status : Nat) (s : State) : State :=
  let role := s.get (R.TXD_PROP_STAT_ROLE p d)
  let s := (s.set (R.TXD_PROP_STAT_STATE p d) state).set (R.TXD_PROP_STAT_STATUS p d) status
  let s := s.modProp p d (fun x => { x with waiting := false, act := none, hold := x.hold && role == 0 })
  if state = 4 then s.raise (Ev.TXD_PROP_DONE p) else s.raise (Ev.TXD_PROP_FAIL p)

/-- The action of a proposal removed under R52. -/
def dropPropAct (p d : Nat) (s : State) : State :=
  match (s.prop p d).act with
  | some (b, h) => (removeAct b h (s.modProp p d (fun x => { x with act := none }))).2
  | none => s

/-- The idle bank of the adjustment table of a direction, and what it holds. -/
def State.idleAdj (s : State) (p d : Nat) : Nat := 1 - s.actBank (adjTab p d) false
def State.idleWords (s : State) (p d : Nat) : List Nat := (s.bankWords (adjTab p d) (s.idleAdj p d)).take 3

/-- The action of a proposal keyed to frame (target, 0). -/
def State.propDesc (s : State) (p d : Nat) (rung : Bool) (target i : Nat) : Nat :=
  if rung then descOf target 0 (2 * p + d) 5 i
  else descOf target 0 (2 * p + d) 2 (adjTab p d + 65536 * s.idleAdj p d)

/-- A PROPOSE sent for direction `d`: `content` is a rung index or the three words of a set, already in the idle bank. -/
def sendPropose (p d : Nat) (rung : Bool) (id target : Nat) (content : List Nat) (brk : Bool) (s : State) : State :=
  let s := showProp p d 1 0 id 0 s
  let s := s.modProp p d (fun x => { x with
    rung := rung, target := target, content := content, act := none, brk := brk, waiting := true, backoff := false })
  let body := if rung then [content.headD 0] else content.flatMap (bytesLe 16)
  coreSend p 0x11 ([id, d + 2 * rung.toNat] ++ bytesBe 6 target ++ body) s

/-- TXD_PROP_CMD.GO (R162): the status, and the PROPOSE sent where it is OK. -/
def propGo (p d : Nat) (rung : Bool) (id i : Nat) (s : State) : Nat × State :=
  if s.authority p d ≠ 1 then (St.denied, s)
  else if s.propOpen p d || (s.prop p d).hold then (St.busy, s)
  else
    let target := s.get (R.TXD_PROP_SW_LO_SW_L p) + 2 ^ 32 * s.get (R.TXD_PROP_SW_HI_SW_H p)
    if rung then (St.ok, sendPropose p d true id target [i] false s)
    else
      let w := s.idleWords p d
      (St.ok, sendPropose p d false (w.headD 0 % 256) target w false s)

/-- ABORT of the decider's open proposal, for a reason (R162, R164). -/
def propAbort (p d status : Nat) (s : State) : State :=
  if s.propOpen p d && s.get (R.TXD_PROP_STAT_ROLE p d) = 0 then
    let s := coreSend p 0x15 [s.get (R.TXD_PROP_STAT_ID p d), d] s
    endProp p d 6 status (dropPropAct p d s)
  else s

/-- The comparison of node ranks after a crossing: 0 equal or unknown, 1 this end is higher, 2 the other. -/
def State.rankCompare (s : State) (p : Nat) : Nat :=
  match (s.port p).sgp.peer with
  | none => 0
  | some (r, id) =>
    let mine := s.get (R.SGP_NODE_RANK p) * 2 ^ 64 + s.nodeId p
    let peer := r * 2 ^ 64 + id
    if mine = peer then 0 else if peer < mine then 1 else 2

/-- |a − b| < CROSS_SW. -/
def State.crosses (s : State) (p a b : Nat) : Bool := decide ((a - b) + (b - a) < s.get (R.SGP_XPROP_CROSS_SW p))

/-- The draw of a back-off by the DRBG, from 64 to 1,023 swaths. -/
def drawBackoff (s : State) : State := (s.draw 960).2

/-- A set is refused by its content (R163). -/
def State.setConflict (s : State) (p d : Nat) (a : AdjSet) : Bool :=
  let r := s.dirRung p d
  let force := if d = 0 then s.get (R.TXD_STATE_ADJ_ID p) else s.get (R.TXD_ADJ_STAT_RX_ADJ_ID p)
  s.adjVoid r a || a.id == force ||
  (List.range r.subs).any (fun j => decide (s.get (R.TXD_ADAPT_LIM_DH_MAX p) < (a.dh.getD j 0).natAbs) ||
    decide (s.get (R.TXD_ADAPT_LIM_DP_MAX p) < (a.dp.getD j 0).natAbs))

/-- The responder's check of a PROPOSE (R163) up to the insertion. -/
def State.proposeVerdict (s : State) (p d : Nat) (rung : Bool) (target i : Nat) (a : AdjSet) : Nat :=
  if s.authority p d ≠ 2 && s.authority p d ≠ 4 then St.denied
  else if s.propOpen p d || (!rung && s.bankLocked (adjTab p d) (s.idleAdj p d)) then St.busy
  else if (if rung then !s.rungOk p i || s.sliceConflict p d (s.rung p i).n else s.setConflict p d a) then St.conflict
  else if target < s.leastTarget p d then St.stale
  else St.ok

/-- A PROPOSE received (R162, R163, R276). -/
def proposeTake (p : Nat) (b : List Nat) (s : State) : State :=
  let s := takeMsg p 0x11 b s
  if !s.coreRuns 6 then s
  else
    let id := b.getD 0 0
    let d := 1 - bitAt (b.getD 1 0) 0
    let rung := bitAt (b.getD 1 0) 1 == 1
    let target := beAt b 2 6
    let i := b.getD 8 0 % 64
    let w := (List.range 3).map (fun k => ofLe ((b.drop (8 + 16 * k)).take 16))
    let a := adjOf (word w 0) (word w 1) (word w 2)
    let mine := s.prop p d
    if s.propState p d = 1 && s.get (R.TXD_PROP_STAT_ROLE p d) = 0 && mine.waiting && s.crosses p mine.target target then
      let s := endProp p d 6 St.conflict (dropPropAct p d s)
      let s := (coreSend p 0x13 [id, d, St.conflict] s).raise (Ev.SGP_CROSSED p)
      let c := s.rankCompare p
      if c = 0 then s.raise (Ev.SGP_RANK_TIE p)
      else if c = 1 then drawBackoff (s.modProp p d (fun x => { x with backoff := true }))
      else s.modProp p d (fun x => { x with hold := true })
    else
      let v := s.proposeVerdict p d rung target i a
      let r := if v ≠ St.ok then (v, 0, s)
        else
          let s := if rung then s else s.setBankWords (adjTab p d) (s.idleAdj p d) 0 w
          insertAction M.sedge (s.propDesc p d rung target i) (.prop p d) false s
      let v := r.1
      let h := r.2.1
      let s := r.2.2
      if v = St.ok then
        let s := showProp p d 2 1 id 0 s
        let s := s.modProp p d (fun x => { x with
          rung := rung, target := target, content := if rung then [i] else w, act := some (M.sedge, h), brk := false, waiting := false })
        coreSend p 0x12 [id, d] s
      else
        let s := coreSend p 0x13 [id, d, v] s
        if s.propOpen p d then s
        else
          let s := showProp p d 5 1 id v s
          (s.modProp p d (fun x => { x with hold := false })).raise (Ev.TXD_PROP_FAIL p)

/-- The master that inserts for the decider: the host, or the Bracken core that holds the policy of the port. -/
def State.deciderMaster (s : State) (p : Nat) (brk : Bool) : Nat := if brk then M.br (s.loopCore (linkLoops p)) else M.host

/-- An ACCEPT received in time (R162, R164). Where Bracken decides and the core that holds its policy does not run, nothing is inserted
(R18), and RESP_TO ends the proposal. -/
def acceptTake (p : Nat) (b : List Nat) (s : State) : State :=
  let s := takeMsg p 0x12 b s
  let d := 1 - bitAt (b.getD 1 0) 0
  let x := s.prop p d
  if !s.coreRuns 6 || s.propState p d ≠ 1 || !x.waiting || s.get (R.TXD_PROP_STAT_ID p d) ≠ b.getD 0 0 ||
      (x.brk && !s.loopRuns (linkLoops p)) then s
  else if !x.rung && s.idleWords p d ≠ x.content then propAbort p d St.conflict s
  else
    let m := s.deciderMaster p x.brk
    let r := insertAction m (s.propDesc p d x.rung x.target (x.content.headD 0)) (.prop p d) false s
    if r.1 ≠ St.ok then propAbort p d r.1 r.2.2
    else
      let s := (r.2.2.set (R.TXD_PROP_STAT_STATE p d) 3).modProp p d (fun x => { x with act := some (bankOf m, r.2.1), waiting := false })
      coreSend p 0x14 [b.getD 0 0, d] s

/-- A REJECT received. -/
def rejectTake (p : Nat) (b : List Nat) (s : State) : State :=
  let s := takeMsg p 0x13 b s
  let d := 1 - bitAt (b.getD 1 0) 0
  if s.coreRuns 6 && s.propState p d = 1 && (s.prop p d).waiting && s.get (R.TXD_PROP_STAT_ID p d) = b.getD 0 0 then
    endProp p d 5 (b.getD 2 0) s
  else s

/-- A COMMIT received. -/
def commitTake (p : Nat) (b : List Nat) (s : State) : State :=
  let s := takeMsg p 0x14 b s
  let d := 1 - bitAt (b.getD 1 0) 0
  if s.coreRuns 6 && s.propState p d = 2 && s.get (R.TXD_PROP_STAT_ROLE p d) = 1 && s.get (R.TXD_PROP_STAT_ID p d) = b.getD 0 0 then
    s.set (R.TXD_PROP_STAT_STATE p d) 3
  else s

/-- An ABORT received. -/
def abortTake (p : Nat) (b : List Nat) (s : State) : State :=
  let s := takeMsg p 0x15 b s
  let d := 1 - bitAt (b.getD 1 0) 0
  if s.coreRuns 6 && s.propOpen p d && s.get (R.TXD_PROP_STAT_ROLE p d) = 1 && s.get (R.TXD_PROP_STAT_ID p d) = b.getD 0 0 then
    let h := (s.prop p d).act
    let s := endProp p d 6 St.aborted s
    match h with
    | some (bk, x) => (removeAct bk x s).2
    | none => s
  else s

/-- RESP_TO swaths without an answer (R164). -/
def propTimeout (p d : Nat) (s : State) : State :=
  if s.propState p d = 1 && (s.prop p d).waiting then propAbort p d St.timeout s else s

/-- An action of an exchange has ended (R162). -/
def propEnded (p d status : Nat) (s : State) : State :=
  if !s.propOpen p d then s
  else if status = St.ok || status = St.late then endProp p d 4 0 s
  else endProp p d 6 status s

/-! ### The autonomous policy (R166) -/

/-- Index of the least value, the first where several are. -/
def leastAt (l : List Int) : Nat :=
  (List.range l.length).foldl (fun (b : Nat) i => if l.getD i 0 < l.getD b 0 then i else b) 0
def greatestAt (l : List Int) : Nat :=
  (List.range l.length).foldl (fun (b : Nat) i => if l.getD b 0 < l.getD i 0 then i else b) 0

/-- Steps 1 to 4: the set the policy arrives at from `a`, given GMI and SNR of every subcarrier. -/
def State.policyStep (s : State) (p d : Nat) (gmi : List Nat) (snr : List Int) (a : AdjSet) : AdjSet :=
  let r := s.dirRung p d
  let n := r.subs
  let use := s.adjApplied p d
  let margin : List Int := (List.range n).map (fun j =>
    9216 * (gmi.getD j 0 : Int) - 64 * 9216 * hqEff r use j + 4096 * ((9216 - r.infoLen : Nat) : Int) * (r.bitsPer : Int))
  let lo := leastAt margin
  let hi := greatestAt margin
  let step : Int := s.get (R.TXD_ADAPT_LIM_STEP_H p)
  let hmax : Int := s.get (R.TXD_ADAPT_LIM_DH_MAX p)
  let pmax := s.get (R.TXD_ADAPT_LIM_DP_MAX p)
  let a1 := if (16 * 9216 * (s.get (R.TXD_ADAPT_LIM_HYST p) : Int)) < margin.getD hi 0 - margin.getD lo 0 then
      let b : AdjSet := { a with dh := (a.dh.set lo (a.dh.getD lo 0 - step)).set hi (a.dh.getD hi 0 + step) }
      if -hmax ≤ b.dh.getD lo 0 && b.dh.getD hi 0 ≤ hmax && !s.adjVoid r b then b else a
    else a
  if s.isOn (R.TXD_ADAPT_LIM_TILT_EN p) && 2 ≤ n then
    let half := n / 2
    let diff := ((List.range half).map (fun j => snr.getD j 0)).sum - ((List.range half).map (fun j => snr.getD (half + j) 0)).sum
    if 30 * half < diff.natAbs then
      let t := a.dp.getD (n - 1) 0 + (if 0 < diff then 1 else -1)
      let b : AdjSet := { a1 with dp := (List.range 16).map (fun (j : Nat) =>
        if j < n then roundAway (t * (2 * (j : Int) - ((n : Int) - 1))) (n - 1) else a1.dp.getD j 0) }
      if (List.range n).all (fun j => decide ((b.dp.getD j 0).natAbs ≤ pmax)) && !s.adjVoid r b then b else a1
    else a1
  else a1

/-- The policy runs once on a direction. -/
def policyRun (p d : Nat) (gmi : List Nat) (snr : List Int) (s : State) : State :=
  if s.authority p d ≠ 3 || !s.loopRuns (linkLoops p) || s.propOpen p d || (s.prop p d).hold || (s.prop p d).backoff || (s.port p).txd.paused ||
      s.bankLocked (adjTab p d) (s.idleAdj p d) || (s.findTab (adjTab p d)).isNone then s
  else
    let a := s.adjActive p d
    let b := s.policyStep p d gmi snr a
    if b = a then s
    else
      let (x, s) := s.draw 255
      let id := if x + 1 = a.id then (x + 1) % 255 + 1 else x + 1
      let w := adjWords { b with id := id }
      let s := s.setBankWords (adjTab p d) (s.idleAdj p d) 0 w
      sendPropose p d false id (roundUp256 (s.leastTarget p d)) w true s

/-! ### Reports (R160, R272) -/

/-- The REPORT of the estimates latched last. -/
def State.report (s : State) (p : Nat) : List Nat :=
  let v := s.get (R.RXD_EST_VALID_VALID p)
  let bit := fun i k => bitAt v i * 2 ^ k
  let errs := s.get (R.RXD_BER_ERR_LO_COUNT_L p) + 2 ^ 32 * s.get (R.RXD_BER_ERR_HI_COUNT_H p)
  let total := s.get (R.RXD_BER_BITS_LO_COUNT_L p) + 2 ^ 32 * s.get (R.RXD_BER_BITS_HI_COUNT_H p)
  let ber := if total = 0 then 0 else min (2 ^ 32 - 1) (errs * 2 ^ 32 / total)
  bytesBe 6 (s.pdPos (rxPd p)).swath ++ [s.rxRungIx p, s.get (R.TXD_ADJ_STAT_RX_ADJ_ID p), s.get (R.RXD_OSNR_NL_SHARE p)] ++
  [bit 0 0 + bit 8 1 + bit 6 2 + bit 5 3 + bit 7 4 + bit 1 5] ++ bytesBe 2 (s.get (R.RXD_OSNR_OSNR p)) ++ bytesBe 4 ber ++
  bytesBe 3 (s.get (R.RXD_CD_EST_CD p)) ++ [(s.rxRung p).sc] ++
  (List.range 16).flatMap (fun j => bytesBe 2 (s.get (R.RXD_SC_SNR p j)) ++ bytesBe 2 (s.get (R.RXD_SC_GMI p j)))

/-- After a latch: the report, and the policy of the receive direction (R160, R166). -/
def afterLatch (p : Nat) (s : State) : State :=
  if s.isOn (R.LFR_ALIGN_STAT_SA p) && (s.pdPos (rxPd p)).swath % 2 ^ (s.get (R.TXD_ADAPT_RPT_LOG p)) = 0 then
    let s := if s.isOn (R.TXD_ADAPT_RPT_EN p) then coreSend p 0x10 (s.report p) s else s
    policyRun p 1 ((List.range 16).map (fun j => s.get (R.RXD_SC_GMI p j))) ((List.range 16).map (fun j => s.getI (R.RXD_SC_SNR p j))) s
  else s

/-- A report received. -/
def reportTake (p : Nat) (b : List Nat) (s : State) : State :=
  let s := takeMsg p 0x10 b s
  if !s.coreRuns 6 || b.length ≠ 84 then s
  else
    let s := (s.set (R.TXD_FER_SEQ_VALUE p) (s.get (R.TXD_FER_SEQ_VALUE p) + 1)).set (R.TXD_FER_SWATH_VALUE p) (beAt b 2 4)
    let s := iter 16 (fun j s =>
      let on := decide (j < (s.txRung p).subs)
      (s.set (R.TXD_FER_SC_SNR p j) (if on then beAt b (20 + 4 * j) 2 else 0)).set (R.TXD_FER_SC_GMI p j) (if on then beAt b (22 + 4 * j) 2 else 0)) s
    let s := (s.raise (Ev.TXD_RPT_RX p)).modTxd p (fun t => { t with paused := false })
    policyRun p 0 ((List.range 16).map (fun j => s.get (R.TXD_FER_SC_GMI p j))) ((List.range 16).map (fun j => s.getI (R.TXD_FER_SC_SNR p j))) s

/-- No report for 3 intervals while the receive position is valid. -/
def reportMissed (p : Nat) (s : State) : State :=
  if (s.pdPos (rxPd p)).valid then (s.raise (Ev.TXD_RPT_MISS p)).modTxd p (fun t => { t with paused := true }) else s

/-! ### Key rolls (R292) -/

def exKey (p c : Nat) : Nat := 32 * p + c
def State.keyEx (s : State) (p c : Nat) : KeyEx := getAt {} s.lcx.exs (exKey p c)
def State.modEx (s : State) (p c : Nat) (f : KeyEx → KeyEx) : State :=
  s.modLcx (fun l => { l with exs := modAt {} l.exs (exKey p c) f })

/-- What LCX_KEY_STAT_p shows. -/
def showKey (p c state id status : Nat) (s : State) : State :=
  (((s.set (R.LCX_KEY_STAT_STATE p) state).set (R.LCX_KEY_STAT_CTX p) c).set (R.LCX_KEY_STAT_ID p) id).set (R.LCX_KEY_STAT_STATUS p) status

/-- Actions removed under R52. -/
def removeAll (l : List (Nat × Nat)) (s : State) : State := l.foldl (fun s x => (removeAct x.1 x.2 s).2) s

/-- Ling inserts a switch of context `c` on direction `d` of port `p` at (s, 0). -/
def insertSwitch (p d c slot target : Nat) (s : State) : Nat × Nat × State :=
  insertAction M.ling (descOf target 0 (2 * p + d) 4 (c + 256 * slot)) (.key p c) false s

/-- The answer of one insertion, and of a second insertion after one with handle `h`: all or none. -/
def switchOne (a : Nat × Nat × State) : Nat × List (Nat × Nat) × State := (a.1, if a.1 = St.ok then [(M.ling, a.2.1)] else [], a.2.2)
def switchBoth (h : Nat) (b : Nat × Nat × State) : Nat × List (Nat × Nat) × State :=
  if b.1 = St.ok then (b.1, [(M.ling, h), (M.ling, b.2.1)], b.2.2) else (b.1, [], (removeAct M.ling h b.2.2).2)

/-- The switches of an exchange: the first direction, and with `both` the other; all or none. -/
def insertSwitches (p d c slot target : Nat) (both : Bool) (s : State) : Nat × List (Nat × Nat) × State :=
  let a := insertSwitch p d c slot target s
  if a.1 ≠ St.ok || !both then switchOne a else switchBoth a.2.1 (insertSwitch p (1 - d) c slot target a.2.2)

/-- An exchange ends: 2 DONE, 3 FAILED with a status. -/
def endKey (p c state status : Nat) (s : State) : State :=
  let x := s.keyEx p c
  let s := showKey p c state x.id status s
  let s := s.modEx p c (fun x => { x with waiting := false, asked := false, acts := [] })
  if state = 2 then s.raise (Ev.LCX_KEY_DONE p) else (removeAll x.acts s).raise (Ev.LCX_KEY_FAIL p)

/-- The exchange of a key roll begins: the switches inserted and KEY_PROP sent (R292 step 1). -/
def keyStart (p c id slot target : Nat) (both : Bool) (s : State) : Nat × State :=
  let r := insertSwitches p 0 c slot target both s
  let v := r.1
  let s := r.2.2.modEx p c (fun x => { x with id := id, slot := slot, both := both, target := target, acts := r.2.1, waiting := decide (v = St.ok), backoff := false, asked := false })
  if v ≠ St.ok then (v, (showKey p c 3 id v s).raise (Ev.LCX_KEY_FAIL p))
  else
    let k := (s.ctx p 0 c).slot slot
    (v, coreSend p 0x20 ([id, c, slot + 2 * both.toNat] ++ bytesBe 6 target ++ bytesBe 4 (kcv k.key k.salt)) (showKey p c 1 id 0 s))

/-- An exchange that Ling holds back while its runtime is replaced (R336). -/
def keyHeld (p c id slot target : Nat) (both : Bool) (s : State) : State :=
  showKey p c 1 id 0 (s.modEx p c (fun x =>
    { x with id := id, slot := slot, both := both, target := target, backoff := false, asked := true }))

/-- The exchange begins, or waits for the end of a runtime swap. -/
def keyBegin (p c id slot target : Nat) (both : Bool) (s : State) : Nat × State :=
  if s.get R.SEC_STATE_STATE = 3 then (St.ok, keyHeld p c id slot target both s) else keyStart p c id slot target both s

/-- The exchanges held back begin. -/
def keyResume (s : State) : State :=
  iter 64 (fun k s =>
    let x := s.keyEx (k / 32) (k % 32)
    if x.asked then (keyStart (k / 32) (k % 32) x.id x.slot x.target x.both s).2 else s) s

/-- LCX_KEY_CMD.GO: the status. -/
def keyGo (p c id slot : Nat) (both : Bool) (s : State) : Nat × State :=
  let target := s.get R.LCX_KEY_SW_LO_SW_L + 2 ^ 32 * s.get R.LCX_KEY_SW_HI_SW_H
  if s.ctxMode p c ≠ 1 then (St.denied, s)
  else if (s.keyEx p c).waiting || (s.keyEx p c).asked || (s.keyEx p c).hold then (St.busy, s)
  else if target < s.dirSwath p 0 + s.get R.LCX_KEY_TMR_MIN_LEAD then (St.stale, s)
  else keyBegin p c id slot target both s

/-- The responder's checks before insertion. -/
def State.keyVerdict (s : State) (p c slot check : Nat) (both : Bool) : Nat :=
  let k := (s.ctx p 1 c).slot slot
  if s.ctxMode p c ≠ 1 then St.denied
  else if (s.keyEx p c).waiting || (s.keyEx p c).asked then St.busy
  else if k.state = 3 then St.quarantined
  else if k.state ≠ 1 || kcv k.key k.salt ≠ check then St.conflict
  else if both && ((s.ctx p 0 c).slot slot).state ≠ 1 then St.conflict
  else St.ok

/-- A KEY_PROP received (R292 step 2, R276). -/
def keyPropTake (p : Nat) (b : List Nat) (s : State) : State :=
  let s := takeMsg p 0x20 b s
  if !s.coreRuns 6 then s
  else
    let id := b.getD 0 0
    let c := b.getD 1 0 % 32
    let slot := bitAt (b.getD 2 0) 0
    let both := bitAt (b.getD 2 0) 1 == 1
    let target := beAt b 3 6
    let x := s.keyEx p c
    if x.waiting && s.crosses p x.target target then
      let s := endKey p c 3 St.conflict s
      let s := (coreSend p 0x22 [id, c, St.conflict] s).raise (Ev.SGP_CROSSED p)
      let r := s.rankCompare p
      if r = 0 then s.raise (Ev.SGP_RANK_TIE p)
      else if r = 1 then drawBackoff (s.modEx p c (fun x => { x with backoff := true }))
      else s.modEx p c (fun x => { x with hold := true })
    else
      let v := s.keyVerdict p c slot (beAt b 9 4) both
      let r := if v ≠ St.ok then (v, [], s) else insertSwitches p 1 c slot target both s
      let s := r.2.2.modEx p c (fun x => { x with hold := false })
      if r.1 = St.ok then coreSend p 0x21 ([id, c] ++ bytesBe 6 target) s else coreSend p 0x22 [id, c, r.1] s

/-- A KEY_ACK, or a KEY_NAK, received in time. -/
def keyAckTake (p : Nat) (b : List Nat) (s : State) : State :=
  let s := takeMsg p 0x21 b s
  let c := b.getD 1 0 % 32
  if s.coreRuns 6 && (s.keyEx p c).waiting && (s.keyEx p c).id = b.getD 0 0 then endKey p c 2 0 s else s
def keyNakTake (p : Nat) (b : List Nat) (s : State) : State :=
  let s := takeMsg p 0x22 b s
  let c := b.getD 1 0 % 32
  if s.coreRuns 6 && (s.keyEx p c).waiting && (s.keyEx p c).id = b.getD 0 0 then endKey p c 3 (b.getD 2 0) s else s

/-- KEY_TO swaths without an answer. -/
def keyTimeoutEnd (p c : Nat) (s : State) : State := if (s.keyEx p c).waiting then endKey p c 3 St.timeout s else s

/-! ### After a crossing (R276): the subject is a direction, or with `key` a context -/

/-- The target of a re-proposal: the old one where it still leads by `lead`. -/
def reTarget (fresh : Bool) (old least : Nat) : Nat := if !fresh && least ≤ old then old else roundUp256 least

/-- The back-off ends: the same content is proposed again. -/
def backoffEnd (p : Nat) (key : Bool) (i : Nat) (s : State) : State :=
  if key then
    let x := s.keyEx p i
    if x.backoff && !x.waiting && s.ctxMode p i = 1 then
      (keyBegin p i x.id x.slot (reTarget false x.target (s.dirSwath p 0 + s.get R.LCX_KEY_TMR_MIN_LEAD)) x.both s).2
    else s
  else
    let x := s.prop p i
    if !x.backoff || s.propOpen p i then s
    else if !x.rung && s.bankLocked (adjTab p i) (s.idleAdj p i) then s.modProp p i (fun x => { x with backoff := false })
    else
      let s := if x.rung then s else s.setBankWords (adjTab p i) (s.idleAdj p i) 0 x.content
      sendPropose p i x.rung (s.get (R.TXD_PROP_STAT_ID p i)) (reTarget x.brk x.target (s.leastTarget p i)) x.content x.brk s

/-- 2,048 swaths of the hold have passed. -/
def holdEnd (p : Nat) (key : Bool) (i : Nat) (s : State) : State :=
  if key then s.modEx p i (fun x => { x with hold := false }) else s.modProp p i (fun x => { x with hold := false })

end Sys2Proof.Machine
end

