-- ==== Sys2Proof/Machine/Secure.lean ====
section
/-! DEFINITION. The security core (chapter 12): the mailbox and its commands, attestation, change proposals and approvals. -/
namespace Sys2Proof.Machine

def State.modSec (s : State) (f : SecState → SecState) : State := { s with sec := f s.sec }

def zeros (n : Nat) : List Nat := List.replicate n 0
def allZero (l : List Nat) : Bool := l.all (· == 0)

/-! ### The mailbox (R334) -/

/-- Masters with a mailbox bank. -/
def hasMailbox (m : Nat) : Bool := m == M.host || m == 6 || m == 7

def cOp (d : Nat) : Nat := bits d 7 0
def cPort (d : Nat) : Nat := bitAt d 8
def cDir (d : Nat) : Nat := bitAt d 9
def cCtx (d : Nat) : Nat := bits d 14 10
def cSlot (d : Nat) : Nat := bitAt d 15
def cLen (d : Nat) : Nat := bits d 31 16
def cArg (d : Nat) : Nat := bits d 63 32

def winKey (m w : Nat) : Nat := 4096 * m + w
/-- The first `n` bytes of a bank's data window. -/
def State.winBytes (s : State) (m n : Nat) : List Nat :=
  (List.range n).map (fun i => getAt 0 s.sec.win (winKey m (i / 4)) / 2 ^ (8 * (i % 4)) % 256)
/-- Bytes written to a bank's data window from byte `o` on. -/
def winWrite (m : Nat) : Nat → List Nat → State → State
  | _, [], s => s
  | o, b :: r, s => winWrite m (o + 1) r (s.modSec (fun x => { x with win := modAt 0 x.win (winKey m (o / 4)) (fun v =>
      mixBits (255 * 2 ^ (8 * (o % 4))) v (b % 256 * 2 ^ (8 * (o % 4)))) }))

/-- A mailbox command ends: its output lies in the window, its status in SEC_CMD_STAT. -/
def secDone (m status : Nat) (out : List Nat) (s : State) : State :=
  let s := winWrite m 0 out s
  let s := ((s.set (R.SEC_CMD_STAT_BUSY m) 0).set (R.SEC_CMD_STAT_STATUS m) status).set (R.SEC_CMD_STAT_RLEN m) out.length
  (s.raise Ev.SEC_CMD_DONE).answer status out

/-- What a mailbox command answers. -/
abbrev SecAns := Nat × List Nat × State

def State.lingState (s : State) : Nat := s.get R.SEC_STATE_STATE

/-! ### Signed objects (R316) -/

/-- A signed object passes: an unrevoked key whose hash is the one in OTP, the signature, the counter. While no customer key is
programmed, an image may carry a Plilum key. -/
def State.signedOk (s : State) (image : Bool) (o : SignedObj) : Bool :=
  let plm := o.keySlot < 2 && bitAt (s.get R.SEC_OTP_PLM_REVOKE) o.keySlot == 0 && o.keyHash == Config.plmKey o.keySlot
  let cust := o.keySlot < 4 && bitAt (s.get R.SEC_OTP_CUST_SET) o.keySlot == 1 && bitAt (s.get R.SEC_OTP_CUST_REVOKE) o.keySlot == 0 &&
    o.keyHash == getAt 0 s.sec.cust o.keySlot
  let key := if o.cls = 0 then plm && (!image || s.get R.SEC_OTP_CUST_SET == 0) else image && cust
  key && o.sigOk && decide ((if image then s.get R.SEC_STATE_IMG_SVN else s.get R.SEC_STATE_FW_SVN) ≤ o.svn)

/-! ### Keys (R288, R335) -/

/-- KTK `i`; a cleared one is zero. -/
def State.ktk (s : State) (i : Nat) : Nat := getAt 0 s.sec.ktk i
def unblob (s : State) (k : Nat) (b : List Nat) : Option Nat := (Config.keyUnwrap false (s.ktk k) (b.take 40)).map ofBe
def blobOf (s : State) (k key : Nat) : List Nat := Config.keyWrap false (s.ktk k) (bytesBe 32 key)

def ktkLoad (d : Nat) (x : List Nat) (s : State) : SecAns :=
  let put := fun (key : Nat) => (St.ok, [], s.modSec (fun y => { y with ktk := setAt 0 y.ktk (cArg d % 4) key }))
  if s.get R.SEC_STATE_LIFECYCLE = 1 then put (ofBe (x.take 32))
  else match unblob s (bits (cArg d) 3 2) x with
    | some key => put key
    | none => (St.denied, [], s)

/-- SALT and KCV of a slot, most significant byte first. -/
def saltKcv (key salt : Nat) : List Nat := bytesBe 4 salt ++ bytesBe 4 (kcv key salt)

def keyGen (d : Nat) (s : State) : SecAns :=
  if cDir d = 1 || !s.hasPort (cPort d) then (St.decerr, [], s)
  else
    let (key, s1) := s.draw (2 ^ 256)
    let (salt, s1) := drawSalt key s1
    let (v, s1) := installKey (cPort d) 0 (cCtx d) (cSlot d) key salt s1
    if v = St.ok then (v, blobOf s1 (cArg d % 4) key ++ saltKcv key salt, s1) else (v, [], s)

def keyInstall (d : Nat) (x : List Nat) (s : State) : SecAns :=
  if !s.hasPort (cPort d) then (St.decerr, [], s)
  else match unblob s (cArg d % 4) x with
    | none => (St.denied, [], s)
    | some key =>
      let (salt, s1) := if cDir d = 1 then (beAt x 40 4, s) else drawSalt key s
      let (v, s1) := installKey (cPort d) (cDir d) (cCtx d) (cSlot d) key salt s1
      if v = St.ok then (v, saltKcv key salt, s1) else (v, [], s)

def keyErase (d : Nat) (s : State) : SecAns :=
  if !s.hasPort (cPort d) then (St.decerr, [], s)
  else
    let (v, s) := eraseKey (cPort d) (cDir d) (cCtx d) (cSlot d) s
    (v, [], s)

def sessIn (d : Nat) (x : List Nat) (s : State) : SecAns :=
  match unblob s (cArg d % 4) x with
  | none => (St.denied, [], s)
  | some key =>
    let n := bits (cArg d) 13 8
    let (v, s) := sessLoad n key (beAt x 40 4) s
    (v, [], if v = St.ok then s.modSess n (fun y => { y with rights := byteAt x 44 % 8 }) else s)

def sessOut (d : Nat) (s : State) : SecAns :=
  let (v, s) := sessErase (bits (cArg d) 13 8) s
  (v, [], s)

/-- The answer of an insertion: its handle as two bytes. -/
def handleAnswer (r : Nat × Nat × State) : SecAns := (r.1, if r.1 = St.ok then bytesLe 2 r.2.1 else [], r.2.2)

/-- EPOCH: Ling inserts a switch (R292, R335). -/
def epochInsert (d : Nat) (x : List Nat) (s : State) : SecAns :=
  if !s.hasPort (cPort d) then (St.decerr, [], s)
  else if polRollReq (s.policy (cPort d) (cCtx d)) then (St.approvalMissing, [], s)
  else
    handleAnswer (insertAction M.ling (descOf (leAt x 0 8) 0 (2 * cPort d + cDir d) 4 (cCtx d + 256 * cSlot d)) .none false s)

/-! ### Attestation (R318 to R321) -/

/-- The policy taken where no record exists: slot A, then B, image slot 0, no fallback (R315). -/
def defaultPolicy : List Nat := [2, 0, 255] ++ zeros 253
def State.bootPolicy (s : State) : List Nat := if s.sec.policy.isEmpty then defaultPolicy else s.sec.policy

/-- The hash of content that may be absent. -/
def hashOf (l : List Nat) : List Nat := if l.isEmpty then zeros 32 else Config.sha256 l

/-- The hash of a region from its sections (R340): that of its one section, or of the bytes of all in entry order. -/
def regionHash : List Section → List Nat
  | [] => zeros 32
  | [x] => x.hash
  | l => Config.sha256 (l.flatMap (·.body))

/-- The hash of a region's content in force. -/
def State.regionHashOf (s : State) (r : Nat) : List Nat := slice (regionHash (getAt [] s.img.inforce r)) 0 32

/-- The policy table of port `p` in its active transmit bank, as bytes. -/
def State.policyBytes (s : State) (p b : Nat) : List Nat :=
  match s.findTab (0xF008 + 0x100 * p) with
  | none => []
  | some _ => (s.bankWords (0xF008 + 0x100 * p) b).flatMap (bytesLe 16)

def State.tswBytes (s : State) (p : Nat) : List Nat :=
  bytesLe 8 (if s.txState p = 2 then (s.pdPos (txPd p)).pos else 0)

/-- Bytes 0 to 575 of the report. -/
def State.attReport (s : State) (nonce : List Nat) (q : Nat) : List Nat :=
  bytesLe 4 0x5454414C ++ bytesLe 2 1 ++ zeros 2 ++ bytesLe 4 3404 ++
  bytesLe 4 s.identWord ++ bytesLe 8 Config.deviceId ++ slice nonce 0 32 ++ bytesLe 4 q ++
  [s.get R.SEC_STATE_LIFECYCLE, s.get R.SEC_STATE_FW_SVN, s.get R.SEC_STATE_IMG_SVN,
   s.get R.SEC_OTP_PLM_REVOKE + 4 * s.get R.SEC_OTP_CUST_REVOKE] ++ zeros 8 ++ s.tswBytes 0 ++ s.tswBytes 1 ++
  slice s.sec.runtime.hash 0 32 ++ slice s.sec.fw.hash 0 32 ++ (List.range 9).flatMap s.regionHashOf ++
  hashOf s.sec.enrol ++ Config.sha256 s.bootPolicy ++
  hashOf (s.policyBytes 0 (getAt 0 s.img.actTx 0xF008)) ++ hashOf (s.policyBytes 1 (getAt 0 s.img.actTx 0xF108)) ++ zeros 8

/-- The LMS signature of a leaf over a message (R318): q, the LM-OTS type, its 2,176 bytes, the LMS type, the path. -/
def attSig (q : Nat) (b : List Nat) : List Nat :=
  bytesBe 4 q ++ bytesBe 4 3 ++ slice (Config.lmsSign q b) 0 2176 ++ bytesBe 4 8 ++ slice (Config.lmsSign q b) 2176 640

/-- The attestation public key (R318): the two types, the identifier, the root. -/
def attPublic : List Nat := bytesBe 4 8 ++ bytesBe 4 3 ++ slice Config.attI 0 16 ++ slice Config.attKey 0 32

/-- Ling signs with the next leaf. -/
def attSign (nonce : List Nat) (s : State) : SecAns :=
  let q := s.get R.SEC_ATT_LEAF_VALUE
  let b := s.attReport nonce q
  (St.ok, b ++ attSig q b, s.set R.SEC_ATT_LEAF_VALUE (q + 1))

def attRefuse (v : Nat) (s : State) : SecAns := (v, [], s.raise Ev.SEC_ATT_REFUSED)

/-- ATTEST in bank `m`: none where a reservation is stored first, or one under way is waited for. -/
def attest (m : Nat) (x : List Nat) (s : State) : Option SecAns × State :=
  let q := s.get R.SEC_ATT_LEAF_VALUE
  if 1048576 ≤ q then (some (attRefuse St.quarantined s), s)
  else if q < s.get R.SEC_ATT_RSV_VALUE && s.sec.att.isEmpty then (some (attSign x s), s)
  else (none, (s.modSec (fun y => { y with att := y.att ++ [(m, slice x 0 32)] })).raiseIf s.sec.att.isEmpty Ev.SEC_ATT_RESERVE)

/-! ### Enrolment and secure-boot policy (R323 to R325) -/

/-- The valid entries of an enrolment list: identity, role, key hash. -/
def enrolled (l : List Nat) : List (Nat × Nat × List Nat) :=
  ((List.range 8).map (fun i => (leAt l (128 * i) 8, byteAt l (128 * i + 8), slice l (128 * i + 16) 32))).filter
    (fun e => e.1 != 0 && decide (1 ≤ e.2.1 ∧ e.2.1 ≤ 7))

/-- Two valid entries of distinct role. -/
def twoRoles (l : List Nat) : Bool :=
  let e := enrolled l
  e.any (fun a => e.any (fun b => a.1 != b.1 && a.2.1 != b.2.1))

def State.enrolOk (s : State) (l : List Nat) : Bool :=
  ((enrolled l).map (·.1)).Nodup && ((enrolled l).map (·.2.2)).Nodup && (s.get R.SEC_STATE_LIFECYCLE == 1 || twoRoles l)

/-- Bit 0 of DEBUG in the policy in force (R325, R365). -/
def State.debugOn (s : State) : Bool := byteAt s.bootPolicy 3 % 2 == 1

/-- The hash that a policy adds at CUST_KEY slot `i`. -/
def policyKey (l : List Nat) (i : Nat) : Nat := ofBe (slice l (16 + 32 * i) 32)

/-- A secure-boot policy that is not refused. -/
def State.policyOk (s : State) (l : List Nat) : Bool :=
  let covers := fun a b => a &&& b == b
  let plm := byteAt l 4
  let cust := byteAt l 5
  let revokes := fun (o : SignedObj) => bitAt (if o.cls = 0 then plm else cust) o.keySlot == 1
  decide (byteAt l 0 < 4 ∧ byteAt l 1 ≤ 5 ∧ byteAt l 3 < 2 ∧ plm < 4 ∧ cust < 16) && (byteAt l 2 ≤ 5 || byteAt l 2 == 255) &&
  allZero (slice l 6 2) && allZero (slice l 10 6) && allZero (slice l 144 112) &&
  decide (byteAt l 8 ≤ 128 ∧ byteAt l 9 ≤ 128) && covers plm (s.get R.SEC_OTP_PLM_REVOKE) && covers cust (s.get R.SEC_OTP_CUST_REVOKE) &&
  decide (s.get R.SEC_STATE_FW_SVN ≤ byteAt l 8 ∧ s.get R.SEC_STATE_IMG_SVN ≤ byteAt l 9) &&
  (List.range 4).all (fun i => policyKey l i == 0 || bitAt (s.get R.SEC_OTP_CUST_SET) i == 0 || policyKey l i == getAt 0 s.sec.cust i) &&
  !revokes s.sec.runtime && !revokes s.sec.image && decide (byteAt l 8 ≤ s.sec.runtime.svn ∧ byteAt l 9 ≤ s.sec.image.svn)

/-- The OTP changes of a policy (R330): revokes, counters, key additions; a failure is retried at the next start-up. -/
def otpProgram (fail : Bool) (s : State) : State :=
  let l := s.bootPolicy
  if fail then s.raise Ev.SEC_OTP_FAIL
  else
    let s := (s.set R.SEC_OTP_PLM_REVOKE (s.get R.SEC_OTP_PLM_REVOKE ||| byteAt l 4)).set R.SEC_OTP_CUST_REVOKE
      (s.get R.SEC_OTP_CUST_REVOKE ||| byteAt l 5)
    let s := (s.set R.SEC_STATE_FW_SVN (max (s.get R.SEC_STATE_FW_SVN) (byteAt l 8))).set R.SEC_STATE_IMG_SVN
      (max (s.get R.SEC_STATE_IMG_SVN) (byteAt l 9))
    iter 4 (fun i s =>
      if policyKey l i = 0 then s
      else (s.set R.SEC_OTP_CUST_SET (s.get R.SEC_OTP_CUST_SET ||| 2 ^ i)).modSec (fun y => { y with cust := setAt 0 y.cust i (policyKey l i) })) s

/-! ### Proposals (R326 to R333) -/

def State.slotAt (s : State) (k : Nat) : ChangeProp := getAt {} s.sec.slots k
def State.modSlot (s : State) (k : Nat) (f : ChangeProp → ChangeProp) : State :=
  s.modSec (fun x => { x with slots := modAt {} x.slots k f })

def ChangeProp.subject (c : ChangeProp) : Nat := byteAt c.bytes 6
def ChangeProp.link (c : ChangeProp) : Bool := byteAt c.bytes 7 % 2 == 1
def ChangeProp.image (c : ChangeProp) : Nat := bits (byteAt c.bytes 7) 6 4
def ChangeProp.target (c : ChangeProp) : Nat := leAt c.bytes 8 8
def ChangeProp.linkHash (c : ChangeProp) : List Nat := slice c.bytes 64 32
/-- The port whose swath numbers a subject is counted on. -/
def subjectPort (subject : Nat) : Nat := if subject = 2 then 1 else 0
def ChangeProp.live (c : ChangeProp) : Bool := 1 ≤ c.state && c.state ≤ 5

/-- A store of the record is asked for. -/
def recordStore (x : SecStore) (s : State) : State := s.modSec (fun y => { y with stores := y.stores ++ [x] })

/-- Content as words of a table. -/
def tableWords (l : List Nat) : List Nat := (List.range (l.length / 16)).map (fun i => leAt l (16 * i) 16)

/-- A cipher policy changes what must be agreed with the far end (R331). -/
def linkNeeded (old new : List Nat) : Bool :=
  (List.range 32).any (fun c =>
    let a := policyWord (old.getD c 0)
    let b := policyWord (new.getD c 0)
    polMode a != polMode b || ((polMode a == 1) && (polWhole a != polWhole b || polTrib a != polTrib b)))

/-- Content length that a subject needs in the window; the section of an image lies in its slot. -/
def subjectLen (subject : Nat) : Nat := if subject = 3 then 1024 else if subject = 4 then 256 else if subject = 1 || subject = 2 then 512 else 0

/-- The CIPHER section of a verified slot. -/
def State.cipherSection (s : State) (k : Nat) : Option Section :=
  match s.image k with
  | some i => (imgRegion i 5).head?
  | none => none

/-- The content check of R332. -/
def State.contentOk (s : State) (c : ChangeProp) : Bool :=
  let hash := slice c.bytes 32 32
  let p := subjectPort c.subject
  let ws := tableWords c.content
  let swath := c.target < 2 ^ 48
  if c.subject = 1 || c.subject = 2 then
    hash == Config.sha256 c.content && policyTableOk ws (s.activeWords (tribTab (s.tableHome p))) && swath &&
    (c.link || !linkNeeded (s.activeWords (0xF008 + 0x100 * p)) ws)
  else if c.subject = 3 then hash == Config.sha256 c.content && s.enrolOk c.content && c.target == 0
  else if c.subject = 4 then hash == Config.sha256 c.content && s.policyOk c.content && c.target == 0
  else match s.cipherSection c.image with
    | some x => hash == x.hash && swath
    | none => false

/-- The checks of PROPOSE in their order (R332). -/
def State.changeVerdict (s : State) (c : ChangeProp) : Nat :=
  let b := c.bytes
  let p := subjectPort c.subject
  let line := c.subject = 1 || c.subject = 2 || c.subject = 5
  let tsw := (s.pdPos (txPd p)).swath
  if leAt b 0 4 ≠ 0x5052504C || leAt b 4 2 ≠ 1 || c.subject = 0 || 6 ≤ c.subject || byteAt b 7 &&& 0x8E ≠ 0 || !allZero (slice b 96 32) then St.decerr
  else if (c.subject = 5 && decide (16384 - 128 < ((s.cipherSection c.image).map (·.len)).getD 0)) then St.length
  else if leAt b 24 8 ≠ Config.deviceId || (c.subject = 2 && s.part == .lyk4801) then St.denied
  else if !s.sec.nonces.contains (leAt b 16 8) then St.stale
  else if !s.contentOk c || (!c.link && !allZero c.linkHash) then St.conflict
  else if line && decide (c.target < tsw + s.get R.SEC_CONF_PROP_LEAD) then St.stale
  else if line && decide (tsw + 262143 < c.target) then St.horizon
  else if s.sec.slots.any (fun e => e.2.live && e.2.subject == c.subject) then St.busy
  else if (List.range 16).all (fun k => (s.slotAt k).live) then St.full
  else St.ok

def propose (x : List Nat) (s : State) : SecAns :=
  let c : ChangeProp := { state := 1, bytes := slice x 0 128, content := slice x 128 (subjectLen (byteAt x 6)) }
  let v := s.changeVerdict c
  if v ≠ St.ok then (v, [], s)
  else match (List.range 16).find? (fun k => !(s.slotAt k).live) with
    | none => (St.full, [], s)
    | some k =>
      let s := s.modSec (fun y => { y with nonces := y.nonces.erase (leAt c.bytes 16 8) })
      (v, k :: Config.sha256 c.bytes, s.modSlot k (fun _ => c))

def pnonce (s : State) : SecAns :=
  let (n, s) := s.draw (2 ^ 64)
  (St.ok, bytesLe 8 n, s.modSec (fun y => { y with nonces := (n :: y.nonces).take 16 }))

/-- A proposal ends: DONE, WITHDRAWN, EXPIRED or FAILED; the record is stored. -/
def propClose (k state status : Nat) (s : State) : State :=
  let s := recordStore .plain (s.modSlot k (fun c => { c with state := state, status := status }))
  if state = 6 then s.raise Ev.SEC_PROP_DONE
  else if state = 8 then s.raise Ev.SEC_PROP_EXPIRED
  else if state = 9 then s.raise Ev.SEC_PROP_FAIL
  else s

/-- Actions of a proposal removed under R52. -/
def propRemove (k : Nat) (s : State) : State :=
  let l := (s.slotAt k).acts
  removeAll l (s.modSlot k (fun c => { c with acts := [] }))

/-- One action of a proposal inserted, and noted in its slot. -/
def propInsert (k desc : Nat) (s : State) : Nat × State :=
  let r := insertAction M.ling desc (.appr k) true s
  (r.1, if r.1 = St.ok then r.2.2.modSlot k (fun c => { c with acts := c.acts ++ [(M.ling, r.2.1)] }) else r.2.2)

/-- The second action of a proposal, after the first went in. -/
def propSecond (k desc : Nat) (x : Nat × State) : Nat × State := if x.1 ≠ St.ok then x else propInsert k desc x.2

/-- A proposal after its insertions: SCHEDULED, or ended with the first status that is not OK. -/
def propScheduled (k : Nat) (r : Nat × State) : State :=
  if r.1 = St.ok then r.2.modSlot k (fun c => { c with state := 5, done := 0 }) else propRemove k (propClose k 9 r.1 r.2)

/-- The swaps of table `t` to its idle bank, which holds the content by then, at a target on both directions of port `p`. -/
def propSwaps (k p t target : Nat) (content : List Nat) (s : State) : Nat × State :=
  propSecond k (descOf target 0 (rxPd p) 2 (t + 65536 * s.idleBank t))
    (propInsert k (descOf target 0 (txPd p) 2 (t + 65536 * s.idleBank t)) (s.setBankWords t (s.idleBank t) 0 (tableWords content)))

/-- The actions of a confirmed proposal: a region activation, or swaps of the cipher policy (R330, R331). -/
def propInserts (k : Nat) (c : ChangeProp) (s : State) : Nat × State :=
  if c.subject = 5 then propInsert k (descOf c.target 0 0 3 (5 + 256 * c.image)) s
  else propSwaps k (subjectPort c.subject) (0xF008 + 0x100 * subjectPort c.subject) c.target c.content s

def propSchedule (k : Nat) (s : State) : State := propScheduled k (propInserts k (s.slotAt k) s)

/-- An action of a scheduled proposal has ended. -/
def apprEnded (k status : Nat) (s : State) : State :=
  let c := s.slotAt k
  if c.state ≠ 5 then s
  else if status = St.ok || status = St.late then
    if c.acts.length ≤ c.done + 1 then propClose k 6 0 s else s.modSlot k (fun c => { c with done := c.done + 1 })
  else propClose k 9 status s

/-- PROPOSED and HALF proposals lose their tokens with a new enrolment list (R330). -/
def dropTokens (s : State) : State :=
  s.modSec (fun y => { y with slots := y.slots.map (fun e => if e.2.state = 1 || e.2.state = 2 then (e.1, { e.2 with state := 1, tokens := [] }) else e) })

/-- APPR_CONF sent on the subject port (R331). -/
def apprConf (k : Nat) (s : State) : State :=
  let c := s.slotAt k
  if c.state = 3 && c.link then
    coreSend (subjectPort c.subject) 0x28 (k :: c.linkHash ++ bytesBe 6 c.target ++ bytesBe 8 (leAt c.bytes 16 8)) s
  else s

/-- A proposal is APPROVED (R330, R331). -/
def propApproved (k : Nat) (otpFail : Bool) (s : State) : State :=
  let c := s.slotAt k
  let s := (s.modSlot k (fun c => { c with state := 3 })).raise Ev.SEC_PROP_APPROVED
  if c.subject = 3 then propClose k 6 0 (dropTokens (s.modSec (fun y => { y with enrol := c.content })))
  else if c.subject = 4 then otpProgram otpFail (propClose k 6 0 (s.modSec (fun y => { y with policy := c.content })))
  else if c.link then apprConf k s
  else propSchedule k s

/-- An HSS public key and a signature of the parameter sets of R317: L, the LMS and the LM-OTS type; the signature names as many levels. -/
def hssTypesOk (pk sig : List Nat) : Bool :=
  let l := beAt pk 0 4
  decide (1 ≤ l ∧ l ≤ 2 ∧ 5 ≤ beAt pk 4 4 ∧ beAt pk 4 4 ≤ 9 ∧ 1 ≤ beAt pk 8 4 ∧ beAt pk 8 4 ≤ 4 ∧ beAt sig 0 4 + 1 = l)

/-- The checks of APPROVE in their order (R332). -/
def State.approveVerdict (s : State) (x : List Nat) (k : Option Nat) : Nat :=
  let role := byteAt x 6
  let id := leAt x 8 8
  if leAt x 0 4 ≠ 0x5450414C || leAt x 4 2 ≠ 1 || byteAt x 7 ≠ 0 then St.decerr
  else if 16384 < 112 + leAt x 108 4 then St.length
  else match k with
    | none => St.stale
    | some k =>
      match (enrolled s.sec.enrol).find? (fun e => e.1 == id) with
      | none => St.denied
      | some e =>
        if e.2.1 ≠ role || Config.sha256 (slice x 48 60) ≠ e.2.2 ||
            !hssTypesOk (slice x 48 60) (slice x 112 (leAt x 108 4)) || !Config.hssVerify (slice x 48 60) (slice x 0 108) (slice x 112 (leAt x 108 4)) then St.denied
        else if (s.slotAt k).tokens.any (fun t => t.1 == id || t.2 == role) then St.conflict
        else St.ok

/-- APPROVE in bank `m`: none where the record is stored first. -/
def approve (m : Nat) (x : List Nat) (s : State) : Option SecAns × State :=
  let k := (List.range 16).find? (fun k => ((s.slotAt k).state == 1 || (s.slotAt k).state == 2) && Config.sha256 (s.slotAt k).bytes == slice x 16 32)
  let v := s.approveVerdict x k
  if v ≠ St.ok then (some (v, [], s), s)
  else
    let k := k.getD 0
    let id := leAt x 8 8
    if (s.slotAt k).tokens.isEmpty then
      (some (v, [k, 2], s.modSlot k (fun c => { c with state := 2, tokens := [(id, byteAt x 6)] })), s)
    else (none, recordStore (.second m k id (byteAt x 6)) s)

/-- WITHDRAW (R333). -/
def withdraw (d : Nat) (s : State) : SecAns :=
  let k := cArg d % 16
  let c := s.slotAt k
  if 1 ≤ c.state && c.state ≤ 4 then (St.ok, [], propClose k 7 0 s)
  else if c.state = 5 && c.acts.all (fun a => match s.findAct a.1 a.2 with | some x => x.phase == 0 | none => false) then
    (St.ok, [], propRemove k (propClose k 7 0 s))
  else (St.stale, [], s)

/-- ENROL (R324). -/
def enrol (x : List Nat) (s : State) : SecAns :=
  if s.get R.SEC_STATE_LIFECYCLE ≠ 1 then (St.approvalMissing, [], s)
  else if !s.enrolOk (slice x 0 1024) then (St.conflict, [], s)
  else (St.ok, [], recordStore .plain (dropTokens (s.modSec (fun y => { y with enrol := slice x 0 1024 }))))

/-- LOCK (R324). -/
def lock (s : State) : SecAns :=
  let key := (List.range 4).any (fun i => bitAt (s.get R.SEC_OTP_CUST_SET) i == 1 && bitAt (s.get R.SEC_OTP_CUST_REVOKE) i == 0)
  if twoRoles s.sec.enrol && key then (St.ok, [], s.set R.SEC_STATE_LIFECYCLE 3) else (St.conflict, [], s)

/-- SEC_OTP and SEC_STATE as words. -/
def State.secStateWord (s : State) : Nat :=
  s.get R.SEC_STATE_IMG_SVN * 2 ^ 24 + s.get R.SEC_STATE_FW_SVN * 2 ^ 16 + s.get R.SEC_STATE_IMG_SLOT * 512 + s.get R.SEC_STATE_BOOT_SLOT * 256 +
  s.get R.SEC_STATE_LIFECYCLE * 16 + s.lingState
def State.secOtpWord (s : State) : Nat :=
  s.get R.SEC_OTP_CUST_REVOKE * 256 + s.get R.SEC_OTP_CUST_SET * 16 + s.get R.SEC_OTP_PLM_REVOKE * 4 + s.get R.SEC_OTP_PLM_SET

def secInfo (s : State) : SecAns :=
  (St.ok, bytesLe 4 s.secStateWord ++ bytesLe 4 s.secOtpWord ++ bytesLe 4 (s.get R.SEC_ATT_LEAF_VALUE) ++
    bytesLe 4 (s.get R.SEC_ATT_RSV_VALUE) ++ (List.range 16).map (fun k => (s.slotAt k).state), s)

/-- RT_SWAP: the replacement by the boot image `o` begun, where one was read and accepted (R336). -/
def rtSwap (m d : Nat) (o : Option SignedObj) (s : State) : Option SecAns × State :=
  match o with
  | some o => (none, ((s.set R.SEC_STATE_STATE 3).modSec (fun y => { y with swap := some (m, cArg d % 2, o) })).raise Ev.SEC_SWAP)
  | none => (some (St.denied, [], s), s)

/-- The replacement completes. -/
def rtSwapDone (s : State) : State :=
  match s.sec.swap with
  | none => s
  | some (m, b, o) =>
    let s := ((s.set R.SEC_STATE_STATE 1).set R.SEC_STATE_BOOT_SLOT b).modSec (fun y => { y with swap := none, runtime := o })
    secDone m St.ok [] s

/-! ### Commands (R335) -/

/-- Input bytes an operation needs. -/
def State.secNeeds (s : State) (op d : Nat) (x : List Nat) : Nat :=
  if op = 2 then (if s.get R.SEC_STATE_LIFECYCLE = 1 then 32 else 40)
  else if op = 4 then (if cDir d = 1 then 44 else 40)
  else if op = 6 then 45
  else if op = 9 then 128 + subjectLen (byteAt x 6)
  else if op = 0xA then (if 16384 < 112 + leAt x 108 4 then 112 else 112 + leAt x 108 4)
  else if op = 0xC then 1024
  else if op = 0xE then 32
  else if op = 0x10 then 8
  else 0

/-- Operation `op` of descriptor `d` in the bank of `m`; none where it ends later. `o` is the boot image that RT_SWAP
has read and accepted. -/
def secRun (op m d : Nat) (o : Option SignedObj) (x : List Nat) (s : State) : Option SecAns × State :=
  if op = 1 then (some (secInfo s), s)
  else if op = 2 then (some (ktkLoad d x s), s)
  else if op = 3 then (some (keyGen d s), s)
  else if op = 4 then (some (keyInstall d x s), s)
  else if op = 5 then (some (keyErase d s), s)
  else if op = 6 then (some (sessIn d x s), s)
  else if op = 7 then (some (sessOut d s), s)
  else if op = 8 then (some (pnonce s), s)
  else if op = 9 then (some (propose x s), s)
  else if op = 0xA then approve m x s
  else if op = 0xB then (some (withdraw d s), s)
  else if op = 0xC then (some (enrol x s), s)
  else if op = 0xD then (some (lock s), s)
  else if op = 0xE then attest m x s
  else if op = 0xF then (some (St.ok, attPublic, s), s)
  else if op = 0x10 then (some (epochInsert d x s), s)
  else if op = 0x11 then rtSwap m d o s
  else (some (St.decerr, [], s), s)

/-- A mailbox command of operation `op` started by master `m` with descriptor `d` (R334 to R336): its status to the writer of
GO, and what it does. -/
def secCommand (op m d : Nat) (o : Option SignedObj) (s : State) : Nat × State :=
  let x := s.winBytes m (min (cLen d) 16384)
  if !hasMailbox m then (St.denied, s.answer St.denied [])
  else if s.isOn (R.SEC_CMD_STAT_BUSY m) then (St.busy, s.answer St.busy [])
  else if s.get R.THM_SD_STAT_STATE = 1 then (St.ok, (s.set (R.SEC_CMD_STAT_BUSY m) 1).answer St.ok [])
  else if s.lingState = 3 then (St.ok, secDone m St.busy [] (if op = 0xE then s.raise Ev.SEC_ATT_REFUSED else s))
  else if 16384 < cLen d then (St.ok, secDone m St.length [] s)
  else if cLen d < s.secNeeds op d x then (St.ok, secDone m St.decerr [] s)
  else match secRun op m d o x s with
    | (some (v, out, s), _) => (St.ok, secDone m v out s)
    | (none, s) => (St.ok, (s.set (R.SEC_CMD_STAT_BUSY m) 1).answer St.ok [])

/-! ### Confirmation (R331) -/

/-- APPR_CONF received on port `p`: ACK where a proposal with its LINK_HASH has its target, else NAK. -/
def confTake (p : Nat) (b : List Nat) (s : State) : State :=
  if !s.coreRuns 6 then s
  else
    let s := takeMsg p 0x28 b s
    let h := slice b 1 32
    let mine := fun (c : ChangeProp) => 3 ≤ c.state && c.state ≤ 6 && c.link && c.subject == 1 + p && c.linkHash == h
    let all := (List.range 16).filter (fun k => mine (s.slotAt k))
    if all.any (fun k => (s.slotAt k).target == beAt b 33 6) then coreSend p 0x29 (byteAt b 0 :: h) s
    else coreSend p 0x2A ([byteAt b 0, if all.isEmpty then St.approvalMissing else St.conflict] ++ h) s

/-- APPR_ACK received: the proposal is CONFIRMED and its actions are scheduled. -/
def ackTake (p : Nat) (b : List Nat) (s : State) : State :=
  if !s.coreRuns 6 then s
  else
    let s := takeMsg p 0x29 b s
    match (List.range 16).find? (fun k =>
        let c := s.slotAt k
        c.state == 3 && c.link && subjectPort c.subject == p && c.linkHash == slice b 1 32) with
    | none => s
    | some k => propSchedule k (s.modSlot k (fun c => { c with state := 4 }))

def nakTake (p : Nat) (b : List Nat) (s : State) : State :=
  if !s.coreRuns 6 then s else (takeMsg p 0x2A b s).raise Ev.SEC_CONF_NAK

/-! ### Exchanges that wait while the runtime is replaced (R336) -/

/-- What Ling does with a message of type `t` from port `p`, or with a confirmation that is due for the slot in `b` (type 0). -/
def lingTake (p t : Nat) (b : List Nat) (s : State) : State :=
  if t = 0x20 then keyPropTake p b s else if t = 0x21 then keyAckTake p b s else if t = 0x22 then keyNakTake p b s
  else if t = 0x28 then confTake p b s else if t = 0x29 then ackTake p b s else if t = 0x2A then nakTake p b s
  else apprConf (b.headD 0) s

/-- The same, once the runtime runs. -/
def lingHear (p t : Nat) (b : List Nat) (s : State) : State :=
  if s.lingState = 3 then s.modSec (fun y => { y with held := y.held ++ [(p, t, b)] }) else lingTake p t b s

/-- The runtime runs again: the exchanges that waited go on, in the order they came. -/
def lingResume (s : State) : State :=
  s.sec.held.foldl (fun s x => lingTake x.1 x.2.1 x.2.2 s) (keyResume (s.modSec (fun y => { y with held := [] })))

/-- The deadline of an unconfirmed proposal. -/
def propDeadline (k : Nat) (s : State) : State :=
  let c := s.slotAt k
  if c.state = 3 && c.link then propClose k 8 0 s else s

end Sys2Proof.Machine
end

