-- ==== Sys2Proof/Machine/Units.lean ====
section
/-! DEFINITION. Units that leave service and come back while traffic flows: converter slices, subcarrier tiles, processors,
firmware (chapter 20). -/
namespace Sys2Proof.Machine

def State.modUnits (s : State) (f : UnitState → UnitState) : State := { s with units := f s.units }

/-- A unit command ends with a status; the write itself is answered OK. -/
def unitEnd (status : Nat) (s : State) : State := (s.set R.GCTL_UNIT_STAT_BUSY 0).set R.GCTL_UNIT_STAT_STATUS status

/-! ### Slices (R486, R487) -/

def State.bandFlw (s : State) (p i : Nat) : Bool := bitAt (s.get (R.GCTL_SLICE_FLW_FALLOWED p)) i == 1
def State.bandReady (s : State) (p i : Nat) : Bool := bitAt (s.get (R.GCTL_SLICE_FLW_READY p)) i == 1
def setBit (f : Fld) (i v : Nat) (s : State) : State := s.set f (mixBits (2 ^ i) (s.get f) (v * 2 ^ i))

/-- The spare stands in for slice `sl` of band `i`. -/
def sliceOut (p i sl : Nat) (s : State) : State :=
  let s := if s.sweeps p i then queueBand p i (sweepStop p s) else s
  let s := (((spareTrim p i s).set (bandSpare p i) 1).set (bandPos p i) sl).set (bandIdle p i) sl
  setBit (R.GCTL_SLICE_FLW_FALLOWED p) i 1 s

/-- The slice-fallow checks of R486. -/
def State.sliceRefused (s : State) (p i sl : Nat) : Bool :=
  let spare := s.get (bandSpare p i)
  s.bandFlw p i || spare == 2 || (spare == 1 && !s.sweeps p i) || s.get (bandIdle p i) == sl || sl == 64 ||
    wFailed (getAt 0 (s.port p).cal.live (sliceKey i sl))

def sliceFallow (p i sl : Nat) (s : State) : State :=
  if s.sweeps p i && !(s.port p).cal.sweepDone then
    (s.modUnits (fun u => { u with slice := some (p, i, sl) })).set R.GCTL_UNIT_STAT_BUSY 1
  else unitEnd St.ok (sliceOut p i sl s)

/-- A sweep step has ended: a fallow that waits for it takes effect. -/
def sliceWaiting (p : Nat) (s : State) : State :=
  match s.units.slice with
  | some (q, i, sl) =>
    if q ≠ p then s
    else
      let s := s.modUnits (fun u => { u with slice := none })
      if s.get (bandSpare p i) = 2 then unitEnd St.conflict s else unitEnd St.ok (sliceOut p i sl s)
  | none => s

def sliceReturn (p i : Nat) (s : State) : State :=
  unitEnd St.ok (s.modUnits (fun u => { u with cal := u.cal.filter (· ≠ 16 * p + i) ++ [16 * p + i] }))

/-- The offline calibration of a returning slice ends (R487). -/
def sliceCal (p i : Nat) (tries : List Trial) (s : State) : State :=
  if !s.units.cal.contains (16 * p + i) then s
  else
    let s := s.modUnits (fun u => { u with cal := u.cal.filter (· ≠ 16 * p + i) })
    let s := calSlice p i (s.get (bandIdle p i)) tries s
    if s.get (bandSpare p i) = 2 then (setBit (R.GCTL_SLICE_FLW_FALLOWED p) i 0 s).raise Ev.GCTL_UNIT_FAIL
    else (setBit (R.GCTL_SLICE_FLW_READY p) i 1 s).raise Ev.GCTL_UNIT_READY

/-- A READY slice takes its position back at the swath boundary. -/
def sliceJoin (p i : Nat) (s : State) : State :=
  if !s.bandReady p i then s
  else
    let s := ((s.set (bandSpare p i) 0).set (bandPos p i) 0).set (bandIdle p i) 64
    (setBit (R.GCTL_SLICE_FLW_READY p) i 0 (setBit (R.GCTL_SLICE_FLW_FALLOWED p) i 0 s)).raise Ev.GCTL_UNIT_JOINED

/-! ### Tiles (R488, R489) -/

/-- Another tile of the group of `t` is not IN_SERVICE. -/
def State.tileAlone (s : State) (p t : Nat) : Bool :=
  (tileGroups (s.rxRung p).subs).any (fun g => g.contains (s.logicTile p t) &&
    g.any (fun l => s.physTile p l != t && s.tileState p (s.physTile p l) != 0))

/-- A tile leaves its group. -/
def tileOut (p t : Nat) (s : State) : State :=
  let s := (s.set (tileField p t) 2).modRxd p (fun r => { r with tiles := r.tiles ||| 2 ^ s.logicTile p t })
  let s := powerDown (tileDomain p t) s
  if s.rxState p = 0 then s else rxTaps p s

def tileFallow (p t : Nat) (s : State) : State :=
  if s.tileState p t = 6 then unitEnd St.ok (powerDown (tileDomain p t) (s.set (tileField p t) 2))
  else if s.isOn (R.LFR_ALIGN_STAT_FA p) then
    (s.modUnits (fun u => { u with tiles := u.tiles ++ [(p, t)] })).set R.GCTL_UNIT_STAT_BUSY 1
  else unitEnd St.ok (tileOut p t s)

/-- The fallows that wait for a receive frame boundary of port `p`; once alignment is lost no frame comes, and they wait no longer. -/
def tilesLeave (p : Nat) (s : State) : State :=
  let l := s.units.tiles.filter (fun x => x.1 == p)
  if l.isEmpty then s
  else unitEnd St.ok (l.foldl (fun s x => tileOut p x.2 s) (s.modUnits (fun u => { u with tiles := u.tiles.filter (fun x => x.1 != p) })))

def tileReturn (p t : Nat) (s : State) : State :=
  if s.rxState p = 0 then unitEnd St.ok ((s.set (tileField p t) 5).modUnits (fun u => { u with late := u.late.filter (· ≠ (p, t)) ++ [(p, t)] }))
  else
    let (st, s) := powerUp (tileDomain p t) s
    if st = St.ok then unitEnd st (s.set (tileField p t) 3) else unitEnd st s

def tileTested (p t : Nat) (ok : Bool) (s : State) : State :=
  if s.tileState p t ≠ 3 then s
  else if ok then s.set (tileField p t) 4 else (s.set (tileField p t) 6).raise Ev.GCTL_UNIT_FAIL

def tileShadowed (p t : Nat) (same : Bool) (s : State) : State :=
  if s.tileState p t ≠ 4 then s
  else if same then s.set (tileField p t) 5 else (s.set (tileField p t) 6).raise Ev.GCTL_UNIT_FAIL

/-- A READY tile joins; one that was made READY while the receiver was OFF waits for LOCKED (R483, R489). -/
def tileJoin (p t : Nat) (s : State) : State :=
  if s.tileState p t ≠ 5 || s.rxState p = 0 || (s.units.late.contains (p, t) && s.rxState p ≠ 7) then s
  else
    let l := s.logicTile p t
    let s := s.modUnits (fun u => { u with late := u.late.filter (· ≠ (p, t)) })
    let s := (s.set (tileField p t) 0).modRxd p (fun r => { r with tiles := if bitAt r.tiles l = 1 then r.tiles - 2 ^ l else r.tiles })
    (rxTaps p s).raise Ev.GCTL_UNIT_JOINED

/-- The tiles of a port are powered while its receiver is not OFF, but for those that are OFF themselves (R489). -/
def tilesFollow (p : Nat) (s : State) : State :=
  iter 16 (fun t s =>
    let want := s.rxState p != 0 && s.tileState p t != 2
    let has := s.domainOn (tileDomain p t) || s.pwr.going.contains (tileDomain p t) || s.pwr.waiting.contains (tileDomain p t)
    if want && !has then (powerUp (tileDomain p t) s).2 else if !want && has then powerDown (tileDomain p t) s else s) s

/-! ### Processors (R490 to R493) -/

def State.procState (s : State) (c : Nat) : Nat := s.get (R.GCTL_PROC_STATE_STATE c)
def setProc (c st : Nat) (s : State) : State := s.set (R.GCTL_PROC_STATE_STATE c) st
def procDomain (c : Nat) : Nat := 217 + c

/-- FALLOW of core `c` is allowed. -/
def State.procMayFallow (s : State) (c : Nat) : Bool :=
  let st := s.procState c
  if st = 6 then true
  else if st ≠ 0 then false
  else if c < 4 then (List.range 4).any (fun k => k != c && s.procState k == 0)
  else if c < 6 then s.procState (9 - c) == 0
  else true

def State.modHif (s : State) (f : HifState → HifState) : State := { s with hif := f s.hif }

/-- Every outstanding ring command is discarded without an entry, and every ring disabled (R384). Actions inserted for a command stay, without
it. -/
def ringsDown (s : State) : State :=
  let s := s.modSwc (fun c => { c with acts := c.acts.map (fun a => match a.owner with | .ring _ _ => { a with owner := .none } | _ => a) })
  let s := s.modHif (fun h => { h with cmds := [], waits := [] })
  let s := iter 16 (fun r s => s.set (R.HIF_SQ_CTRL_EN r) 0) s
  (iter 4 (fun q s => s.set (R.HIF_CQ_CTRL_EN q) 0) s).raise Ev.HIF_LINK_DOWN

/-- With the second of GR0 and GR1 reset, no core serves the rings nor the bank that the two share (R308, R384). -/
def gorseReset (s : State) : State :=
  if s.procState 4 ≤ 1 || s.procState 5 ≤ 1 then s else ringsDown (mceAbort (bankOf 6) s)

/-- Core `c` goes OFF, which resets the master it is: its burst ends (R369), and with the Sedge core its cipher jobs end with ABORTED
(R308); the two Gorse cores share a bank, so its jobs go on with the other while it runs. -/
def procOff (c : Nat) (s : State) : State :=
  let s := powerDown (procDomain c) (setProc c 2 s)
  let s := masterAbort (2 + c) s
  let s := if c = 6 then mceAbort (bankOf M.sedge) s else if c = 4 || c = 5 then gorseReset s else s
  s.modUnits (fun u => { u with halted := if bitAt u.halted c = 1 then u.halted - 2 ^ c else u.halted })

/-- FALLOW accepted; the Sedge core, and a FAILED one, hand nothing over. -/
def procFallow (c : Nat) (s : State) : State := if s.procState c = 6 || c = 6 then procOff c s else setProc c 1 s

def procLoad (c : Nat) (s : State) : Nat × State :=
  let (st, s) := powerUp (procDomain c) s
  if st = St.ok then (st, setProc c 3 s) else (st, s)

/-- An update ends. -/
def updateEnd (status ev : Nat) (s : State) : State :=
  (unitEnd status (s.modUnits (fun u => { u with update := none }))).raise ev

/-- The core that an update has in hand loads; one that may not be powered fails its load, and the update stops (R493). -/
def updateLoad (c : Nat) (s : State) : State :=
  let (st, s) := procLoad c s
  if st = St.ok then s else updateEnd st Ev.GCTL_FW_FAIL ((setProc c 6 s).raise Ev.GCTL_UNIT_FAIL)

/-- The update takes its next core, or ends with every core updated (R493). -/
def updateNext (s : State) : State :=
  match s.units.update with
  | none => s
  | some (slot, [], _) =>
    let fw := match s.image slot with
      | some i => (i.sects.findSome? (fun x => if x.typ = 3 then some x.fw else none)).getD {}
      | none => {}
    updateEnd St.ok Ev.GCTL_FW_DONE (s.modSec (fun x => { x with fw := fw }))
  | some (slot, c :: r, _) =>
    let s := (s.modUnits (fun u => { u with update := some (slot, r, c) })).set R.GCTL_UNIT_STAT_FW_CORE c
    if s.procState c = 0 then
      (if s.procMayFallow c then
        let s := procFallow c s
        if s.procState c = 2 then updateLoad c s else s
      else updateEnd St.conflict Ev.GCTL_FW_FAIL s)
    else updateLoad c s

/-- Core `c` is the one an update has in hand. -/
def State.updating (s : State) (c : Nat) : Bool := match s.units.update with | some (_, _, k) => k == c | none => false

/-- The loop families on core `c`, one bit each. -/
def State.loopsOf (s : State) (c : Nat) : Nat := ((List.range 4).map (fun i => if s.loopCore i = c then 2 ^ i else 0)).sum

/-- The lowest sibling of `c` that is RUNNING and has not halted. -/
def State.sibling (s : State) (c : Nat) : Option Nat := (List.range 4).find? (fun k => k != c && s.procState k == 0 && s.coreRuns k)

/-- The loops on core `c` move to that sibling, which `c` takes back when it returns; without one they stay and hold (R18, R491). -/
def loopsMove (c : Nat) (s : State) : State :=
  match s.sibling c with
  | none => s
  | some k => s.modUnits (fun u =>
      { u with loops := (List.range 4).map (fun i => if s.loopCore i = c then k else s.loopCore i),
               gave := modNth c (fun g => g ||| s.loopsOf c) u.gave })

/-- A returning Bracken core takes back the loops it held (R492). -/
def loopsBack (c : Nat) (s : State) : State :=
  s.modUnits (fun u =>
    let g := u.gave.getD c 0
    { u with loops := (List.range 4).map (fun i => if bitAt g i = 1 then c else s.loopCore i),
             gave := u.gave.map (fun x => mixBits g x 0) })

/-- HANDOVER ends (R491); for a Bracken core once its loops have moved. -/
def handoverEnd (c : Nat) (s : State) : State :=
  if s.procState c ≠ 1 then s
  else
    let s := if c < 4 then loopsMove c s else s
    if c < 4 && s.loopsOf c ≠ 0 then s
    else
      let s := procOff c s
      if s.updating c then updateLoad c s else s

/-- A loaded core passes or fails its test. -/
def procTested (c : Nat) (ok : Bool) (s : State) : State :=
  if s.procState c ≠ 3 && s.procState c ≠ 4 then s
  else if ok then (setProc c 5 s).raise Ev.GCTL_UNIT_READY
  else
    let s := (setProc c 6 s).raise Ev.GCTL_UNIT_FAIL
    if s.updating c then
      let (v, s) := s.draw 256
      updateEnd v Ev.GCTL_FW_FAIL s
    else s

/-- A READY core is RUNNING (R492). -/
def procJoin (c : Nat) (s : State) : State :=
  if s.procState c ≠ 5 then s
  else
    let s := loopsBack c ((setProc c 0 s).raise Ev.GCTL_UNIT_JOINED)
    if s.updating c then updateNext s else s

/-- A core halts (R18). -/
def procHalt (c : Nat) (s : State) : State :=
  if 1 < s.procState c || bitAt s.units.halted c = 1 then s
  else (s.modUnits (fun u => { u with halted := u.halted ||| 2 ^ c })).raise Ev.GCTL_PROC_HALT

/-- UPDATE (R493): a bundle that does not verify ends it with DENIED. -/
def firmwareUpdate (slot mask : Nat) (s : State) : State :=
  let ok := match s.image slot with
    | some i => i.sects.any (fun x => x.typ == 3 && x.fwOk && s.signedOk false x.fw)
    | none => false
  if s.lingState = 3 then unitEnd St.busy s
  else if !ok then unitEnd St.denied s
  else
    let cores := (List.range 7).filter (fun c => bitAt mask c == 1)
    updateNext ((s.modUnits (fun u => { u with update := some (slot, cores, 0) })).set R.GCTL_UNIT_STAT_BUSY 1)

/-! ### GCTL_UNIT_CMD (R485) -/

/-- The checks in their order: 0 where the command is taken. -/
def State.unitVerdict (s : State) (kind cmd p ix sub : Nat) : Nat :=
  let range := if kind = 1 then ix ≤ 15 && sub ≤ 64 else if kind = 2 then ix ≤ 15 else if kind = 3 then ix ≤ 6 else ix ≤ 5
  if s.isOn R.GCTL_UNIT_STAT_BUSY then St.busy
  else if kind = 0 || 5 ≤ kind || cmd = 0 || cmd = 3 || (kind = 4 && cmd = 2) || (kind ≤ 2 && !s.hasPort p) || !range then St.decerr
  else if kind = 1 then
    let v := if cmd = 1 then s.sliceRefused p ix sub
      else !s.bandFlw p ix || s.get (bandIdle p ix) != sub || s.bandReady p ix || s.units.cal.contains (16 * p + ix)
    if v then St.conflict else if s.get (R.CAL_STATE_STATE p) = 1 || s.get (R.CAL_STATE_STATE p) = 2 then St.busy else St.ok
  else if kind = 2 then
    let st := s.tileState p ix
    let v := if cmd = 1 then !(st == 6 || (st == 0 && !s.tileAlone p ix)) else st != 2
    if v then St.conflict else St.ok
  else if kind = 3 then
    let v := if cmd = 1 then !s.procMayFallow ix else s.procState ix != 2
    if v then St.conflict else St.ok
  else if (s.image ix).isNone then St.conflict
  else St.ok

/-- GCTL_UNIT_CMD written. -/
def unitCommand (kind cmd p ix sub : Nat) (s : State) : State :=
  let v := s.unitVerdict kind cmd p ix sub
  if kind = 0 then s
  else if v ≠ St.ok then s.set R.GCTL_UNIT_STAT_STATUS v
  else if kind = 1 then (if cmd = 1 then sliceFallow p ix sub s else sliceReturn p ix s)
  else if kind = 2 then (if cmd = 1 then tileFallow p ix s else tileReturn p ix s)
  else if kind = 3 then
    if cmd = 1 then unitEnd St.ok (procFallow ix s)
    else
      let (st, s) := procLoad ix s
      unitEnd st s
  else firmwareUpdate ix sub s

/-! ### Device swath boundary (R483) -/

/-- READY cores join, and the loops of a Bracken core in HANDOVER, or of one that has halted, move. -/
def deviceBoundary (s : State) : State :=
  let ready := (List.range 7).filter (fun c => s.procState c == 5)
  let moved := (List.range 4).filter (fun c => s.procState c == 1)
  let dead := (List.range 4).filter (fun c => bitAt s.units.halted c == 1)
  dead.foldl (fun s c => loopsMove c s) (moved.foldl (fun s c => handoverEnd c s) (ready.foldl (fun s c => procJoin c s) s))

/-! ### Commands -/

/-- A unit command as written to GCTL_UNIT_CMD. -/
def unitOut (kind cmd p ix sub : Nat) (s : State) : Out := .next ((unitCommand kind cmd p ix sub s).answer St.ok [])

/-- R486. -/
def execSliceFallow (p i sl : Nat) (s : State) : Out := unitOut 1 1 p i sl s
/-- R487. -/
def execSliceReturn (p i sl : Nat) (s : State) : Out := unitOut 1 2 p i sl s
/-- R487. -/
def execSliceCalDone (p i : Nat) (tries : List Trial) (s : State) : Out := onPortUnit s p i 16 (sliceCal p i tries s)
/-- R487. -/
def execSliceJoin (p i : Nat) (s : State) : Out := onPortUnit s p i 16 (sliceJoin p i s)
/-- R488. -/
def execTileFallow (p t : Nat) (s : State) : Out := unitOut 2 1 p t 0 s
/-- R489. -/
def execTileReturn (p t : Nat) (s : State) : Out := unitOut 2 2 p t 0 s
/-- R489. -/
def execTileSelftestDone (p t : Nat) (ok : Bool) (s : State) : Out := onPortUnit s p t 16 (tileTested p t ok s)
/-- R489. -/
def execTileShadowDone (p t : Nat) (same : Bool) (s : State) : Out := onPortUnit s p t 16 (tileShadowed p t same s)
/-- R489. -/
def execTileJoin (p t : Nat) (s : State) : Out := onPortUnit s p t 16 (tileJoin p t s)
/-- R491. -/
def execProcessorFallow (c : Nat) (s : State) : Out := unitOut 3 1 0 c 0 s
/-- R491. -/
def execHandoverDone (c : Nat) (s : State) : Out := onUnit s c 7 (handoverEnd c s)
/-- R492. -/
def execProcessorReturn (c : Nat) (s : State) : Out := unitOut 3 2 0 c 0 s
/-- R492. -/
def execProcSelftestDone (c : Nat) (ok : Bool) (s : State) : Out := onUnit s c 7 (procTested c ok s)
/-- R492. -/
def execProcJoin (c : Nat) (s : State) : Out := onUnit s c 7 (procJoin c s)
/-- R493. -/
def execFirmwareUpdate (slot mask : Nat) (s : State) : Out := unitOut 4 1 0 slot mask s
/-- R18. -/
def execProcHalt (c : Nat) (s : State) : Out := onUnit s c 7 (procHalt c s)
/-- SWEEP_STEP_DONE (R90, R486). -/
def execSweepStepDone (p : Nat) (tries : List Trial) (s : State) : Out := onPort s p (sliceWaiting p (sweepStep p tries s))
/-- R483: what client lanes and groups measured over the swath comes with the boundary. -/
def execDeviceSwathBoundary (lanes : List PrbsMeasure) (groups : List GroupMeasure) (s : State) : Out :=
  .next (deviceBoundary (groups.foldl (fun s m => groupTake m s) (lanes.foldl (fun s m => prbsTake m s) s)))

end Sys2Proof.Machine
end

