-- ==== Sys2Proof/Machine/Hedgerow.lean ====
section
/-! DEFINITION. Hedgerow: the sequencers as a store (R355, R356, R359). Rounds are in Rounds. -/
namespace Sys2Proof.Machine

def State.modHdg (s : State) (f : HdgState → HdgState) : State := { s with hdg := f s.hdg }
def State.seq (s : State) (n : Nat) : Sequencer := s.hdg.seqs.getD n {}
def State.modSeq (s : State) (n : Nat) (f : Sequencer → Sequencer) : State := s.modHdg (fun h => { h with seqs := modNth n f h.seqs })

/-- The table of HQn, and its states: a table that is not loaded has none. The link state machine of a bonded group, which R27 has Bracken run and
chapter 13 (before R360) HQ0, is the one that a sequencer's table holds: no other is modelled (DESIGN CHOICE, log entry 170). -/
def seqTab (n : Nat) : Nat := 0x2000 + n
def State.seqCount (s : State) (n : Nat) : Nat :=
  if s.loaded (seqTab n) then bits (s.tabWord (seqTab n) false 0) 23 8 else 0

/-! ### Samples (R359) and host events (R358) -/

/-- A record put into the sample queue of 16. -/
def sampleAdd (n : Nat) (s : State) : State :=
  if 16 ≤ s.hdg.samp.length then s.raise Ev.HDG_SAMP_LOST
  else (s.modHdg (fun h => { h with samp := h.samp ++ [(n, (s.seq n).state)] })).raise Ev.HDG_SAMPLE

/-- Samples of HQn judged after a round, with `k` = 1 after a transition: one is recorded at the latest at the third transition,
or before it as a free value says (assumption log). -/
def sampleStep (n k : Nat) (s : State) : State :=
  let l := (s.seq n).due
  let s := s.modSeq n (fun q => { q with due := [] })
  l.foldl (fun s x =>
    let (b, s) := s.draw 2
    if 3 ≤ x + k || b = 1 then sampleAdd n s else s.modSeq n (fun q => { q with due := q.due ++ [x + k] })) s

/-- Samples still to be recorded are, before a sequencer stops or starts. -/
def sampleFlush (n : Nat) (s : State) : State :=
  (s.seq n).due.foldl (fun s _ => sampleAdd n s) (s.modSeq n (fun q => { q with due := [] }))

/-- The preset counter overflows (R468): each masked sequencer is to add a record. -/
def presetOverflow (s : State) : State :=
  if !s.presetDue then s
  else
    let m := s.get R.HDG_SAMP_CTRL_SEQ_MASK
    iter 16 (fun n s =>
      if bitAt m n = 0 then s
      else if (s.seq n).run = 1 then sampleStep n 0 (s.modSeq n (fun q => { q with due := q.due ++ [0] }))
      else sampleAdd n s) (presetOver s)

/-- A host event of HQn; one that finds 64 is dropped. -/
def hostEvent (n v : Nat) (s : State) : State :=
  if 64 ≤ s.hdg.hev.length then s
  else (s.modHdg (fun h => { h with hev := h.hev ++ [(n, v)] })).raise Ev.HDG_HOST_EVENT

/-! ### Running (R355, R358) -/

/-- HQn halts: its state is at or above COUNT. -/
def seqHalt (n : Nat) (s : State) : State := ((sampleFlush n s).modSeq n (fun q => { q with run := 2 })).raise Ev.HDG_SEQ_ERR

/-- A start: latches, timers and variables cleared, INITIAL entered. -/
def seqStart (n : Nat) (s : State) : State :=
  let st := bits (s.tabWord (seqTab n) false 0) 57 48
  let s := (sampleFlush n s).modSeq n (fun _ => { run := 1, state := st, base := s.pmc.cnt })
  if s.seqCount n ≤ st then seqHalt n s else s

def seqStop (n : Nat) (s : State) : State := (sampleFlush n s).modSeq n (fun q => { q with run := 0 })

/-- HDG_RUN written. -/
def runWrite (v : Nat) (s : State) : State :=
  iter 16 (fun n s =>
    if bitAt v n = 1 then (if (s.seq n).run = 1 then s else seqStart n s)
    else if (s.seq n).run = 0 then s else seqStop n s) (s.set R.HDG_RUN_RUN v)

/-- Code `c` latched in HQn (R355). -/
def latchCode (n c : Nat) (s : State) : State :=
  s.modSeq n (fun q => if q.run = 1 && !q.codes.contains c then { q with codes := q.codes ++ [c] } else q)

/-- The table of HQn has another active bank: it halts, or re-enters its state without actions (R358). -/
def seqSwapped (n : Nat) (s : State) : State :=
  if (s.seq n).run ≠ 1 then s
  else if s.seqCount n ≤ (s.seq n).state then seqHalt n s
  else s.modSeq n (fun q => { q with evs := [], codes := [], base := s.pmc.cnt })

/-- A timer runs out (R356). -/
def timerExpiry (n i : Nat) (s : State) : State :=
  s.modSeq n (fun q =>
    if q.run = 1 && (q.timers.getD i {}).running then
      { q with timers := modNth i (fun t => { t with running := false, expired := true }) q.timers }
    else q)

/-! ### Commands -/

/-- Writing RUN starts or stops sequencers. -/
def execSequencerRun (mask : Nat) (s : State) : Out := .next ((runWrite (mask % 65536) s).answer St.ok [])

/-- A write of HDG_POST. -/
def execHdgPost (n c : Nat) (s : State) : Out := onUnit s n 16 ((latchCode n (c % 256) s).answer St.ok [])

/-- A sequencer timer expires. -/
def execSequencerTimerExpiry (n i : Nat) (s : State) : Out := onUnit s (16 * (i / 8) + n) 16 (timerExpiry n i s)

/-- The head host event is read and removed. -/
def execHostEventPop (s : State) : Out :=
  .next ((s.modHdg (fun h => { h with hev := h.hev.tail })).answer St.ok [(s.hdg.hev.headD (0, 0)).2])

/-- A sample record is read and removed: SEQ in bits 15:12, STATE in bits 9:0. -/
def execSamplePop (s : State) : Out :=
  let x := s.hdg.samp.headD (0, 0)
  .next ((s.modHdg (fun h => { h with samp := h.samp.tail })).answer St.ok [4096 * x.1 + x.2])

/-- The preset unit reaches PERIOD. -/
def execPresetOverflow (s : State) : Out := .next (presetOverflow s)

end Sys2Proof.Machine
end

