-- ==== Sys2Proof/Machine/FlashMap.lean ====
section
/-! DEFINITION. The flash store as a map: geometry, partitions, blocks and pages (R390, R391, R393 to R399). -/
namespace Sys2Proof.Machine

def State.modFlc (s : State) (f : FlashState → FlashState) : State := { s with flc := f s.flc }

/-! ### Geometry and partitions (R390, R397) -/

def State.flcBlocks (s : State) : Nat := s.get R.FLC_GEOM_BLOCKS
/-- Pages per block. -/
def State.flcPages (s : State) : Nat := 64 * 2 ^ s.get R.FLC_GEOM_PPB
/-- Chip enable of a physical block (R391). -/
def State.flcCe (s : State) (b : Nat) : Nat := if s.get R.FLC_GEOM_CES = 0 || 2 * b < s.flcBlocks then 0 else 1

/-- A partition: ID, first physical block, logical blocks, reserve blocks. -/
structure Partition where
  id : Nat
  first : Nat
  logical : Nat
  reserve : Nat
deriving DecidableEq, Repr

/-- Reserve of a partition of `n` logical blocks. -/
def reserveOf (n : Nat) : Nat := max 2 (ceilDiv n 32)

/-- Laid out from block `b` on: ID, logical and reserve blocks of each. -/
def layOut : Nat → List (Nat × Nat × Nat) → List Partition
  | _, [] => []
  | b, (i, l, r) :: x => { id := i, first := b, logical := l, reserve := r } :: layOut (b + l + r) x

/-- The partitions before the user area, in order: MiB / B in pages of 4 KiB. -/
def State.fixedParts (s : State) : List Partition :=
  let n := fun (mib : Nat) => mib * 256 / s.flcPages
  let big := fun (i mib : Nat) => (i, n mib, reserveOf (n mib))
  layOut 1 ([big 1 8, big 2 8] ++ (List.range 6).map (fun k => big (0x10 + k) 64) ++
    [(0x20, 2, 2), (0x21, 2, 2), (0x22, 2, 2), big 0x30 16])

def Partition.last (x : Partition) : Nat := x.first + x.logical + x.reserve

/-- All 13 partitions of the store. -/
def State.partitions (s : State) : List Partition :=
  let l := s.fixedParts
  let b := (l.map (fun x => x.logical + x.reserve)).sum + 1
  let rest := s.flcBlocks - b
  l ++ [{ id := 0x40, first := b, logical := rest - ceilDiv rest 32, reserve := ceilDiv rest 32 }]

/-- The store holds every range and 64 blocks for the user area. -/
def State.storeFits (s : State) : Bool :=
  decide ((s.fixedParts.map (fun x => x.logical + x.reserve)).sum + 1 + 64 ≤ s.flcBlocks)

/-- The partition of an ID that may be used: in READY every one, in NO_FIT the boot partitions (R391, R397). -/
def State.partition (s : State) (id : Nat) : Option Partition :=
  let st := s.get R.FLC_STATE_STATE
  if st = 3 || (st = 5 && (id == 1 || id == 2)) then s.partitions.find? (fun x => x.id == id) else none

/-- The partition whose range holds a physical block. -/
def State.partOf (s : State) (b : Nat) : Option Partition :=
  if s.get R.FLC_STATE_STATE = 3 then s.partitions.find? (fun x => decide (x.first ≤ b ∧ b < x.last)) else none

/-- The state of R342 that a slot leaves when its partition is programmed or erased. -/
def slotTouched (part : Nat) (s : State) : State :=
  if 0x10 ≤ part && part ≤ 0x15 && s.get (R.IMG_SLOT_STAT_STATE (part - 0x10)) ≠ 0 then
    let k := part - 0x10
    ((((s.set (R.IMG_SLOT_STAT_STATE k) 0).set (R.IMG_SLOT_STAT_SVN k) 0).set (R.IMG_SLOT_STAT_REGIONS k) 0).set (R.IMG_SLOT_STAT_CUST k) 0).raise
      Ev.IMG_SLOT_INVAL
  else s

/-! ### Blocks (R394, R398) -/

def flcKey (part l : Nat) : Nat := 2 ^ 20 * part + l
/-- The physical block a logical block is mapped to. -/
def State.mappedTo (s : State) (part l : Nat) : Option Nat :=
  let v := getAt 0 s.flc.map (flcKey part l)
  if v = 0 then none else some (v - 1)
def State.flashBlock (s : State) (b : Nat) : FlashBlock := getAt {} s.flc.blocks b
def setBlock (b : Nat) (x : FlashBlock) (s : State) : State := s.modFlc (fun f => { f with blocks := setAt {} f.blocks b x })
def setMap (part l : Nat) (b : Option Nat) (s : State) : State :=
  s.modFlc (fun f => { f with map := setAt 0 f.map (flcKey part l) (match b with | some b => b + 1 | none => 0) })

/-- A block is free: good, not mapped, not stuck, not retired. -/
def State.blockFree (s : State) (b : Nat) : Bool :=
  (s.flashBlock b).good && !s.flc.bad.contains b && !s.flc.stuck.contains b && s.flc.map.all (fun e => e.2 != b + 1)

/-- Free good blocks of a range, lowest first. -/
def State.freeBlocks (s : State) (x : Partition) : List Nat :=
  ((List.range (x.logical + x.reserve)).map (x.first + ·)).filter s.blockFree

/-- Spare bytes of a page, and the strength in force. -/
def State.flcSpare (s : State) : Nat := 4 * s.get R.FLC_GEOM_SPARE

/-- Programmed pages of a block end here: one more than the highest that is not blank (R396, R399). -/
def State.extent (s : State) (b : FlashBlock) : Nat :=
  b.pages.foldl (fun a e => if pageBlank e.2 (s.get R.FLC_CFG_T) then a else max a (e.1 + 1)) 0

/-- Page `i` of physical block `b`, none where it is blank (R396). -/
def State.blockPage (s : State) (b i : Nat) : Option FlashPage :=
  (look i (s.flashBlock b).pages).filter (fun p => !pageBlank p (s.get R.FLC_CFG_T))

/-- The page at a logical place, none where unmapped or blank. -/
def State.flashPage (s : State) (part page : Nat) : Option FlashPage :=
  match s.mappedTo part (page / s.flcPages) with
  | some b => s.blockPage b (page % s.flcPages)
  | none => none

/-- A page of 4,096 bytes: bytes beyond those given are 0xFF (R400). -/
def fullPage (b : List Nat) : List Nat := (List.range 4096).map (fun i => b.getD i 255)

end Sys2Proof.Machine
end

