-- ==== Sys2Proof/Machine/Host.lean ====
section
/-! DEFINITION. The host interface: rings, completions, watchdog, interrupts, management slave (R377 to R387). What each ring command
does is in Rings. -/
namespace Sys2Proof.Machine

/-! ### Rings (R379, R389) -/

def State.sqOn (s : State) (r : Nat) : Bool := s.isOn (R.HIF_SQ_CTRL_EN r)
def State.sqTail (s : State) (r : Nat) : Nat := s.hif.tails.getD r 0
def State.sqHead (s : State) (r : Nat) : Nat := s.get (R.HIF_SQ_CTRL_HEAD r)

/-- A doorbell: the tail moves unless it would pass the head or the ring is disabled (R379). -/
def doorbell (r t : Nat) (s : State) : State :=
  let held := (s.sqTail r + 256 - s.sqHead r) % 256
  let more := (t % 256 + 256 - s.sqTail r) % 256
  if !s.sqOn r || 255 < held + more then s.raise Ev.HIF_DB_ERR
  else s.modHif (fun h => { h with tails := h.tails.set r (t % 256) })

/-- EN of a submission ring written. -/
def sqEnable (r v : Nat) (s : State) : State :=
  let s := s.set (R.HIF_SQ_CTRL_EN r) v
  if v = 1 then (s.set (R.HIF_SQ_CTRL_HEAD r) 0).modHif (fun h => { h with tails := h.tails.set r 0 }) else s

/-- EN of a completion ring written. -/
def cqEnable (q v : Nat) (s : State) : State :=
  let s := s.set (R.HIF_CQ_CTRL_EN q) v
  if v = 1 then
    ((s.set (R.HIF_CQ_CTRL_TAIL q) 0).set (R.HIF_CQ_CTRL_PHASE q) 1).modHif (fun h =>
      { h with heads := h.heads.set q 0, unread := h.unread.set q 0 })
  else s

/-- The host has read entries up to the new head (R383). -/
def cqHead (q v : Nat) (s : State) : State :=
  let old := s.hif.heads.getD q 0
  let n := (v % 1024 + 1024 - old) % 1024
  s.modHif (fun h => { h with heads := h.heads.set q (v % 1024), unread := h.unread.set q (h.unread.getD q 0 - n) })

/-! ### Completions (R383) -/

/-- The 16 bytes of an entry. -/
def HostCpl.entry (c : HostCpl) (phase : Nat) : Nat :=
  c.tag + 2 ^ 15 * phase + 2 ^ 16 * c.status + 2 ^ 24 * c.sq + 2 ^ 32 * c.sqHead + 2 ^ 48 * c.rlen + 2 ^ 64 * c.result

/-- An entry may be written now: the device never overwrites one that the host has not read. -/
def State.cqRoom (s : State) (q : Nat) : Bool := s.isOn (R.HIF_CQ_CTRL_EN q) && decide (s.hif.unread.getD q 0 < 1024)

def writeEntry (c : HostCpl) (s : State) : State :=
  let q := c.cq
  let i := s.get (R.HIF_CQ_CTRL_TAIL q)
  let ph := s.get (R.HIF_CQ_CTRL_PHASE q)
  let s := s.modHif (fun h => { h with
    ring := setAt 0 h.ring (1024 * q + i) (c.entry ph), unread := modNth q (· + 1) h.unread,
    cmds := if c.frees then h.cmds.filter (fun x => x.tag ≠ c.tag) else h.cmds,
    fired := if s.isOn (R.HIF_CQ_CTRL_IEN q) then h.fired ||| 2 ^ q else h.fired })
  let s := s.set (R.HIF_CQ_CTRL_TAIL q) (i + 1)
  if i = 1023 then s.set (R.HIF_CQ_CTRL_PHASE q) (1 - ph) else s

/-- A completion: written at once where there is room and none waits for the ring, else held. -/
def putCpl (c : HostCpl) (s : State) : State :=
  if s.cqRoom c.cq && s.hif.waits.all (fun w => w.cq != c.cq) then writeEntry c s
  else s.modHif (fun h => { h with waits := h.waits ++ [c] })

/-- The first completion that waits for ring `q` is written. -/
def nextCpl (q : Nat) (s : State) : State :=
  match s.hif.waits.find? (fun w => w.cq == q) with
  | some c => if s.cqRoom q then writeEntry c (s.modHif (fun h => { h with waits := h.waits.erase c })) else s
  | none => s

def HostCmd.cpl (c : HostCmd) (cq status units result : Nat) : HostCpl :=
  { cq := cq, sq := c.sq, tag := c.tag, sqHead := c.sqHead, status := status, rlen := units, result := result }

/-- The outstanding command of a tag ends. -/
def hostFinish (tag status units result : Nat) (s : State) : State :=
  match s.hif.cmds.find? (fun c => c.tag == tag && !c.done) with
  | none => s
  | some c =>
    let s := s.modHif (fun h => { h with cmds := h.cmds.map (fun x => if x.tag = tag then { x with done := true } else x) })
    putCpl (c.cpl (s.get (R.HIF_SQ_CTRL_CQ c.sq)) status units result) s

/-! ### Fetch (R380 to R382) -/

/-- Gorse runs: the lowest core that does. -/
def State.gorse (s : State) : Option Nat := [4, 5].find? s.coreRuns

/-- The ring served next: highest PRIO, round-robin among equals. -/
def State.nextRing (s : State) : Option Nat :=
  let l := (List.range 16).filter (fun r => s.sqOn r && s.sqHead r != s.sqTail r)
  let top := (l.map (fun r => s.get (R.HIF_SQ_CTRL_PRIO r))).foldl max 0
  let last := s.hif.last.getD top 15
  ((List.range 16).map (fun i => (last + 1 + i) % 16)).find? (fun r => l.contains r && s.get (R.HIF_SQ_CTRL_PRIO r) == top)

/-- The command in 64 bytes fetched from ring `r`. -/
def hostCmdOf (r head : Nat) (b : List Nat) : HostCmd :=
  { sq := r, tag := leAt b 2 2 % 1024, sqHead := head, op := byteAt b 0, flags := byteAt b 1, len := leAt b 4 2, addr := leAt b 8 8,
    args := slice b 16 48 }

/-- Bytes of the target buffer of a command; none where it maps to nothing. -/
def State.bufferOf (s : State) (c : HostCmd) : Option Nat :=
  if c.op = 3 || c.op = 4 then
    match s.inTable (leAt c.args 0 4) with
    | some (e, _, w) => some (16 * (e.words - w))
    | none => none
  else if c.op = 5 then
    match s.partition (byteAt c.args 0) with
    | some x => some (x.logical * s.flcPages * 4096)
    | none => none
  else if c.op = 6 then some 4096
  else if c.op = 8 then (s.partition 0x30).map (fun x => x.logical * s.flcPages * 4096)
  else if c.op = 9 then some 49152
  else if c.op = 10 || c.op = 11 then some 2048
  else if c.op = 12 then some 16384
  else if c.op ≤ 12 then some 0
  else none

/-- The refusals before anything is executed (R381). -/
def State.fetchVerdict (s : State) (c : HostCmd) : Nat :=
  match s.bufferOf c with
  | none => St.decerr
  | some n =>
    if n < 16 * c.len then St.length
    else if c.addr % 16 ≠ 0 || (c.len = 0 && c.addr ≠ 0) then St.decerr
    else if s.hif.cmds.any (fun x => x.tag == c.tag) then St.conflict
    else St.ok

/-- Gorse fetches the 64 bytes of the next command. -/
def hostFetch (b : List Nat) (s : State) : State :=
  if s.gorse.isNone || 1024 ≤ s.hif.cmds.length then s
  else match s.nextRing with
    | none => s
    | some r =>
      let head := (s.sqHead r + 1) % 256
      let c := hostCmdOf r head b
      let v := s.fetchVerdict c
      let s := (s.set (R.HIF_SQ_CTRL_HEAD r) head).modHif (fun h => { h with last := h.last.set (s.get (R.HIF_SQ_CTRL_PRIO r)) r })
      if v = St.ok then s.modHif (fun h => { h with cmds := h.cmds ++ [c] })
      else putCpl { c.cpl (s.get (R.HIF_SQ_CTRL_CQ r)) v 0 0 with frees := false } s

/-- The command that starts next, in fetch order; a FENCE holds it until every earlier one of its ring has completed. -/
def State.startable (s : State) (op tag : Nat) : Option HostCmd :=
  match s.hif.cmds.find? (fun c => !c.started) with
  | none => none
  | some c =>
    let before := s.hif.cmds.takeWhile (fun x => x.started)
    if s.gorse.isSome && c.op == op && c.tag == tag && (bitAt c.flags 0 == 0 || before.all (fun x => x.sq != c.sq || x.done)) then some c
    else none

/-- The command of `op` and `tag` starts and does `f`; nothing happens where it cannot start yet. -/
def ringStart (op tag : Nat) (f : HostCmd → State → State) (s : State) : State :=
  match s.startable op tag with
  | none => s
  | some c => f c (s.modHif (fun h => { h with cmds := h.cmds.map (fun x => if x.tag = tag then { x with started := true } else x) }))

/-! ### Link (R384) -/

/-- The link goes down (R384). -/
def linkDown (s : State) : State := ringsDown s

def linkShow (up width speed ltssm : Nat) (s : State) : State :=
  (((s.set R.HIF_LINK_UP up).set R.HIF_LINK_WIDTH width).set R.HIF_LINK_SPEED speed).set R.HIF_LINK_LTSSM ltssm

/-! ### Watchdog, interrupts, management slave (R385 to R387) -/

/-- PERIOD milliseconds without a doorbell or KICK. -/
def watchdog (s : State) : State :=
  if s.get R.HIF_WDOG_PERIOD = 0 then s
  else
    let m := s.get R.HIF_WDOG_MASK
    iter 16 (fun n s => if bitAt m n = 1 then latchCode n (s.get R.HIF_WDOG_CODE) s else s) (s.raise Ev.HIF_WDOG)

/-- STATUS registers of the blocks, in the order of R386. -/
def blockStatus (b : Nat) : List Nat :=
  if b = 16 || b = 17 then [0x1000000, 0x1100000, 0x1200000, 0x1400000, 0x1600000, 0x1700000].map (· + 0x1000000 * (b - 16))
  else [[0x4], [0x10000], [0x20000], [0x30000], [0x40000], [0x50000], [0x60000], [0x70000], [0x80000], [0x90000], [0xA0000], [0xB0000],
    [0x100004], [0x200000], [0x400000], [0x800000], [], [], [0x3000000], [0x4000000]].getD b []

/-- A word of register fields as stored. -/
def State.rawWord (s : State) (a : Nat) : Nat :=
  match findReg a (blockRegs a) with
  | some r => (r.fs.map (fun f => s.get ⟨a, f.lo, f.w, f.rst⟩ * 2 ^ f.lo)).sum
  | none => 0

/-- Block `b` asserts its interrupt (R386). -/
def State.blockIrq (s : State) (b : Nat) : Bool := (blockStatus b).any (fun a => s.rawWord a &&& s.rawWord (a + 4) != 0)

/-- MSI-X vectors that are due: those of rings that have fired, and those that asserted blocks are routed to. -/
def State.vectorsDue (s : State) : List Nat :=
  (List.range 64).filter (fun v => bitAt s.hif.fired v == 1 ||
    (List.range 20).any (fun b => s.isOn (R.HIF_VEC_SEL_EN b) && s.get (R.HIF_VEC_SEL_VECTOR b) == v && decide (4 ≤ v) && s.blockIrq b))

/-- Entry `v` of the MSI-X table holds its vector masked: bit 0 of its last word. -/
def State.msixMasked (s : State) (v : Nat) : Bool := bitAt (getAt 0 s.hif.msix (4 * v + 3)) 0 == 1

/-- The vectors whose messages are sent, and those that stand in the pending bit array instead (R378, R386). -/
def State.vectors (s : State) : List Nat := s.vectorsDue.filter (fun v => !s.msixMasked v)
def State.msixPending (s : State) : Nat := ((s.vectorsDue.filter s.msixMasked).map (2 ^ ·)).sum

/-- The offset in BAR2 of an address of the host: BAR2 lies on no fabric target, and stands above the 48 bits of the fabric (log entry 177). -/
def bar2At (m a : Nat) : Option Nat := if m = M.host && 2 ^ 48 ≤ a && a < 2 ^ 48 + 4096 then some ((a - 2 ^ 48) / 4 * 4) else none

/-- A 32-bit write to BAR2 (R378): doorbells, the MSI-X table; another offset, or another width, takes nothing. -/
def bar2Write (o be v : Nat) (s : State) : State :=
  if be % 16 ≠ 15 then s
  else if o < 0x100 && o % 16 = 0 then doorbell (o / 16) (v % 256) s
  else if 0x100 ≤ o && o < 0x140 && o % 16 = 0 then cqHead ((o - 0x100) / 16) (v % 1024) s
  else if 0x800 ≤ o && o < 0xC00 then s.modHif (fun h => { h with msix := setAt 0 h.msix ((o - 0x800) / 4) (v % 2 ^ 32) })
  else s

/-- A 32-bit read of BAR2. -/
def State.bar2Read (s : State) (o : Nat) : Nat :=
  if o < 0x100 && o % 16 = 0 then s.sqTail (o / 16)
  else if 0x100 ≤ o && o < 0x140 && o % 16 = 0 then s.hif.heads.getD ((o - 0x100) / 16) 0
  else if 0x800 ≤ o && o < 0xC00 then getAt 0 s.hif.msix ((o - 0x800) / 4)
  else if o = 0xC00 then s.msixPending % 2 ^ 32 else if o = 0xC04 then s.msixPending / 2 ^ 32
  else 0

/-- A temperature in whole degrees, as a byte. -/
def State.degrees (s : State) (x : Int) : Nat := if bitAt (s.get R.PWR_RAIL_IN_RANGE) 0 = 0 then 128 else toField 8 (x / 10)

/-- Byte `i` of the management slave (R387). -/
def State.i2cByte (s : State) (i : Nat) : Nat :=
  let bit := fun (b : Bool) k => b.toNat * 2 ^ k
  if i < 4 then byteAt (bytesLe 4 s.identWord) i
  else if i = 4 then bit (bitAt (s.get R.PWR_RAIL_IN_RANGE) 0 == 1) 0 + bit (s.isOn R.THM_STATE_WARN) 1 + bit (s.get R.THM_LEVEL_LEVEL != 0) 2 +
    bit (s.get R.THM_SD_STAT_STATE == 1) 3 + bit (s.isOn R.THM_SD_STAT_PEND) 4 + bit (s.lingState == 2 || s.lingState == 4) 5
  else if i = 5 then s.degrees (s.getI R.THM_STATE_TJ)
  else if i = 6 then (if bitAt (s.get R.PWR_RAIL_IN_RANGE) 0 = 0 then 128 else s.get R.THM_LEVEL_LEVEL)
  else if i ≤ 10 then s.degrees (s.temp (112 + (i - 7)))
  else 0

/-! ### Commands -/

/-- The host writes a new submission ring tail. -/
def execSqDoorbell (r t : Nat) (s : State) : Out := onUnit s r 16 ((doorbell r t s).answer St.ok [])

/-- The host writes a new completion ring head. -/
def execCqHeadWrite (q h : Nat) (s : State) : Out := onUnit s q 4 ((cqHead q h s).answer St.ok [])

/-- EN of a submission ring is written. -/
def execSqEnable (r en : Nat) (s : State) : Out := onUnit s r 16 ((sqEnable r (en % 2) s).answer St.ok [])

/-- EN of a completion ring is written. -/
def execCqEnable (q en : Nat) (s : State) : Out := onUnit s q 4 ((cqEnable q (en % 2) s).answer St.ok [])

/-- Gorse fetches a command. -/
def execCommandFetch (b : List Nat) (s : State) : Out := .next (hostFetch b s)

/-- A completion that waited is written to ring `q`. -/
def execCompletionWrite (q : Nat) (s : State) : Out := onUnit s q 4 (nextCpl q s)

/-- The PCIe link goes down. -/
def execPcieLinkDown (ltssm : Nat) (s : State) : Out := .next (linkShow 0 0 0 ltssm (linkDown s))

/-- The PCIe link comes up. -/
def execPcieLinkUp (width speed ltssm : Nat) (s : State) : Out := .next (linkShow 1 width speed ltssm s)

/-- The host watchdog expires. -/
def execHostWatchdogExpiry (s : State) : Out := .next (watchdog s)

/-- A write of HIF_WDOG_KICK restarts the watchdog; the model holds no count of it. -/
def execWatchdogKick (s : State) : Out := .next (s.answer St.ok [])

/-- A two-wire read of `n` bytes from the pointer on. -/
def execI2cRead (n : Nat) (s : State) : Out :=
  let p := s.hif.ptr
  .next ((s.modHif (fun h => { h with ptr := (p + n) % 256 })).answer St.ok ((List.range n).map (fun i => s.i2cByte ((p + i) % 256))))

/-- A two-wire write: its first byte is the pointer; each byte is answered 1 for ACK, 0 for NACK. -/
def execI2cWrite (b : List Nat) (s : State) : Out :=
  match b with
  | [] => .next (s.answer St.ok [])
  | p :: r => .next ((s.modHif (fun h => { h with ptr := p % 256 })).answer St.ok (1 :: r.map (fun _ => 0)))

end Sys2Proof.Machine
end

