-- ==== Sys2Proof/Machine/Flash.lean ====
section
/-! DEFINITION. The flash store at work: operations, relocation, retirement, scrubbing, the event log (R398 to R407). -/
namespace Sys2Proof.Machine

/-! ### The event log (R406, R407) -/

def LogRec.bytes (r : LogRec) : List Nat :=
  bytesLe 8 r.seq ++ bytesLe 8 r.time ++ [r.typ, r.part, r.status, r.t] ++ bytesLe 4 r.pblk ++ bytesLe 2 r.page ++ bytesLe 2 r.nbits ++
    bytesLe 4 r.newblk ++ slice r.extra 0 32

def State.logSeq (s : State) : Nat := s.get R.FLC_LOG_SEQ_LO_SEQ + 2 ^ 32 * s.get R.FLC_LOG_SEQ_HI_SEQ
def setLogSeq (v : Nat) (s : State) : State := (s.set R.FLC_LOG_SEQ_LO_SEQ v).set R.FLC_LOG_SEQ_HI_SEQ (v / 2 ^ 32)

/-- A record for the log; one that finds 64 waiting is dropped. -/
def logAdd (r : LogRec) (s : State) : State :=
  if 64 ≤ s.flc.buf.length then s.raise Ev.FLC_LOG_LOST
  else setLogSeq (s.logSeq + 1) (s.modFlc (fun f => { f with buf := f.buf ++ [{ r with seq := s.logSeq }] }))

/-- Block `b` is retired (R403): its marker programmed where `ok`, the retirement logged, never allocated until the next mount. -/
def retireBlock (b time : Nat) (ok : Bool) (s : State) : State :=
  let part := match s.partOf b with | some x => x.id | none => 0
  let s := if ok then setBlock b { s.flashBlock b with good := false } s else s
  let s := s.modFlc (fun f => { f with bad := if f.bad.contains b then f.bad else f.bad ++ [b] })
  logAdd { seq := 0, time := time, typ := 6, part := part, pblk := b } s

/-- A program failure is logged and counted (R402). -/
def progFail (part b page time : Nat) (s : State) : State :=
  let s := (s.addSat (R.FLC_CNT_COUNT 2) 1).raise Ev.FLC_PROG_FAIL
  logAdd { seq := 0, time := time, typ := 3, part := part, status := St.uncorr, t := s.get R.FLC_CFG_T, pblk := b, page := page } s

/-- A page programmed with the t in force (R393 to R395). -/
def programPage (part l page : Nat) (data : List Nat) (s : State) : State :=
  match s.mappedTo part l with
  | none => s
  | some b =>
    let x := s.flashBlock b
    let pg : FlashPage := { t := s.get R.FLC_CFG_T, part := part, lblk := l, lpage := page, data := fullPage data }
    setBlock b { x with pages := putKey page pg x.pages } s

/-- Block `l` of a partition erased and unmapped. -/
def eraseBlock (part l : Nat) (s : State) : State :=
  match s.mappedTo part l with
  | none => s
  | some b =>
    let s := setMap part l none (setBlock b { s.flashBlock b with pages := [] } s)
    s.modFlc (fun f => { f with moves := f.moves.filter (fun x => x.1 != b) })

/-- A logical block gets a physical one: the lowest free of the range. -/
def allocate (part l : Nat) (s : State) : State :=
  match s.mappedTo part l, s.partition part with
  | none, some x => (match s.freeBlocks x with | b :: _ => setMap part l (some b) s | [] => s)
  | _, _ => s

/-- The waiting records programmed into the next page of the ring, after `fails` programs that fail, each of which retires its
block. -/
def logPage (time : Nat) : Nat → State → State
  | fails, s =>
    match s.partition 0x30 with
    | none => s
    | some x =>
      if s.flc.buf.isEmpty then s
      else if !s.writeWindow then s.raise Ev.FLC_TEMP_INHIBIT
      else
        let n := s.flcPages
        let l := s.flc.logAt / n % x.logical
        let pg := s.flc.logAt % n
        let s := if pg = 0 then eraseBlock 0x30 l s else s
        let s := allocate 0x30 l s
        match s.mappedTo 0x30 l with
        | none => s
        | some b =>
          let next := fun v (s : State) => s.modFlc (fun f => { f with logAt := v % (n * x.logical) })
          match fails with
          | 0 =>
            let s := programPage 0x30 l pg (s.flc.buf.flatMap LogRec.bytes) s
            next (s.flc.logAt + 1) (s.modFlc (fun f => { f with buf := [] }))
          | k + 1 => logPage time k (next ((s.flc.logAt / n + 1) * n) (retireBlock b time true (progFail 0x30 b pg time s)))

/-- The records that a page holds. -/
def pageRecs (p : FlashPage) : List (Nat × List Nat) :=
  ((List.range 64).map (fun i => (leAt p.data (64 * i) 8, slice p.data (64 * i) 64))).filter (fun r => r.1 != 2 ^ 64 - 1)

def insertRec (x : Nat × List Nat) : List (Nat × List Nat) → List (Nat × List Nat)
  | [] => [x]
  | y :: r => if x.1 ≤ y.1 then x :: y :: r else y :: insertRec x r

/-- Every record programmed, in SEQ order. -/
def State.logRecs (s : State) : List (Nat × List Nat) :=
  let blocks := s.flc.map.filter (fun e => decide (e.1 / 2 ^ 20 = 0x30))
  (blocks.flatMap (fun e => (s.flashBlock (e.2 - 1)).pages.flatMap (fun p => pageRecs p.2))).foldr insertRec []

/-! ### Completion -/

/-- A flash command ends: most corrected bits, blank and uncorrectable pages, data read. -/
def flashDone (op : FlashOp) (status nbits blanks bads : Nat) (data : List Nat) (s : State) : State :=
  match op.who with
  | .regs =>
    let s := (s.set R.FLC_CMD_STAT_BUSY 0).set R.FLC_CMD_STAT_STATUS status
    if op.kind = 1 && (status = St.ok || status = St.uncorr) then
      let s := (s.set R.FLC_CMD_STAT_BITS nbits).set R.FLC_CMD_STAT_BLANK (if blanks = 0 then 0 else 1)
      s.modFlc (fun f => { f with win := (List.range 1024).foldl (fun w i => setAt 0 w i (leAt data (4 * i) 4)) f.win })
    else s
  | .ring tag =>
    let len := match s.hif.cmds.find? (fun c => c.tag == tag && !c.done) with | some c => c.len | none => 0
    let out := data.take (16 * len)
    hostFinish tag status (out.length / 16) (nbits + 2 ^ 16 * blanks + 2 ^ 32 * bads) (s.answer status out)
  | .scrub =>
    let n := s.flc.scrubs - 1
    let s := (s.modFlc (fun f => { f with scrubs := n })).set R.FLC_SCRUB_DONE (100 - 100 * n / max 1 s.flc.scrubAll)
    if n = 0 then (s.set R.FLC_SCRUB_BUSY 0).raise Ev.FLC_SCRUB_DONE else s

/-- A block is queued for relocation, once; with `retire` it retires after it. -/
def queueMove (b : Nat) (retire : Bool) (s : State) : State :=
  if s.flc.moves.any (fun x => x.1 == b) then
    s.modFlc (fun f => { f with moves := f.moves.map (fun x => if x.1 = b then (b, x.2 || retire) else x) })
  else s.modFlc (fun f => { f with moves := f.moves ++ [(b, retire)] })

/-- What a read of one page finds (R400, R405, R406). -/
def pageFound (part b i t nbits time : Nat) (bad : Bool) (s : State) : State :=
  let r : LogRec := { seq := 0, time := time, typ := if bad then 2 else 1, part := part, status := if bad then St.uncorr else St.ok,
                      t := t, pblk := b, page := i, nbits := nbits }
  if bad then logAdd r ((s.addSat (R.FLC_CNT_COUNT 1) 1).raise Ev.FLC_UNCORR)
  else
    let thr := if s.get R.FLC_CFG_LOG_THR = 0 then t / 2 else s.get R.FLC_CFG_LOG_THR
    let s := if nbits = 0 then s else s.addSat (R.FLC_CNT_COUNT 0) 1
    let s := if thr < nbits then logAdd r (s.raise Ev.FLC_CE_LOG) else s
    if 3 * t ≤ 4 * nbits && !s.flc.moves.any (fun x => x.1 == b) then (queueMove b false s).raise Ev.FLC_RELOC else s

/-- What a read of one page came to: a blank one, one that reads with its corrected bits, an uncorrectable one of strength t. -/
inductive PageRead where
  | blank
  | good (t nbits : Nat) (data : List Nat)
  | bad (t : Nat)

/-- The read of page `i` of block `b`, `flips` flipping in it. A page never programmed is blank while no more than T bits read zero, and else
has no TCODE (R393, R396). -/
def State.readOne (s : State) (b i : Nat) (flips : List Nat) : PageRead :=
  match look i (s.flashBlock b).pages with
  | none => if flips.length ≤ s.get R.FLC_CFG_T then .blank else .bad 0
  | some p =>
    if pageBlank p (s.get R.FLC_CFG_T) then .blank
    else match pageRead p s.flcSpare flips with
      | some (n, d) => .good p.t n d
      | none => .bad p.t

/-- Pages read one after the other. -/
structure ReadRun where
  found  : List (List Nat)
  data   : List Nat := []
  nbits  : Nat := 0
  blanks : Nat := 0
  bads   : Nat := 0

def readPage (part time : Nat) (x : ReadRun × State) (page : Nat) : ReadRun × State :=
  let (r, s) := x
  let i := page % s.flcPages
  let empty := { r with found := r.found.tail, data := r.data ++ List.replicate 4096 255, blanks := r.blanks + 1 }
  match s.mappedTo part (page / s.flcPages) with
  | none => (empty, s)
  | some b =>
    match s.readOne b i (r.found.headD []) with
    | .blank => (empty, s)
    | .good t n d => ({ r with found := r.found.tail, data := r.data ++ d, nbits := max r.nbits n }, pageFound part b i t n time false s)
    | .bad t => ({ r with found := r.found.tail, data := r.data ++ zeros 4096, bads := r.bads + 1 }, pageFound part b i t 0 time true s)

/-- A store that the device alone writes (R400). -/
def ownStore (part : Nat) : Bool := part == 0x20 || part == 0x21 || part == 0x22

/-! ### Operations (R400 to R403) -/

/-- The checks that need no flash operation. -/
def State.flashVerdict (s : State) (op : FlashOp) : Nat :=
  if op.kind = 5 then (if op.index = 0 || (s.partOf op.index).isNone then St.decerr else St.ok)
  else match s.partition op.part with
    | none => St.decerr
    | some x =>
      if op.kind ≠ 1 && (ownStore op.part || op.part = 0x30) then St.denied
      else if (if op.kind = 3 then x.logical else x.logical * s.flcPages) ≤ op.index then St.length
      else St.ok

/-- The logical block of an operation, and the chip enable it goes to. -/
def State.opBlock (s : State) (op : FlashOp) : Nat := if op.kind = 3 then op.index else op.index / s.flcPages
def State.opCe (s : State) (op : FlashOp) : Nat :=
  if op.kind = 5 then s.flcCe op.index
  else match s.mappedTo op.part (s.opBlock op) with
    | some b => s.flcCe b
    | none => match s.partition op.part with
      | some x => (match s.freeBlocks x with | b :: _ => s.flcCe b | [] => 0)
      | none => 0

/-- The checks at the moment an operation is issued (R400, R404). -/
def State.issueVerdict (s : State) (op : FlashOp) : Nat :=
  let l := s.opBlock op
  if op.kind = 1 then St.ok
  else if op.kind = 2 && (match s.mappedTo op.part l with
      | some b => decide (op.index % s.flcPages < s.extent (s.flashBlock b))
      | none => false) then St.conflict
  else if op.kind = 2 && (s.mappedTo op.part l).isNone && (match s.partition op.part with
      | some x => (s.freeBlocks x).isEmpty
      | none => true) then St.full
  else if !s.writeWindow then St.tempInhibit
  else St.ok

/-- An operation goes to its chip enable, or ends refused. -/
def flashIssue (ce : Nat) (op : FlashOp) (s : State) : State :=
  let v := s.issueVerdict op
  let s := s.modFlc (fun f => { f with queue := f.queue.erase op })
  if v ≠ St.ok then flashDone op v 0 0 0 [] (s.raiseIf (v = St.tempInhibit) Ev.FLC_TEMP_INHIBIT)
  else
    let s := s.modFlc (fun f => { f with busy := putKey ce op f.busy })
    if op.kind = 2 then slotTouched op.part (allocate op.part (s.opBlock op) s)
    else if op.kind = 3 then slotTouched op.part s
    else s

/-- The waiting operation that a chip enable takes next: commands before scrub reads, each in arrival order (R401). -/
def State.nextOp (s : State) (ce : Nat) : Option FlashOp :=
  let l := s.flc.queue.filter (fun o => s.opCe o == ce)
  (l.find? (fun o => o.who != .scrub)).or l.head?

def flashPump : Nat → State → State
  | 0, s => s
  | n + 1, s =>
    match [0, 1].find? (fun ce => (look ce s.flc.busy).isNone && (s.nextOp ce).isSome) with
    | none => s
    | some ce => (match s.nextOp ce with | some op => flashPump n (flashIssue ce op s) | none => s)

def flashRun (s : State) : State := flashPump s.flc.queue.length s

/-- A flash command. -/
def flashSubmit (op : FlashOp) (s : State) : State :=
  let v := s.flashVerdict op
  if v ≠ St.ok then flashDone op v 0 0 0 [] s
  else
    let n := match s.partition op.part with | some x => x.logical * s.flcPages - op.index | none => op.count
    flashRun (s.modFlc (fun f => { f with queue := f.queue ++ [if op.kind = 1 then { op with count := min op.count n } else op] }))

/-- The operation on chip enable `ce` completes. -/
def flashOpDone (ce : Nat) (r : FlashResult) (s : State) : State :=
  match look ce s.flc.busy with
  | none => s
  | some op =>
    let s := s.modFlc (fun f => { f with busy := dropKey ce f.busy })
    let l := s.opBlock op
    let b := match s.mappedTo op.part l with | some b => b | none => 0
    let s :=
      if op.kind = 1 then
        let (x, s) := ((List.range op.count).map (op.index + ·)).foldl (readPage op.part r.time) ({ found := r.pages }, s)
        flashDone op (if x.bads = 0 then St.ok else St.uncorr) x.nbits x.blanks x.bads x.data s
      else if op.kind = 2 then
        if r.failed then flashDone op St.uncorr 0 0 0 [] (progFail op.part b (op.index % s.flcPages) r.time s)
        else flashDone op St.ok 0 0 0 [] (programPage op.part l (op.index % s.flcPages) op.data s)
      else if op.kind = 3 then
        if r.failed then
          let s := (s.addSat (R.FLC_CNT_COUNT 3) 1).raise Ev.FLC_ERASE_FAIL
          flashDone op St.uncorr 0 0 0 [] (logAdd { seq := 0, time := r.time, typ := 4, part := op.part, status := St.uncorr, pblk := b } s)
        else flashDone op St.ok 0 0 0 [] (eraseBlock op.part l s)
      else flashDone op St.ok 0 0 0 [] (retireBlock op.index r.time (!r.failed) s)
    flashRun s

/-! ### Relocation and retirement (R398, R402 to R404) -/

/-- The logical block that a physical one holds. -/
def State.holderOf (s : State) (b : Nat) : Option Nat := (s.flc.map.find? (fun e => e.2 == b + 1)).map (·.1)

/-- The copy of a block: GEN + 1, FINAL in its last page, the t in force. -/
def copyPages (t n : Nat) (b : FlashBlock) : Sparse FlashPage :=
  b.pages.map (fun e => (e.1, { e.2 with gen := (e.2.gen + 1) % 65536, final := e.1 + 1 == n, t := t, flips := [], tcode := [] }))

/-- Block `b` is copied to the lowest free block of its range and erased. -/
def moveBlock (b : Nat) (retire : Bool) (r : FlashResult) (s : State) : State :=
  let regs : FlashOp := { kind := 5, index := b, who := .regs }
  let drop := fun (s : State) => s.modFlc (fun f => { f with moves := f.moves.filter (fun x => x.1 != b) })
  match s.holderOf b, s.partOf b with
  | some k, some x =>
    match s.freeBlocks x with
    | [] => if retire then flashDone regs St.full 0 0 0 [] (drop s) else s
    | nb :: _ =>
      if !s.writeWindow then s.raise Ev.FLC_TEMP_INHIBIT
      else if r.failed then retireBlock nb r.time true (progFail x.id nb 0 r.time (slotTouched x.id s))
      else
        let s := slotTouched x.id s
        let s := setBlock nb { s.flashBlock nb with pages := copyPages (s.get R.FLC_CFG_T) (s.extent (s.flashBlock b)) (s.flashBlock b) } s
        let s := setMap (k / 2 ^ 20) (k % 2 ^ 20) (some nb) (setBlock b { s.flashBlock b with pages := [] } s)
        let s := logAdd { seq := 0, time := r.time, typ := 5, part := x.id, pblk := b, newblk := nb } ((drop s).addSat (R.FLC_CNT_COUNT 4) 1)
        if retire then flashDone regs St.ok 0 0 0 [] (retireBlock b r.time true s) else s
  | _, _ => if retire then flashDone regs St.ok 0 0 0 [] (retireBlock b r.time true (drop s)) else drop s

/-- The first queued block whose chip enable is idle with no command waiting for it is relocated. -/
def relocate (r : FlashResult) (s : State) : State :=
  match s.flc.moves.find? (fun x => (look (s.flcCe x.1) s.flc.busy).isNone && (s.nextOp (s.flcCe x.1)).all (fun o => o.who == .scrub)) with
  | none => s
  | some (b, retire) => flashRun (moveBlock b retire r s)

/-! ### Scrubbing (R405) -/

def scrubStart (s : State) : State :=
  if s.isOn R.FLC_SCRUB_BUSY || s.get R.FLC_STATE_STATE ≠ 3 then s
  else
    let l := s.partitions.flatMap (fun x => (List.range x.logical).filterMap (fun i =>
      match s.mappedTo x.id i with
      | some b => if s.extent (s.flashBlock b) = 0 then none
          else some ({ kind := 1, part := x.id, index := i * s.flcPages, count := s.extent (s.flashBlock b), who := .scrub } : FlashOp)
      | none => none))
    let s := (s.set R.FLC_SCRUB_BUSY 1).set R.FLC_SCRUB_DONE 0
    let s := s.modFlc (fun f => { f with queue := f.queue ++ l, scrubs := l.length, scrubAll := l.length })
    if l.isEmpty then ((s.set R.FLC_SCRUB_BUSY 0).set R.FLC_SCRUB_DONE 100).raise Ev.FLC_SCRUB_DONE else flashRun s

/-! ### Mount (R390, R391, R395, R397, R399) -/

/-- A device that R390 supports. -/
def scanFits (x : FlashScan) : Bool :=
  let per := x.blocks / (x.ces + 1) * (64 * 2 ^ x.ppb) * 4096
  x.found && decide (x.ppb ≤ 2 ∧ x.ces ≤ 1 ∧ x.blocks < 131072 ∧ 48 ≤ x.spare) && x.blocks % (x.ces + 1) == 0 &&
    decide (2 ^ 30 ≤ per ∧ per ≤ 2 ^ 33)

/-- The last programmed page of a block carries FINAL. -/
def State.blockComplete (s : State) (b : FlashBlock) : Bool :=
  match look (s.extent b - 1) b.pages with | some p => p.final | none => false

/-- One block of a range at the mount. -/
def mountBlock (x : Partition) (time : Nat) (s : State) (b : Nat) : State :=
  let k := s.flashBlock b
  if !k.good then s
  else match s.blockPage b 0 with
    | none => s
    | some p =>
      if (pageRead p s.flcSpare []).isNone then
        let s := s.modFlc (fun f => { f with stuck := f.stuck ++ [b] })
        pageFound x.id b 0 p.t 0 time true s
      else match s.mappedTo x.id p.lblk with
        | none => setMap x.id p.lblk (some b) s
        | some o =>
          let other := s.flashBlock o
          let og := match look 0 other.pages with | some q => q.gen | none => 0
          let wins := if og < p.gen then s.blockComplete k else !s.blockComplete other && decide (p.gen < og)
          if wins then setMap x.id p.lblk (some b) (setBlock o { other with pages := [] } s) else setBlock b { k with pages := [] } s

def mountPart (time : Nat) (s : State) (x : Partition) : State :=
  ((List.range (x.logical + x.reserve)).map (x.first + ·)).foldl (mountBlock x time) s

/-- The log goes on after its last record. -/
def mountLog (s : State) : State :=
  match s.logRecs.getLast?, s.partition 0x30 with
  | some r, some x =>
    let n := s.flcPages
    let at? := (List.range (n * x.logical)).find? (fun i => match s.flashPage 0x30 i with
      | some p => (pageRecs p).any (fun y => y.1 == r.1)
      | none => false)
    setLogSeq (r.1 + 1) (s.modFlc (fun f => { f with logAt := (at?.getD 0 + 1) % (n * x.logical) }))
  | _, _ => s

/-- The scan, after a reset. -/
def flashMount (x : FlashScan) (s : State) : State :=
  if s.get R.FLC_STATE_STATE ≠ 0 then s
  else if !scanFits x then s.set R.FLC_STATE_STATE 4
  else
    let s := (((s.set R.FLC_GEOM_BLOCKS x.blocks).set R.FLC_GEOM_CES x.ces).set R.FLC_GEOM_PPB x.ppb).set R.FLC_GEOM_SPARE (x.spare / 4)
    let s := (s.set R.FLC_CFG_T (min 112 ((x.spare - 32) / 16 * 8))).set R.FLC_STATE_NVDDR3 (min x.mode (s.get R.FLC_CFG_MODE_MAX))
    let s := x.held.foldl (fun s e => setBlock e.1 e.2 s) s
    let s := s.modFlc (fun f => { f with map := [], stuck := [], bad := [] })
    let s := s.set R.FLC_STATE_STATE (if s.storeFits then 3 else 5)
    let l := if s.storeFits then s.partitions else s.partitions.take 2
    (mountLog ((l.foldl (mountPart x.time) s).set R.FLC_STATE_MOUNTED l.length)).raise Ev.FLC_MOUNT_DONE

/-! ### The register path (R408) -/

/-- FLC_CMD written. -/
def flcCommand (cmd : Nat) (s : State) : Nat × State :=
  if s.isOn R.FLC_CMD_STAT_BUSY then (St.busy, s)
  else
    let part := s.get R.FLC_ADDR_PART
    let i := s.get R.FLC_ADDR_INDEX
    let win := (List.range 1024).flatMap (fun w => bytesLe 4 (getAt 0 s.flc.win w))
    let go := fun (op : FlashOp) => (St.ok, flashSubmit op (s.set R.FLC_CMD_STAT_BUSY 1))
    if cmd = 1 then go { kind := 1, part := part, index := i, who := .regs }
    else if cmd = 2 then go { kind := 2, part := part, index := i, data := win, who := .regs }
    else if cmd = 3 then go { kind := 3, part := part, index := i, who := .regs }
    else if cmd = 4 then
      match s.holderOf i, s.partOf i with
      | some _, some x =>
        if (s.freeBlocks x).isEmpty then (St.ok, s.set R.FLC_CMD_STAT_STATUS St.full)
        else (St.ok, queueMove i true (s.set R.FLC_CMD_STAT_BUSY 1))
      | _, _ => go { kind := 5, index := i, who := .regs }
    else if cmd = 5 then
      let v := if s.get R.FLC_STATE_STATE ≠ 3 then St.decerr else if s.isOn R.FLC_SCRUB_BUSY then St.busy else St.ok
      (St.ok, scrubStart (s.set R.FLC_CMD_STAT_STATUS v))
    else (St.ok, s)

/-! ### Commands -/

def flcRow (cmd : Nat) (s : State) : Out := let r := flcCommand cmd s; .next (r.2.answer r.1 [])

/-- FLC_CMD READ. -/
def execFlcRead (s : State) : Out := flcRow 1 s
/-- FLC_CMD WRITE. -/
def execFlcWrite (s : State) : Out := flcRow 2 s
/-- FLC_CMD ERASE. -/
def execFlcErase (s : State) : Out := flcRow 3 s
/-- FLC_CMD RETIRE. -/
def execRetire (s : State) : Out := flcRow 4 s
/-- FLC_CMD SCRUB_NOW. -/
def execScrubNow (s : State) : Out := flcRow 5 s

/-- The operation on a chip enable completes. -/
def execFlashOpDone (ce : Nat) (r : FlashResult) (s : State) : Out := onUnit s ce 2 (flashOpDone ce r s)

/-- A queued block is relocated. -/
def execRelocation (r : FlashResult) (s : State) : Out := .next (relocate r s)

/-- A relocation that the window refused is tried again. -/
def execRelocationRetry (r : FlashResult) (s : State) : Out := .next (relocate r s)

/-- HOURS have passed since the pass before began. -/
def execFlashScrubStart (s : State) : Out := .next (if s.get R.FLC_SCRUB_HOURS = 0 then s else scrubStart s)

/-- A log page is programmed, after `fails` programs that failed. -/
def execLogFlush (fails time : Nat) (s : State) : Out := .next (logPage time fails s)

/-- Ring command FLASH_READ: from a logical page on, as far as the buffer reaches. -/
def execFlashRead (tag : Nat) (s : State) : Out :=
  .next (ringStart 5 tag (fun c s => flashSubmit
    { kind := 1, part := byteAt c.args 0, index := leAt c.args 4 4, count := ceilDiv (16 * c.len) 4096, who := .ring tag } s) s)

/-- Ring command FLASH_WRITE with the bytes of its buffer. -/
def execFlashWrite (tag : Nat) (b : List Nat) (s : State) : Out :=
  .next (ringStart 6 tag (fun c s => flashSubmit
    { kind := 2, part := byteAt c.args 0, index := leAt c.args 4 4, data := b.take (16 * c.len), who := .ring tag } s) s)

/-- Ring command FLASH_ERASE. -/
def execFlashErase (tag : Nat) (s : State) : Out :=
  .next (ringStart 7 tag (fun c s => flashSubmit { kind := 3, part := byteAt c.args 0, index := leAt c.args 4 4, who := .ring tag } s) s)

/-- Ring command LOG_READ: as many records as the buffer holds, in SEQ order. -/
def execLogRead (tag : Nat) (s : State) : Out :=
  .next (ringStart 8 tag (fun c s =>
    let l := (s.logRecs.filter (fun r => decide (leAt c.args 0 4 ≤ r.1))).take (c.len / 4)
    hostFinish tag St.ok (4 * l.length) (l.headD (0, [])).1 (s.answer St.ok (l.flatMap (·.2)))) s)

end Sys2Proof.Machine
end

