-- ==== Sys2Proof/Machine/Records.lean ====
section
/-! DEFINITION. The records that the device keeps in two blocks of a flash partition, as they stand in flash: the calibration journal (R98 to
R103), the reservations of attestation leaves (R320) and the approval records (R329). -/
namespace Sys2Proof.Machine

/-! ### A record (R98) -/

/-- A page's bytes from parts placed at offsets, zero between and behind them. -/
def pageOf (l : List (Nat × List Nat)) : List Nat :=
  (List.range 4096).map (fun i => (l.findSome? (fun x => if x.1 ≤ i && i < x.1 + x.2.length then x.2[i - x.1]? else none)).getD 0)

/-- MAGIC of the records of partition `t`: journal, LMS state, approval records. -/
def recMagic (t : Nat) : Nat := if t = 0x20 then 0x4C41434B else if t = 0x21 then 0x53414D4C else 0x5250414C

/-- Bytes 0 to 27 of the header page. -/
def headerOf (t ports seq ident : Nat) (payload : List Nat) : List Nat :=
  bytesLe 4 (recMagic t) ++ bytesLe 2 1 ++ [ports, 0] ++ bytesLe 8 seq ++ bytesLe 4 payload.length ++ bytesLe 4 (crc32 payload) ++ bytesLe 4 ident

/-- The pages of a record in order: header, payload, commit. -/
def recordPages (t ports seq ident : Nat) (payload : List Nat) : List (List Nat) :=
  let h := headerOf t ports seq ident payload
  let n := ceilDiv payload.length 4096
  pageOf [(0, h), (28, bytesLe 4 (crc32 h))] ::
    (List.range n).map (fun i => pageOf [(0, (payload.drop (4096 * i)).take 4096)]) ++
    [pageOf [(0, bytesLe 4 0x544D4F43), (8, bytesLe 8 seq), (16, bytesLe 4 (crc32 h))]]

/-! ### Reading a slot (R100) -/

/-- A valid committed record as read: its SEQ, the ports it names, its payload. -/
structure RecFound where
  seq     : Nat
  ports   : List Nat
  payload : List Nat
deriving DecidableEq, Repr

/-- Bytes of one port block of the journal. -/
def blockBytes : Nat := 24848

/-- The payload is one of partition `t`: in the journal a block for each port named, in LMS state the device's own identifier. -/
def payloadOk (t : Nat) (ports payload : List Nat) : Bool :=
  if t = 0x20 then payload.length == blockBytes * ports.length
  else if t = 0x21 then payload.length == 32 && payload.take 16 == slice Config.attI 0 16
  else payload.length == 3840

/-- The record that pages hold, where it is valid and committed. A blank page reads as 0xFF. -/
def recordIn (t part : Nat) (pages : List (List Nat)) : Option RecFound :=
  let h := pages.headD []
  let ports := (List.range 8).filter (fun p => bitAt (byteAt h 6) p == 1)
  let len := leAt h 16 4
  let n := ceilDiv len 4096
  let payload := ((pages.drop 1).take n).flatten.take len
  let c := pages.getD (n + 1) []
  if leAt h 0 4 = recMagic t && leAt h 4 2 = 1 && leAt h 28 4 = crc32 (h.take 28) && leAt h 24 4 / 65536 = part &&
      payload.length = len && payloadOk t ports payload && leAt h 20 4 = crc32 payload && leAt c 0 4 = 0x544D4F43 &&
      leAt c 8 8 = leAt h 8 8 && leAt c 16 4 = leAt h 28 4 then
    some { seq := leAt h 8 8, ports := ports, payload := payload }
  else none

/-- Pages that the record of a slot spans: what its header says, at most the block. -/
def State.slotSpan (s : State) (t k : Nat) : Nat :=
  match s.flashPage t (k * s.flcPages) with
  | some p => min s.flcPages (ceilDiv (leAt p.data 16 4) 4096 + 2)
  | none => 1

/-- A slot read, with the bits that flip in each page: its record, whether a page was uncorrectable, and what the reads leave behind. -/
def readSlot (t k time : Nat) (flips : List (List Nat)) (s : State) : Option RecFound × Bool × State :=
  let n := s.slotSpan t k
  let (x, s) := ((List.range n).map (k * s.flcPages + ·)).foldl (readPage t time) ({ found := flips }, s)
  let pages := (List.range n).map (fun i => (x.data.drop (4096 * i)).take 4096)
  (if x.bads = 0 then recordIn t s.partNumber pages else none, decide (x.bads ≠ 0), s)

/-- The slot that holds the newest valid record and what it holds: the higher SEQ, slot 0 of equals (R101, R102). -/
def newest (a b : Option RecFound) : Option (Nat × RecFound) :=
  match a, b with
  | none, none => none
  | some x, none => some (0, x)
  | none, some y => some (1, y)
  | some x, some y => some (if x.seq < y.seq then (1, y) else (0, x))

/-- The newest record in flash, every page reading well. -/
def State.newestSlot (s : State) (t : Nat) : Option (Nat × RecFound) := newest (readSlot t 0 0 [] s).1 (readSlot t 1 0 [] s).1

/-! ### Storing a record (R101, R103) -/

/-- The SEQ that the next record takes, and its slot: the one that does not hold the newest, slot 0 where none does. -/
def State.storeSeq (s : State) (t : Nat) : Nat := match s.newestSlot t with | some (_, r) => (r.seq + 1) % 2 ^ 64 | none => 1
def State.storeSlot (s : State) (t : Nat) : Nat := match s.newestSlot t with | some (0, _) => 1 | _ => 0

/-- The ports of the device. -/
def State.jnlPorts (s : State) : List Nat := if s.hasPort 1 then [0, 1] else [0]

/-- The pages of the next record with a payload; PORTS is zero in LMS state. -/
def State.storePages (s : State) (t : Nat) (payload : List Nat) : List (List Nat) :=
  recordPages t (if t = 0x21 then 0 else (s.jnlPorts.map (2 ^ ·)).sum) (s.storeSeq t) s.identWord payload

/-- Page `i` of slot `k` programmed; the block has been given its physical one by the first. -/
def storePage (t k i : Nat) (data : List Nat) (s : State) : State := programPage t k i data (allocate t k s)

/-- The first `n` operations of a store into slot `k`: the erase, then one page each. -/
def storeRun (t k : Nat) (pages : List (List Nat)) : Nat → State → State
  | 0, s => s
  | n + 1, s => ((List.range n).zip pages).foldl (fun s x => storePage t k x.1 x.2 s) (eraseBlock t k s)

/-- The page in which a cut program leaves the first half of its bits as they were: it reads blank or uncorrectable. -/
def tornPage (data : List Nat) : FlashPage := { data := data, tcode := [255, 255, 255] }

/-- Power fails in operation `n` of the store of a payload, counted from 1 (R103): the operations before it are done; a cut erase leaves the
block without its first page, a cut program a page that no read corrects. -/
def recCut (t n : Nat) (payload : List Nat) (s : State) : State :=
  let k := s.storeSlot t
  let pages := s.storePages t payload
  if n = 0 || pages.length + 1 < n || (s.partition t).isNone then s
  else
    let x := storeRun t k pages (n - 1) s
    if n = 1 then (match s.mappedTo t k with
      | some b => setBlock b { s.flashBlock b with pages := (s.flashBlock b).pages.filter (fun e => e.1 != 0) } s
      | none => s)
    else
      let x := allocate t k x
      match x.mappedTo t k with
      | some b => setBlock b { x.flashBlock b with pages := putKey (n - 2) (tornPage (pages.getD (n - 2) [])) (x.flashBlock b).pages } x
      | none => x

/-- Operation `j` of a store into slot `k` fails (R103, R402): logged, and its block retired, since the write is the device's own. -/
def storeFault (t k j time : Nat) (s : State) : State :=
  match s.mappedTo t k with
  | none => s
  | some b =>
    let s := if j = 0 then
        logAdd { seq := 0, time := time, typ := 4, part := t, status := St.uncorr, pblk := b } ((s.addSat (R.FLC_CNT_COUNT 3) 1).raise Ev.FLC_ERASE_FAIL)
      else progFail t b (j - 1) time s
    setMap t k none (retireBlock b time true s)

/-- The status that the store of a record of `n` operations ends with. Without `failAt` every operation was carried out: the erase (0), the
pages (1 on), the read-back of the last. With it operation `failAt` was refused by the window, where TD3 lies outside it, and has failed
otherwise; those before it were carried out. -/
def State.recStatus (s : State) (t n : Nat) (failAt : Option Nat) : Nat :=
  if (s.partition t).isNone then St.decerr
  else match failAt with
    | none => if s.writeWindow then St.ok else St.tempInhibit
    | some j => if !s.writeWindow && j < n then St.tempInhibit else St.uncorr

/-- What the store of a record leaves in flash, and the FLC events with it. -/
def recStore (t : Nat) (payload : List Nat) (failAt : Option Nat) (time : Nat) (s : State) : State :=
  let k := s.storeSlot t
  let pages := s.storePages t payload
  let n := pages.length + 1
  let v := s.recStatus t n failAt
  if (s.partition t).isNone then s
  else match failAt with
    | none => if v = St.ok then storeRun t k pages n s else s.raise Ev.FLC_TEMP_INHIBIT
    | some j =>
      let x := storeRun t k pages (min j n) s
      if v = St.tempInhibit then x.raise Ev.FLC_TEMP_INHIBIT
      else if n ≤ j then x
      else storeFault t k j time (allocate t k x)

/-! ### Reservations of leaves (R320) -/

/-- The payload of a reservation up to a leaf. -/
def leafPayload (top : Nat) : List Nat := slice Config.attI 0 16 ++ bytesLe 4 top ++ zeros 12

/-- RESERVED_TO of the next reservation. -/
def State.leafTop (s : State) : Nat := min (s.get R.SEC_ATT_LEAF_VALUE + 1024) 1048576

/-- The reports that wait are signed in turn, in their banks, as far as leaves are reserved. -/
def attServe : Nat → State → State
  | 0, s => s
  | n + 1, s =>
    match s.sec.att with
    | [] => s
    | (m, nonce) :: r =>
      let q := s.get R.SEC_ATT_LEAF_VALUE
      if q < s.get R.SEC_ATT_RSV_VALUE then
        let a := attSign nonce (s.modSec (fun y => { y with att := r }))
        attServe n (secDone m a.1 a.2.1 a.2.2)
      else if 1048576 ≤ q then
        let a := attRefuse St.quarantined (s.modSec (fun y => { y with att := r }))
        attServe n (secDone m a.1 a.2.1 a.2.2)
      else s.raise Ev.SEC_ATT_RESERVE

/-- The reservation store ends (R320, R321): the report that waits first is signed, or refused with the status of the store. -/
def attReserved (failAt : Option Nat) (time : Nat) (s : State) : State :=
  match s.sec.att with
  | [] => s
  | (m, _) :: r =>
    let top := s.leafTop
    let v := s.recStatus 0x21 4 failAt
    let s := recStore 0x21 (leafPayload top) failAt time s
    if v = St.ok then attServe (r.length + 1) (s.set R.SEC_ATT_RSV_VALUE top)
    else
      let a := attRefuse v (s.modSec (fun y => { y with att := r }))
      attServe r.length (secDone m a.1 a.2.1 a.2.2)

/-! ### Approval records (R329) -/

/-- The entry of a proposal slot: the proposal, its state, the two approvers. -/
def slotEntry (c : ChangeProp) : List Nat :=
  slice c.bytes 0 128 ++ [c.state] ++ zeros 7 ++ (List.range 2).flatMap (fun i => bytesLe 8 (c.tokens.getD i (0, 0)).1) ++ zeros 8

/-- The payload of the approval record as things stand. -/
def State.apprPayload (s : State) : List Nat :=
  slice s.sec.enrol 0 1024 ++ slice s.bootPolicy 0 256 ++ (List.range 16).flatMap (fun k => slotEntry (s.slotAt k))

/-- A proposal as its entry in the record gives it: roles and content are not kept. -/
def entrySlot (b : List Nat) : ChangeProp :=
  { state := byteAt b 128, bytes := b.take 128,
    tokens := ((List.range 2).map (fun i => (leAt b (136 + 8 * i) 8, 0))).filter (fun t => t.1 != 0) }

/-- The enrolment list, the policy and the proposals that a record holds. -/
def recordTake (b : List Nat) (s : State) : State :=
  let e := b.take 1024
  s.modSec (fun y =>
    { y with enrol := if allZero e then [] else e, policy := (b.drop 1024).take 256,
             slots := (List.range 16).foldl (fun m k => setAt {} m k (entrySlot ((b.drop (1280 + 160 * k)).take 160))) [] })

/-- What a store of the record under way writes: with a second token its proposal is APPROVED in it. -/
def State.storePayload (s : State) : SecStore → List Nat
  | .plain => s.apprPayload
  | .second _ k id role => (s.modSlot k (fun c => { c with state := 3, tokens := c.tokens ++ [(id, role)] })).apprPayload

/-- A store of the record ends (R329, R330). -/
def recordCommit (failAt : Option Nat) (otpFail : Bool) (time : Nat) (s : State) : State :=
  match s.sec.stores with
  | [] => s
  | j :: r =>
    let v := s.recStatus 0x22 4 failAt
    let late := match j with | .second _ k _ _ => decide ((s.slotAt k).state ≠ 2) | .plain => false
    if late then (match j with
      | .second m _ _ _ => secDone m St.stale [] (s.modSec (fun y => { y with stores := r }))
      | .plain => s)
    else
      let s := (recStore 0x22 (s.storePayload j) failAt time s).modSec (fun y => { y with stores := r })
      match j with
      | .plain => s
      | .second m k id role =>
        if v ≠ St.ok then secDone m v [] s
        else
          let s := propApproved k otpFail (s.modSlot k (fun c => { c with tokens := c.tokens ++ [(id, role)] }))
          secDone m St.ok [k, (s.slotAt k).state] s

/-! ### What a start-up finds -/

/-- The newest records in the flash while it is mounted (R315, R320, R329): the payload of the approval record, and RESERVED_TO. -/
def recordsFound (s : State) : State :=
  if s.get R.FLC_STATE_STATE ≠ 3 then s
  else s.modSec (fun y =>
    { y with kept := (s.newestSlot 0x22).map (·.2.payload),
             keptRsv := match s.newestSlot 0x21 with | some (_, x) => leAt x.payload 16 4 | none => 0 })

/-- The FLC scans and mounts the flash (R399). -/
def execFlashMount (x : FlashScan) (s : State) : Out := .next (if s.get R.FLC_STATE_STATE = 0 then recordsFound (flashMount x s) else s)

end Sys2Proof.Machine
end

