-- ==== Sys2Proof/Machine/Journal.lean ====
section
/-! DEFINITION. The calibration journal: its payload, STORE and LOAD (R99, R101 to R103). -/
namespace Sys2Proof.Machine

/-! ### The payload (R99) -/

/-- The port block of port `p` from staging words: its header, then the slice words and the band words of each band. -/
def portBlock (p : Nat) (words : Sparse Nat) : List Nat :=
  let at16 := fun (k : Nat) => bytesLe 16 (getAt 0 words (8192 * p + k))
  p :: List.replicate 15 0 ++ (List.range 16).flatMap (fun i =>
    (List.range 65).flatMap (fun sl => at16 (sliceKey i sl)) ++ (List.range 32).flatMap (fun w => at16 (bandKey i w)))

/-- The payload of a STORE: the port blocks of its buffer. -/
def State.jnlPayload (s : State) : List Nat := s.jnlPorts.flatMap (fun p => portBlock p s.jnl.buf)

/-! ### STORE (R101, R103) -/

/-- Power fails in operation `n` of a STORE. -/
def storeCut (n : Nat) (s : State) : State := if s.jnl.op = 1 then recCut 0x20 n s.jnlPayload s else s

/-- The SLOT and SEQ shown (R104). -/
def showNewest (k seq : Nat) (s : State) : State :=
  ((s.set (R.CAL_JNL_STAT_SLOT 0) k).set (R.CAL_JNL_SEQ_LO_SEQ_L 0) (seq % 2 ^ 32)).set (R.CAL_JNL_SEQ_HI_SEQ_H 0) (seq / 2 ^ 32)

/-- The operation ends with `st`. -/
def jnlEnd (st : Nat) (s : State) : State :=
  let s := (s.set (R.CAL_JNL_STAT_BUSY 0) 0).set (R.CAL_JNL_STAT_STATUS 0) st
  { s with jnl := {} }

/-- A STORE that ends without its record. -/
def storeFails (st : Nat) (s : State) : State := (jnlEnd st s).raise (Ev.CAL_JNL_FAIL 0)

/-- JOURNAL_STORE_DONE (R101, R103): the STORE has come to its end. -/
def jnlStoreDone (failAt : Option Nat) (time : Nat) (s : State) : State :=
  if s.jnl.op ≠ 1 then s
  else
    let v := s.recStatus 0x20 ((s.storePages 0x20 s.jnlPayload).length + 1) failAt
    let t := recStore 0x20 s.jnlPayload failAt time s
    if v = St.ok then (showNewest (s.storeSlot 0x20) (s.storeSeq 0x20) (jnlEnd St.ok t)).raise (Ev.CAL_JNL_DONE 0) else storeFails v t

/-! ### LOAD (R102) -/

/-- The words of port block `i` of a payload. -/
def blockWords (i : Nat) (payload : List Nat) : Sparse Nat :=
  let b := payload.drop (blockBytes * i)
  (List.range 16).foldl (fun m g =>
    let m := (List.range 65).foldl (fun m sl => setAt 0 m (sliceKey g sl) (leAt b (16 + 1552 * g + 16 * sl) 16)) m
    (List.range 32).foldl (fun m w => setAt 0 m (bandKey g w) (leAt b (16 + 1552 * g + 1040 + 16 * w) 16)) m) []

/-- The port blocks of the ports that record and device have, copied into their staging copies. -/
def jnlCopy (r : RecFound) (s : State) : State :=
  (List.range r.ports.length).foldl (fun s i =>
    let p := r.ports.getD i 0
    if s.hasPort p then s.modCal p (fun c => { c with staging := blockWords i r.payload }) else s) s

/-- JOURNAL_LOAD_DONE (R102): both slots have been read, slot 0 first, with the bits that flipped in each page. -/
def jnlLoadDone (r : FlashResult) (s : State) : State :=
  if s.jnl.op ≠ 2 then s
  else if (s.partition 0x20).isNone then jnlEnd St.decerr s
  else
    let n := s.slotSpan 0x20 0
    let (a, ua, s) := readSlot 0x20 0 r.time (r.pages.take n) s
    let (b, ub, s) := readSlot 0x20 1 r.time (r.pages.drop n) s
    let s := s.raiseIf ua (Ev.CAL_JNL_FAIL 0)
    let s := s.raiseIf ub (Ev.CAL_JNL_FAIL 0)
    let s := match newest a b with
      | none => s.set (R.CAL_JNL_STAT_FOUND 0) 0
      | some (k, x) => showNewest k x.seq ((jnlCopy x s).set (R.CAL_JNL_STAT_FOUND 0) 1)
    (jnlEnd St.ok s).raise (Ev.CAL_JNL_DONE 0)

/-! ### Meanings -/

/-- JOURNAL_STORE_DONE (R101, R103). -/
def execJournalStoreDone (failAt : Option Nat) (s : State) (time : Nat := 0) : Out := .next (jnlStoreDone failAt time s)
/-- JOURNAL_LOAD_DONE (R102). -/
def execJournalLoadDone (s : State) (r : FlashResult := {}) : Out := .next (jnlLoadDone r s)

end Sys2Proof.Machine
end

