-- ==== Sys2Proof/Machine/Container.lean ====
section
/-! DEFINITION. Containers as the flash holds them (R338 to R340): header, section entries, the sections STRUCT, CALDEF and BOARD (R343 to
R346), the signature, the firmware bundle and the boot images; and the commands that read one. -/
namespace Sys2Proof.Machine

/-! ### Sections (R343 to R346) -/

/-- Entry `t` of the directory of a STRUCT section (R344). -/
def dirEntry (b : List Nat) (t : Nat) : TblEnt :=
  let o := 128 + 16 * t
  { num := leAt b o 2, typ := byteAt b (o + 2), region := byteAt b (o + 3) % 16, perDir := byteAt b (o + 4) % 2 == 1,
    words := leAt b (o + 8) 4, base := leAt b (o + 12) 4 }

/-- A STRUCT section (R343). -/
def structOf (hash b : List Nat) : StructSec :=
  let port := fun (f : Nat → Nat) => (List.range 2).map f
  { mode := byteAt b 0, ports := byteAt b 1, group := byteAt b 2, n0 := byteAt b 3, n1 := byteAt b 4, dpSrc := byteAt b 5,
    baudMax := port (fun p => leAt b (16 + 32 * p) 2), bandB := port (fun p => byteAt b (18 + 32 * p)),
    perm := (List.range 2).map (fun p => slice b (20 + 32 * p) 16), pwrMap := leAt b 80 32,
    dir := (List.range (leAt b 112 2)).map (dirEntry b), hash := hash }

/-- Entry `i` of a container and the section it names (R339); `part` is the device that judges a bundle in it. -/
def sectionOf (b : List Nat) (i : Nat) : Section :=
  let e := 64 + 48 * i
  let typ := byteAt b e
  let hash := slice b (e + 16) 32
  let body := slice b (leAt b (e + 4) 4) (leAt b (e + 8) 4)
  { toTablesSec := if typ = 2 then Config.tablesRead body else {}, typ := typ, region := byteAt b (e + 1), offset := leAt b (e + 4) 4, len := leAt b (e + 8) 4,
    hash := hash, hashOk := Config.sha256 body == hash, rsvdOk := allZero (slice b (e + 2) 2) && allZero (slice b (e + 12) 4), body := body,
    struct := if typ = 1 then some (structOf hash body) else none, trig := leAt body 0 4, calPort := byteAt body 16,
    calBlock := if typ = 5 && body.length == 24864 then some (blockWords 0 (body.drop 16)) else none }

/-! ### Containers (R338, R340) -/

/-- A container as its bytes lay it out. -/
def boxOf (b : List Nat) : Image :=
  let n := leAt b 24 2
  let o := leAt b 28 4
  let pk := slice b o 60
  let sig := slice b (o + 64) (leAt b (o + 60) 4)
  { magic := leAt b 0 4, version := leAt b 4 2, keyClass := byteAt b 6, keySlot := byteAt b 7, len := leAt b 8 4, part := leAt b 12 2,
    step := byteAt b 14, svn := byteAt b 15, sigOff := o, sigLen := leAt b (o + 60) 4,
    rsvdOk := allZero (slice b 26 2) && allZero (slice b 32 32) && allZero (slice b (64 + 48 * n) (4032 - 48 * n)),
    keyHash := ofBe (Config.sha256 pk), sigOk := hssTypesOk pk sig && Config.hssVerify pk (slice b 0 4096) sig,
    sects := (List.range n).map (sectionOf b) }

/-- What each section may be. -/
def sectionOk (x : Section) : Bool :=
  x.rsvdOk && x.offset % 4096 == 0 && decide (4096 ≤ x.offset) &&
  (if x.typ = 1 then x.region == 0 else if x.typ = 2 then decide (x.region ≤ 7) else if x.typ = 3 then x.region == 15
   else if x.typ = 4 then x.region == 8 else if x.typ = 5 then x.region == 1 || x.region == 2 else false)

def sectsApart : List Section → Bool
  | [] => true
  | x :: r => r.all (fun y => decide (x.offset + x.len ≤ y.offset ∨ y.offset + y.len ≤ x.offset)) && sectsApart r

/-- What check 2 of R341 asks of every container. -/
def boxOk (magic : Nat) (i : Image) : Bool :=
  i.magic == magic && i.version == 1 && i.rsvdOk && (i.keyClass == 0 && decide (i.keySlot < 2) || i.keyClass == 1 && decide (i.keySlot < 4)) &&
  decide (i.sects.length ≤ 32) && i.sigOff % 16 == 0 && i.sects.all sectionOk && sectsApart i.sects &&
  i.sects.all (fun x => decide (x.offset + x.len ≤ i.sigOff))

/-- Check 3. -/
def lengthsOk (i : Image) : Bool :=
  i.len % 16 == 0 && decide (i.len ≤ 67108864) && i.sects.all (fun x => decide (x.offset + x.len ≤ i.len)) && decide (i.sigOff + 64 + i.sigLen ≤ i.len)

/-- Check 4, keys, signature and counter apart: the device it is for, and the hashes of its sections. -/
def fitsPart (part : Nat) (i : Image) : Bool :=
  (i.part == part || i.part == 0xFFFF) && i.step == 0xB1 && i.sects.all (fun x => x.hashOk)

/-- A boot image or a firmware bundle: exactly one FW section under a key of Plilum (R339). -/
def fwBoxOk (magic part : Nat) (i : Image) : Bool :=
  boxOk magic i && i.keyClass == 0 && i.sects.length == 1 && i.sects.all (fun x => x.typ == 3) && lengthsOk i && fitsPart part i

def imageObj (i : Image) : SignedObj :=
  { cls := i.keyClass, keySlot := i.keySlot, svn := i.svn, keyHash := i.keyHash, sigOk := i.sigOk }

/-- The boot image that bytes hold, none where they hold none for device `part`; its hash is that of its FW section (log entry 186). -/
def bootObj (part : Nat) (b : List Nat) : Option SignedObj :=
  let i := boxOf b
  if fwBoxOk 0x544F4F42 part i then some { imageObj i with hash := (i.sects.headD (sectionOf [] 0)).hash } else none

/-- The bundle in a FW section judged. -/
def fwJudge (part : Nat) (x : Section) : Section :=
  if x.typ = 3 then
    let i := boxOf x.body
    { x with fwOk := fwBoxOk 0x4E425746 part i, fw := { imageObj i with hash := x.hash } }
  else x

/-- The Foene image that bytes hold. -/
def imageOf (part : Nat) (b : List Nat) : Image :=
  let i := boxOf b
  { i with sects := i.sects.map (fwJudge part) }

/-! ### Reading flash -/

/-- Pages that the container in a partition spans: what its header says, at most the partition. -/
def State.boxSpan (s : State) (id : Nat) : Nat :=
  match s.partition id, s.flashPage id 0 with
  | some x, some p => max 1 (min (x.logical * s.flcPages) (ceilDiv (leAt p.data 8 4) 4096))
  | _, _ => 1

/-- The pages of a container read, with the bits that flip in each: its bytes, whether a page was uncorrectable, and what the reads
leave behind. -/
def readBox (id time : Nat) (flips : List (List Nat)) (s : State) : List Nat × Bool × State :=
  let (x, s) := (List.range (s.boxSpan id)).foldl (readPage id time) ({ found := flips }, s)
  (x.data, decide (x.bads ≠ 0), s)

/-- The pages of sections. -/
def sectPages (xs : List Section) : List Nat := xs.flatMap (fun x => (List.range (ceilDiv x.len 4096)).map (x.offset / 4096 + ·))

/-- The bytes of sections in what was read of their pages. -/
def sectBodies : List Section → List Nat → List (List Nat)
  | [], _ => []
  | x :: r, d => d.take x.len :: sectBodies r (d.drop (4096 * ceilDiv x.len 4096))

/-- Sections read again from a slot and held against their hashes (R348): the status, and what the reads leave behind. -/
def readSections (k : Nat) (r : FlashResult) (xs : List Section) (s : State) : Nat × State :=
  let (x, s) := (sectPages xs).foldl (readPage (0x10 + k) r.time) ({ found := r.pages }, s)
  (if x.bads ≠ 0 then St.uncorr
   else if !xs.isEmpty && (xs.zip (sectBodies xs x.data)).all (fun e => Config.sha256 e.2 == e.1.hash) then St.ok else St.denied, s)

/-- The boot image in boot slot `k`, where one reads and is accepted, and what reading it leaves behind. -/
def bootRead (k : Nat) (r : FlashResult) (s : State) : Option SignedObj × State :=
  let x := readBox (k + 1) r.time r.pages s
  (if x.2.1 then none else (bootObj s.partNumber x.1).filter (s.signedOk false), x.2.2)

/-! ### The mailbox (R335, R336) -/

/-- A mailbox command passes the checks before its own. -/
def State.mailTakes (s : State) (op m d : Nat) : Bool :=
  hasMailbox m && !s.isOn (R.SEC_CMD_STAT_BUSY m) && s.get R.THM_SD_STAT_STATE != 1 && s.lingState != 3 && decide (cLen d ≤ 16384) &&
    decide (s.secNeeds op d (s.winBytes m (min (cLen d) 16384)) ≤ cLen d)

/-- A mailbox command of operation `op`: RT_SWAP reads the boot image it names. -/
def mailCommand (op m d : Nat) (r : FlashResult) (s : State) : Nat × State :=
  if op = 0x11 && s.mailTakes op m d then
    let (o, s) := bootRead (cArg d % 2) r s
    secCommand op m d o s
  else secCommand op m d none s

end Sys2Proof.Machine
end

