-- ==== Sys2Proof/Machine/Image.lean ====
section
/-! DEFINITION. Foene images: the checks of a load and the states of a slot (R338 to R346). Regions are applied in Regions. -/
namespace Sys2Proof.Machine

def State.modImg (s : State) (f : ImgState → ImgState) : State := { s with img := f s.img }

/-! ### Container (R338, R339) -/

def sectionCount (i : Image) (f : Section → Bool) : Nat := (i.sects.filter f).length

/-- Check 2 of R341. -/
def containerOk (i : Image) : Bool :=
  boxOk 0x4E454F46 i &&
  sectionCount i (fun x => x.typ == 1) == 1 && sectionCount i (fun x => x.typ == 4) == 1 && sectionCount i (fun x => x.typ == 3) == 1 &&
  decide (sectionCount i (fun x => x.typ == 5 && x.region == 1) ≤ 1 ∧ sectionCount i (fun x => x.typ == 5 && x.region == 2) ≤ 1) &&
  sectionCount i (fun x => x.region == 5) == 1

/-- Check 4. -/
def State.imageTrusted (s : State) (i : Image) : Bool :=
  fitsPart s.partNumber i && s.signedOk true (imageObj i) && i.sects.all (fun x => x.typ != 3 || (x.fwOk && s.signedOk false x.fw))

/-! ### Directory (R344) -/

/-- The fixed form of a table: region, words, TYPE; none where its number is reserved. Words 0 stand for any number. -/
def tableForm (e : TblEnt) : Option (Nat × Nat × Nat) :=
  let t := e.num
  let p := if 0xF100 ≤ t then 1 else 0
  let k := tabKind t
  if t < 0x1000 then (if 3 ≤ e.typ && e.typ ≤ 5 && e.region ≤ 7 then some (e.region, 0, e.typ) else none)
  else if t < 0x1100 then (if e.region = 1 || e.region = 2 then some (e.region, 49, 0x10) else none)
  else if 0x2000 ≤ t && t < 0x2010 then some (7, 0, 0x20)
  else if t = 0xF010 || t = 0xF011 || t = 0xF012 then some (0, 256, 2)
  else if t = 0xF020 then some (4, 64, 0xE)
  else if t = 0xF030 then some (0, 33, 8)
  else if k = 0xF000 then some (1 + p, 256, 1)
  else if k = 0xF001 || k = 0xF002 then some (1 + p, 3, 9)
  else if k = 0xF003 then some (1 + p, 16512, 0xA)
  else if k = 0xF004 then some (4, 128, 0xB)
  else if k = 0xF005 || k = 0xF006 then some (4, 60, 0xC)
  else if k = 0xF007 then some (1 + p, 32, 6)
  else if k = 0xF008 then some (5, 32, 0xD)
  else if k = 0xF00A then some (1 + p, 2, 7)
  else none

def entryOk (e : TblEnt) : Bool :=
  match tableForm e with
  | some (r, w, t) => e.region == r && (w == 0 && decide (1 ≤ e.words) || e.words == w) && e.typ == t && e.perDir == (tabKind e.num == 0xF008)
  | none => false

def entriesApart : List TblEnt → Bool
  | [] => true
  | x :: r => r.all (fun y => x.num != y.num && decide (x.base + 2 * x.words ≤ y.base ∨ y.base + 2 * y.words ≤ x.base)) && entriesApart r

/-- Ports that a STRUCT uses. -/
def structPorts (x : StructSec) : List Nat := (List.range 2).filter (fun p => bitAt x.ports p == 1)

def directoryOk (x : StructSec) : Bool :=
  let has := fun t => x.dir.any (fun e => e.num == t)
  decide (1 ≤ x.dir.length ∧ x.dir.length ≤ 1024) && x.dir.all entryOk && entriesApart x.dir &&
  [0xF010, 0xF011, 0xF012, 0xF020].all has &&
  (structPorts x).all (fun p => [0, 1, 2, 3, 4, 5, 6, 8].all (fun k => has (0xF000 + 0x100 * p + k)))

/-! ### Content (checks 5 to 7) -/

/-- The words of a table of the image, in full length. -/
def imgWords (i : Image) (t : Nat) : List Nat :=
  let x := imgStruct i
  let n := match x.dir.find? (fun e => e.num == t) with | some e => e.words | none => 0
  let l := ((i.sects.flatMap (·.tables)).find? (fun e => e.1 == t)).map (·.2)
  (List.range n).map (fun w => (l.getD []).getD w 0)

/-- Names of the second line, of through mode or of a group (R2). -/
def namesL1 (x : StructSec) : Bool :=
  bitAt x.ports 1 == 1 || x.mode == 1 || x.mode == 2 || x.dir.any (fun e => decide (0xF100 ≤ e.num ∧ e.num ≤ 0xF1FF))

/-- Valid rungs of a port's ladder in the image. -/
def imgRungs (i : Image) (p : Nat) : List Rung := ((List.range 64).map (rungIn (imgWords i (ladderTab p)))).filter (·.valid)

/-- The STRUCT against itself and the ladders (R24, R26, R63, R114, R343). -/
def structOk (i : Image) : Bool :=
  let x := imgStruct i
  decide (x.mode ≤ 2) && (x.mode != 2 || decide (1 ≤ x.n0 + x.n1 ∧ x.n0 + x.n1 ≤ 48)) && (x.mode != 1 || x.n0 == x.n1) &&
  (x.dpSrc == 0 || x.mode == 1) && directoryOk x &&
  (structPorts x).all (fun p =>
    let perm := x.perm.getD p []
    perm.length == 16 && perm.all (fun v => decide (v < 16)) && perm.Nodup &&
    (imgRungs i p).all (fun r => decide (r.baud ≤ x.baudMax.getD p 0) &&
      (x.bandB.getD p 0 == 1 || decide (r.baud * (100 + r.rolloff) ≤ 60000))))

/-- A transmit preset of a client lane (R504). -/
def presetOk (b : List Nat) : Bool :=
  let c := fun i => signed 8 (byteAt b i)
  decide ((c 0).natAbs + (c 1).natAbs + c 2 + (c 3).natAbs ≤ 64) && decide (32 ≤ c 2)

/-- A BOARD section (R346, R504): its length, the presets, and the neighbours of each sensor, which are other sensors. -/
def boardOk (b : List Nat) : Bool :=
  b.length == 1024 && (List.range 64).all (fun n => presetOk (slice b (48 + 4 * n) 4)) &&
  (List.range 112).all (fun n => (slice b (304 + 4 * n) 4).all (fun v => v == 255 || (decide (v < 112) && v != n)))

/-- Sections against this chapter and the rules of other chapters (R180, R225, R345, R504): the entry that fails, if one does. -/
def badSection (i : Image) : Option Nat :=
  i.sects.findIdx? (fun x =>
    (x.typ == 4 && !boardOk x.body) || (x.typ == 5 && x.body.length != 16 && x.calBlock.isNone) ||
    (x.typ == 2 && x.region == 3 && !decide (2 ≤ x.window ∧ x.window ≤ 64)) ||
    (x.typ == 5 && x.calBlock.isSome && x.calPort + 1 != x.region) || x.addSlots.any (fun v => x.thruSlots.contains v) ||
    x.tables.any (fun t => !(imgStruct i).dir.any (fun e => e.num == t.1 && e.region == x.region && decide (t.2.length ≤ e.words))))

/-- Check 6: tables by themselves, and the client tables and policies together (R142, R156, R236, R244, R286, R353). Slots are bounded by n of the
rungs in force; where none is, by the largest n of the image's own ladder (DEDUCED, log entry 174). -/
def imgContentOk (inForce : Nat → List Nat) (i : Image) : Bool :=
  let x := imgStruct i
  let ports := if x.mode = 2 then [0] else structPorts x
  let bound := fun p => if x.mode = 2 then x.n0 + x.n1
    else match inForce p with | [] => ((imgRungs i p).map (·.n)).foldl max 0 | l => l.foldl min 24
  let v := imgWords i
  structOk i && (badSection i).isNone && x.dir.all (fun e => bankOk e.num e.typ (v e.num)) &&
  grpTableOk (v 0xF020) && feedsOk (v 0xF020) (ports.map (fun p => v (tribTab p))) &&
  ports.all (fun p => tribTablesOk x.mode (bound p) (v 0xF020) (v (tribTab p)) (v (slotTab p 0)) (v (slotTab p 1)) (v (tribTab (1 - p))) (v (slotTab (1 - p) 1)) &&
    policyTableOk (v (0xF008 + 0x100 * p)) (v (tribTab p)))

/-- A field as the settings of a region leave it from its reset value. -/
def settingOf (l : List Setting) (f : Fld) : Nat :=
  l.foldl (fun a x => if x.addr = f.addr then bits (mixBits (byteMask 4 x.be) (a * 2 ^ f.lo) x.data) (f.lo + f.w - 1) f.lo else a) f.rst

/-- Cipher capacity of the image's own CIPHER region: each port's assigned groups counted as in service (R281). -/
def imgCipherFits (i : Image) : Bool :=
  let x := imgStruct i
  let l := (imgRegion i 5).flatMap (·.settings)
  let grp := settingOf l R.LCX_CFG_GRP_PORT
  let masked := settingOf l R.LCX_CFG_MASKED
  let named := ((imgRegion i 5).map (·.groups)).foldl (· ||| ·) 0
  (structPorts x).all (fun p =>
    let h := if x.mode = 2 then 0 else p
    let lo := if x.mode = 2 && p = 1 then 20 * x.n0 else 0
    let hi := if x.mode = 2 then (if p = 0 then 20 * x.n0 else 20 * (x.n0 + x.n1)) else 960
    let n := ((imgRungs i p).map (·.n)).foldl max 0
    let pol := imgWords i (0xF008 + 0x100 * h)
    let mine := (List.range 8).filter (fun g => bitAt named g == 1 && bitAt grp g == p)
    let cap := (if bitAt masked p = 1 then 68 else 136) * mine.length
    decide (mine.length ≤ 4) && decide (max (cipherSlots pol (imgWords i (slotTab h 0)) n lo hi) (cipherSlots pol (imgWords i (slotTab h 1)) n lo hi) ≤ cap))

/-- Check 7. -/
def sizesOk (i : Image) : Bool :=
  let x := imgStruct i
  let win := match (imgRegion i 3).head? with | some f => f.window | none => 32
  x.dir.all (fun e => decide (e.base + 2 * e.words ≤ 2097152)) &&
  decide (((structPorts x).map (fun p => ladderWindow win (imgWords i (ladderTab p)))).sum ≤ 8192) && imgCipherFits i

/-- The checks of R341 in their order: status, and the section entry that failed one. -/
def State.imageVerdict (s : State) (i : Image) (uncorr : Bool) : Nat × Nat :=
  let at? := fun (f : Section → Bool) => (i.sects.findIdx? f).getD 0
  if uncorr then (St.uncorr, 0)
  else if !containerOk i then (St.decerr, at? (fun x => !sectionOk x))
  else if !lengthsOk i then (St.length, at? (fun x => decide (i.len < x.offset + x.len)))
  else if !s.imageTrusted i then (St.denied, at? (fun x => !x.hashOk))
  else if s.part = .lyk4801 && namesL1 (imgStruct i) then (St.denied, 0)
  else if !imgContentOk s.sliceRungs i then (St.conflict, (badSection i).getD 0)
  else if !sizesOk i then (St.length, 0)
  else (St.ok, 0)

/-! ### Slots (R342) -/

def imgRegions (i : Image) : Nat := ((List.range 9).map (fun r => if (imgRegion i r).isEmpty then 0 else 2 ^ r)).sum

def slotShow (k st svn regions cust : Nat) (s : State) : State :=
  (((s.set (R.IMG_SLOT_STAT_STATE k) st).set (R.IMG_SLOT_STAT_SVN k) svn).set (R.IMG_SLOT_STAT_REGIONS k) regions).set (R.IMG_SLOT_STAT_CUST k) cust

/-- A slot holds a verified image. -/
def slotVerified (k : Nat) (i : Image) (s : State) : State :=
  slotShow k 2 i.svn (imgRegions i) i.keyClass (s.modImg (fun g => { g with images := putKey k i g.images }))

def imgEnd (st entry : Nat) (s : State) : State :=
  ((s.set R.IMG_CMD_STAT_BUSY 0).set R.IMG_CMD_STAT_STATUS st).set R.IMG_CMD_STAT_ENTRY entry

/-- IMG_CMD LOAD (R341): the status of the write. -/
def imgLoad (k : Nat) (s : State) : Nat × State :=
  if s.isOn R.IMG_CMD_STAT_BUSY then (St.busy, s)
  else if 6 ≤ k then (St.ok, imgEnd St.decerr 0 s)
  else (St.ok, (slotShow k 1 0 0 0 (s.set R.IMG_CMD_STAT_BUSY 1)).modImg (fun g => { g with load := some k }))

/-- The load ends: the container in the slot is read, with the bits that flip in each of its pages, and judged. -/
def imgLoadDone (pages : List (List Nat)) (time : Nat) (s : State) : State :=
  match s.img.load with
  | none => s
  | some k =>
    if s.get (R.IMG_SLOT_STAT_STATE k) ≠ 1 then (imgEnd St.aborted 0 (s.modImg (fun g => { g with load := none }))).raise Ev.IMG_LOAD_FAIL
    else
      let x := readBox (0x10 + k) time pages s
      let i := imageOf s.partNumber x.1
      let v := s.imageVerdict i x.2.1
      let s := x.2.2.modImg (fun g => { g with load := none })
      if v.1 = St.ok then (slotVerified k i (imgEnd St.ok 0 s)).raise Ev.IMG_LOAD_DONE
      else (slotShow k 3 0 0 0 (imgEnd v.1 v.2 s)).raise Ev.IMG_LOAD_FAIL

/-- IMG_CMD LOAD. -/
def execImageLoad (k : Nat) (s : State) : Out := let r := imgLoad k s; .next (r.2.answer r.1 [])

/-- The slot load ends. -/
def execImageLoadDone (pages : List (List Nat)) (time : Nat) (s : State) : Out := .next (imgLoadDone pages time s)

end Sys2Proof.Machine
end

