-- ==== Sys2Proof/Machine/Stile.lean ====
section
/-! DEFINITION. The Stile companion links (chapter 17): lanes, frames, slots, the receive queue, eye scans, loopbacks, sleep. -/
namespace Sys2Proof.Machine

def State.modStl (s : State) (f : StlState → StlState) : State := { s with stl := f s.stl }

/-- A lane of the part. -/
def onLane (s : State) (n : Nat) (t : State) : Out := onUnit s n 8 t

/-! ### Frames (R430, R432) -/

/-- A frame: bytes 0 to 59 and their CRC. -/
def stlFrame (b : List Nat) : List Nat :=
  let h := (List.range 60).map (fun i => b.getD i 0 % 256)
  h ++ bytesBe 4 (crc32 h)

/-- A frame that the checks of R430 pass. -/
def stlFrameOk (b : List Nat) : Bool := b.length == 64 && decide (b.getD 3 0 ≤ 56) && stlFrame (b.take 60) == b

/-- The request types that expect a response. -/
def stlAnswered (t : Nat) : Bool := 1 ≤ t && t ≤ 0x21

/-- The request types that the device knows and answers with DECERR. -/
def stlRequest (t : Nat) : Bool := t == 0x10 || (0x11 ≤ t && t ≤ 0x14) || t == 0x20 || t == 0x21

/-- A frame leaves on lane `n`. -/
def stlSend (n : Nat) (b : List Nat) (s : State) : State :=
  s.modStl (fun l => { l with sent := setAt [] l.sent n (stlFrame b) })

/-- ROLE, VERSION and DEVICE_ID, as a HELLO of lane `n` carries them. -/
def State.stlHello (s : State) (n : Nat) : List Nat := [s.get (R.STL_LANE_CTRL_ROLE n), 1] ++ bytesBe 8 Config.deviceId

/-! ### Slots (R433, R434) -/

def slotKey (n j w : Nat) : Nat := 16 * (2 * n + j) + w
def State.slotByteAt (s : State) (n j i : Nat) : Nat := getAt 0 s.stl.slots (slotKey n j (i / 4)) / 2 ^ (8 * (i % 4)) % 256
def State.slotBytes (s : State) (n j : Nat) : List Nat := (List.range 60).map (s.slotByteAt n j)
def State.slotState (s : State) (n j : Nat) : Nat := s.get (R.STL_TXS_STATE n j)

/-- Master `m` may use slot `j`. -/
def slotOwned (m j : Nat) : Bool := j == 1 || (2 ≤ m && m ≤ 5)

/-- A slot is IDLE again with the outcome of its frame. -/
def slotEnd (n j status : Nat) (s : State) : State := (s.set (R.STL_TXS_STATE n j) 0).set (R.STL_TXS_STATUS n j) status

/-- Slot `j` of lane `n`, if queued, has left: it waits for its response, or is IDLE with OK. -/
def slotLeave (n j : Nat) (s : State) : State :=
  if s.slotState n j ≠ 1 then s
  else
    let s := stlSend n (s.slotBytes n j) s
    if stlAnswered (s.slotByteAt n j 0) then s.set (R.STL_TXS_STATE n j) 3 else slotEnd n j St.ok s

/-- The queued slots of a lane have left, slot 0 first. -/
def stlDepart (n : Nat) (s : State) : State := slotLeave n 1 (slotLeave n 0 s)

/-- ARM of slot `j` by master `m` (R433). -/
def stlArm (m n j : Nat) (s : State) : Nat × State :=
  let tag := s.slotByteAt n j 1
  if !slotOwned m j || (if j = 0 then decide (128 ≤ tag) else decide (tag < 128)) then (St.denied, s)
  else if s.slotState n j ≠ 0 then (St.busy, s)
  else if s.get (R.STL_LANE_STAT_LINK n) ≠ 2 || s.get (R.STL_LANE_CTRL_LOOP n) ≠ 0 || s.get (R.STL_LANE_CTRL_TX_EN n) = 0 then (St.conflict, s)
  else (St.ok, s.set (R.STL_TXS_STATE n j) 1)

/-- A word of a slot window written: refused while the slot is not IDLE. -/
def stlWindowWrite (m n j w v : Nat) (s : State) : Nat × State :=
  if !slotOwned m j then (St.denied, s)
  else if s.slotState n j ≠ 0 then (St.busy, s)
  else (St.ok, s.modStl (fun l => { l with slots := setAt 0 l.slots (slotKey n j w) v }))

/-! ### Receive queue (R434, R442) -/

def stlQueue (f : StileFrame) (s : State) : State :=
  if 16 ≤ s.stl.rxq.length then s.raise Ev.STL_RXQ_FULL else s.modStl (fun l => { l with rxq := l.rxq ++ [f] })

def stlPop (s : State) : State := s.modStl (fun l => { l with rxq := l.rxq.tail })

/-! ### Link (R436) -/

def setLink (n v : Nat) (s : State) : State := s.set (R.STL_LANE_STAT_LINK n) v

/-- A HELLO leaves where the transmitter is ACTIVE and the link is not UP. -/
def stlHello (n : Nat) (s : State) : State :=
  if s.get (R.STL_LANE_STAT_TX_STATE n) = 3 && getAt 0 s.stl.loops n = 0 && s.get (R.STL_LANE_STAT_LINK n) ≠ 2 then
    let (tag, s) := s.draw 256
    setLink n 1 (stlSend n ([0x01, tag, 0, 10] ++ s.stlHello n) s)
  else s

/-- The transmitter is ACTIVE once it is IDLE and its receiver is in SYNC. -/
def stlActive (n : Nat) (s : State) : State :=
  if s.get (R.STL_LANE_STAT_TX_STATE n) = 2 && s.get (R.STL_LANE_STAT_RX_STATE n) = 2 then
    stlHello n (s.set (R.STL_LANE_STAT_TX_STATE n) 3)
  else s

/-- An eye scan ends (R438). -/
def eyeEnd (n err : Nat) (s : State) : State :=
  if s.isOn (R.STL_EYE_CTRL_BUSY n) then (s.set (R.STL_EYE_CTRL_BUSY n) 0).set (R.STL_EYE_ERR_ERR n) (min err (2 ^ 32 - 1)) else s

/-- A slot that waits ends with ABORTED. -/
def slotAbort (n j : Nat) (s : State) : State := if s.slotState n j ≠ 0 then slotEnd n j St.aborted s else s

/-- The receiver leaves SYNC for state `st` (R435, R436, R438, R440). -/
def syncLost (n st : Nat) (s : State) : State :=
  if s.get (R.STL_LANE_STAT_RX_STATE n) ≠ 2 then s.set (R.STL_LANE_STAT_RX_STATE n) st
  else
    let s := setLink n 0 (s.set (R.STL_LANE_STAT_RX_STATE n) st)
    let s := if s.get (R.STL_LANE_STAT_TX_STATE n) = 3 then s.set (R.STL_LANE_STAT_TX_STATE n) 2 else s
    let s := eyeEnd n (2 ^ 32 - 1) (slotAbort n 1 (slotAbort n 0 s))
    s.raiseIf (!s.isOn (R.STL_LANE_STAT_FAR_SLEEP n)) Ev.STL_LINK_DOWN

/-! ### Enables (R440, R441) -/

/-- TX_EN written 1. -/
def stlTxOn (n : Nat) (s : State) : Nat × State :=
  if s.isOn (R.STL_LANE_CTRL_TX_EN n) then (St.ok, s)
  else
    let (st, s) := powerUp (224 + 2 * n) s
    if st = St.ok then (st, (s.set (R.STL_LANE_CTRL_TX_EN n) 1).set (R.STL_LANE_STAT_TX_STATE n) 1) else (st, s)

/-- TX_EN written 0. -/
def stlTxOff (n : Nat) (s : State) : State :=
  if !s.isOn (R.STL_LANE_CTRL_TX_EN n) then s
  else
    let drop := fun j (s : State) => if s.slotState n j = 1 then slotEnd n j St.aborted s else s
    let s := setLink n 0 (drop 1 (drop 0 s))
    powerDown (224 + 2 * n) ((s.set (R.STL_LANE_CTRL_TX_EN n) 0).set (R.STL_LANE_STAT_TX_STATE n) 0)

/-- RX_EN written 1. -/
def stlRxOn (n : Nat) (s : State) : Nat × State :=
  if s.isOn (R.STL_LANE_CTRL_RX_EN n) then (St.ok, s)
  else
    let (st, s) := powerUp (225 + 2 * n) s
    if st = St.ok then (st, (s.set (R.STL_LANE_CTRL_RX_EN n) 1).set (R.STL_LANE_STAT_RX_STATE n) 1) else (st, s)

/-- RX_EN written 0. -/
def stlRxOff (n : Nat) (s : State) : State :=
  if !s.isOn (R.STL_LANE_CTRL_RX_EN n) then s
  else powerDown (225 + 2 * n) (syncLost n 0 (s.set (R.STL_LANE_CTRL_RX_EN n) 0))

/-! ### Frames received (R429, R430, R432, R434, R436) -/

/-- A HELLO is answered in hardware. -/
def helloAnswer (n : Nat) (b : List Nat) (s : State) : State :=
  stlSend n ([0x81, b.getD 1 0, St.ok, 10] ++ s.stlHello n) s

/-- The slot of lane `n` that waits for tag `tag`. -/
def State.slotFor (s : State) (n tag : Nat) : Option Nat :=
  [0, 1].find? (fun j => s.slotState n j == 3 && s.slotByteAt n j 1 == tag)

/-- A response: of HELLO while the link is in HELLO, of a waiting slot, or late. -/
def stlResponse (n time : Nat) (b : List Nat) (s : State) : State :=
  match s.slotFor n (b.getD 1 0) with
  | some j =>
    let s := slotEnd n j (b.getD 2 0) s
    if j = 0 then s.modStl (fun l => { l with taken := setAt [] l.taken n b })
    else stlQueue { lane := n, looped := false, time := time, bytes := b } s
  | none =>
    if b.getD 0 0 = 0x81 && s.get (R.STL_LANE_STAT_LINK n) = 1 then
      if b.getD 2 0 = St.ok then
        ((setLink n 2 s).set (R.STL_LANE_STAT_PEER_ROLE n) (b.getD 4 0)).set (R.STL_LANE_STAT_ID_L n) (beAt b 12 2)
          |>.raise Ev.STL_LINK_UP
      else s
    else if b.getD 0 0 = 0x81 then s
    else s.addSat (R.STL_DROP_LATE n) 1

/-- A frame in a loopback is delivered with LOOPED; a far-end loopback sends it back (R439). -/
def stlLooped (n time : Nat) (b : List Nat) (s : State) : State :=
  let s := if getAt 0 s.stl.loops n = 3 then stlSend n b s else s
  stlQueue { lane := n, looped := true, time := time, bytes := b } s

/-- A frame that passed its checks. -/
def stlTake (n time : Nat) (b : List Nat) (s : State) : State :=
  let t := b.getD 0 0
  if getAt 0 s.stl.loops n ≠ 0 then stlLooped n time b s
  else if t = 0x01 then helloAnswer n b s
  else if stlRequest t then stlSend n [t + 128, b.getD 1 0, St.decerr, 0] s
  else if t = 0x40 then (stlQueue { lane := n, looped := false, time := time, bytes := b } s).raise Ev.STL_ALERT
  else if t = 0x38 then stlQueue { lane := n, looped := false, time := time, bytes := b } s
  else if t = 0x81 || (128 ≤ t && stlRequest (t - 128)) then stlResponse n time b s
  else s

/-- The receiver of lane `n` reads frames. -/
def State.stlSync (s : State) (n : Nat) : Bool := s.get (R.STL_LANE_STAT_RX_STATE n) == 2

/-- A frame arrives, `bad` with a code violation in it. -/
def stlReceive (n time : Nat) (bad : Bool) (b : List Nat) (s : State) : State :=
  if !s.stlSync n then s
  else
    let s := stlDepart n s
    if bad then (s.addSat (R.STL_ERR_CODE n) 1).raise Ev.STL_CODE_ERR
    else if !stlFrameOk b then (s.addSat (R.STL_ERR_CRC n) 1).raise Ev.STL_CRC_ERR
    else stlTake n time b s

/-! ### Time (R431) -/

/-- A TIME frame on every lane whose link is UP; TIME_PERIOD 0 sends none. -/
def timeSend (now : Nat) (s : State) : State :=
  if s.get R.STL_CFG_TIME_PERIOD = 0 then s
  else iter 8 (fun n s =>
    if s.get (R.STL_LANE_STAT_LINK n) = 2 then
      let (tag, s) := (stlDepart n s).draw 256
      stlSend n ([0x30, tag, 0, 8] ++ bytesBe 8 now) s
    else s) s

/-- The enabled lane that serves ROLE `r` (R428). -/
def State.roleLane (s : State) (r : Nat) : Option Nat :=
  (List.range 8).find? (fun n => s.get (R.STL_LANE_CTRL_ROLE n) == r && s.isOn (R.STL_LANE_CTRL_TX_EN n))

/-! ### Commands -/

/-- Lane `n` and slot `j` exist. -/
def onSlot (s : State) (n j : Nat) (t : State) : Out := .next (if n < 8 && j < 2 then t else s)

/-- R433. -/
def execStileArm (m n j : Nat) (s : State) : Out :=
  let r := stlArm m n j s
  onSlot s n j (r.2.answer r.1 [])

/-- R434. -/
def execStileResponse (n time : Nat) (b : List Nat) (s : State) : Out :=
  onLane s n (if !s.stlSync n then s
    else if getAt 0 s.stl.loops n ≠ 0 then stlLooped n time b (stlDepart n s)
    else stlResponse n time b (stlDepart n s))

/-- R434. -/
def execStileRspTimeout (n j : Nat) (s : State) : Out :=
  onSlot s n j (
    let s := stlDepart n s
    if s.slotState n j = 3 then ((slotEnd n j St.timeout s).addSat (R.STL_DROP_TIMEOUT n) 1).raise Ev.STL_RSP_TO else s)

/-- R431. -/
def execTimeSend (now : Nat) (s : State) : Out := .next (timeSend now s)

/-- R436. -/
def execStileHelloSend (n : Nat) (s : State) : Out := onLane s n (stlHello n s)

/-- R432: a HELLO is answered, but in a loopback it is delivered. -/
def execStileHelloReceive (n time : Nat) (b : List Nat) (s : State) : Out :=
  onLane s n (stlReceive n time false (stlFrame (0x01 :: b.tail)) s)

/-- R429, R430, R434. -/
def execStileFrameReceive (n time : Nat) (bad : Bool) (b : List Nat) (s : State) : Out := onLane s n (stlReceive n time bad b s)

/-- R435. -/
def execStileSyncAcquire (n : Nat) (s : State) : Out :=
  onLane s n (if s.get (R.STL_LANE_STAT_RX_STATE n) = 1 then
    stlActive n (((s.set (R.STL_LANE_STAT_RX_STATE n) 2).set (R.STL_LANE_STAT_FAR_SLEEP n) 0).set (R.STL_LANE_STAT_SD n) 1) else s)

/-- R435, R436: the receiver acquires again; `sd` says whether it still detects a signal. -/
def execStileSyncLoss (n : Nat) (sd : Bool) (s : State) : Out :=
  onLane s n (if s.stlSync n then (syncLost n 1 s).set (R.STL_LANE_STAT_SD n) sd.toNat else s)

/-- R441. -/
def execStileTxEnable (n : Nat) (s : State) : Out :=
  let r := stlTxOn n s
  onLane s n (r.2.answer r.1 [])

/-- R441. -/
def execStileSelftestDone (n : Nat) (bad : Bool) (s : State) : Out :=
  onLane s n (if s.get (R.STL_LANE_STAT_TX_STATE n) ≠ 1 then s
    else if bad then (s.set (R.STL_LANE_STAT_TX_STATE n) 4).raise Ev.STL_SELFTEST_FAIL
    else stlActive n (s.set (R.STL_LANE_STAT_TX_STATE n) 2))

/-- R440. -/
def execStileTxSleep (n : Nat) (s : State) : Out := onLane s n ((stlTxOff n s).answer St.ok [])

/-- R441. -/
def execStileRxEnable (n : Nat) (s : State) : Out :=
  let r := stlRxOn n s
  onLane s n (r.2.answer r.1 [])

/-- R440. -/
def execStileRxSleep (n : Nat) (s : State) : Out := onLane s n ((stlRxOff n s).answer St.ok [])

/-- R440. -/
def execStileSleepNotice (n : Nat) (s : State) : Out :=
  onLane s n (if s.stlSync n then s.set (R.STL_LANE_STAT_FAR_SLEEP n) 1 else s)

/-- R440: activity at the signal detector of a sleeping receiver. -/
def execStileWake (n : Nat) (s : State) : Out :=
  onLane s n (
    (s.set (R.STL_LANE_STAT_SD n) 1).raiseIf (s.get (R.STL_LANE_STAT_RX_STATE n) == 0 && s.isOn (R.STL_LANE_CTRL_WAKE_SD n)) Ev.STL_WAKE)

/-- R438: GO. -/
def eyeStart (n : Nat) (s : State) : State :=
  let s := s.set (R.STL_EYE_CTRL_BUSY n) 1
  if s.stlSync n then s else eyeEnd n (2 ^ 32 - 1) s
def execEyeScanStart (n : Nat) (s : State) : Out := onLane s n ((eyeStart n s).answer St.ok [])

/-- R438: `err` disagreements were counted. -/
def execEyeScanDone (n err : Nat) (s : State) : Out := onLane s n (eyeEnd n err s)

/-- R439: what STL_LANE_CTRL says takes effect. -/
def execLoopChange (n : Nat) (s : State) : Out :=
  let v := s.get (R.STL_LANE_CTRL_LOOP n)
  let t := (stlDepart n s).modStl (fun l => { l with loops := setAt 0 l.loops n v })
  onLane s n (if v ≠ 0 then setLink n 0 t else stlHello n t)

/-- R434. -/
def execStileRxqPop (s : State) : Out := .next ((stlPop s).answer St.ok [])

end Sys2Proof.Machine
end

