-- ==== Sys2Proof/Machine/Thermal.lean ====
section
/-! DEFINITION. Temperature, throttling, shutdown, power domains, core supply (chapter 18). -/
namespace Sys2Proof.Machine

def State.modThm (s : State) (f : ThmState → ThmState) : State := { s with thm := f s.thm }
def State.inShutdown (s : State) : Bool := s.get R.THM_SD_STAT_STATE == 1

/-- The level of the pin THERM_N, held low in SHUTDOWN (R502). -/
def State.thermN (s : State) : Bool := !s.inShutdown

/-! ### Sensors and marks (R443 to R447) -/

/-- Sensor `x` is present on the part. -/
def State.sensorOn (s : State) (x : Nat) : Bool :=
  decide (x < 116) && !(s.part == .lyk4801 && ((104 ≤ x && x ≤ 111) || x == 113))

/-- The BOARD section in force. -/
def State.board (s : State) : List Nat :=
  match (getAt [] s.img.inforce 8).find? (fun x => x.typ == 4) with | some x => x.body | none => []

/-- The neighbours of sensor `x`: up to four, none where BOARD lists 0xFF (R346, R446). -/
def State.neighbours (s : State) (x : Nat) : List Nat :=
  if s.board.isEmpty then []
  else (slice s.board (304 + 4 * x) 4).filter (fun i => decide (i < 112) && s.sensorOn i)

/-- Twice the median: the middle value, or the mean of the middle two. -/
def median2 (l : List Int) : Int :=
  let o := l.foldl (fun a x => insertInt x a) []
  o.getD ((o.length - 1) / 2) 0 + o.getD (o.length / 2) 0

/-- Sensor `x` is judged, and lies more than 8.0 °C from the median of its neighbours that carry no mark. -/
def State.deviates (s : State) (x : Nat) : Option Bool :=
  let l := (s.neighbours x).filter (fun i => !s.isOn (R.THM_SENSOR_SUSPECT i))
  if l.length < 2 then none else some (decide (160 < (2 * s.temp x - median2 (l.map s.temp)).natAbs))

/-- The mark of sensor `x` after a sample judged on the marks `old` before it. -/
def markSensor (old : State) (s : State) (x : Nat) : State :=
  if !s.sensorOn x then s
  else
    let marked := old.isOn (R.THM_SENSOR_SUSPECT x)
    let turns := match old.deviates x with | some d => d != marked | none => false
    let n := if turns then getAt 0 s.thm.runs x + 1 else 0
    let run := fun v (s : State) => s.modThm (fun t => { t with runs := setAt 0 t.runs x v })
    if n < 16 then run n s
    else if marked then (run 0 (s.set (R.THM_SENSOR_SUSPECT x) 0)).raise Ev.THM_SENSOR_OK
    else (run 0 (s.set (R.THM_SENSOR_SUSPECT x) 1)).raise Ev.THM_SUSPECT

/-- The dies: first sensor, sensors, marks beyond which they are ignored. -/
def dies : List (Nat × Nat × Nat) := [(0, 96, 24), (96, 8, 4), (104, 8, 4)]

def markDie (s : State) (d : Nat × Nat × Nat) : State :=
  let l := (List.range d.2.1).map (d.1 + ·)
  let on := decide (d.2.2 < (l.filter (fun x => s.isOn (R.THM_SENSOR_SUSPECT x))).length)
  let was := s.isOn (R.THM_SENSOR_IGNORED d.1)
  (l.foldl (fun s x => s.set (R.THM_SENSOR_IGNORED x) on.toNat) s).raiseIf (on && !was) Ev.THM_MASS_SUSPECT

/-- Steps 1 and 2 of R445. -/
def takeReadings (temps : List Int) (opens : Nat) (s : State) : State :=
  let s := iter 116 (fun x s => s.setI (R.THM_SENSOR_TEMP x) (if s.sensorOn x then temps.getD x 0 else 0)) s
  iter 4 (fun r s =>
    let on := s.sensorOn (112 + r) && bitAt opens r == 1
    (s.set (R.THM_SENSOR_OPEN (112 + r)) on.toNat).raiseIf (on && !s.isOn (R.THM_SENSOR_OPEN (112 + r))) Ev.THM_TD_OPEN) s
def updateMarks (s : State) : State :=
  let s := dies.foldl markDie ((List.range 112).foldl (markSensor s) s)
  s.set R.THM_SUSPECT_CNT_COUNT ((List.range 112).filter (fun x => s.isOn (R.THM_SENSOR_SUSPECT x))).length

/-- The sensor that sets Tj: the highest reading among those that count, the lowest index on a tie. -/
def State.hottest (s : State) : Option Nat :=
  match (List.range 112).filter (fun x => s.sensorOn x && !s.suspect x) with
  | [] => none
  | x :: r => some (r.foldl (fun a b => if s.temp a < s.temp b then b else a) x)

def State.tj (s : State) : Int := s.getI R.THM_STATE_TJ

/-! ### Thresholds and the throttle (R448, R449) -/

/-- ℓ(T), T in 0.1 °C. -/
def State.throttleLevel (s : State) (t : Int) : Nat :=
  let a : Int := 10 * s.get R.THM_CFG_START
  let b : Int := 10 * s.get R.THM_CFG_FULL
  if t ≤ a then 0 else if b ≤ t then 255 else ((510 * (t - a) + (b - a)) / (2 * (b - a))).toNat

/-- The level after a sample. -/
def State.nextLevel (s : State) : Nat :=
  max (s.throttleLevel s.tj) (min (s.get R.THM_LEVEL_LEVEL) (s.throttleLevel (s.tj + 5 * s.get R.THM_CFG_HYST)))

/-- WARN with its hysteresis of 1.0 °C. -/
def warnJudge (s : State) : State :=
  let w : Int := 10 * s.get R.THM_CFG_WARN
  if s.isOn R.THM_STATE_WARN then (if s.tj < w - 10 then s.set R.THM_STATE_WARN 0 else s)
  else if w ≤ s.tj then (s.set R.THM_STATE_WARN 1).raise Ev.THM_WARN
  else s

/-- The sampling rate (R445). -/
def rateJudge (s : State) : State :=
  let l : List Int := [10 * s.get R.THM_CFG_WARN, 10 * s.get R.THM_CFG_START, 10 * s.get R.THM_CFG_FULL, 1150]
  let near := (List.range 112).any (fun x => s.sensorOn x && l.any (fun t => decide ((s.temp x - t).natAbs ≤ 50)))
  let calm := fun v (s : State) => s.modThm (fun t => { t with calm := v })
  if s.inShutdown then calm 0 (s.set R.THM_STATE_FAST 0)
  else if near then calm 0 (s.set R.THM_STATE_FAST 1)
  else if !s.isOn R.THM_STATE_FAST then s
  else if 15 ≤ s.thm.calm then calm 0 (s.set R.THM_STATE_FAST 0)
  else calm (s.thm.calm + 1) s

/-- The alarm of diode `r` (R444). -/
def diodeJudge (r : Nat) (s : State) : State :=
  let on := bitAt s.thm.alarms r == 1
  let a := 10 * s.getI (R.THM_TD_CFG_ALARM r)
  let t := s.temp (112 + r)
  let put := fun v (s : State) => s.modThm (fun x => { x with alarms := mixBits (2 ^ r) x.alarms (v * 2 ^ r) })
  if !s.isOn (R.THM_TD_CFG_EN r) then put 0 s
  else if s.isOn (R.THM_SENSOR_OPEN (112 + r)) then s
  else if on then (if t < a - 10 then put 0 s else s)
  else if a ≤ t then (put 1 s).raise Ev.THM_TD_ALARM
  else s

/-- Bracken writes DELTA from the trigger curve when the median enters a new range (R353). -/
def deltaFollow (p : Nat) (s : State) : State :=
  let t := 0xF00A + 0x100 * p
  let med := median (((List.range 8).filter (fun j => s.sensorOn (96 + 8 * p + j) && !s.suspect (96 + 8 * p + j))).map (fun j => s.temp (96 + 8 * p + j)))
  match med with
  | none => s
  | some x =>
    if !s.loopRuns (calLoops p) || !s.loaded t then s
    else
      let r := (clampInt 0 15 ((x + 100) / 80)).toNat
      if (s.port p).cal.range = some r then s
      else (s.set (R.CAL_TRIG_DELTA p) (bits (s.tabWord t false 1) (8 * r + 7) (8 * r))).modCal p (fun c => { c with range := some r })

/-- A write of THM_CFG with byte enables (R448). -/
def thmCfg (be data : Nat) (s : State) : State :=
  let at? := fun (i : Nat) (old : Nat) => if bitAt be i = 1 then bits data (8 * i + 7) (8 * i) else old
  let start := s.get R.THM_CFG_START
  let full := s.get R.THM_CFG_FULL
  let st := at? 2 start
  let fu := at? 3 full
  let okS := fun a f => 60 ≤ a && a + 2 ≤ f
  let okF := fun f a => a + 2 ≤ f && f ≤ 108
  let s := if okS st fu && okF fu st then (s.set R.THM_CFG_START st).set R.THM_CFG_FULL fu
    else
      let s := if okS st full then s.set R.THM_CFG_START st else s
      if okF fu start then s.set R.THM_CFG_FULL fu else s
  let w := at? 1 (s.get R.THM_CFG_WARN)
  let s := if 60 ≤ w && w ≤ 105 then s.set R.THM_CFG_WARN w else s
  let h := if bitAt be 0 = 1 then bits data 3 0 else s.get R.THM_CFG_HYST
  if 1 ≤ h then s.set R.THM_CFG_HYST h else s

/-! ### Shutdown (R451, R452) -/

/-- The shutdown record of a trip at device time `now` in ns. -/
def State.sdRecord (s : State) (cause now : Nat) : List Nat :=
  bytesLe 8 now ++ bytesLe 2 (toField 16 s.tj) ++ [s.get R.THM_STATE_SENSOR, cause, s.get R.THM_LEVEL_LEVEL, s.get R.THM_SUSPECT_CNT_COUNT] ++
    bytesLe 2 (toField 16 (s.temp 115)) ++ bytesLe 4 (s.get R.THM_SD_STAT_COUNT) ++ zeros 12
def State.sdBytes (s : State) : List Nat := (List.range 8).flatMap (fun k => bytesLe 4 (s.get (R.THM_SD_REC_BYTES k)))

/-- Every domain off, and what its owner shows of it; Hedgerow and every processor stopped. -/
def allOff (s : State) : State :=
  let s := iter 8 (fun k s => s.set (R.PWR_ON_ON k) 0) { s with pwr := {} }
  let s := iter 64 (fun n s => (s.set (R.CLI_LANE_STAT_TX_STATE n) 0).set (R.CLI_LANE_STAT_RX_STATE n) 0) s
  let s := grpJudgeAll s
  let s := iter 16 (fun g s => s.set (grpField false g) 2) (iter 8 (fun g s => s.set (grpField true g) 2) s)
  let s := iter 32 (fun i s => s.set (tileField (i / 16) (i % 16)) 2) s
  let s := (iter 7 procOff s).modUnits (fun _ => {})
  let s := if s.isOn R.GCTL_UNIT_STAT_BUSY then unitEnd St.aborted s else s
  let s := iter 8 (fun n s => stlRxOff n (stlTxOff n s)) s
  let s := iter 2 (fun p s => if s.hasPort p then corrFollow p s else s) s
  iter 16 (fun n s => if (s.seq n).run = 0 then s else seqStop n s) (iter 3 dpOff s)

/-- A trip: only outside SHUTDOWN. -/
def trip (cause now : Nat) (s : State) : State :=
  if s.inShutdown then s
  else
    let s := iter 2 (fun p s => if s.hasPort p then hwMute p (R.CNV_DAC_CTRL_HW_THERM p) s else s) s
    let s := ((s.set R.THM_SD_STAT_STATE 1).set R.THM_SD_STAT_PEND 1).addSat R.THM_SD_STAT_COUNT 1
    let b := s.sdRecord cause now
    allOff (iter 8 (fun k s => s.set (R.THM_SD_REC_BYTES k) (leAt b (4 * k) 4)) s)

/-- A sample of every input (R445). -/
def thmSample (temps : List Int) (opens now : Nat) (s : State) : State :=
  let s := updateMarks (takeReadings temps opens s)
  let s := match s.hottest with
    | some x => (s.setI R.THM_STATE_TJ (s.temp x)).set R.THM_STATE_SENSOR x
    | none => s
  let s := iter 4 diodeJudge (rateJudge (warnJudge s))
  let s := if s.inShutdown then s
    else
      let old := s.get R.THM_LEVEL_LEVEL
      let new := s.nextLevel
      (s.set R.THM_LEVEL_LEVEL new).raiseIf (old == 0 && new != 0) Ev.THM_THROTTLE
  let s := iter 2 (fun p s => if s.hasPort p then calTempTrigger p (deltaFollow p s) else s) s
  if 1150 ≤ s.tj then trip 1 now s else s

/-- The retained record is programmed to the event log (R453). -/
def sdCommit (fails time : Nat) (s : State) : State :=
  if !s.isOn R.THM_SD_STAT_PEND || (s.partition 0x30).isNone then s
  else if !s.writeWindow then s.raise Ev.FLC_TEMP_INHIBIT
  else
    let s0 := if 64 ≤ s.flc.buf.length then logPage time 0 s else s
    let t := logPage time fails (logAdd { seq := 0, time := time, typ := 0x10, extra := s.sdBytes } s0)
    if t.flc.buf.isEmpty then (t.set R.THM_SD_STAT_PEND 0).raise Ev.THM_SD_COMMIT else s

/-- The verdict on RESUME (R454); `force` says that FORCE with its KEY comes with it. -/
def State.resumeVerdict (s : State) (force : Bool) : Nat :=
  if !s.inShutdown then St.conflict
  else if s.isOn R.THM_SD_STAT_PEND then St.tempInhibit
  else if decide (900 ≤ s.tj) || force || (List.range 10).any (fun r => bitAt (s.get R.PWR_RAIL_IN_RANGE) r == 0 &&
      ((r < 2 || 6 ≤ r) || bitAt s.img.struct.ports (r % 2) == 1)) then St.busy
  else St.ok

/-! ### Rails, domains, AVS (R456 to R460) -/

/-- Rails within their windows after 10 µs; one in use that is not trips shutdown. -/
def railFault (rails now : Nat) (s : State) : State :=
  let used := fun r => (r < 2 || 6 ≤ r) || bitAt s.img.struct.ports (r % 2) == 1
  let bad := (List.range 10).any (fun r => used r && bitAt rails r == 0)
  let s := s.set R.PWR_RAIL_IN_RANGE rails
  if bad then trip 3 now (s.raise Ev.PWR_RAIL_FAULT) else s

/-- The SRAM instance whose power domain comes on with domain `d`: Ling's private SRAM with its own; the local memories of Bracken, Gorse
and Sedge with the first of their cores (R371, R456; log entry 180). -/
def State.sramOf (s : State) (d : Nat) : Option Nat :=
  if d = 216 then some 10
  else if 217 ≤ d && d ≤ 223 && (List.range 7).all (fun i => !s.domainOn (217 + i)) then some 9
  else none

/-- A domain finishes its power-up, and the lowest waiting one begins (R371, R456); that of a converter band brings its trims and VGA
settings to the converter die first (R15). -/
def powerDone (d : Nat) (s : State) : State :=
  if !s.pwr.going.contains d then s
  else
    let s := (match s.sramOf d with | some i => sramClear i s | none => s).setDomain d true
    powerNext d (if 128 ≤ d && d < 160 then dieLoad ((d - 128) / 16) (dieKeys ((d - 128) % 16)) s
      else if d = 247 then iter 2 (fun p s => if s.hasPort p then corrFollow p s else s) s else s)

def vfuse : Nat := 680 + Config.vfuse % 101
/-- TARGET of R460, in mV. -/
def State.avsTarget (s : State) : Nat :=
  (clampInt 680 780 ((vfuse : Int) + s.getI R.PWR_AVS_CTRL_OFFSET + (if s.tj < 200 then 10 else 0))).toNat

/-- A step of at most 5 mV, after `fails` transfers that failed. -/
def avsStep (fails : Nat) (s : State) : State :=
  if !s.isOn R.PWR_AVS_CTRL_EN || s.thm.avsOff then s
  else
    let from? := if s.get R.PWR_AVS_ACTUAL = 0 then 750 else s.get R.PWR_AVS_ACTUAL
    let t := s.avsTarget
    let v := if from? ≤ t then min t (from? + 5) else max t (from? - 5)
    if 4 ≤ fails then (s.modThm (fun x => { x with avsOff := true })).raise Ev.PWR_AVS_FAIL else s.set R.PWR_AVS_ACTUAL v

/-! ### Commands -/

/-- A receive direction takes the throttle entry at its frame boundary. -/
def execThrottleApply (p : Nat) (s : State) : Out := onPort s p (throttleApply p s)

/-- A write of THM_CFG. -/
def execThmCfgWrite (be data : Nat) (s : State) : Out := .next ((thmCfg be data s).answer St.ok [])

/-- The shutdown record is programmed, after `fails` programs that failed. -/
def execSdRecordCommit (fails time : Nat) (s : State) : Out := .next (sdCommit fails time s)

/-- A commit that was refused is tried again. -/
def execSdRecordRetry (fails time : Nat) (s : State) : Out := .next (sdCommit fails time s)

/-- VDD_CORE is stepped towards the target. -/
def execAvsStep (fails : Nat) (s : State) : Out := .next (avsStep fails s)

end Sys2Proof.Machine
end

