-- ==== Sys2Proof/Machine/Views.lean ====
section
/-! DEFINITION. What register fields show of state that no register field is the home of: the views of every block, and the
banks of the calendar, the cipher engine and the mailbox. -/
namespace Sys2Proof.Machine

/-- Fields shown, as (lowest bit, value). -/
abbrev View := List (Nat × Nat)

/-! ### Calendar (R57) -/

def State.swcView (s : State) (m o : Nat) : View :=
  let b := bankOf m
  let head := (s.results b).headD { handle := 0, bank := b, status := 0, late := 0, value := 0 }
  if o = 0xC then [(0, s.poolFree)]
  else if 0x40 ≤ o && o < 0x80 then
    let q := s.pdPos ((o - 0x40) / 16)
    if o % 16 = 0 then [(8, q.swath), (0, q.frame)] else if o % 16 = 4 then [(31, q.valid.toNat), (0, q.swath / 2 ^ 24)] else []
  else if 0x80 ≤ o && o < 0x90 then [(0, s.pendCount ((o - 0x80) / 4))]
  else if o = 0x94 then [(0, s.bucketOcc (s.get R.SWC_BKT_SEL_BUCKET))]
  else if 0x130 ≤ o && o < 0x140 then
    match s.findAct b (s.get (R.SWC_RD_IDX_HANDLE b)) with
    | some a => [(0, if a.phase = 0 then a.desc / 2 ^ (32 * ((o - 0x130) / 4)) else 0)]
    | none => [(0, 0)]
  else if o = 0x140 then [(0, (s.results b).length)]
  else if o = 0x144 then [(24, head.late), (16, head.status), (0, head.handle)]
  else if o = 0x148 then [(0, head.value)]
  else []

/-! ### Line ports (R79, R104, R232, R278) -/

/-- An entry of the calibration registers of band `i`. -/
def State.calBandView (s : State) (p i : Nat) : View := [(24, s.bandFails p i), (16, (s.bandCalibrated p i).toNat)]

/-- Entities of port `p` with a defect now. -/
def State.otnDown (s : State) (p : Nat) : List Nat :=
  ((s.port p).lfr.otn.filter (fun e => e.1 % 4 == 0 && e.2 != 0)).map (fun e => e.1 / 4)

def State.lfrView (s : State) (p o : Nat) : View :=
  let e := s.get (R.LFR_OTN_SEL_ENTITY p)
  let at4 := fun k => if otnEntity e then getAt 0 (s.port p).lfr.otn (4 * e + k) else 0
  if o = 0x204 then (0, at4 0) :: (List.range 14).map (fun n => (16 + n, bitAt (at4 1) n))
  else if o = 0x208 then [(0, at4 2)]
  else if o = 0x20C then [(0, at4 3)]
  else if o = 0x210 then [(16, (s.otnDown p).headD 0), (0, (s.otnDown p).length)]
  else if 0x240 ≤ o && o < 0x280 then [(0, if otnEntity e then getAt 0 (s.port p).lfr.tti (16 * e + (o - 0x240) / 4) else 0)]
  else []

def State.sgpView (s : State) (p o : Nat) : View :=
  let q := (s.port p).sgp.rxq
  if o = 0x60 then [(0, q.length)]
  else match q with
    | [] => []
    | x :: _ =>
      if o = 0x64 then [(24, x.typ), (22, x.corr), (20, x.sec), (0, x.body.length)]
      else if o = 0x68 then [(31, x.swValid.toNat), (0, x.seq)]
      else if o = 0x6C then [(0, if x.swValid then x.swath else 0)]
      else []

def State.portView (s : State) (p o : Nat) : View :=
  if 0xC0 ≤ o && o < 0x100 then [(0, (s.bandCarries p ((o - 0xC0) / 4)).toNat)]
  else if 0x200100 ≤ o && o < 0x200140 then (if (s.rxRung p).subs ≤ (o - 0x200100) / 4 then [(16, 0), (0, 0)] else [])
  else if 0x4000C0 ≤ o && o < 0x400100 then (if (s.txRung p).subs ≤ (o - 0x4000C0) / 4 then [(16, 0), (0, 0)] else [])
  else if 0x100040 ≤ o && o < 0x100080 then s.calBandView p ((o - 0x100040) / 4)
  else if 0x600000 ≤ o && o < 0x700000 then s.lfrView p (o - 0x600000)
  else if 0x700000 ≤ o && o < 0x800000 then s.sgpView p (o - 0x700000)
  else []

/-! ### Clients (R248) -/

def State.tribView (s : State) : View :=
  let p := s.get R.CLI_TRIB_SEL_PORT
  let t := s.get R.CLI_TRIB_SEL_TRIB
  let w := s.tribWord p t
  let g := tribGroup w
  let fed := tribValid w && grpDefined (s.grpWord g) && (s.fedBy g).contains (p, t)
  [(16, (s.tribSlotList p 0 t).length), (3, (s.cli.csf.contains (128 * p + t)).toNat),
   (2, (fed && s.cli.down.contains (128 * p + t)).toNat), (1, (fed && s.isOn (R.CLI_GRP_STAT_REPLACE_IN g)).toNat),
   (0, (tribValid w).toNat)]

/-! ### Ciphers (R310, R311) -/

def State.lcxView (s : State) (o : Nat) : View :=
  let p := s.get R.LCX_CTX_SEL_PORT
  let c := s.get R.LCX_CTX_SEL_CTX
  let x := s.ctx p (s.get R.LCX_CTX_SEL_DIR) c
  let k := x.slot x.cur
  let mark := k.mark.getD 0
  if o = 0x10 || o = 0x14 then
    let q := (o - 0x10) / 4
    if s.hasPort q then [(16, s.cipherCap q), (0, s.cipherReq q)] else []
  else if o = 0x104 then [(16, s.ctxMode p c), (8, x.null.toNat), (6, x.slot1.state), (4, x.slot0.state), (0, x.cur)]
  else if o = 0x108 then [(6, mark / 256), (0, mark % 256 / 4)]
  else if o = 0x10C then [(0, mark / 256 / 2 ^ 26)]
  else if o = 0x110 then [(0, k.used)]
  else if o = 0x114 then [(0, k.used / 2 ^ 32)]
  else if 0x120 ≤ o && o < 0x12C then [(0, x.iv / 2 ^ (32 * ((o - 0x120) / 4)))]
  else if 0x140 ≤ o && o < 0x158 then [(0, x.cnt.getD ((o - 0x140) / 4) 0)]
  else []

def State.mceView (s : State) (m o : Nat) : View :=
  let n := s.get R.MCE_SESS_SEL_SESSION
  let x := s.sess n
  let q := s.mce.results.filter (·.bank == bankOf m)
  let head := q.headD { bank := 0, handle := 0, status := 0 }
  if o = 0x14 then [(8, s.sessState n), (0, x.key.isSome.toNat)]
  else if o = 0x18 then [(2, bitAt x.rights 2), (1, bitAt x.rights 1), (0, bitAt x.rights 0)]
  else if o = 0x118 then [(0, q.length)]
  else if o = 0x11C then [(16, head.status), (0, head.handle)]
  else []

def State.secView (s : State) (o : Nat) : View :=
  let x := s.slotAt (s.get R.SEC_PROP_SEL_SLOT)
  if o = 0x24 then [(24, x.tokens.length), (16, x.status), (12, x.link.toNat), (8, x.subject), (0, x.state)]
  else if o = 0x28 then [(0, x.target)]
  else if o = 0x2C then [(0, x.target / 2 ^ 32)]
  else []

/-! ### Image loader and Hedgerow (R361, R362) -/

def State.imgView (s : State) (o : Nat) : View :=
  let t := s.get R.IMG_TBL_SEL_TABLE
  if o = 0x34 then
    let q := (s.swc.jobs.filter (fun j => j.phase == 0)).length
    match s.swc.jobs.find? (fun j => j.phase == 1) with
    | some j => [(31, 1), (24, min q 7), (20, j.region), (16, j.slot), (0, 0)]
    | none => [(31, 0), (24, min q 7)]
  else match s.findTab t with
    | none => []
    | some e =>
      if o = 0x44 then
        let tx := getAt 0 s.img.actTx t
        [(31, 1), (16, e.typ), (12, e.region), (4, ((List.range 2).any (fun b => s.bankLocked t b)).toNat), (3, e.perDir.toNat),
         (2, (s.actBank t true)), (1, tx)]
      else if o = 0x48 then [(0, e.base)]
      else if o = 0x4C then [(0, e.words)]
      else []

def State.hdgView (s : State) (o : Nat) : View :=
  if 0x100 ≤ o && o < 0x140 then
    let q := s.seq ((o - 0x100) / 4)
    [(24, ((List.range 8).map (fun i => (q.timers.getD i {}).expired.toNat * 2 ^ i)).sum), (12, q.run), (0, q.state)]
  else if 0x200 ≤ o && o < 0x400 then [(0, (s.seq ((o - 0x200) / 32)).vars.getD ((o - 0x200) % 32 / 4) 0)]
  else if o = 0x400 then [(0, s.hdg.hev.length)]
  else if o = 0x404 then [(0, (s.hdg.hev.headD (0, 0)).1)]
  else if o = 0x408 then [(0, (s.hdg.hev.headD (0, 0)).2)]
  else if o = 0x414 then [(0, s.hdg.samp.length)]
  else if o = 0x418 then [(12, (s.hdg.samp.headD (0, 0)).1), (0, (s.hdg.samp.headD (0, 0)).2)]
  else []

/-! ### Flash, references, Stile, supply (R408, R426, R442, R461, R462) -/

def State.flcView (s : State) (o : Nat) : View :=
  if o = 0x14 then [(16, s.writeWindow.toNat)]
  else match s.partition (s.get R.FLC_PART_SEL_PART) with
    | none => []
    | some x =>
      if o = 0x34 then [(0, x.first)] else if o = 0x38 then [(0, x.logical + x.reserve)]
      else if o = 0x3C then [(0, (s.freeBlocks x).length)] else []

/-- Signalling rate of a lane in Hz, by RATE (R233). -/
def laneHz (rate : Nat) : Nat := [26562500000, 53125000000, 106250000000, 212500000000, 55904987000, 111809973000].getD rate 0

/-- RATE of an interface (R237). -/
def ifRate (i : Nat) : Nat := [0, 2, 3, 3, 2, 3, 2, 3, 5, 4, 5, 4, 5, 4].getD i 0

/-- RATE of lane `n`: that of the group it is in, else its own field. -/
def State.laneRate (s : State) (n : Nat) : Nat :=
  match ((List.range 64).map s.grpWord).find? (fun w => grpDefined w && (grpLanes w).contains n) with
  | some w => ifRate (grpIf w)
  | none => s.get (R.CLI_LANE_CTRL_RATE n)

/-- Nominal frequency of a line or client reference, to the nearest Hz (R410). -/
def State.refNominal (s : State) (i : Nat) : Nat :=
  if s.refKind i = 0 then 0
  else if i ≤ 5 then (250000000 * (s.rxRung (i - 4)).baud + 32768) / 65536
  else (laneHz (s.laneRate (s.get (R.CLK_CLIREF_LANE (i - 6)))) + 1024) / 2048

def State.clkView (s : State) (o : Nat) : View :=
  if 0x140 ≤ o && o < 0x1E0 && o % 16 = 0 then
    let i := (o - 0x100) / 16
    [(30, min 1 (s.refKind i)), (0, s.refNominal i)]
  else []

def State.stlView (s : State) (o : Nat) : View :=
  match s.stl.rxq with
  | [] => []
  | x :: _ =>
    if o = 0x40 then [(12, x.looped.toNat), (8, x.lane), (0, s.stl.rxq.length)]
    else if o = 0x44 then [(0, x.time)]
    else if o = 0x48 then [(0, x.time / 2 ^ 32)]
    else []

def State.fabView (s : State) (o : Nat) : View :=
  let i := s.get R.FAB_ECC_SEL_INST
  if 0x214 ≤ o && o < 0x220 then [(0, if i < 13 then getAt 0 s.ecc (4 * i + (o - 0x214) / 4) else 0)] else []

/-! ### Counters (R480) -/

def State.pmcView (s : State) (o : Nat) : View :=
  if o = 0x28 then [(0, s.pmc.presetCnt)]
  else if o = 0x2C then [(0, s.pmc.presetCnt / 2 ^ 32)]
  else if 0x10000 ≤ o && o < 0x30000 then
    let i := (o - 0x10000) % 0x10000 / 8
    let shd := decide (0x20000 ≤ o)
    let v := getAt 0 (if shd then s.pmc.shd else s.pmc.cnt) i
    let f := if shd then getAt 0 s.pmc.shdOvf i else s.get (ovfBit i)
    if o % 8 = 0 then [(0, v)] else [(16, f), (0, v / 2 ^ 32)]
  else []

/-! ### Every block -/

/-- What master `m` sees at register address `a` in place of the stored fields. -/
def State.viewAt (s : State) (m a : Nat) : View :=
  let o := a % 0x10000
  if a = 0 then [(16, s.partNumber), (4, if s.part = .lyk4802 then 2 else 1)]
  else if a < 0x10000 then []
  else if a < 0x20000 then
    if o = 0x50 then [(0, s.pwr.waiting.length)] else if o = 0x60 then [(0, s.avsTarget)] else if o = 0x68 then [(0, vfuse)] else []
  else if a < 0x30000 then (if o = 0x10 then [(16, s.throttleEntry (s.get R.THM_LEVEL_LEVEL))] else [])
  else if a < 0x40000 then s.clkView o
  else if a < 0x50000 then s.fabView o
  else if a < 0x60000 then (if o = 0x10 then [(0, s.hif.cmds.length)] else [])
  else if a < 0x70000 then s.flcView o
  else if a < 0x80000 then s.stlView o
  else if a < 0x90000 then s.secView o
  else if a < 0xA0000 then s.mceView m o
  else if a < 0xB0000 then s.imgView o
  else if a < 0xC0000 then s.hdgView o
  else if a < 0x200000 then s.swcView m (a - 0x100000)
  else if a < 0x400000 then s.pmcView (a - 0x200000)
  else if a < 0x800000 then []
  else if a < 0x1000000 then (if a = 0x800008 then [(16, s.windowReq s.activeWords)] else [])
  else if a < 0x3000000 then s.portView (a / 0x1000000 - 1) (a % 0x1000000)
  else if a < 0x4000000 then (if a = 0x3003004 then s.tribView else [])
  else s.lcxView (a - 0x4000000)

/-! ### Banks and fields -/

/-- A register that is banked is open to the masters that have a bank there: the bank, or none (R42, R305, R334). -/
def bankFor (m a : Nat) : Option Nat :=
  if a < 0x90000 then (if hasMailbox m then some m else none)
  else if a < 0xA0000 then (if mceMaster m then some (bankOf m) else none)
  else (if mayInsert m then some (bankOf m) else none)

/-- The home of a field of the register at address `a` for bank `b`. -/
def fieldAt (a b : Nat) (f : FDef) : Fld := ⟨a + 2 ^ 28 * b, f.lo, f.w, f.rst⟩

/-- A field as master `m` reads it: write-only fields read zero (R8). -/
def State.fieldValue (s : State) (a b : Nat) (v : View) (f : FDef) : Nat :=
  match v.find? (fun x => x.1 == f.lo) with
  | some x => x.2 % 2 ^ f.w
  | none => if f.acc = .wo then 0 else s.get (fieldAt a b f)

/-- The key-load registers, of which every read returns zero (R309). -/
def keyLoadReg (a : Nat) : Bool := decide (0x90020 ≤ a) && decide (a < 0x9004C)

/-- The word master `m` reads at register address `a`. -/
def State.regWord (s : State) (m a b : Nat) (r : RDef) : Nat :=
  let v := s.viewAt m a
  if keyLoadReg a then 0 else (r.fs.map (fun f => s.fieldValue a b v f * 2 ^ f.lo)).sum

end Sys2Proof.Machine
end

