-- ==== Sys2Proof/Machine/Writes.lean ====
section
/-! DEFINITION. Register writes: the judgement field by field (R7, R8, R513), and what a write of each block's registers does. The
commands that reset, activate or move whole regions are in RegWrite. -/
namespace Sys2Proof.Machine

/-- Who writes: the master, whether it may write SCH fields (the calendar executor, or the loader as it applies a region), and for an
action the port-direction and whether its boundary is that of a swath. -/
structure Writer where
  m     : Nat
  sch   : Bool := false
  pd    : Nat := 0
  swath : Bool := true
deriving DecidableEq, Repr

/-! ### Fields (R513) -/

/-- The bits hi:lo of a 32-bit write that lie in enabled byte lanes; others are 0. -/
def wrBits (be data hi lo : Nat) : Nat := bits (data &&& byteMask 4 be) hi lo

/-- A write reaches bits hi:lo. -/
def wrHits (be hi lo : Nat) : Bool := bits (byteMask 4 be) hi lo != 0

/-- One field of a write: the status so far, 0 where nothing was refused, and the state. -/
def writeField (w : Writer) (a b be data : Nat) (v : View) (x : Nat × State) (f : FDef) : Nat × State :=
  let k := bits (byteMask 4 be) (f.lo + f.w - 1) f.lo
  let wr := bits data (f.lo + f.w - 1) f.lo
  let old := x.2.fieldValue a b v f
  let new := mixBits k old wr
  let put := if !f.defines new || v.any (fun y => y.1 == f.lo) then x.2 else x.2.set (fieldAt a b f) new
  let refuse := fun (st : Nat) => if new = old then x else (if x.1 = 0 then st else x.1, x.2)
  if k = 0 then x
  else match f.acc with
    | .rw => (x.1, put)
    | .ro | .rc | .wo => x
    | .w1c => if v.any (fun y => y.1 == f.lo) then x else (x.1, x.2.set (fieldAt a b f) (old &&& (old ^^^ (k &&& wr))))
    | .w1s => (x.1, x.2.set (fieldAt a b f) (old ||| (k &&& wr)))
    | .sch => if w.sch then (x.1, put) else refuse St.denied
    | .own l => if l.contains w.m then (x.1, put) else refuse St.denied
    | .lck => refuse St.approvalMissing

/-- Every field of a register. -/
def writeFields (w : Writer) (a b be data : Nat) (r : RDef) (s : State) : Nat × State :=
  r.fs.foldl (writeField w a b be data (s.viewAt w.m a)) (0, s)

/-- The first of two statuses that is not OK. -/
def firstErr (a b : Nat) : Nat := if a ≠ 0 then a else b

/-! ### Calendar (R33, R40, R52, R57) -/

/-- The descriptor in the insertion words of a bank. -/
def State.insWords (s : State) (b : Nat) : Nat := ((List.range 4).map (fun z => s.get (R.SWC_INS_W_WORD z b) * 2 ^ (32 * z))).sum

/-- A descriptor in the insertion words of a bank. -/
def insPut (b d : Nat) (s : State) : State := iter 4 (fun z s => s.set (R.SWC_INS_W_WORD z b) (d / 2 ^ (32 * z))) s

/-- SWC_INS_GO written by master `m`. -/
def insertGo (m d : Nat) (s : State) : Nat × State :=
  let b := bankOf m
  let r := insertAction m d .none false s
  let s := r.2.2.set (R.SWC_INS_STAT_STATUS b) r.1
  (r.1, if r.1 = St.ok then s.set (R.SWC_INS_STAT_HANDLE b) r.2.1 else s)

/-- SWC_REM written by master `m`. -/
def removeGo (m h : Nat) (s : State) : Nat × State :=
  let (v, s) := removeAct (bankOf m) h s
  (v, s.set (R.SWC_REM_STAT_STATUS (bankOf m)) v)

/-- A start value loaded as the transmit position of port `p`. -/
def tswLoad (p sw : Nat) (s : State) : Nat × State :=
  let d := txPd p
  if (s.pdPos d).valid then (St.busy, s)
  else
    let s := s.modPd d (fun q => { q with swath := sw % 2 ^ 48, frame := 0 })
    (St.ok, staleBelow d (s.pdPos d).pos s)

/-- The start value, held in its registers, loaded; while the transmitter is enabled nothing changes (R33). -/
def tswPut (p sw : Nat) (s : State) : Nat × State :=
  let r := tswLoad p sw ((s.set (R.SWC_TSW_LOAD_LO_SWN_L p) sw).set (R.SWC_TSW_LOAD_HI_SWN_H p) (sw / 2 ^ 32))
  if r.1 = St.ok then r else (r.1, s)

def swcEffect (w : Writer) (o be : Nat) (old new : State) : Nat × State :=
  let b := bankOf w.m
  if o = 0x110 then (0, (insertGo w.m (old.insWords b) old).2)
  else if o = 0x48 || o = 0x68 then
    let p := (o - 0x48) / 32
    let r := tswLoad p (new.get (R.SWC_TSW_LOAD_LO_SWN_L p) + 2 ^ 32 * new.get (R.SWC_TSW_LOAD_HI_SWN_H p)) new
    if be = 0 then (0, old) else if r.1 = St.ok then (0, r.2) else (r.1, old)
  else (0, new)

/-! ### Line ports -/

/-- RXD_CTRL written (R126, R451, R453). -/
def rxdCtrl (p : Nat) (old new : State) : Nat × State :=
  let en := new.get (R.RXD_CTRL_EN p)
  let s := new.set (R.RXD_CTRL_EN p) (old.get (R.RXD_CTRL_EN p))
  if en = old.get (R.RXD_CTRL_EN p) then (0, rxJudge p s)
  else if en = 0 then (0, rxDisable p s)
  else if s.isOn R.THM_SD_STAT_PEND then (St.tempInhibit, s)
  else if s.inShutdown then (St.conflict, s)
  else (0, judgeAdj p 1 (rxEnable p s))

/-- TXD_CTRL written: RUNG_INIT first, then MODE. -/
def txdCtrl (p be data : Nat) (old new : State) : Nat × State :=
  let s := new.set (R.TXD_CTRL_MODE p) (old.get (R.TXD_CTRL_MODE p))
  if wrHits be 1 0 then txModeWrite p (wrBits be data 1 0) s else (0, s)

/-- TXD_PROP_CMD written: ABORT first, then GO. -/
def propCmd (p be data : Nat) (s : State) : Nat × State :=
  let d := wrBits be data 4 4
  let s := if wrBits be data 1 1 = 1 then propAbort p d St.aborted s else s
  if wrBits be data 0 0 = 1 then propGo p d (wrBits be data 5 5 == 1) (wrBits be data 23 16) (wrBits be data 13 8) s else (0, s)

/-- SGP_TXB_CTRL_b written by master `m` (R258). -/
def txbCtrl (m p b be data : Nat) (r : Nat) (old new : State) : Nat × State :=
  let mine := 8 ≤ b || m == M.sedge
  let arm := wrBits be data 29 29 == 1
  let change := wrHits be 21 0
  if !mine then (firstErr (if arm then St.denied else 0) r, new)
  else if 2 ≤ old.bufState p b && (change || arm) then (St.busy, old)
  else
    let t := mixBits (bits (byteMask 4 be) 19 12) (old.get (R.SGP_TXB_CTRL_TYPE p b)) (bits data 19 12)
    let s := (new.set (R.SGP_TXB_CTRL_TYPE p b) (old.get (R.SGP_TXB_CTRL_TYPE p b))).set (R.SGP_TXB_CTRL_ARM p b) 0
    let s := if wrHits be 19 12 then setTxType p b t s else s
    if arm then armBuf p b s else (0, s)

/-- SGP_CORR_k written. -/
def corrCtrl (p k be data : Nat) (s : State) : Nat × State :=
  let code := mixBits (bits (byteMask 4 be) 26 16) (s.get (R.SGP_CORR_CODE p k)) (bits data 26 16)
  let x := phyWrite (R.SGP_CORR_EN p k) s
    (corrWrite p k (if wrHits be 31 31 then some (bits data 31 31) else none) (if wrHits be 26 16 then some code else none)
      (if wrHits be 7 0 then some (bits data 7 0) else none) s)
  (x.1, corrFollow p x.2)

/-- A change of the beacon rate restarts the correlators of a receiver that runs at it (R260). -/
def beaconRate (p : Nat) (old new : State) : State := if new.sedgeBaud p = old.sedgeBaud p then new else corrRestart p new

/-- COMMIT of the through channel (R219). -/
def thcCommit (p : Nat) (s : State) : State :=
  let l := (List.range 16).flatMap (fun i => bytesLe 4 (s.get (R.LFR_THC_TX_BYTES p i)))
  s.modLfr p (fun x => { x with thcSent := l, thcValid := true })

/-- Latched defects of the selected entity cleared. -/
def otnClear (p be data : Nat) (s : State) : State :=
  let e := s.get (R.LFR_OTN_SEL_ENTITY p)
  let k := wrBits be data 29 16
  s.modLfr p (fun l => { l with otn := modAt 0 l.otn (4 * e + 1) (fun x => x &&& (x ^^^ k)) })

/-- The dispersion set by an action: a value beyond the reach is reserved (R112). -/
def cdSet (p : Nat) (old new : State) : State :=
  let x := new.getI (R.RXD_CD_SET_CD p)
  if (new.clipCd p x).2 then old else applyCd p x new

/-- TAPS beyond the largest count, or even, is reserved (R135). -/
def eqTaps (p : Nat) (old new : State) : State :=
  let n := new.get (R.RXD_EQ_CTRL_TAPS p)
  if n ≠ 0 && (n % 2 = 0 || decide ((new.rxRung p).tapsMax < n)) then new.set (R.RXD_EQ_CTRL_TAPS p) (old.get (R.RXD_EQ_CTRL_TAPS p)) else new

/-- Bits of a JOIN, COMMIT or APPLY field written by an action: they read 0, so nothing is kept. -/
def joinBits (w : Writer) (be data hi lo : Nat) : Nat := if w.sch then wrBits be data hi lo else 0

def portEffect (w : Writer) (p o be data r : Nat) (old new : State) : Nat × State :=
  if o = 0x10 then (r, agcSettle p (refastOff p new))
  else if 0x20 ≤ o && o < 0x30 then
    (r, if new.get (R.CNV_AGC_STATE_STATE p) = 1 then agcEnter p 1 new else new)
  else if o = 0x50 then (r, dcMode p new)
  else if o = 0x100010 then (r, calCommand p (wrBits be data 1 0) old)
  else if o = 0x100018 then
    let k := joinBits w be data 1 0
    (r, if k = 0 then old else calApply p (bitAt k 0 == 1) (bitAt k 1 == 1) old)
  else if o = 0x100080 then (if wrBits be data 1 0 = 0 then (r, old) else jnlCommand (wrBits be data 1 0) old)
  else if o = 0x200008 then rxdCtrl p old new
  else if o = 0x200030 then (r, if w.sch then cdSet p old new else new)
  else if o = 0x200050 then (r, eqTaps p old new)
  else if o = 0x400008 then txdCtrl p be data old new
  else if o = 0x400010 then (r, if w.sch then shareWrite p (new.getI (R.TXD_PRECD_SHARE p)) w.swath new else new)
  else if o = 0x400018 then (r, txDelays p new)
  else if o = 0x400070 then propCmd p be data old
  else if o = 0x600060 then
    (r, if joinBits w be data 1 1 = 1 then thcCommit p (new.set (R.LFR_THC_CTRL_COMMIT p) 0) else new)
  else if o = 0x600204 then (r, otnClear p be data new)
  else if o = 0x700008 then (let x := phyWrite (R.SGP_TX_CTRL_EN p) old new; (firstErr r x.1, x.2))
  else if o = 0x700010 then (r, beaconRate p old new)
  else if 0x700020 ≤ o && o < 0x700030 then (let x := corrCtrl p ((o - 0x700020) / 4) be data old; (firstErr r x.1, x.2))
  else if o = 0x700070 then (r, rxqPop p old)
  else if 0x700200 ≤ o && o < 0x700240 then txbCtrl w.m p ((o - 0x700200) / 4) be data r old new
  else (r, new)

/-! ### Clients and ciphers -/

/-- CLI_LANE_CTRL_n written: each direction whose enable changed. -/
def laneCtrl (n r : Nat) (old new : State) : Nat × State :=
  let en := fun (s : State) d => s.get (if d = 0 then R.CLI_LANE_CTRL_TX_EN n else R.CLI_LANE_CTRL_RX_EN n)
  let go := fun (x : Nat × State) d => if en new d = en old d then x else
    let y := laneEnable n d (en new d) x.2
    (firstErr x.1 y.1, y.2)
  let x := go (go (r, new) 0) 1
  (x.1, laneGroups n x.2)

def cliEffect (o r : Nat) (old new : State) : Nat × State :=
  if o = 0x3000 then (if new.isOn R.CLI_TRIB_SEL_PORT && !new.hasPort 1 then (St.decerr, old) else (r, new))
  else if 0x1000 ≤ o && o < 0x1400 && o % 16 = 0 then laneCtrl ((o - 0x1000) / 16) r old new
  else (r, new)

def lcxEffect (w : Writer) (o be data r : Nat) (old new : State) : Nat × State :=
  if o = 0x20 then (r, (grpCommand true (wrBits be data 9 8) (wrBits be data 2 0) old).2)
  else if o = 0x28 then
    let k := joinBits w be data 7 0
    (r, if k = 0 then old else joinWrite true w.pd k w.swath old)
  else if o = 0x40 then
    if wrBits be data 0 0 = 0 then (r, old)
    else if !old.hasPort (wrBits be data 16 16) then (St.decerr, old)
    else keyGo (wrBits be data 16 16) (wrBits be data 12 8) (wrBits be data 31 24) (wrBits be data 4 4) (wrBits be data 1 1 == 1) old
  else (r, new)

def fecEffect (w : Writer) (o be data r : Nat) (old new : State) : Nat × State :=
  if o = 0x10 then (r, fecCap 0 new)
  else if o = 0x14 then (r, if new.hasPort 1 then fecCap 1 new else new)
  else if o = 0x20 then (r, (grpCommand false (wrBits be data 9 8) (wrBits be data 3 0) old).2)
  else if o = 0x28 then
    let k := joinBits w be data 15 0
    (r, if k = 0 then old else joinWrite false w.pd k w.swath old)
  else if o = 0x3C then
    let k := wrBits be data 1 0
    (r, iter 2 (fun p s => if bitAt k p = 1 && s.hasPort p then statClear p s else s) old)
  else (r, new)

def State.jobWords (s : State) (b : Nat) : Nat := ((List.range 4).map (fun z => s.get (R.MCE_JOB_W_WORD z b) * 2 ^ (32 * z))).sum
def State.cmdWords (s : State) (b : Nat) : Nat := ((List.range 4).map (fun z => s.get (R.SEC_CMD_W_WORD z b) * 2 ^ (32 * z))).sum

/-- Rights of the session that MCE_SESS_SEL shows, written by Ling (R309). -/
def sessRights (be data : Nat) (s : State) : State :=
  s.modSess (s.get R.MCE_SESS_SEL_SESSION) (fun x => { x with rights := mixBits (bits (byteMask 4 be) 2 0) x.rights (bits data 2 0) })

def mceEffect (w : Writer) (o be data r : Nat) (old new : State) : Nat × State :=
  if o = 0x18 then (r, if w.m = M.ling then sessRights be data new else new)
  else if o = 0x48 then
    if w.m = M.ling then
      let x := keyLoadWrite (wrBits be data 0 0 == 1) (wrBits be data 1 1 == 1) old
      x
    else (r, old)
  else if o = 0x110 then (r, (mceSubmit w.m (old.jobWords (bankOf w.m)) old).2.2)
  else (r, new)

def secEffect (w : Writer) (o r : Nat) (old new : State) : Nat × State :=
  if o = 0x110 then
    let d := old.cmdWords w.m
    mailCommand (cOp d) w.m d {} old
  else (r, new)

/-! ### Fabric, host interface, flash -/

/-- A diagnostic command by master `m` (R375, R376). -/
def diagRun (m cmd : Nat) (s : State) : State :=
  let i := s.get R.FAB_DIAG_CTRL_INST
  let a := s.get R.FAB_DIAG_ADDR_WORD
  let k := sramKey i a
  let stop := fun (v : Nat) => s.set R.FAB_DIAG_CTRL_STATUS v
  if cmd = 0 || 3 ≤ cmd then s
  else if 13 ≤ i || sramSize i ≤ a then stop St.decerr
  else if (i = 9 || i = 10) && m ≠ M.ling then stop St.denied
  else if cmd = 1 then
    let (d, c, v) := s.sramRaw k
    let s := iter 4 (fun z s => s.set (R.FAB_DIAG_DATA_DATA z) (d / 2 ^ (32 * z))) (stop St.ok)
    (s.set R.FAB_DIAG_CHK_CHECK c).set R.FAB_DIAG_CHK_VALID v.toNat
  else if !s.isOn R.FAB_DIAG_CTRL_EN then stop St.denied
  else
    let d := ((List.range 4).map (fun z => s.get (R.FAB_DIAG_DATA_DATA z) * 2 ^ (32 * z))).sum
    descFollow k ((stop St.ok).sramPutRaw k d (s.get R.FAB_DIAG_CHK_CHECK))

/-- The record of R370 cleared. -/
def errClear (s : State) : State :=
  let s := ((s.set R.FAB_ERR_LOG_STATUS 0).set R.FAB_ERR_LOG_TARGET 0).set R.FAB_ERR_LOG_MASTER 0
  (s.set R.FAB_ERR_ADDR_LO_ADDR_L 0).set R.FAB_ERR_ADDR_HI_ADDR_H 0

def fabEffect (w : Writer) (o be data r : Nat) (old new : State) : Nat × State :=
  if o = 0x10 then (r, if old.isOn R.FAB_ERR_LOG_VALID && !new.isOn R.FAB_ERR_LOG_VALID then errClear new else new)
  else if o = 0x300 then (r, diagRun w.m (wrBits be data 2 1) new)
  else (r, new)

def hifEffect (o be data r : Nat) (old new : State) : Nat × State :=
  if 0x100 ≤ o && o < 0x200 then
    let q := (o - 0x100) / 16
    if o % 16 = 8 then
      let s := if old.sqOn q then new.set (R.HIF_SQ_CTRL_CQ q) (old.get (R.HIF_SQ_CTRL_CQ q)) else new
      (r, if wrHits be 0 0 then sqEnable q (wrBits be data 0 0) s else s)
    else (r, if old.sqOn q then old else new)
  else if 0x200 ≤ o && o < 0x240 && o % 16 = 8 then
    (r, if wrHits be 0 0 then cqEnable ((o - 0x200) / 16) (wrBits be data 0 0) new else new)
  else (r, new)

/-- FLC_CFG: T is bounded by the spare area (R395). -/
def flcCfg (old new : State) : State :=
  let t := new.get R.FLC_CFG_T
  if t < 8 || t % 8 ≠ 0 || 8 * ((4 * new.get R.FLC_GEOM_SPARE - 32) / 16) < t then new.set R.FLC_CFG_T (old.get R.FLC_CFG_T) else new

/-- FLC_WINDOW: LO only rises, HI only falls (R404). -/
def flcWindow (old new : State) : State :=
  let s := if new.getI R.FLC_WINDOW_LO < old.getI R.FLC_WINDOW_LO then new.set R.FLC_WINDOW_LO (old.get R.FLC_WINDOW_LO) else new
  if old.getI R.FLC_WINDOW_HI < s.getI R.FLC_WINDOW_HI then s.set R.FLC_WINDOW_HI (old.get R.FLC_WINDOW_HI) else s

def flcEffect (o be data r : Nat) (old new : State) : Nat × State :=
  if o = 0x10 then (r, flcCfg old new)
  else if o = 0x14 then (r, flcWindow old new)
  else if o = 0x20 then (if wrBits be data 3 0 = 0 then (r, old) else flcCommand (wrBits be data 3 0) old)
  else (r, new)

/-! ### Control blocks -/

/-- STL_LANE_CTRL_s written: the enables through what switches them (R440, R441). -/
def stlCtrl (n r : Nat) (old new : State) : Nat × State :=
  let s := (new.set (R.STL_LANE_CTRL_TX_EN n) (old.get (R.STL_LANE_CTRL_TX_EN n))).set (R.STL_LANE_CTRL_RX_EN n) (old.get (R.STL_LANE_CTRL_RX_EN n))
  let (a, s) := if new.isOn (R.STL_LANE_CTRL_TX_EN n) then stlTxOn n s else (St.ok, stlTxOff n s)
  let (b, s) := if new.isOn (R.STL_LANE_CTRL_RX_EN n) then stlRxOn n s else (St.ok, stlRxOff n s)
  (firstErr r (firstErr a b), s)

def stlEffect (w : Writer) (o be data r : Nat) (old new : State) : Nat × State :=
  if 0x100 ≤ o && o < 0x200 then
    let n := (o - 0x100) / 32
    if o % 32 = 0 then stlCtrl n r old new
    else if o % 32 = 0x14 then (r, if wrBits be data 0 0 = 1 then eyeStart n new else new)
    else (r, new)
  else if o = 0x4C then (r, stlPop old)
  else if 0x400 ≤ o && o < 0x440 then
    if wrBits be data 8 8 = 1 then stlArm w.m ((o - 0x400) / 8) ((o - 0x400) % 8 / 4) old else (r, old)
  else (r, new)

/-- CLK_THR: a QUAL_THR at or above DISQ_THR is not acted on (R414). -/
def clkThr (old new : State) : State :=
  if new.get R.CLK_THR_DISQ_THR ≤ new.get R.CLK_THR_QUAL_THR then new.set R.CLK_THR_QUAL_THR (old.get R.CLK_THR_QUAL_THR) else new

/-- CLK_DPn_HIST_CFG: an EXCL and LEN above 2,048 together are not acted on (R423). -/
def clkHist (n : Nat) (old new : State) : State :=
  let l := R.CLK_DP_HIST_CFG_HIST_LEN n
  let x := R.CLK_DP_HIST_CFG_HIST_EXCL n
  if 2048 < new.get l + new.get x then (new.set l (old.get l)).set x (old.get x) else new

def clkEffect (o be data r : Nat) (old new : State) : Nat × State :=
  let n := (o - 0x200) / 64
  let follow := fun (s : State) => dpJudgeAll (clkFollow s)
  if o = 0xC then (r, follow (oscJudge (iter 14 driftJudge (clkThr old new))))
  else if 0x200 ≤ o && n < 3 then
    if n = 2 && new.part == .lyk4801 then (r, old)
    else if o % 64 = 0 then
      let mode := new.get (R.CLK_DP_CTRL_MODE n)
      let ref := new.get (R.CLK_DP_CTRL_FORCE_REF n)
      let new := if n ≠ 0 && old.refPrio n ref = 0 then new.set (R.CLK_DP_CTRL_FORCE_REF n) (old.get (R.CLK_DP_CTRL_FORCE_REF n)) else new
      let s := new.set (R.CLK_DP_CTRL_MODE n) (old.get (R.CLK_DP_CTRL_MODE n))
      (r, follow (if mode = old.get (R.CLK_DP_CTRL_MODE n) then s else dpModeSet n mode s))
    else if o % 64 = 0x10 then (r, histShow n (clkHist n old new))
    else if o % 64 = 0x30 then
      (r, if wrHits be 7 0 then dcoSet n (wrBits be data 7 0) old else old)
    else (r, follow new)
  else (r, follow new)

def hdgEffect (o be data r : Nat) (old new : State) : Nat × State :=
  if o = 8 then (r, runWrite (new.get R.HDG_RUN_RUN) old)
  else if o = 0xC then (r, latchCode (wrBits be data 11 8) (wrBits be data 7 0) old)
  else if o = 0x410 then (r, if wrHits be 12 0 then { new with pmc := { new.pmc with presetCnt := 0 } } else new)
  else (r, new)

/-- THR_LO above THR_HI is reserved (R479). -/
def fmnThr (c : Nat) (old new : State) : State :=
  let hi := R.FMN_DET_HI_THR c
  let lo := R.FMN_DET_LO_THR c
  if new.get hi < new.get lo then (new.set hi (old.get hi)).set lo (old.get lo) else new

def fmnEffect (o r : Nat) (old new : State) : Nat × State :=
  if 0x100 ≤ o && o < 0x500 && (o % 64 = 0 || o % 64 = 4) then
    let x := fmnChanged ((o - 0x100) / 64) old new
    (firstErr r x.1, x.2)
  else if 0x100 ≤ o && o < 0x500 && (o % 64 = 0x20 || o % 64 = 0x24) then (r, fmnThr ((o - 0x100) / 64) old new)
  else (r, new)

/-- What a register write below 0x60000 does beyond its fields: device, power, thermal, clock, fabric, host. -/
def lowEffect (w : Writer) (a be data r : Nat) (old new : State) : Nat × State :=
  let o := a % 0x10000
  if a < 0x10000 then
    (if a = 0x200 then (r, unitCommand (wrBits be data 31 28) (wrBits be data 27 26) (wrBits be data 24 24) (wrBits be data 19 16) (wrBits be data 14 8) old)
     else (r, new))
  else if a < 0x20000 then
    (r, if o = 0x64 && wrBits be data 8 8 = 1 then new.modThm (fun t => { t with avsOff := false }) else new)
  else if a < 0x30000 then (if o = 8 then (r, thmCfg be data old) else (r, new))
  else if a < 0x40000 then clkEffect o be data r old new
  else if a < 0x50000 then fabEffect w o be data r old new
  else hifEffect o be data r old new

/-- The answer of a step in the switching controller's effects, beside the status so far. -/
def swcAnswer (r : Nat) (x : Nat × State) : Nat × State := (firstErr r x.1, x.2)

/-- The same from 0x60000 to 0x1FFFFF: flash, Stile, security, message engine, images, Hedgerow, calendar. -/
def midEffect (w : Writer) (a be data r : Nat) (old new : State) : Nat × State :=
  let o := a % 0x10000
  if a < 0x70000 then flcEffect o be data r old new
  else if a < 0x80000 then stlEffect w o be data r old new
  else if a < 0x90000 then secEffect w o r old new
  else if a < 0xA0000 then mceEffect w o be data r old new
  else if a < 0xB0000 then (r, new)
  else if a < 0xC0000 then hdgEffect o be data r old new
  else if a = 0x100118 then (r, (removeGo w.m (wrBits be data 15 0) old).2)
  else swcAnswer r (swcEffect w (a - 0x100000) be old new)

/-- The same from 0x200000 on: counters, field monitor, FEC pool, line ports, clients, line cipher. -/
def highEffect (w : Writer) (a be data r : Nat) (old new : State) : Nat × State :=
  if a < 0x400000 then (r, if a = 0x200024 then presetSet new else new)
  else if a < 0x800000 then fmnEffect (a - 0x400000) r old new
  else if a < 0x1000000 then fecEffect w (a - 0x800000) be data r old new
  else if a < 0x3000000 then portEffect w (a / 0x1000000 - 1) (a % 0x1000000) be data r old new
  else if a < 0x4000000 then cliEffect (a - 0x3000000) r old new
  else lcxEffect w (a - 0x4000000) be data r old new

/-- What the write of the register at `a` does beyond its fields: `old` is the state before, `new` with the fields written, `r`
the status so far. -/
def regEffect (w : Writer) (a be data r : Nat) (old new : State) : Nat × State :=
  if a < 0x60000 then lowEffect w a be data r old new
  else if a < 0x200000 then midEffect w a be data r old new
  else highEffect w a be data r old new

/-- A write of a register: the status, and the state. -/
def regPut (w : Writer) (a be data : Nat) (r : RDef) (s : State) : Nat × State :=
  match (if r.banked then bankFor w.m a else some 0) with
  | none => (St.denied, s)
  | some b =>
    if be % 16 = 0 then (0, s)
    else
      let x := writeFields w a b be data r s
      regEffect w a be data x.1 s x.2

/-! ### Places that are not registers -/

/-- Four bytes of a value of 32 bits merged into stored ones. -/
def merge32 (be old new : Nat) : Nat := mixBits (byteMask 4 be) old new

/-- A quarter of a staging word written: a reserved SKEW code leaves that field (R83). -/
def stagingWrite (p key q be data : Nat) (s : State) : State :=
  let old := getAt 0 (s.port p).cal.staging key
  let new := mixBits (byteMask 4 be * 2 ^ (32 * q)) old (data * 2 ^ (32 * q))
  let slice := decide (key < 4096)
  let new := if slice then new &&& rangeMask [(8, 0), (24, 16), (41, 32), (52, 48), (65, 64)] else new
  let sk := signed 10 (bits new 41 32)
  let new := if slice && (sk < -500 || 500 < sk) then mixBits (1023 * 2 ^ 32) new old else new
  s.modCal p (fun c => { c with staging := setAt 0 c.staging key new })

/-- Bytes of a Sedge transmit buffer (R258). -/
def sgpData (m p off be data : Nat) (s : State) : Nat × State :=
  let b := off / 2048
  if b < 8 && m ≠ M.sedge then (St.denied, s)
  else if 2 ≤ s.bufState p b then (St.busy, s)
  else
    let put := fun (d : Sparse Nat) i => if bitAt be i = 1 then setAt 0 d (off + i) (data / 2 ^ (8 * i) % 256) else d
    (0, s.modSgp p (fun g => { g with data := (List.range 4).foldl put g.data }))

/-! ### The table window (R351) -/

/-- A bank holds a cipher policy table. -/
def isPolicy (t : Nat) : Bool := tabKind t == 0xF008

/-- The verdict on an access of master `m` to word `w` of table RAM. -/
def State.tableVerdict (s : State) (m w : Nat) (write : Bool) : Nat :=
  match s.inTable w with
  | none => St.decerr
  | some (e, b, _) =>
    if !write then St.ok
    else if s.actBank e.num false = b || s.actBank e.num true = b || s.bankLocked e.num b then St.denied
    else if isPolicy e.num && m ≠ M.ling then St.denied
    else St.ok

/-- A write of 16 bytes with their enables through the window. -/
def tableWrite (m w be v : Nat) (s : State) : Nat × State :=
  let x := s.tableVerdict m w true
  if x ≠ St.ok then (x, s) else sramWrite (sramKey 1 w) be v s

/-- A read through the window. -/
def tableRead (m w : Nat) (s : State) : Nat × Nat × State :=
  let x := s.tableVerdict m w false
  if x ≠ St.ok then (x, 0, s) else sramRead (sramKey 1 w) s

end Sys2Proof.Machine
end

