-- ==== Sys2Proof/Machine/Access.lean ====
section
/-! DEFINITION. Reads of BAR0 and of the memories of the device: rights, latches, registers cleared by a read (R8, R29, R313, R314,
R365, R512). -/
namespace Sys2Proof.Machine

/-! ### Rights -/

/-- The blocks that answer in RECOVERY: host interface with identity, FLC, SEC (R314). -/
def recoveryBlock (a : Nat) : Bool :=
  decide (a < 0x10000) || (decide (0x50000 ≤ a) && decide (a < 0x70000)) || (decide (0x80000 ≤ a) && decide (a < 0x90000))

/-- What stands before an access of master `m` to address `a`: OK where it may go to its target. -/
def State.accessVerdict (s : State) (m a : Nat) : Nat :=
  let t := (targetOf a).1
  if t = 11 then St.decerr
  else if !mayAccess s.debugOn m t then St.denied
  else if s.lingState = 4 && a ≠ 0 && a ≠ 0x80008 then St.decerr
  else if s.lingState = 2 && !recoveryBlock a then St.decerr
  else St.ok

/-- Registers of the LYK4801 that read zero and take no write: those of DP2 and of port 1 of the decoder pool (R2, R195, R409). -/
def State.noUnit (s : State) (a : Nat) : Bool :=
  s.part == .lyk4801 && ((decide (0x30280 ≤ a) && decide (a < 0x302C0)) || a == 0x800014 || a == 0x800044 ||
    (decide (0x800180 ≤ a) && decide (a < 0x800200)) || (decide (0x801200 ≤ a) && decide (a < 0x801400)) ||
    (decide (0x801600 ≤ a) && decide (a < 0x801800)))

/-- The bonding registers of LP1 read zero (R232). -/
def zeroReg (a : Nat) : Bool := a == 0x2600100 || a == 0x2600104

/-! ### Latches (R512) -/

/-- Reading address `a` latches the registers after it. -/
def latches (a : Nat) : List Nat :=
  let o := a % 0x1000000
  let every := fun lo hi st k => decide (lo ≤ a) && decide (a < hi) && (a - lo) % st == k
  let port := decide (0x1000000 ≤ a) && decide (a < 0x3000000)
  if a = 0x4000120 then [a + 4, a + 8]
  else if a = 0x4000108 || a = 0x4000110 || a = 0x80028 || a = 0x40014 || a = 0x60060 || a = 0x70044 ||
    a = 0x200008 || a = 0x200010 || a = 0x200028 || every 0x210000 0x230000 8 0 ||
    every 0x100040 0x100080 16 0 || (port && (o == 0x100088 || o == 0x2000A0 || o == 0x2000A8)) ||
    every 0x800100 0x800200 8 0 || every 0x801000 0x801800 8 0 ||
    every 0x3002000 0x3002800 32 8 || every 0x3002000 0x3002800 32 16 ||
    every 0x30200 0x302C0 64 0x1C || every 0x30200 0x302C0 64 0x24 ||
    every 0x400100 0x400500 64 0xC || every 0x400100 0x400500 64 0x14 then [a + 4]
  else []

/-- Address `a` is read through a latch. -/
def latched (a : Nat) : Bool := (4 ≤ a && (latches (a - 4)).contains a) || (8 ≤ a && (latches (a - 8)).contains a)

def latchKey (m a : Nat) : Nat := 16 * a + m

/-- The partners of the register at `a` copied into the latch of master `m`. -/
def latchLoad (m a : Nat) (s : State) : State :=
  (latches a).foldl (fun s x =>
    match findReg x (blockRegs x) with
    | some r => { s with latches := setAt 0 s.latches (latchKey m x) (s.regWord m x 0 r) }
    | none => s) s

/-! ### Registers cleared by a read (R8) -/

/-- What a read by master `m` of the register at `a` takes away of state that is no register field. -/
def readTake (m a : Nat) (s : State) : State :=
  let p := a / 0x1000000 - 1
  let o := a % 0x1000000
  if a = 0x100148 then
    match (s.results (bankOf m)).head? with
    | some r => s.modSwc (fun c => { c with res := c.res.erase r })
    | none => s
  else if a = 0x9011C then (mcePop m s).2
  else if a = 0xB0408 then s.modHdg (fun h => { h with hev := h.hev.tail })
  else if a = 0xB0418 then s.modHdg (fun h => { h with samp := h.samp.tail })
  else if a = 0x40214 || a = 0x40218 then { s with ecc := setAt 0 s.ecc (4 * s.get R.FAB_ECC_SEL_INST + (a - 0x40214) / 4) 0 }
  else if 0x4000140 ≤ a && a < 0x4000158 then
    s.modCtx (s.get R.LCX_CTX_SEL_PORT) (s.get R.LCX_CTX_SEL_DIR) (s.get R.LCX_CTX_SEL_CTX) (fun x => { x with cnt := x.cnt.set ((a - 0x4000140) / 4) 0 })
  else if 0x1000000 ≤ a && a < 0x3000000 && (o = 0x600208 || o = 0x60020C) then
    let e := s.get (R.LFR_OTN_SEL_ENTITY p)
    s.modLfr p (fun l => { l with otn := setAt 0 l.otn (4 * e + (if o = 0x600208 then 2 else 3)) 0 })
  else s

/-- The RC fields of a register, cleared. -/
def readClear (a b : Nat) (r : RDef) (s : State) : State :=
  r.fs.foldl (fun s f => if f.acc = .rc then s.set (fieldAt a b f) 0 else s) s

/-- A read of word `i` of the descriptor that SWC_RD_IDX of bank `b` names: of a pending action of the bank (R57), checked (R372). -/
def descGet (b i : Nat) (s : State) : Nat × Nat × State :=
  match s.findAct b (s.get (R.SWC_RD_IDX_HANDLE b)) with
  | none => (St.denied, 0, s)
  | some x =>
    if x.phase ≠ 0 then (St.denied, 0, s)
    else
      let r := descRead x false s
      (r.1, if r.1 = St.ok then x.desc / 2 ^ (32 * i) % 2 ^ 32 else 0, r.2)

/-- A read of a register: status, value, state. -/
def regGet (m a : Nat) (r : RDef) (s : State) : Nat × Nat × State :=
  match (if r.banked then bankFor m a else some 0) with
  | none => (St.denied, 0, s)
  | some b =>
    if 0x100130 ≤ a && a < 0x100140 then descGet b ((a - 0x100130) / 4) s
    else if zeroReg a || s.noUnit a then (0, 0, s)
    else if latched a then (0, getAt 0 s.latches (latchKey m a), s)
    else
      let v := s.regWord m a b r
      (0, v, readTake m a (readClear a b r (latchLoad m a s)))

/-! ### Every place -/

/-- Four bytes, lowest first. -/
def word4 (f : Nat → Nat) : Nat := f 0 % 256 + 256 * (f 1 % 256) + 65536 * (f 2 % 256) + 16777216 * (f 3 % 256)

/-- A read of 32 bits at a place: status, value, state. -/
def placeGet (m a : Nat) (x : Place) (s : State) : Nat × Nat × State :=
  match x with
  | .reg r => regGet m a r s
  | .cal p live key q => (0, getAt 0 (if live then (s.port p).cal.live else (s.port p).cal.staging) key / 2 ^ (32 * q) % 2 ^ 32, s)
  | .sgpTx p off => (0, word4 (fun i => getAt 0 (s.port p).sgp.data (off + i)), s)
  | .sgpRxq p off =>
    (0, match (s.port p).sgp.rxq with | x :: _ => word4 (fun i => x.body.getD (off + i) 0) | [] => 0, s)
  | .flcWin off => (0, getAt 0 s.flc.win (off / 4), s)
  | .stlSlot sl off => (0, getAt 0 s.stl.slots (16 * sl + off / 4), s)
  | .stlRxq off => (0, match s.stl.rxq with | x :: _ => word4 (fun i => x.bytes.getD (off + i) 0) | [] => 0, s)
  | .fmnRing c e hi => (0, getAt 0 s.fmn.ring (1024 * c + e) / 2 ^ (32 * hi) % 2 ^ 32, s)
  | .secWin off => if hasMailbox m then (0, getAt 0 s.sec.win (winKey m (off / 4)), s) else (St.denied, 0, s)
  | .tab w =>
    let (st, v, s) := tableRead m w s
    (st, v / 2 ^ (8 * (a % 16)) % 2 ^ 32, s)
  | .none =>
    match (targetOf a).1 with
    | 8 =>
      let (st, v, s) := sramRead (sramKey 8 ((a - 0x10000000) / 16)) s
      (st, v / 2 ^ (8 * (a % 16)) % 2 ^ 32, s)
    | 9 | 10 =>
      let (v, s) := s.draw (2 ^ 32)
      (0, v, s)
    | _ => (St.decerr, 0, s)

/-- A read of the 32-bit word at `a` by master `m`: the response of R370, the value, the state. -/
def regRead (m a : Nat) (s : State) : Nat × Nat × State :=
  let a := a / 4 * 4
  let v := s.accessVerdict m a
  let (st, x, s) := if v ≠ St.ok then (v, 0, s) else placeGet m a (s.placeOf a) s
  (st, if st = St.ok then x else 0, fabRespond m a st s)

/-- A write of the 32-bit word at a place that is no command of whole regions: status, state. -/
def placePut (w : Writer) (a be data : Nat) (x : Place) (s : State) : Nat × State :=
  match x with
  | .reg r => if zeroReg a || s.noUnit a then (0, s) else regPut w a be data r s
  | .cal p live key q => (0, if live then s else stagingWrite p key q be data s)
  | .sgpTx p off => sgpData w.m p off be data s
  | .sgpRxq _ _ | .stlRxq _ | .fmnRing _ _ _ => (0, s)
  | .flcWin off => (0, s.modFlc (fun f => { f with win := modAt 0 f.win (off / 4) (fun v => merge32 be v data) }))
  | .stlSlot sl off =>
    stlWindowWrite w.m (sl / 2) (sl % 2) (off / 4) (merge32 be (getAt 0 s.stl.slots (16 * sl + off / 4)) data) s
  | .secWin off =>
    if hasMailbox w.m then (0, s.modSec (fun y => { y with win := modAt 0 y.win (winKey w.m (off / 4)) (fun v => merge32 be v data) }))
    else (St.denied, s)
  | .tab t => tableWrite w.m t (be % 16 * 2 ^ (a % 16)) (data % 2 ^ 32 * 2 ^ (8 * (a % 16))) s
  | .none =>
    match (targetOf a).1 with
    | 8 => sramWrite (sramKey 8 ((a - 0x10000000) / 16)) (be % 16 * 2 ^ (a % 16)) (data % 2 ^ 32 * 2 ^ (8 * (a % 16))) s
    | 9 | 10 => (0, s)
    | _ => (St.decerr, s)

/-- A write by a writer, before what RegWrite adds: status and state, without the response of R370. -/
def corePut (w : Writer) (a be data : Nat) (s : State) : Nat × State :=
  let v := s.accessVerdict w.m a
  if v ≠ St.ok then (v, s) else placePut w a be data (s.placeOf a) s

end Sys2Proof.Machine
end

