-- ==== Sys2Proof/Machine/Regions.lean ====
section
/-! DEFINITION. Regions of a Foene image (R28, R345 to R350): applied at once at start-up and at a region reset, in the calendar's
two stages, by ACTIVATE, and the reset of one region. -/
namespace Sys2Proof.Machine

/-! ### What follows from a table (R149, R159, R236, R355) -/

/-- What is judged anew once bank contents in force have changed: `old` is the state before. -/
def tableFollow (t : Nat) (old s : State) : State :=
  let p := (tabPort t).getD 0
  let k := tabKind t
  if t = 0xF020 then grpRedefine ((List.range 64).map old.grpWord) s
  else if k = 0xF004 || k = 0xF005 || k = 0xF006 then grpJudgeAll (tribsCut p old s)
  else if 0x2000 ≤ t && t < 0x2010 then seqSwapped (t - 0x2000) s
  else if k = 0xF000 then rxJudge p (rxRungTaken p (old.rxRung p) (old.sedgeBaud p) (txRungTaken p (old.txRung p) s))
  else s

/-! ### Parts of a region -/

/-- The blocks that region `r` configures (R28): GLOBAL power domains and DPLLs, LP0, LP1, FECPOOL, CLIENT, CIPHER and SEQ their own
blocks, MGMT host interface, flash, counters and field monitor, BOARD Stile lanes and sensors (DEDUCED, log entry 163). -/
def regionBlock (r a : Nat) : Bool :=
  let within := fun lo hi => decide (lo ≤ a) && decide (a < hi)
  match r with
  | 0 => within 0x10000 0x20000 || within 0x30000 0x40000
  | 1 => within 0x1000000 0x2000000
  | 2 => within 0x2000000 0x3000000
  | 3 => within 0x800000 0x1000000
  | 4 => within 0x3000000 0x4000000
  | 5 => within 0x4000000 0x8000000
  | 6 => within 0x50000 0x70000 || within 0x200000 0x800000
  | 7 => within 0xB0000 0xC0000
  | 8 => within 0x70000 0x80000 || within 0x20000 0x30000
  | _ => false

/-- The register settings of region `r`, as the loader writes them, SCH fields included; one outside the region's blocks is not made. -/
def applySettings (r : Nat) (l : List Setting) (s : State) : State :=
  (l.filter (fun x => regionBlock r x.addr)).foldl (fun s x =>
    let r := corePut { m := M.loader, sch := true } x.addr x.be x.data s
    fabRespond M.loader x.addr r.1 r.2) s

/-- Tables of region `r` in the directory in force. -/
def State.regionTabs (s : State) (r : Nat) : List TblEnt := s.img.struct.dir.filter (fun e => e.region == r)

/-- Words `lo` to `lo + n − 1` of table RAM made invalid: they read zero (R371). -/
def tabWipe (lo n : Nat) (s : State) : State :=
  let keep := fun k => decide (k < sramKey 1 lo) || decide (sramKey 1 (lo + n) ≤ k)
  { s with sram := keepKeys keep s.sram, sramChk := keepKeys keep s.sramChk }

/-- The tables of a region written into bank 0, which becomes active for both directions; bank 1 reads as zero (R347). -/
def tablesStart (r : Nat) (xs : List Section) (s : State) : State :=
  let s := (s.regionTabs r).foldl (fun s e =>
    tabWipe e.base (2 * e.words) { s with img := { s.img with actTx := setAt 0 s.img.actTx e.num 0, actRx := setAt 0 s.img.actRx e.num 0 } }) s
  (xs.flatMap (·.tables)).foldl (fun s t => s.setBankWords t.1 0 0 t.2) s

/-- The tables of a region written into their idle banks. -/
def tablesStage (r : Nat) (xs : List Section) (s : State) : State :=
  let s := (s.regionTabs r).foldl (fun s e => tabWipe (e.base + s.idleBank e.num * e.words) e.words s) s
  (xs.flatMap (·.tables)).foldl (fun s t => s.setBankWords t.1 (s.idleBank t.1) 0 t.2) s

/-- CALDEF (R345): the value of CAL_TRIG, and at start-up and at a region reset the port block in the staging copy. -/
def calDefault (p : Nat) (start : Bool) (xs : List Section) (s : State) : State :=
  match xs.find? (fun x => x.typ == 5) with
  | none => s
  | some x =>
    let s := (corePut { m := M.loader, sch := true } (0x1100020 + 0x1000000 * p) 15 x.trig s).2
    match x.calBlock with
    | some l => if start then s.modCal p (fun c => { c with staging := l.foldl (fun m e => setAt 0 m e.1 e.2) c.staging }) else s
    | none => s

/-- Groups a section names, and the window it sets. -/
def namedGroups (xs : List Section) : Nat := (xs.map (·.groups)).foldl (· ||| ·) 0
def poolWindow (xs : List Section) (s : State) : State := match xs.head? with | some x => s.set R.FEC_POOL_W x.window | none => s

/-- The equalisation of the Stile lanes from BOARD (R346, R437). -/
def boardLanes (s : State) : State :=
  iter 8 (fun n s =>
    let b := fun i => byteAt s.board (16 + 4 * n + i)
    (((s.set (R.STL_EQ_PRE n) (b 0)).set (R.STL_EQ_MAIN n) (b 1)).set (R.STL_EQ_POST n) (b 2)).set (R.STL_EQ_CTLE n) (b 3)) s

/-- GLOBAL (R24, R343, R409, R455): STRUCT in force, domains that may be powered, converter bands, tiles and DPLLs. -/
def globalApply (xs : List Section) (s : State) : State :=
  let x := (xs.findSome? (·.struct)).getD {}
  let s := s.modImg (fun g => { g with struct := x, actTx := [], actRx := [] })
  let s := iter 8 (fun k s => s.set (R.PWR_ALLOW_ALLOW k) (bits x.pwrMap (32 * k + 31) (32 * k))) s
  let s := (structPorts x).foldl (fun s p =>
    if !s.hasPort p then s
    else
      let s := iter 16 (fun i s => if i % 2 = 0 || x.bandB.getD p 0 = 1 then (powerUp (bandDomain p i) s).2 else s) s
      iter 16 (fun t s => s.set (tileField p t) 0) s) s
  let s := iter 3 (fun n s => if s.mayPower (244 + n) && (n != 2 || s.part == .lyk4802) then (powerUp (244 + n) s).2 else s) s
  squelchOn (dpStruct (phyFollow s))

/-! ### In force (R347, R350, R361) -/

/-- The content of a region comes into force from an image slot. -/
def regionHeld (r k : Nat) (xs : List Section) (s : State) : State :=
  (s.modImg (fun g => { g with inforce := setAt [] g.inforce r xs })).set (R.IMG_INFORCE_SLOT r) k

/-- The CIPHER region may be applied: PROVISION, or a proposal of its content that is DONE (R347). -/
def State.cipherAllowed (s : State) (xs : List Section) : Bool :=
  s.get R.SEC_STATE_LIFECYCLE == 1 || s.sec.slots.any (fun e => e.2.state == 6 && e.2.subject == 5 && slice e.2.bytes 32 32 == regionHash xs)

/-- The content of a region applied at once, as at start-up (R347). -/
def regionStart (r k : Nat) (xs : List Section) (s : State) : State :=
  if r = 5 && !s.cipherAllowed xs then
    ((tablesStart r [] s).modImg (fun g => { g with inforce := setAt [] g.inforce r [] })).set (R.IMG_INFORCE_SLOT r) 7 |>.raise Ev.IMG_CIPHER_HELD
  else
    let s := if r = 0 then globalApply xs s else s
    let s := applySettings r (xs.flatMap (·.settings)) (tablesStart r xs (regionHeld r k xs s))
    if r = 1 || r = 2 then judgeAdj (r - 1) 1 (judgeAdj (r - 1) 0 (calDefault (r - 1) true xs s))
    else if r = 3 then grpApply false (namedGroups xs) (poolWindow xs s)
    else if r = 4 then grpJudgeAll s
    else if r = 5 then grpApply true (namedGroups xs) s
    else if r = 8 then boardLanes s
    else s

/-- The regions of image slot `k` at start-up, in their order (R347). An LP region of a port that STRUCT does not use is not
applied. -/
def regionsStart (k : Nat) (i : Image) (s : State) : State :=
  [0, 8, 6, 1, 2, 3, 4, 5, 7].foldl (fun s r =>
    let xs := imgRegion i r
    if xs.isEmpty || ((r = 1 || r = 2) && !(structPorts (imgStruct i)).contains (r - 1)) then s else regionStart r k xs s) s

/-! ### A scheduled activation (R348) -/

/-- The staging in progress ends: its sections have been read again, with the bits that flip in each page. The idle banks hold the tables, the
shadow the rest; a failure completes the action. -/
def stagingDone (r : FlashResult) (s : State) : State :=
  match s.swc.jobs.find? (fun j => j.phase == 1) with
  | none => s
  | some j =>
    let (st, s) := readSections j.slot r j.sects s
    if st = St.ok then
      stageNext ((tablesStage j.region j.sects s).modSwc (fun c => { c with jobs := c.jobs.map (fun x =>
        if x.bank = j.bank && x.handle = j.handle then { x with phase := 2 } else x) }))
    else match s.findAct j.bank j.handle with
      | some a => stageNext (complete a st 0 s)
      | none => s

/-- A staged region takes effect: table swaps and register values together. -/
def regionTake (j : RegionJob) (s : State) : State :=
  let old := s
  let s := s.modSwc (fun c => { c with jobs := c.jobs.filter (fun x => !(x.bank == j.bank && x.handle == j.handle)) })
  let tabs := s.regionTabs j.region
  let s := tabs.foldl (fun s e => let b := s.idleBank e.num; s.makeActive e.num b true |>.makeActive e.num b false) s
  let s := applySettings j.region (j.sects.flatMap (·.settings)) (regionHeld j.region j.slot j.sects s)
  let s := tabs.foldl (fun s e => tableFollow e.num old s) s
  if j.region = 1 || j.region = 2 then judgeAdj (j.region - 1) 1 (judgeAdj (j.region - 1) 0 (calDefault (j.region - 1) false j.sects s))
  else if j.region = 3 then poolWindow j.sects s
  else s

/-- Regions that have executed and whose time has come take effect, in the order of their insertion. -/
def regionsDue (f : RegionJob → Bool) (s : State) : State :=
  (s.swc.jobs.filter (fun j => j.phase == 4 && f j)).foldl (fun s j => regionTake j s) s

/-! ### IMG_CMD (R349, R350, R361) -/

/-- A command ends with its status; a refusal sets EV_IMG_ACT_FAIL. -/
def actEnd (v : Nat) (s : State) : State := (imgEnd v 0 s).raise (if v = St.ok then Ev.IMG_ACT_DONE else Ev.IMG_ACT_FAIL)

/-- IMG_CMD ACTIVATE: MGMT and BOARD, at once. -/
def imgActivate (r k : Nat) (s : State) : Nat × State :=
  if s.isOn R.IMG_CMD_STAT_BUSY then (St.busy, s.raise Ev.IMG_ACT_FAIL)
  else if 6 ≤ k then (St.ok, actEnd St.decerr s)
  else if (r ≠ 6 && r ≠ 8) || !s.slotServes k r then (St.ok, actEnd St.conflict s)
  else match s.image k with
    | some i => (St.ok, actEnd St.ok (regionStart r k (imgRegion i r) s))
    | none => (St.ok, actEnd St.conflict s)

/-- Proposals and key exchanges of a port ended by the reset of its LP region (R277); the register of a proposal is put back
once the block has been reset. -/
def exchangesEnd (p : Nat) (s : State) : State :=
  iter 32 (fun c s => if (s.keyEx p c).waiting || (s.keyEx p c).asked then endKey p c 3 St.aborted s else s.modEx p c (fun x => { x with backoff := false, hold := false })) s

/-- The converter bands forget the slices that are fallowed: no spare stands in for one after the reset, and a fallow that waits for a sweep
step ends (log entry 181). -/
def slicesDrop (p : Nat) (s : State) : State :=
  let s := (s.set (R.GCTL_SLICE_FLW_FALLOWED p) 0).set (R.GCTL_SLICE_FLW_READY p) 0
  let s := s.modUnits (fun u => { u with cal := u.cal.filter (fun x => x / 16 != p) })
  match s.units.slice with
  | some (q, _, _) => if q = p then unitEnd St.aborted (s.modUnits (fun u => { u with slice := none })) else s
  | none => s

/-- The blocks of LP region `p` reset (R56, R84, R154, R194, R277): the calendar first, then receiver and transmitter, then every
register and store of the port but the trims, whose FAILED and CALIBRATED bits outlast it, with the spares that replace failed slices
(R81, R89, R95), and mutes whose cause stands (R77). -/
def lineReset (p : Nat) (s : State) : State :=
  let s := completeAll (fun a => dPd a.desc / 2 == p) St.aborted s
  let s := slicesDrop p (txOff p (rxDisable p s))
  let s := fecDiscard p (posStops (rxPd p) (posStops (txPd p) s))
  let s := exchangesEnd p s
  let ended := [0, 1].map (fun d => (s.propOpen p d, s.get (R.TXD_PROP_STAT_ROLE p d), s.get (R.TXD_PROP_STAT_ID p d)))
  let s := s.modSess (s.get (R.SGP_AUTH_POL_SESSION p)) (fun x => { x with rxMark := none })
  let muted := s.isOn (R.CNV_DAC_CTRL_HW_SYN p)
  let spares := (List.range 16).filter (fun i => s.get (bandSpare p i) == 2)
  let old := s
  let s := (s.clearRegs (0x1000000 * (p + 1)) (0x1000000 * (p + 2))).modPort p (fun q =>
    { cal := { q.cal with snapshot := false, sweepDone := false, uncal := 0 }, cnv := { die := q.cnv.die, reapply := q.cnv.reapply } })
  let s := spares.foldl (fun s i =>
    (((s.set (bandSpare p i) 2).set (bandPos p i) (old.get (bandPos p i))).set (bandIdle p i) (old.get (bandIdle p i))).set (R.CAL_BAND_NO_SPARE p i) 1) s
  let s := if muted then (s.set (R.CNV_DAC_CTRL_HW_SYN p) 1).set (R.CNV_DAC_CTRL_HW_MUTE p) 1 else s
  let s := if s.inShutdown then (s.set (R.CNV_DAC_CTRL_HW_THERM p) 1).set (R.CNV_DAC_CTRL_HW_MUTE p) 1 else s
  let s := iter 2 (fun d s =>
    match ended.getD d (false, 0, 0) with
    | (true, role, id) => (showProp p d 6 role id St.aborted s).raise (Ev.TXD_PROP_FAIL p)
    | _ => s) s
  corrFollow p (phyFollow s)

/-- The blocks of a region reset. Key slots stay, and so do the statistics of the pool (R190); the host interface and the flash store
are not reset with a region. -/
def regionClear (r : Nat) (s : State) : State :=
  let s := match r with
    | 1 => blockAbort 0x1000000 0x2000000 s
    | 2 => blockAbort 0x2000000 0x3000000 s
    | 3 => blockAbort 0x800000 0x1000000 s
    | 4 => blockAbort 0x3000000 0x4000000 s
    | 5 => blockAbort 0x4000000 0x8000000 s
    | 7 => blockAbort 0xB0000 0xC0000 s
    | _ => s
  if r = 1 || r = 2 then lineReset (r - 1) s
  else if r = 3 then s.clearRegs 0x800000 0x800100
  else if r = 4 then
    let s := iter 128 powerDown s
    { (s.clearRegs 0x3000000 0x4000000) with cli := {} }
  else if r = 5 then
    let s := (s.clearRegs 0x4000000 0x4000040).clearRegs 0x4000100 0x5000000
    s.modLcx (fun l => { l with
      join := [], direct := 0, ctxs := l.ctxs.map (fun e => (e.1, { e.2 with null := false, cnt := [0, 0, 0, 0, 0, 0], sect := none, prev := none, plain := none })) })
  else if r = 7 then { (s.clearRegs 0xB0000 0xC0000) with hdg := {} }
  else s

/-- IMG_CMD REGION_RESET (R350). -/
def regionReset (r : Nat) (s : State) : Nat × State :=
  let xs := getAt [] s.img.inforce r
  if s.isOn R.IMG_CMD_STAT_BUSY then (St.busy, s.raise Ev.IMG_ACT_FAIL)
  else if 9 ≤ r || (r = 2 && s.part == .lyk4801) then (St.ok, actEnd St.decerr s)
  else if r = 0 || r = 8 || xs.isEmpty then (St.ok, actEnd St.conflict s)
  else (St.ok, actEnd St.ok (regionStart r (s.get (R.IMG_INFORCE_SLOT r)) xs (regionClear r s)))

/-- IMG_CMD written. -/
def imgCommand (cmd k r : Nat) (s : State) : Nat × State :=
  if cmd = 1 then imgLoad k s else if cmd = 2 then imgActivate r k s else if cmd = 3 then regionReset r s
  else if s.isOn R.IMG_CMD_STAT_BUSY then (St.busy, s) else (St.ok, s)

end Sys2Proof.Machine
end

