-- ==== Sys2Proof/Machine/Resets.lean ====
section
/-! DEFINITION. POR, RESET_N, SRST, loss of VDD_STBY and RESUME, with the start-up that follows a reset (R56, R86, R194, R277, R295,
R313 to R315, R329, R333, R342, R347, R371, R384, R425, R454, R501). -/
namespace Sys2Proof.Machine

/-! ### What a reset leaves -/

/-- Registers that a reset does not touch: the shutdown record and its state (standby domain), what OTP shows; the rail
monitors but at POR; the link with KEEP_LINK. -/
def keptReg (por link : Bool) (k : Nat) : Bool :=
  let a := k / 32
  a == 0x20024 || (decide (0x20060 ≤ a) && decide (a < 0x20080)) || a == 0x8000C || a == 0x80008 || (!por && a == 0x1006C) || (link && a == 0x5000C)

/-- The stores in progress are cut short, and the flash stands as they leave it. -/
def storesCut (b : Boot) (s : State) : State :=
  let s := storeCut b.jnl s
  let s := if s.sec.att.isEmpty then s else recCut 0x21 b.lms (leafPayload s.leafTop) s
  recordsFound (match s.sec.stores with | j :: _ => recCut 0x22 b.appr (s.storePayload j) s | [] => s)

/-- The block after a reset, before Ling boots. Flash, the journal, the committed records and the approval record are
nonvolatile; POR alone clears the key-transport keys and every memory; table RAM, hayrick and calendar read zero after any reset
(R56, R194). -/
def cleared (por link : Bool) (s : State) : State :=
  let regs := keepKeys (keptReg por link) s.regs
  let inst := fun k => !por && !([0, 1, 11].contains (k / 2 ^ 22))
  let x : State := { part := s.part, regs := regs, freeCtr := s.freeCtr, pending := s.pending, resp := s.resp }
  let x := { x with flc := { blocks := s.flc.blocks } }
  let x := { x with sec := { ktk := if por then [] else s.sec.ktk, cust := s.sec.cust, kept := s.sec.kept, keptRsv := s.sec.keptRsv } }
  let x := { x with img := { pci := s.img.pci }, hif := { ptr := s.hif.ptr, strap := s.hif.strap, msix := if link then s.hif.msix else [] } }
  let x := { x with sram := keepKeys inst s.sram, sramChk := keepKeys inst s.sramChk }
  ((x.set R.SEC_STATE_STATE 0).set R.SEC_STATE_IMG_SLOT 0).set R.SEC_STATE_BOOT_SLOT 0

/-! ### Start-up (R315) -/

/-- Step 2: the newest committed record. Proposals under way have expired, PROPOSED and HALF ones are lost (R333). -/
def recordLoad (s : State) : State :=
  let s := (s.set R.SEC_ATT_LEAF_VALUE s.sec.keptRsv).set R.SEC_ATT_RSV_VALUE s.sec.keptRsv
  match s.sec.kept with
  | none => s
  | some b =>
    let s := recordTake b s
    let s := s.modSec (fun y => { y with slots := y.slots.filter (fun e => e.2.state != 1 && e.2.state != 2) })
    iter 16 (fun k s => if 3 ≤ (s.slotAt k).state && (s.slotAt k).state ≤ 5 then propClose k 8 0 s else s) s

/-- What start-up reads in a partition of the store as it stands, none where a page is uncorrectable. -/
def State.bytesFound (s : State) (b : Boot) (id : Nat) : List Nat :=
  match readBox id 0 (((b.flips.find? (fun e => e.1 == id)).map (·.2)).getD []) s with
  | (_, true, _) => []
  | (l, false, _) => l

/-- Boot images and image slots as start-up finds them in a store that is mounted when the reset comes; the operand where none is. -/
def State.bootFinds (s : State) (b : Boot) : Boot :=
  if s.get R.FLC_STATE_STATE = 3 then
    { b with boots := [s.bytesFound b 1, s.bytesFound b 2], images := (List.range 6).map (fun k => (k, s.bytesFound b (0x10 + k))) }
  else b

/-- Step 3: the boot image that runs, of those the policy names. -/
def State.bootChoice (s : State) (b : Boot) : Option (Nat × SignedObj) :=
  let o := byteAt s.bootPolicy 0
  let first := o % 2
  let l := if bitAt o 1 = 1 then [first, 1 - first] else [first]
  l.findSome? (fun k => match bootObj s.partNumber (b.boots.getD k []) with
    | some x => if s.signedOk false x then some (k, x) else none
    | none => none)

/-- Step 4: the image that comes into force, of the policy's slot and its fallback. -/
def State.imageChoice (s : State) (b : Boot) : Option (Nat × Image) :=
  [byteAt s.bootPolicy 1, byteAt s.bootPolicy 2].findSome? (fun k => match b.images.find? (fun e => e.1 == k) with
    | some e => let i := imageOf s.partNumber e.2; if k < 6 && s.imageVerdict i false = (St.ok, 0) then some (k, i) else none
    | none => none)

/-- The image in force: its slot VERIFIED, its regions applied, the PCI IDs in effect, the cores released. -/
def imageStart (keepPci : Bool) (k : Nat) (i : Image) (s : State) : State :=
  let fw := (i.sects.findSome? (fun x => if x.typ = 3 then some x.fw else none)).getD {}
  let s := (s.set R.SEC_STATE_IMG_SLOT k).modSec (fun y => { y with image := imageObj i, fw := fw })
  let s := regionsStart k i (slotVerified k i s)
  let s := if keepPci then s else s.modImg (fun g => { g with pci := slice s.board 0 12 })
  iter 7 (fun c s => (procLoad c s).2) s

/-- Step 5: OTP changes of the policy that OTP does not show yet (R330). -/
def otpCatchUp (fail : Bool) (s : State) : State :=
  let t := otpProgram false s
  if t.regs = s.regs && t.sec.cust = s.sec.cust then s else otpProgram fail s

/-- Ling boots. -/
def bootUp (keepPci : Bool) (b : Boot) (s : State) : State :=
  if b.otpBad then s.set R.SEC_STATE_STATE 4
  else
    let s := recordLoad ((sramClear 10 s).setDomain 216 true)
    match s.bootChoice b with
    | none => (s.set R.SEC_STATE_STATE 2).raise Ev.SEC_RECOVERY
    | some (k, o) =>
      let s := ((s.set R.SEC_STATE_STATE 1).set R.SEC_STATE_BOOT_SLOT k).modSec (fun y => { y with runtime := o })
      let s := s.raiseIf (k != byteAt s.bootPolicy 0 % 2) Ev.SEC_BOOT_FALLBACK
      let s := match s.imageChoice b with
        | some (k, i) => imageStart keepPci k i s
        | none => s
      otpCatchUp b.otpFail s

/-! ### The resets -/

/-- POR: VDD_CORE returns; a pending shutdown record is kept (R454). -/
def porReset (b : Boot) (s : State) : State :=
  let f := storesCut b s
  let s := (cleared true false f).set R.THM_SD_STAT_STATE 0
  let s := s.modHif (fun h => { h with strap := b.strap })
  if b.test then s else bootUp false (f.bootFinds b) s

/-- A reset in SHUTDOWN stays there, with every DAC muted and nothing started (R451, R454). -/
def stayDown (s : State) : State := iter 2 (fun p s => if s.hasPort p then hwMute p (R.CNV_DAC_CTRL_HW_THERM p) s else s) s

/-- The RESET_N pin rises after a low pulse that resets (R501). -/
def pinReset (b : Boot) (s : State) : State :=
  let f := storesCut b s
  let s := (cleared false false f).modHif (fun h => { h with strap := b.strap })
  if s.inShutdown then stayDown s else if b.test then s else bootUp false (f.bootFinds b) s

/-- SRST (R384). -/
def softReset (b : Boot) (s : State) : State :=
  let keep := s.isOn R.HIF_CTRL_KEEP_LINK
  let f := storesCut b s
  let s := cleared false keep f
  if s.inShutdown then stayDown s else bootUp keep (f.bootFinds b) s

/-- The standby domain loses its supply (R453, R501). -/
def stbyLoss (s : State) : State :=
  ((s.clearRegs 0x20024 0x20028).clearRegs 0x20060 0x20080).modHif (fun h => { h with ptr := 0 })

/-- RESUME written (R454): the verdict, shown in RESUME_ST; an accepted one acts as SRST. -/
def resume (v : Nat) (b : Boot) (s : State) : State :=
  let s := s.set R.THM_SD_STAT_RESUME_ST v
  if v = St.ok then softReset b (s.set R.THM_SD_STAT_STATE 0) else s

/-! ### Commands -/

/-- POR (R458). -/
def execPor (b : Boot) (s : State) : Out := .next (porReset b s)

/-- RESET_N (R501). -/
def execResetN (b : Boot) (s : State) : Out := .next (pinReset b s)

/-- SRST (R384). -/
def execSrst (b : Boot) (s : State) : Out := .next (softReset b s)

/-- VDD_STBY_LOSS (R501). -/
def execVddStbyLoss (s : State) : Out := .next (stbyLoss s)

/-- RESUME (R454); `force` says that FORCE with its key is written in the same core clock. -/
def execResume (force : Bool) (b : Boot) (s : State) : Out :=
  let v := s.resumeVerdict force
  .next ((resume v b s).answer v [])

end Sys2Proof.Machine
end

