-- ==== Sys2Proof/Machine/Settle.lean ====
section
/-! DEFINITION. What follows at once from a command that moves state of several blocks: regions that take effect, exchanges that
learn how their actions ended, ring commands that complete, clocks, client signals and tiles that follow. -/
namespace Sys2Proof.Machine

/-- An exchange or ring command learns what its action ended with (R162, R330, R381). The switches of a key exchange end
with the answer, not with their results (R292). -/
def endedTake (e : Owner × Nat) (s : State) : State :=
  match e.1 with
  | .prop p d => propEnded p d e.2 s
  | .appr k => apprEnded k e.2 s
  | .ring _ tag => hostFinish tag e.2 0 0 s
  | _ => s

/-- Every ended action handed on, in order. -/
def endedAll : Nat → State → State
  | 0, s => s
  | n + 1, s =>
    match s.swc.ended with
    | [] => s
    | l => endedAll n (l.foldl (fun s e => endedTake e s) (s.modSwc (fun c => { c with ended := [] })))

/-- A SEC_CMD of a ring completes once its mailbox bank is free (R334, R381). -/
def secRings (s : State) : State :=
  let l := s.hif.cmds.filter (fun c => c.op == 12 && c.started && !c.done && !s.isOn (R.SEC_CMD_STAT_BUSY c.bank))
  l.foldl (fun s c => hostFinish c.tag (s.get (R.SEC_CMD_STAT_STATUS c.bank)) (ceilDiv (s.get (R.SEC_CMD_STAT_RLEN c.bank)) 16) 0 s) s

/-- Everything settles. -/
def settle (s : State) : State :=
  let s := stageNext (regionsDue (fun j => j.due) s)
  let s := secRings (endedAll 4 s)
  let s := replaceOutAll none (dpJudgeAll (clkFollow s))
  iter 2 (fun p s => if s.hasPort p then tilesFollow p (if s.isOn (R.LFR_ALIGN_STAT_FA p) then s else tilesLeave p s) else s) s

/-- A command that settles, and one on a port. -/
def late (s : State) : Out := .next (settle s)
def latePort (s : State) (p : Nat) (t : State) : Out := onPort s p (settle t)

end Sys2Proof.Machine
end

