-- ==== Sys2Proof/Machine/RegWrite.lean ====
section
/-! DEFINITION. A register access as the fabric makes it (R8, R366, R370, R511 to R513): what Access does, the two registers that
move whole regions or the whole device, and the response. -/
namespace Sys2Proof.Machine

/-- Written THM_SD_CTRL (R451, R454): FORCE with its key trips, RESUME is judged; both in one clock are judged together. The
start-up of an accepted RESUME finds in flash what was read there last. -/
def sdCtrl (be data : Nat) (s : State) : State :=
  let force := wrBits be data 15 8 = 0x5D && wrBits be data 0 0 = 1
  let v := s.resumeVerdict force
  let s1 := if force then (let r := s.draw (2 ^ 64); trip 2 r.1 r.2) else s
  if wrBits be data 1 1 = 1 then resume v { strap := s.hif.strap } s1 else s1

/-- A write of the 32-bit word at `a`, before the response. -/
def wordPut (w : Writer) (a be data : Nat) (s : State) : Nat × State :=
  if (a = 0xA0008 || a = 0x20020) && s.accessVerdict w.m a = St.ok then
    if a = 0x20020 then (St.ok, sdCtrl be data s)
    else if be % 16 = 0 then (St.ok, s)
    else imgCommand (wrBits be data 3 0) (wrBits be data 10 8) (wrBits be data 19 16) s
  else corePut w a be data s

/-- A write of the 32-bit word at `a`: the status of the response, and the state (R370). -/
def regWrite (w : Writer) (a be data : Nat) (s : State) : Nat × State :=
  let a := a / 4 * 4
  let r := wordPut w a be data s
  (r.1, fabRespond w.m a r.1 r.2)

/-! ### Beats of 128 bits (R367) -/

/-- The words of a beat at `a`: index and address. -/
def beatWords (a : Nat) : List (Nat × Nat) := (List.range 4).map (fun i => (i, a + 4 * i))

/-- A beat written: memories take it whole; of registers each one whose byte enables are set, none where one of them is not mapped. -/
def beatPut (w : Writer) (a be data : Nat) (s : State) : Nat × State :=
  let v := s.accessVerdict w.m a
  let ws := (beatWords a).filter (fun x => be / 16 ^ x.1 % 16 != 0)
  if v ≠ St.ok then (v, s)
  else match s.placeOf a with
    | .tab t => tableWrite w.m t be data s
    | _ =>
      if (targetOf a).1 = 8 then sramWrite (sramKey 8 ((a - 0x10000000) / 16)) be data s
      else if (targetOf a).1 = 9 || (targetOf a).1 = 10 then (St.ok, s)
      else if ws.any (fun x => !s.mapped x.2) then (St.decerr, s)
      else ws.foldl (fun r x =>
        let y := wordPut w x.2 (be / 16 ^ x.1 % 16) (data / 2 ^ (32 * x.1) % 2 ^ 32) r.2
        (firstErr r.1 y.1, y.2)) (St.ok, s)

/-- A beat read: status, its four words, state. Both registers of a latched pair are returned as of one core clock, and the latch is loaded
(R512). A word that no register has reads zero; a beat with none is refused (log entry 159). -/
def beatGet (m a : Nat) (s : State) : Nat × List Nat × State :=
  let v := s.accessVerdict m a
  let regs := (targetOf a).1 < 7
  if v ≠ St.ok then (v, [0, 0, 0, 0], s)
  else if regs && (beatWords a).all (fun x => !s.mapped x.2) then (St.decerr, [0, 0, 0, 0], s)
  else
    let r := (beatWords a).foldl (fun (r : Nat × List Nat × State) x =>
      if regs && !s.mapped x.2 then (r.1, r.2.1 ++ [0], r.2.2)
      else
        let y := placeGet m x.2 (r.2.2.placeOf x.2) r.2.2
        (firstErr r.1 y.1, r.2.1 ++ [y.2.1], y.2.2)) (St.ok, [], s)
    (r.1, if r.1 = St.ok then r.2.1 else [0, 0, 0, 0], r.2.2)

/-- A beat of a write burst. A burst that would cross from a target to another is refused whole; the burst is answered once, with the
status of its first beat that was not OK. -/
def beatWrite (m a be data n : Nat) (s : State) : Out :=
  let a := a / 16 * 16
  if (s.burstAt m true a n).isNone && crosses a n then .next ((fabRespond m a St.decerr s).answer St.decerr [])
  else
    let r := beatPut { m := m } a (be % 2 ^ 16) (data % 2 ^ 128) s
    let (st, bad, t) := beatEnd m true a n r.1 r.2
    .next ((settle (if n = 0 then fabRespond m bad st t else t)).answer (if n = 0 then st else St.ok) [])

/-- A beat of a read burst, answered with its own status. -/
def beatRead (m a n : Nat) (s : State) : Out :=
  let a := a / 16 * 16
  if (s.burstAt m false a n).isNone && crosses a n then .next ((fabRespond m a St.decerr s).answer St.decerr [])
  else
    let r := beatGet m a s
    let t := (beatEnd m false a n r.1 r.2.2).2.2
    .next ((fabRespond m a r.1 t).answer r.1 r.2.1)

/-! ### Commands -/

/-- REGISTER_WRITE (R513): master, address, byte enables, data; or a beat of a burst (R367). -/
def execRegisterWrite (m a be data : Nat) (s : State) (more : Option Nat := none) : Out :=
  match more with
  | none =>
    match bar2At m a with
    | some o => .next ((bar2Write o be data s).answer St.ok [])
    | none =>
      let r := regWrite { m := m } a (be % 16) (data % 2 ^ 32) s
      .next ((settle r.2).answer r.1 [])
  | some n => beatWrite m a be data n s

/-- A read by a master, answered with the value. -/
def readRow (m a : Nat) (s : State) : Out :=
  let r := regRead m a s
  .next (r.2.2.answer r.1 [r.2.1])

/-- LATCHED_READ (R512): a read of any register; one that has partners latches them; or a beat of a burst (R367). -/
def execLatchedRead (m a : Nat) (s : State) (more : Option Nat := none) : Out :=
  match more with
  | none =>
    match bar2At m a with
    | some o => .next (s.answer St.ok [s.bar2Read o])
    | none => readRow m a s
  | some n => beatRead m a n s

/-- READ_CLEAR (R8): a read of any register; its RC fields are cleared. -/
def execReadClear (m a : Nat) (s : State) : Out := readRow m a s

/-- The value of a command row that writes one register: status answered. -/
def writeRow (r : Nat × State) : Out := .next ((settle r.2).answer r.1 [])

/-- ACTION_INSERT (R38): master and descriptor, which stands in SWC_INS_W0 to W3 of its bank. -/
def execActionInsert (m d : Nat) (s : State) : Out :=
  writeRow (if mayInsert m then insertGo m (d % 2 ^ 128) (insPut (bankOf m) d s) else (St.denied, s))

/-- ACTION_REMOVE (R52). -/
def execActionRemove (m h : Nat) (s : State) : Out := writeRow (if mayInsert m then removeGo m (h % 65536) s else (St.denied, s))

/-- TSW_LOAD (R33): SWN_H as written before, and the write of SWC_TSW_LOAD_LO that loads it with SWN_L. -/
def execTswLoad (p sw : Nat) (s : State) : Out :=
  let r := tswPut p sw s
  onReg s (s.hasPort p) (0x100048 + 32 * p) ((settle r.2).answer r.1 [])

/-- RESULT_POP (R54): the master reads SWC_RES_0 and SWC_RES_1 of its bank. -/
def execResultPop (m : Nat) (s : State) : Out :=
  let x := regRead m 0x100144 s
  let y := regRead m 0x100148 x.2.2
  .next (y.2.2.answer x.1 [x.2.1, y.2.1])

/-- TABLE_WINDOW_WRITE (R351): master, word of table RAM, byte enables, 16 bytes. -/
def execTableWindowWrite (m w be v : Nat) (s : State) : Out :=
  let a := 0x8000000 + 16 * w
  let x := s.accessVerdict m a
  let r := if x ≠ St.ok then (x, s) else tableWrite m w (be % 65536) (v % 2 ^ 128) s
  writeRow (r.1, fabRespond m a r.1 r.2)

/-- DIAG_READ (R375). -/
def execDiagRead (m inst w : Nat) (s : State) : Out :=
  let s := diagRun m 1 ((s.set R.FAB_DIAG_CTRL_INST inst).set R.FAB_DIAG_ADDR_WORD w)
  .next (s.answer St.ok [s.get R.FAB_DIAG_CTRL_STATUS, s.get R.FAB_DIAG_CHK_CHECK, s.get R.FAB_DIAG_CHK_VALID])

/-- DIAG_WRITE (R375): data and check bits as given. -/
def execDiagWrite (m inst w v chk : Nat) (s : State) : Out :=
  let s := (s.set R.FAB_DIAG_CTRL_INST inst).set R.FAB_DIAG_ADDR_WORD w
  let s := iter 4 (fun z s => s.set (R.FAB_DIAG_DATA_DATA z) (v / 2 ^ (32 * z))) (s.set R.FAB_DIAG_CHK_CHECK chk)
  let s := diagRun m 2 s
  .next (s.answer St.ok [s.get R.FAB_DIAG_CTRL_STATUS])

/-- FMN_CTRL_WRITE (R471): chain, byte enables, data. -/
def execFmnCtrlWrite (c be data : Nat) (s : State) : Out :=
  let r := regWrite { m := M.host } (0x400100 + 64 * c) (be % 16) (data % 2 ^ 32) s
  onUnit s c 16 ((settle r.2).answer r.1 [])

/-- CORRELATOR_WRITE (R261): port, correlator, byte enables, data. -/
def execCorrelatorWrite (p k be data : Nat) (s : State) : Out :=
  let r := corrCtrl p k (be % 16) (data % 2 ^ 32) s
  onReg s (s.hasPort p && decide (k < 4)) (0x1700020 + 0x1000000 * p + 4 * k) ((settle r.2).answer r.1 [])

/-- ACTIVATE (R349): region and slot. -/
def execActivate (r k : Nat) (s : State) : Out := writeRow (imgActivate r k s)

/-- REGION_RESET (R350). -/
def execRegionReset (r : Nat) (s : State) : Out := writeRow (regionReset r s)

/-- REGION_STAGING_DONE (R348). -/
def execRegionStagingDone (r : FlashResult) (s : State) : Out := late (stagingDone r s)

/-- SCRUB_PASS (R374): every valid word that a raw write left with other check bits is read and corrected. -/
def execScrubPass (s : State) : Out :=
  if s.get R.FAB_SCRUB_PERIOD = 0 then .next s
  else .next ((s.sramChk.foldl (fun s e => (sramRead e.1 s).2.2) s).raise Ev.FAB_SCRUB_DONE)

end Sys2Proof.Machine
end

