-- ==== Sys2Proof/Machine/LineRows.lean ====
section
/-! DEFINITION. The commands of the line ports: receiver, transmitter, proposals, frames (chapters 05 to 08). A command that can move
what another block follows settles. -/
namespace Sys2Proof.Machine

/-! ### Receiver (R126 to R133) -/

/-- The answer of a command row on port `p` that writes the register at offset `o`. -/
def portRow (s : State) (p o : Nat) (r : Nat × State) : Out := onPortReg s p o ((settle r.2).answer r.1 [])

/-- RECEIVER_ENABLE (R126): RXD_CTRL written with EN = 1. -/
def execReceiverEnable (p : Nat) (s : State) : Out := portRow s p 0x200008 (rxdCtrl p s (s.set (R.RXD_CTRL_EN p) 1))

/-- RECEIVER_DISABLE (R126): RXD_CTRL written with EN = 0. -/
def execReceiverDisable (p : Nat) (s : State) : Out := portRow s p 0x200008 (rxdCtrl p s (s.set (R.RXD_CTRL_EN p) 0))

/-- LOS_DECLARE (R130). -/
def execLosDeclare (p : Nat) (s : State) : Out := latePort s p (losDeclare p s)

/-- LOS_CLEAR (R130). -/
def execLosClear (p : Nat) (s : State) : Out := latePort s p (losClear p s)

/-- PAYLOAD_PRESENT (R126). -/
def execPayloadPresent (p : Nat) (present : Bool) (s : State) : Out := latePort s p (payloadSeen p present s)

/-- FREQ_ESTIMATE_DONE (R119, R126), in MHz. -/
def execFreqEstimateDone (p : Nat) (fo : Int) (s : State) : Out := latePort s p (freqDone p fo s)

/-- CD_SCAN_END (R129): the metrics of the coarse and of the fine candidates. -/
def execCdScanEnd (p : Nat) (coarse fine : List Nat) (s : State) : Out := latePort s p (scanEnd p coarse fine s)

/-- EQ_CONVERGED (R126). -/
def execEqConverged (p : Nat) (s : State) : Out := latePort s p (eqDone p s)

/-- ACQ_TIMER_EXPIRY (R127). -/
def execAcqTimerExpiry (p : Nat) (s : State) : Out := latePort s p (acqExpiry p s)

/-- FEC_LOCK_DECLARE (R126, R130). -/
def execFecLockDeclare (p : Nat) (s : State) : Out := latePort s p (fecLock p s)

/-- FEC_LOCK_LOSS (R126, R130). -/
def execFecLockLoss (p : Nat) (s : State) : Out := latePort s p (fecUnlock p s)

/-- FO_OUT_OF_RANGE (R119, R126): the estimate in MHz. -/
def execFoOutOfRange (p : Nat) (fo : Int) (s : State) : Out := latePort s p (foUpdate p fo s)

/-- CYCLE_SLIP (R118): carrier recovery runs from EQ exit. -/
def execCycleSlip (p : Nat) (s : State) (j n k : Nat := 0) : Out := onPort s p (cycleSlip p j n k s)

/-- EQ_SINGULAR (R115): the equaliser runs from EQ on. -/
def execEqSingular (p : Nat) (s : State) (j : Nat := 0) : Out := onPort s p (eqSingular p j s)

/-- ESTIMATE_LATCH (R132, R133, R160). -/
def execEstimateLatch (p : Nat) (e : Estimates) (s : State) : Out :=
  onPort s p (if s.latchDue p then afterLatch p (estLatch p e s) else s)

/-! ### Steering of the LO laser (R120) -/

/-- The offset that the loop steers on: in BEACON with hints applied that of the Sedge receiver, where it is valid (R271). -/
def State.steerFo (s : State) (p : Nat) : Int :=
  if s.rxState p = 1 && s.isOn (R.SGP_NEG_CTRL_HINT_EN p) && s.isOn (R.SGP_RX_FO_VALID p) then s.getI (R.SGP_RX_FO_FO p) else s.getI (R.RXD_FO_FO p)

/-- The step asked for: −clip(round(GAIN/256 × FO), ±LIMIT) MHz, halves away from zero (DESIGN CHOICE). -/
def State.ftuneStep (s : State) (p : Nat) : Int :=
  let x := s.steerFo p * s.get (R.RXD_FTUNE_GAIN p)
  let r : Int := (x.natAbs + 128) / 256
  let lim : Int := s.get (R.RXD_FTUNE_LIMIT p)
  clampInt (-lim) lim (if x < 0 then r else -r)

/-- One FTUNE message, on the enabled lane of ROLE 2 + 3p (R428, R432). Without such a lane, and while the core that holds
the loop does not run, nothing is sent (R18). -/
def ftuneSend (p : Nat) (s : State) : State :=
  match s.roleLane (2 + 3 * p) with
  | some n =>
    if s.isOn (R.RXD_FTUNE_EN p) && s.loopRuns (linkLoops p) then
      let (tag, s) := (stlDepart n s).draw 128
      stlSend n ([0x10, tag, 0, 2] ++ bytesBe 2 (toField 16 (s.ftuneStep p))) s
    else s
  | none => s

/-- FTUNE_SEND (R120). -/
def execFtuneSend (p : Nat) (s : State) : Out := onPort s p (ftuneSend p s)

/-- FO_ALARM (R120): |FO| above ALARM, in 4 MHz, for 16 swaths in LOCKED. -/
def execFoAlarm (p : Nat) (s : State) : Out :=
  onPort s p (s.raiseIf (s.rxState p == 7 && decide (4 * s.get (R.RXD_FTUNE_ALARM p) < (s.getI (R.RXD_FO_FO p)).natAbs)) (Ev.RXD_FO_RANGE p))

/-! ### Transmitter and adaptation (R154 to R166) -/

/-- TRANSMITTER_MODE_WRITE (R154). -/
def execTransmitterModeWrite (p mode : Nat) (s : State) : Out := portRow s p 0x400008 (txModeWrite p mode s)

/-- TRANSMITTER_STOP (R154): the frame boundary after MODE left PAYLOAD. -/
def execTransmitterStop (p : Nat) (s : State) : Out := latePort s p (txStop p s)

/-- ADJ_MISMATCH_SWAP (R165). -/
def execAdjMismatchSwap (p : Nat) (s : State) : Out := onPort s p (adjSwap p s)

/-- REPORT_RECEIVE (R160): the body of a report delivered to the core. -/
def execReportReceive (p : Nat) (b : List Nat) (s : State) : Out := onPort s p (reportTake p b s)

/-- REPORT_MISS (R160). -/
def execReportMiss (p : Nat) (s : State) : Out := onPort s p (reportMissed p s)

/-- PROPOSE_GO (R162): direction, whether a rung is proposed, identifier, index. -/
def execProposeGo (p d : Nat) (rung : Bool) (id i : Nat) (s : State) : Out := portRow s p 0x400070 (propGo p (d % 2) rung (id % 256) (i % 64) s)

/-- PROPOSE_ABORT (R162). -/
def execProposeAbort (p d : Nat) (s : State) : Out := portRow s p 0x400070 (St.ok, propAbort p (d % 2) St.aborted s)

/-- PROPOSE_RECEIVE (R163). -/
def execProposeReceive (p : Nat) (b : List Nat) (s : State) : Out := latePort s p (proposeTake p b s)

/-- ACCEPT_RECEIVE (R163). -/
def execAcceptReceive (p : Nat) (b : List Nat) (s : State) : Out := latePort s p (acceptTake p b s)

/-- REJECT_RECEIVE (R163). -/
def execRejectReceive (p : Nat) (b : List Nat) (s : State) : Out := latePort s p (rejectTake p b s)

/-- COMMIT_RECEIVE (R163). -/
def execCommitReceive (p : Nat) (b : List Nat) (s : State) : Out := latePort s p (commitTake p b s)

/-- ABORT_RECEIVE (R164). -/
def execAbortReceive (p : Nat) (b : List Nat) (s : State) : Out := latePort s p (abortTake p b s)

/-- RESPONSE_TIMEOUT (R164). -/
def execResponseTimeout (p d : Nat) (s : State) : Out := latePort s p (propTimeout p (d % 2) s)

/-- CROSSING_BACKOFF_EXPIRY (R276): of a direction, or with `key` of a context. -/
def execCrossingBackoffExpiry (p : Nat) (key : Bool) (i : Nat) (s : State) : Out :=
  latePort s p (backoffEnd p key (if key then i % 32 else i % 2) s)

/-- CROSSING_HOLD_EXPIRY (R276). -/
def execCrossingHoldExpiry (p : Nat) (key : Bool) (i : Nat) (s : State) : Out :=
  onPort s p (holdEnd p key (if key then i % 32 else i % 2) s)

/-! ### Frames (R202 to R217, R354) -/

/-- Byte `i` of the user bytes, sampled for the swath that begins (R354): zero where a register read fails. -/
def userByte (t i : Nat) (s : State) : Nat × State :=
  let e := s.tabWord t false (1 + i)
  let lane := fun (x : Nat) => x / 2 ^ (8 * bits e 17 16) % 256
  match bits e 2 0 with
  | 1 => (bits e 15 8, s)
  | 2 =>
    let r := regRead M.hedgerow (4 * bits e 57 32) s
    (if r.1 = St.ok then lane r.2.1 else 0, r.2.2)
  | 3 => (lane ((s.seq (bits e 23 20)).vars.getD (bits e 26 24) 0), s)
  | _ => (0, s)

/-- The 48 user bytes of port `p` by its DOH format table; zero without one (R218). -/
def userSample (p : Nat) (s : State) : List Nat × State :=
  let t := s.get (R.LFR_DOH_TX_TABLE p)
  if t = 0xFFFF || !s.loaded t then ([], s)
  else (List.range 48).foldl (fun r i => let x := userByte t i r.2; (r.1 ++ [x.1], x.2)) ([], s)

/-- TX_FRAME_BUILD (R153, R204 to R208): what clients bring, and the samples of the DAC lanes. -/
def execTxFrameBuild (p : Nat) (clients : List (List ClientSig)) (lanes : List (List Int)) (s : State) : Out :=
  latePort s p (
    if s.txState p ≠ 2 then s
    else
      let r := if s.txNext p % 256 = 0 then userSample p s else ([], s)
      predistort p lanes (frameSend p r.1 clients r.2))

/-- FAS_SEARCH_HIT (R210): the position in columns and the 512 header bytes found there. -/
def execFasSearchHit (p pos : Nat) (header : List Nat) (s : State) : Out := onPort s p (searchHit p pos header s)

/-- CANDIDATE_EXAMINE (R211). -/
def execCandidateExamine (p k : Nat) (header : List Nat) (s : State) : Out :=
  onPortUnit s p k 4 (settle (candExamine p k header s))

/-- FRAME_HEADER_RECEIVE (R208, R213 to R217): tiles that wait for the boundary leave first (R488). -/
def execFrameHeaderReceive (p : Nat) (x : RxFrame) (s : State) : Out := latePort s p (frameReceive p x (tilesLeave p s))

/-- FA_LOSS (R213). -/
def execFaLoss (p : Nat) (s : State) : Out := latePort s p (faLost p s)

/-- SKEW_MEASURE (R230, R231): none where the measurement could not be made. -/
def execSkewMeasure (m : Option Int) (s : State) : Out := late (skewMeasure m s)

/-! ### Client lanes and groups (R234 to R240) -/

/-- LANE_LOCK (R234). -/
def execLaneLock (n d : Nat) (s : State) : Out := onUnit s (64 * (d / 2) + n) 64 (settle (laneLock n d s))

/-- LANE_WAKE_TIMEOUT (R234). -/
def execLaneWakeTimeout (n d : Nat) (s : State) : Out := onUnit s (64 * (d / 2) + n) 64 (settle (laneWakeTimeout n d s))

/-- LANE_TEST_DONE (R234). -/
def execLaneTestDone (n d : Nat) (bad : Bool) (s : State) : Out := onUnit s (64 * (d / 2) + n) 64 (settle (laneTestDone n d bad s))

/-- LANE_JOIN (R234). -/
def execLaneJoin (n d : Nat) (s : State) : Out := onUnit s (64 * (d / 2) + n) 64 (settle (laneJoin n d s))

/-- LANE_LOS (R234). -/
def execLaneLos (n : Nat) (los : Bool) (s : State) : Out := onUnit s n 64 (settle (laneLos n los s))

/-- CLIENT_GROUP_UP (R240). -/
def execClientGroupUp (g spread : Nat) (s : State) (wrong : List Nat := []) : Out := onUnit s g 64 (settle (groupUp g spread wrong s))

/-- CLIENT_LANE_LOCK_LOSS (R240). -/
def execClientLaneLockLoss (g k : Nat) (s : State) : Out := onUnit s g 64 (settle (groupLockLoss g k s))

/-- HI_SER_DETECT (R238). -/
def execHiSerDetect (g : Nat) (on : Bool) (s : State) : Out := onUnit s g 64 (settle (hiSer g on s))

/-! ### Heat and power (R446 to R456) -/

/-- THM_SAMPLE (R446): readings in 0.1 °C, open diodes, device time in ns. -/
def execThmSample (temps : List Int) (opens now : Nat) (s : State) : Out := late (thmSample temps opens now s)

/-- SHUTDOWN_FORCE (R451): a write of THM_SD_CTRL with FORCE; it acts with KEY 0x5D. -/
def execShutdownForce (key now : Nat) (s : State) : Out :=
  .next ((settle (if key = 0x5D then trip 2 now s else s)).answer St.ok [])

/-- RAIL_FAULT (R451): rails outside their windows for 10 µs. -/
def execRailFault (rails now : Nat) (s : State) : Out := late (railFault rails now s)

/-- DOMAIN_POWER_UP_DONE (R456). -/
def execDomainPowerUpDone (d : Nat) (s : State) : Out := onUnit s d 248 (settle (powerDone d s))

end Sys2Proof.Machine
end

