-- ==== Sys2Proof/Machine/ChannelRows.lean ====
section
/-! DEFINITION. The commands of the Sedge channel, of key rolls and of the security core (chapters 10 to 12). -/
namespace Sys2Proof.Machine

/-! ### Sedge (R258 to R278) -/

/-- Master `m` may use transmit buffer `b` (R258). -/
def bufOwned (m b : Nat) : Bool := 8 ≤ b || m == M.sedge

/-- SEDGE_ARM (R258). -/
def execSedgeArm (m p b : Nat) (s : State) : Out :=
  let r := if bufOwned m b then armBuf p b s else (St.denied, s)
  onReg s (s.hasPort p && decide (b < 16)) (0x1700200 + 0x1000000 * p + 4 * b) ((settle r.2).answer r.1 [])

/-- SEDGE_PACKET_START (R258, R259). -/
def execSedgePacketStart (p : Nat) (s : State) (gap : Nat := 16) : Out := onPort s p (packetStart p gap s)

/-- SEDGE_TX_DONE (R258). -/
def execSedgeTxDone (p : Nat) (s : State) : Out := onPort s p (txDone p s)

/-- SEDGE_PREAMBLE_DETECT (R262, R263): correlator, peak, run, chip phase and frequency offset found; `joint` says that it comes in the
core clock of a freeze on alignment (R72). -/
def execSedgePreambleDetect (p k m run : Nat) (rel fo : Int) (s : State) (joint : Bool := false) : Out :=
  onPortUnit s p k 4 (settle (preamble p k m run rel fo joint s))

/-- SEDGE_DELIMITER_FOUND (R264). -/
def execSedgeDelimiterFound (p k : Nat) (s : State) : Out := onPortUnit s p k 4 (delimiter p k s)

/-- SEDGE_DELIMITER_TIMEOUT (R264). -/
def execSedgeDelimiterTimeout (p k : Nat) (s : State) : Out := onPortUnit s p k 4 (delimTimeout p k s)

/-- SEDGE_HEADER_DECODE (R265): the 64-bit header decoded. -/
def execSedgeHeaderDecode (p k h : Nat) (s : State) : Out := onPortUnit s p k 4 (headerDecode p k h s)

/-- SEDGE_BODY_DECODE (R266 to R268): the body bytes and the CRC decoded. -/
def execSedgeBodyDecode (p k : Nat) (body : List Nat) (crc : Nat) (s : State) : Out := onPortUnit s p k 4 (bodyDecode p k body crc s)

/-- SEDGE_RXQ_POP (R278). -/
def execSedgeRxqPop (p : Nat) (s : State) : Out := portRow s p 0x700070 (St.ok, rxqPop p s)

/-- HELLO_SEND (R270). -/
def execHelloSend (p : Nat) (s : State) : Out := onPort s p (helloSend p s)

/-- HELLO_RECEIVE (R270, R271). -/
def execHelloReceive (p : Nat) (b : List Nat) (s : State) : Out := onPort s p (helloReceive p b s)

/-- PEER_SEEN_TIMEOUT (R271). -/
def execPeerSeenTimeout (p : Nat) (s : State) : Out := onPort s p (peerTimeout p s)

/-! ### Key rolls (R292, R336): they wait while the Ling runtime is replaced -/

/-- KEY_ROLL_GO (R292). -/
def execKeyRollGo (p c id slot : Nat) (both : Bool) (s : State) : Out :=
  let r := keyGo p (c % 32) (id % 256) (slot % 2) both s
  onReg s (s.hasPort p) 0x4000040 ((settle r.2).answer r.1 [])

/-- KEY_PROP_RECEIVE (R292). -/
def execKeyPropReceive (p : Nat) (b : List Nat) (s : State) : Out := latePort s p (lingHear p 0x20 b s)

/-- KEY_ACK_RECEIVE (R292). -/
def execKeyAckReceive (p : Nat) (b : List Nat) (s : State) : Out := latePort s p (lingHear p 0x21 b s)

/-- KEY_NAK_RECEIVE (R292). -/
def execKeyNakReceive (p : Nat) (b : List Nat) (s : State) : Out := latePort s p (lingHear p 0x22 b s)

/-- KEY_TIMEOUT (R292): the timers of an exchange run on in a swap. -/
def execKeyTimeout (p c : Nat) (s : State) : Out := latePort s p (keyTimeoutEnd p (c % 32) s)

/-! ### Mailbox operations (R334, R335): master and descriptor -/

/-- A mailbox command. -/
def mailRow (op m d : Nat) (r : FlashResult) (s : State) : Out := .next (settle (mailCommand op m (d % 2 ^ 128) r s).2)

/-- INFO. -/
def execInfo (m d : Nat) (s : State) : Out := mailRow 1 m d {} s

/-- KTK_LOAD. -/
def execKtkLoad (m d : Nat) (s : State) : Out := mailRow 2 m d {} s

/-- KEY_GEN. -/
def execKeyGen (m d : Nat) (s : State) : Out := mailRow 3 m d {} s

/-- KEY_INSTALL. -/
def execKeyInstall (m d : Nat) (s : State) : Out := mailRow 4 m d {} s

/-- KEY_ERASE. -/
def execKeyErase (m d : Nat) (s : State) : Out := mailRow 5 m d {} s

/-- SESS_LOAD. -/
def execSessLoad (m d : Nat) (s : State) : Out := mailRow 6 m d {} s

/-- SESS_ERASE. -/
def execSessErase (m d : Nat) (s : State) : Out := mailRow 7 m d {} s

/-- PNONCE. -/
def execPnonce (m d : Nat) (s : State) : Out := mailRow 8 m d {} s

/-- PROPOSE of the security core (R322 to R328). -/
def execSecPropose (m d : Nat) (s : State) : Out := mailRow 9 m d {} s

/-- APPROVE. -/
def execApprove (m d : Nat) (s : State) : Out := mailRow 0xA m d {} s

/-- WITHDRAW. -/
def execWithdraw (m d : Nat) (s : State) : Out := mailRow 0xB m d {} s

/-- ENROL. -/
def execEnrol (m d : Nat) (s : State) : Out := mailRow 0xC m d {} s

/-- LOCK. -/
def execLock (m d : Nat) (s : State) : Out := mailRow 0xD m d {} s

/-- ATTEST. -/
def execAttest (m d : Nat) (s : State) : Out := mailRow 0xE m d {} s

/-- ATT_KEY. -/
def execAttKey (m d : Nat) (s : State) : Out := mailRow 0xF m d {} s

/-- EPOCH. -/
def execEpoch (m d : Nat) (s : State) : Out := mailRow 0x10 m d {} s

/-- RT_SWAP, with the boot image read. -/
def execRtSwap (m d : Nat) (r : FlashResult) (s : State) : Out := mailRow 0x11 m d r s

/-! ### What the security core finishes -/

/-- RT_SWAP_DONE (R336): what waited goes on. -/
def execRtSwapDone (s : State) : Out := late (if s.sec.swap.isNone then s else lingResume (rtSwapDone s))

/-- APPROVAL_RECORD_COMMIT (R329, R330): how the commit ended, and whether OTP programming fails. -/
def execApprovalRecordCommit (failAt : Option Nat) (otpFail : Bool) (s : State) (time : Nat := 0) : Out := late (recordCommit failAt otpFail time s)

/-- ATT_RESERVE_DONE (R338). -/
def execAttReserveDone (failAt : Option Nat) (s : State) (time : Nat := 0) : Out := late (attReserved failAt time s)

/-- APPR_CONF_SEND (R331). -/
def execApprConfSend (k : Nat) (s : State) : Out := onUnit s k 16 (lingHear 0 0 [k] s)

/-- APPR_CONF_RECEIVE (R331). -/
def execApprConfReceive (p : Nat) (b : List Nat) (s : State) : Out := onPort s p (lingHear p 0x28 b s)

/-- APPR_ACK_RECEIVE (R331). -/
def execApprAckReceive (p : Nat) (b : List Nat) (s : State) : Out := latePort s p (lingHear p 0x29 b s)

/-- APPR_NAK_RECEIVE (R331). -/
def execApprNakReceive (p : Nat) (b : List Nat) (s : State) : Out := onPort s p (lingHear p 0x2A b s)

/-- PROPOSAL_DEADLINE (R331). -/
def execProposalDeadline (k : Nat) (s : State) : Out := onUnit s k 16 (settle (propDeadline k s))

end Sys2Proof.Machine
end

