-- ==== Sys2Proof/Machine/Rings.lean ====
section
/-! DEFINITION. The ring commands of the host that are not the flash store's (R381): each starts in fetch order (R382) and completes
with an entry (R383). `tag` names the outstanding command, `b` the bytes that its host buffer holds. -/
namespace Sys2Proof.Machine

/-- The 32-bit or longer number in the arguments, byte 16 of the command first. -/
def HostCmd.arg (c : HostCmd) (i n : Nat) : Nat := leAt c.args (i - 16) n

/-- The master that issues a command of the rings: the Gorse core that runs, either where both do (R42). -/
def gorseMaster (s : State) : Nat × State :=
  if s.coreRuns 4 && s.coreRuns 5 then
    let r := s.draw 2
    (6 + r.1, r.2)
  else (if s.coreRuns 5 then 7 else 6, s)

/-- A command that starts, runs at once and completes with status, units written, RESULT and the data read. -/
def ringRun (op tag : Nat) (f : HostCmd → State → Nat × Nat × Nat × List Nat × State) (s : State) : Out :=
  late (ringStart op tag (fun c s =>
    let r := f c s
    (hostFinish tag r.1 r.2.1 r.2.2.1 r.2.2.2.2).answer r.1 r.2.2.2.1) s)

/-- NOP. -/
def execNop (tag : Nat) (s : State) : Out := ringRun 0 tag (fun _ s => (St.ok, 0, 0, [], s)) s

/-- CAL_INSERT: an insertion at rank 3 through the Gorse bank. With WAIT the action belongs to the command, which completes
with its result. -/
def calInsert (tag : Nat) (c : HostCmd) (s : State) : State :=
  let wait := bitAt c.flags 1 == 1
  let r := insertAction 6 (c.arg 16 16) (if wait then .ring c.sq tag else .none) false s
  if r.1 = St.ok && wait then r.2.2.answer r.1 [r.2.1]
  else (hostFinish tag r.1 0 (if r.1 = St.ok then r.2.1 else 0) r.2.2).answer r.1 [r.2.1]

def execCalInsert (tag : Nat) (s : State) : Out := late (ringStart 1 tag (calInsert tag) s)

/-- CAL_REMOVE. -/
def execCalRemove (tag : Nat) (s : State) : Out :=
  ringRun 2 tag (fun c s => let r := removeAct 6 (c.arg 16 2) s; (r.1, 0, 0, [], r.2)) s

/-- The first of two statuses that is not OK. -/
def worse (a b : Nat) : Nat := if a ≠ St.ok then a else b

/-- Words written to table RAM from word `w` on, 16 bytes each. -/
def tableWriteRun (m w : Nat) : List Nat → State → Nat × State
  | [], s => (St.ok, s)
  | v :: r, s =>
    let x := tableWrite m w 0xFFFF v s
    let y := tableWriteRun m (w + 1) r x.2
    (worse x.1 y.1, y.2)

/-- `n` words read. -/
def tableReadRun (m : Nat) : Nat → Nat → State → Nat × List Nat × State
  | _, 0, s => (St.ok, [], s)
  | w, n + 1, s =>
    let x := tableRead m w s
    let y := tableReadRun m (w + 1) n x.2.2
    (worse x.1 y.1, x.2.1 :: y.2.1, y.2.2)

/-- TABLE_WRITE: LENGTH words of the buffer. -/
def execTableWrite (tag : Nat) (b : List Nat) (s : State) : Out :=
  ringRun 3 tag (fun c s =>
    let (m, s) := gorseMaster s
    let r := tableWriteRun m (c.arg 16 4) ((List.range c.len).map (fun i => leAt b (16 * i) 16)) s
    (r.1, 0, 0, [], r.2)) s

/-- TABLE_READ: LENGTH words into the buffer. -/
def execTableRead (tag : Nat) (s : State) : Out :=
  ringRun 4 tag (fun c s =>
    let (m, s) := gorseMaster s
    let r := tableReadRun m (c.arg 16 4) c.len s
    (r.1, c.len, 0, r.2.1, r.2.2)) s

/-- SNAPSHOT_READ: the shadow bank, one counter in 8 bytes, as far as the buffer reaches. -/
def execSnapshotRead (tag : Nat) (s : State) : Out :=
  ringRun 9 tag (fun c s => (St.ok, c.len, 0, (List.range (2 * c.len)).map (fun i => getAt 0 s.pmc.shd i), s)) s

/-- The channel that a GCC command names: 3 × port + channel. -/
def State.gccChannel (s : State) (c : HostCmd) : Option Nat :=
  if s.hasPort (c.arg 16 1) && c.arg 17 1 < 3 then some (3 * c.arg 16 1 + c.arg 17 1) else none

/-- GCC_SEND: the bytes of the buffer go into the channel. -/
def execGccSend (tag : Nat) (b : List Nat) (s : State) : Out :=
  ringRun 10 tag (fun c s =>
    match s.gccChannel c with
    | some k => (St.ok, 0, 0, [], s.modHif (fun h => { h with gcc := setAt [] h.gcc k (b.take (16 * c.len)) }))
    | none => (St.decerr, 0, 0, [], s)) s

/-- GCC_RECV: the bytes `b` that Gorse holds from the channel go into the buffer. -/
def execGccRecv (tag : Nat) (b : List Nat) (s : State) : Out :=
  ringRun 11 tag (fun c s =>
    match s.gccChannel c with
    | some _ => let d := b.take (16 * c.len); (St.ok, ceilDiv d.length 16, 0, d, s)
    | none => (St.decerr, 0, 0, [], s)) s

/-- SEC_CMD: the buffer goes into the data window of the issuing core's bank and the descriptor runs there; the command completes
once the bank is free. -/
def secCmd (tag : Nat) (b : List Nat) (c : HostCmd) (s : State) : State :=
  let (m, s) := gorseMaster s
  if s.isOn (R.SEC_CMD_STAT_BUSY m) then hostFinish tag St.busy 0 0 s
  else
    let s := winWrite m 0 (b.take (16 * c.len)) s
    let s := s.modHif (fun h => { h with cmds := h.cmds.map (fun x => if x.tag = tag then { x with bank := m } else x) })
    let d := c.arg 16 16
    (mailCommand (cOp d) m d {} s).2

def execSecCmd (tag : Nat) (b : List Nat) (s : State) : Out := late (ringStart 12 tag (secCmd tag b) s)

end Sys2Proof.Machine
end

