-- ==== Sys2Proof/Machine/Executor.lean ====
section
/-! DEFINITION. The calendar's executor (R36, R37, R44, R46 to R51, R54, R159, R259, R303, R348): staging, the order of actions at a
boundary, contradictions, and what each kind of action does. -/
namespace Sys2Proof.Machine

/-! ### Positions -/

/-- The executor serves direction `d`: its position runs and the device is not in SHUTDOWN. -/
def State.execRuns (s : State) (d : Nat) : Bool := (s.pdPos d).valid && !s.inShutdown

/-! ### Staging (R36, R54, R348) -/

def setPhase (f : Act → Bool) (ph : Nat) (s : State) : State :=
  s.modSwc (fun c => { c with acts := c.acts.map (fun a => if f a then { a with phase := ph } else a) })

def State.jobOf (s : State) (a : Act) : Option RegionJob := s.swc.jobs.find? (fun j => j.bank == a.bank && j.handle == a.handle)

/-- Pending actions of direction `d` keyed to position `n` are staged: one whose descriptor is uncorrectable, or a region whose
staging is not done, ends instead. `bad` lists uncorrectable ones as (bank, handle). -/
def stageAt (d n : Nat) (bad : List (Nat × Nat)) (s : State) : State :=
  let mine := fun (a : Act) => a.phase == 0 && dPd a.desc == d && dPos a.desc == n
  let s := (s.swc.acts.filter mine).foldl (fun s a =>
    let r := descRead a (bad.contains (a.bank, a.handle)) s
    let s := r.2
    if r.1 ≠ St.ok then complete a St.uncorr 0 s
    else if dKind a.desc = 3 && (match s.jobOf a with | some j => j.phase != 2 | none => true) then complete a St.busy 0 s
    else s) s
  setPhase mine 1 s

/-- ACTION_STAGE: at the start of a frame of direction `d`. -/
def actionStage (d : Nat) (bad : List (Nat × Nat)) (s : State) : State := if s.execRuns d then stageAt d (s.nextPos d + 1) bad s else s

/-! ### Contradictions (R50) -/

/-- The parameter of an action (R44); none where its kind has none. -/
def paramOf (d : Nat) : Option (Nat × Nat) :=
  let a := dArg d
  match dKind d with
  | 1 => some (1, bits a 57 32)
  | 2 => some (2, bits a 15 0)
  | 3 => some (3, bits a 3 0)
  | 4 => some (4, bits a 4 0)
  | 5 => some (5, 0)
  | _ => none

/-- Two actions on one parameter set different values. -/
def differ (a b : Nat) : Bool :=
  let x := dArg a
  let y := dArg b
  match dKind a with
  | 1 => (List.range 4).any (fun i => bitAt (bits x 63 60 &&& bits y 63 60) i == 1 && bits x (8 * i + 7) (8 * i) != bits y (8 * i + 7) (8 * i))
  | 2 => bitAt x 16 != bitAt y 16
  | 3 => bits x 11 8 != bits y 11 8
  | 4 => bitAt x 8 != bitAt y 8
  | 5 => bits x 5 0 != bits y 5 0
  | _ => false

/-- `b` stands against `a`: higher in rank, or of the same rank and inserted later. -/
def Act.outranks (b a : Act) : Bool := decide (dRank a.desc < dRank b.desc) || (dRank a.desc == dRank b.desc && decide (a.seq < b.seq))

def Act.contradicts (a b : Act) : Bool :=
  dPos a.desc == dPos b.desc && (paramOf a.desc).isSome && paramOf a.desc == paramOf b.desc && differ a.desc b.desc

/-! ### Order (R48) -/

/-- `a` executes before `b`: by frame position, descending rank, insertion. Deferred actions have the lower positions. -/
def Act.before (a b : Act) : Bool :=
  decide (dPos a.desc < dPos b.desc) || (dPos a.desc == dPos b.desc &&
    (decide (dRank b.desc < dRank a.desc) || (dRank a.desc == dRank b.desc && decide (a.seq < b.seq))))

def insertAct (a : Act) : List Act → List Act
  | [] => [a]
  | b :: r => if a.before b then a :: b :: r else b :: insertAct a r

def orderActs (l : List Act) : List Act := l.foldr insertAct []

/-! ### One action (R46) -/

/-- KIND 6: the buffer queued as ARM would (R259). -/
def sendAct (p b : Nat) (s : State) : Nat × State :=
  let fail := fun (v : Nat) => (v, s.raise (Ev.SGP_TX_FAIL p))
  if s.bufState p b ≠ 1 then fail St.conflict
  else if s.armVerdict p b ≠ St.ok then fail (s.armVerdict p b)
  else (St.ok, (armBuf p b s).2)

/-- KIND 7 keyed to position `key`, at boundary `n` of direction `d`: snapshots staged for one boundary, also where one was deferred past
it, and snapshots of one core clock are taken once, the latter at the position of the lowest direction (R46, R467). -/
def snapAct (d key n : Nat) (s : State) : State :=
  let same := getAt 0 s.swc.snaps d == key + 1
  let t := if same then s
    else match s.swc.snapNow with
      | some e => if d < e then snapPos d (n / 256) s else s
      | none => snapTake d (n / 256) s
  t.modSwc (fun c => { c with snaps := setAt 0 c.snaps d (key + 1), snapNow := if same then c.snapNow else some (min d (c.snapNow.getD d)) })

/-- What an action does at boundary `n` of its direction: its status but for lateness. -/
def runAct (a : Act) (n : Nat) (s : State) : Nat × State :=
  let d := dPd a.desc
  let p := d / 2
  let x := dArg a.desc
  match dKind a.desc with
  | 1 => regWrite { m := M.executor, sch := true, pd := d, swath := n % 256 == 0 } (4 * bits x 57 32) (bits x 63 60) (bits x 31 0) s
  | 2 =>
    let t := bits x 15 0
    let rx := d % 2 == 1
    if s.actBank t rx = bitAt x 16 then (St.ok, s) else (St.ok, tableFollow t s (s.makeActive t (bitAt x 16) rx))
  | 3 =>
    let s := s.modSwc (fun c => { c with jobs := c.jobs.map (fun j => if j.bank = a.bank && j.handle = a.handle then { j with phase := 4 } else j) })
    (St.ok, if n % 256 = 0 then regionsDue (fun j => j.bank == a.bank && j.handle == a.handle) s else s)
  | 4 => keySwitch p (d % 2) (bits x 4 0) (bitAt x 8) s
  | 5 => if s.rungOk p (bits x 5 0) then (St.ok, rateChange p (d % 2) (bits x 5 0) s) else (St.conflict, s)
  | 6 => sendAct p (bits x 15 0) s
  | 7 => (St.ok, snapAct d (dPos a.desc) n s)
  | 8 => (St.ok, latchCode (bits x 19 16) (bits x 7 0) s)
  | 9 => (St.ok, s.raise Ev.SWC_HOST_EVENT)
  | _ => (St.ok, s)

/-- An action executed and completed (R49, R54). One that another action has ended meanwhile is gone. -/
def doAct (n : Nat) (a : Act) (s : State) : State :=
  match s.findAct a.bank a.handle with
  | none => s
  | some b =>
    if b.seq ≠ a.seq then s
    else
      let r := runAct a n s
      let late := min 255 (n - dPos a.desc)
      match r.2.findAct a.bank a.handle with
      | some c => if c.seq = a.seq then complete c (if r.1 = St.ok && 0 < late then St.late else r.1) late r.2 else r.2
      | none => r.2

def doActs (n : Nat) : List Act → State → State
  | [], s => s
  | a :: r, s => doActs n r (doAct n a s)

/-! ### A boundary (R48, R159) -/

/-- Direction `k` of port `p` is in use, and what its voidness rests on: its rung and its adjustment set (R149). -/
def State.adjBasis (s : State) (p k : Nat) : Option (Nat × Rung × Nat × AdjSet) :=
  if (if k = 0 then s.get (R.TXD_STATE_STATE p) = 2 else s.get (R.RXD_ACQ_STATE p) ≠ 0) then
    some (s.dirRungIx p k, s.dirRung p k, s.actBank (adjTab p k) false, s.adjActive p k)
  else none

/-- The sets of the directions whose rung or set the actions of a boundary have changed are judged (R149, R159): `old` is the state before.
Actions of KIND 6 to 9 change neither. -/
def adjFollow (old s : State) : State :=
  iter 4 (fun i s =>
    let p := i / 2
    let k := i % 2
    if (old.adjBasis p k).isSome && (s.adjBasis p k).isSome && old.adjBasis p k ≠ s.adjBasis p k then judgeAdj p k s else s) s

/-- CAL_EXECUTE: the boundary that begins the next frame of direction `d`. A contradiction is judged here, among the actions staged, and
its losers end with CONFLICT here: R50 judges at staging, R48 resolves at the boundary (DESIGN CHOICE, log entry 26). -/
def calExecute (d : Nat) (joint : Bool) (s : State) : State :=
  if !s.execRuns d then s
  else
    let n := s.nextPos d
    let s := if joint then s else s.modSwc (fun c => { c with snapNow := none })
    let s := if n % 256 = 0 then regionsDue (fun j => j.pd == d) s else s
    let s := stageAt d n [] s
    let all := s.swc.acts.filter (fun a => dPd a.desc == d && (a.phase == 2 || (a.phase == 1 && dPos a.desc == n)))
    let lose := all.filter (fun a => a.phase == 1 && all.any (fun b => b.phase == 1 && a.contradicts b && b.outranks a))
    let s := (orderActs lose).foldl (fun s a => complete { a with phase := 3 } St.conflict 0 s) s
    let left := orderActs (all.filter (fun a => !lose.contains a))
    let run := left.take 64
    let rest := left.drop 64
    let s := setPhase (fun a => run.contains a) 3 s
    let s := setPhase (fun a => rest.contains a) 2 s
    let first := fun (a : Act) => dKind a.desc == 2 || dKind a.desc == 3
    let old := s
    let s := doActs n (run.filter first ++ run.filter (fun a => !first a)) s
    let s := if rest.any (fun a => dKind a.desc == 7) then s else s.modSwc (fun c => { c with snaps := setAt 0 c.snaps d 0 })
    if run.any (fun a => decide (dKind a.desc < 6)) then adjFollow old s else s

/-! ### Commands -/

/-- ACTION_STAGE (R36). -/
def execActionStage (d : Nat) (bad : List (Nat × Nat)) (s : State) : Out := onPd s d (settle (actionStage d bad s))

/-- CAL_EXECUTE (R48). -/
def execCalExecute (d : Nat) (s : State) (joint : Bool := false) : Out := onPd s d (settle (calExecute d joint s))

end Sys2Proof.Machine
end

