-- ==== Sys2Proof/Machine/Rounds.lean ====
section
/-! DEFINITION. A round of a Hedgerow sequencer (R356 to R358): conditions, choice, actions, entry. -/
namespace Sys2Proof.Machine

/-! ### Compares and conditions (R356) -/

/-- Byte `i` (0 to 47) of the received user bytes of port `p` (R354). -/
def State.dohByte (s : State) (p i : Nat) : Nat := s.get (R.HDG_DOH_RX_BYTES p (i / 4)) / 2 ^ (8 * (i % 4)) % 256

/-- The source of a compare word, for HQn: none where its register read fails. -/
def cmpSource (n w : Nat) (s : State) : Option Nat × State :=
  let x := bits w 20 8
  let cnt := fun (m : Sparse Nat) => getAt 0 m x
  match bits w 3 0 with
  | 1 =>
    let r := regRead M.hedgerow (4 * bits w 57 32) s
    if r.1 = St.ok then (some r.2.1, r.2.2) else (none, r.2.2.raise Ev.HDG_READ_ERR)
  | 2 => (some (cnt s.pmc.cnt % 2 ^ 32), s)
  | 3 => (some ((cnt s.pmc.cnt + 2 ^ 48 - cnt (s.seq n).base) % 2 ^ 32), s)
  | 4 => (some ((s.seq (bits x 11 8)).vars.getD (bits x 2 0) 0), s)
  | 5 => (some (s.dohByte (bitAt x 8) (bits x 5 0)), s)
  | 6 => (some (s.posN (bits x 1 0) / 256 % 2 ^ 32), s)
  | _ => (none, s)

/-- (source AND MASK) OP VALUE. -/
def cmpHolds (w v : Nat) : Bool :=
  let a := v &&& bits w 95 64
  let b := bits w 127 96
  match bits w 7 4 with
  | 0 => a == b
  | 1 => a != b
  | 2 => decide (a < b)
  | 3 => decide (b ≤ a)
  | 4 => decide (signed 32 a < signed 32 b)
  | 5 => decide (signed 32 b ≤ signed 32 a)
  | _ => false

/-- A condition of HQn, under its table. -/
def condHolds (n : Nat) (ws : List Nat) (c : Nat) (s : State) : Bool × State :=
  let q := s.seq n
  let r : Bool × State := match bits c 31 28 with
    | 0 => (true, s)
    | 1 => (q.evs.contains (bits c 12 0), s)
    | 2 => (q.codes.contains (bits c 7 0), s)
    | 3 => ((q.timers.getD (bits c 2 0) {}).expired, s)
    | 4 =>
      let w := smPoolWord ws (bits c 11 0)
      let x := cmpSource n w s
      (match x.1 with | some v => cmpHolds w v | none => false, x.2)
    | _ => (false, s)
  (r.1 != (bitAt c 27 == 1), r.2)

/-- A transition word has a timer condition. -/
def timerCond (t : Nat) : Bool := bits t 63 60 == 3 || (bits t 31 30 != 0 && bits t 95 92 == 3)

/-- A transition holds. -/
def transHolds (n : Nat) (ws : List Nat) (t : Nat) (s : State) : Bool × State :=
  if bitAt t 127 = 0 then (false, s)
  else
    let a := condHolds n ws (bits t 63 32) s
    let comb := bits t 31 30
    if comb = 0 then a
    else
      let b := condHolds n ws (bits t 95 64) a.2
      (if comb = 1 then a.1 && b.1 else a.1 || b.1, b.2)

/-- The transitions of a state that hold, in order. -/
def holding (n : Nat) (ws : List Nat) : List Nat → State → List Nat × State
  | [], s => ([], s)
  | t :: r, s =>
    let x := transHolds n ws t s
    let y := holding n ws r x.2
    (if x.1 then t :: y.1 else y.1, y.2)

/-! ### Actions (R356, R358) -/

/-- An action failed with a status. -/
def actFail (n v : Nat) (s : State) : State := (s.set (R.HDG_SEQ_STAT_LAST_FAIL n) v).raise Ev.HDG_ACT_FAIL
def actDone (n : Nat) (r : Nat × State) : State := if r.1 = St.ok then r.2 else actFail n r.1 r.2

/-- The status of an insertion without its handle. -/
def noHandle (r : Nat × Nat × State) : Nat × State := (r.1, r.2.2)

/-- One action of HQn. -/
def seqAction (n w : Nat) (s : State) : State :=
  let i := bits w 6 4
  let timer := fun (t : SeqTimer) => s.modSeq n (fun q => { q with timers := q.timers.set i t })
  match bits w 3 0 with
  | 1 => actDone n (regWrite { m := M.hedgerow } (4 * bits w 57 32) (bits w 7 4) (bits w 95 64) s)
  | 2 =>
    let d := bits w 5 4
    actDone n (noHandle (insertAction M.hedgerow (descOf (s.posN d / 256 + bits w 63 32) (bits w 19 12) d (bits w 11 8) (bits w 127 64)) (.hdg n) false s))
  | 3 =>
    let p := bitAt w 4
    actDone n (if s.hasPort p then armBuf p (bits w 11 8) s else (St.decerr, s))
  | 4 => hostEvent n (bits w 63 32) s
  | 5 => timer { running := true, swaths := bits w 9 8 == 1, pd := bits w 13 12, count := bits w 63 32 }
  | 6 => timer {}
  | 7 => s.modSeq n (fun q => { q with vars := q.vars.set i (if bitAt w 8 = 1 then (q.vars.getD i 0 + bits w 63 32) % 2 ^ 32 else bits w 63 32) })
  | 8 => latchCode (bits w 11 8) (bits w 19 12) s
  | _ => s

/-! ### The round (R357) -/

/-- A transition is taken: the latches that were set when the round began are cleared, its actions are carried out, and its next state is entered;
what the actions latch is kept for it. -/
def takeTrans (n : Nat) (ws : List Nat) (t : Nat) (evs codes : List Nat) (s : State) : State :=
  let s := s.modSeq n (fun q => { q with evs := q.evs.filter (fun e => !evs.contains e), codes := q.codes.filter (fun c => !codes.contains c) })
  let s := (List.range (bits t 99 96)).foldl (fun s i => seqAction n (smPoolWord ws (bits t 111 100 + i)) s) s
  if (s.seq n).run ≠ 1 then s else sampleStep n 1 (s.modSeq n (fun q => { q with state := bits t 125 116, base := s.pmc.cnt }))

/-- One round of HQn. -/
def seqRound (n : Nat) (s : State) : State :=
  let q := s.seq n
  if q.run ≠ 1 || s.inShutdown then s
  else
    let ws := s.activeWords (seqTab n)
    let x := holding n ws ((List.range 16).map (smTrans ws q.state)) s
    match (x.1.find? (fun t => !timerCond t)).or x.1.head? with
    | some t => takeTrans n ws t q.evs q.codes x.2
    | none => sampleStep n 0 x.2

/-! ### Commands -/

/-- SEQUENCER_ROUND (R357). -/
def execSequencerRound (n : Nat) (s : State) : Out := onUnit s n 16 (settle (seqRound n s))

end Sys2Proof.Machine
end

