-- ==== Sys2Proof/Machine/Dispatch.lean ====
section
/-! DEFINITION. One arm per command. -/
namespace Sys2Proof.Machine
/-- The effect of a command on everything but the queue. -/
def exec (cmd : Instr) (s : State) : Host.Outcome State Fault Refusal :=
  match cmd with
  | .por b => Sys2Proof.Machine.execPor b s
  | .resetN b => Sys2Proof.Machine.execResetN b s
  | .srst b => Sys2Proof.Machine.execSrst b s
  | .vddStbyLoss => Sys2Proof.Machine.execVddStbyLoss s
  | .registerWrite m a be data more => Sys2Proof.Machine.execRegisterWrite m a be data s more
  | .latchedRead m a more => Sys2Proof.Machine.execLatchedRead m a s more
  | .readClear m a => Sys2Proof.Machine.execReadClear m a s
  | .actionInsert m d => Sys2Proof.Machine.execActionInsert m d s
  | .actionRemove m h => Sys2Proof.Machine.execActionRemove m h s
  | .tswLoad p sw => Sys2Proof.Machine.execTswLoad p sw s
  | .resultPop m => Sys2Proof.Machine.execResultPop m s
  | .actionStage d bad => Sys2Proof.Machine.execActionStage d bad s
  | .calExecute d joint => Sys2Proof.Machine.execCalExecute d s joint
  | .sidebandTransfer p k fails => Sys2Proof.Machine.execSidebandTransfer p k fails s
  | .converterUnlock p syn lo => Sys2Proof.Machine.execConverterUnlock p syn lo s
  | .converterLock p => Sys2Proof.Machine.execConverterLock p s
  | .muteRelease p => Sys2Proof.Machine.execMuteRelease p s
  | .agcRefastExpiry p => Sys2Proof.Machine.execAgcRefastExpiry p s
  | .foreground p => Sys2Proof.Machine.execForeground p s
  | .restore p => Sys2Proof.Machine.execRestore p s
  | .snapshot p => Sys2Proof.Machine.execSnapshot p s
  | .foregroundDone p slices words failed => Sys2Proof.Machine.execForegroundDone p slices words failed s
  | .restoreDone p checks redo words => Sys2Proof.Machine.execRestoreDone p checks redo words s
  | .snapshotDone p => Sys2Proof.Machine.execSnapshotDone p s
  | .sweepStart p => Sys2Proof.Machine.execSweepStart p s
  | .sweepStepDone p tries => Sys2Proof.Machine.execSweepStepDone p tries s
  | .sweepEnd p words => Sys2Proof.Machine.execSweepEnd p words s
  | .calPeriodTrigger p band => Sys2Proof.Machine.execCalPeriodTrigger p band s
  | .journalStore => Sys2Proof.Machine.execJournalStore s
  | .journalLoad => Sys2Proof.Machine.execJournalLoad s
  | .journalStoreDone failAt time => Sys2Proof.Machine.execJournalStoreDone failAt s time
  | .journalLoadDone r => Sys2Proof.Machine.execJournalLoadDone s r
  | .receiverEnable p => Sys2Proof.Machine.execReceiverEnable p s
  | .receiverDisable p => Sys2Proof.Machine.execReceiverDisable p s
  | .losDeclare p => Sys2Proof.Machine.execLosDeclare p s
  | .losClear p => Sys2Proof.Machine.execLosClear p s
  | .freqEstimateDone p fo => Sys2Proof.Machine.execFreqEstimateDone p fo s
  | .cdScanEnd p coarse fine => Sys2Proof.Machine.execCdScanEnd p coarse fine s
  | .eqConverged p => Sys2Proof.Machine.execEqConverged p s
  | .acqTimerExpiry p => Sys2Proof.Machine.execAcqTimerExpiry p s
  | .fecLockDeclare p => Sys2Proof.Machine.execFecLockDeclare p s
  | .fecLockLoss p => Sys2Proof.Machine.execFecLockLoss p s
  | .foOutOfRange p fo => Sys2Proof.Machine.execFoOutOfRange p fo s
  | .cycleSlip p j n k => Sys2Proof.Machine.execCycleSlip p s j n k
  | .eqSingular p j => Sys2Proof.Machine.execEqSingular p s j
  | .estimateLatch p e => Sys2Proof.Machine.execEstimateLatch p e s
  | .ftuneSend p => Sys2Proof.Machine.execFtuneSend p s
  | .foAlarm p => Sys2Proof.Machine.execFoAlarm p s
  | .transmitterModeWrite p mode => Sys2Proof.Machine.execTransmitterModeWrite p mode s
  | .transmitterStop p => Sys2Proof.Machine.execTransmitterStop p s
  | .adjMismatchSwap p => Sys2Proof.Machine.execAdjMismatchSwap p s
  | .reportReceive p b => Sys2Proof.Machine.execReportReceive p b s
  | .reportMiss p => Sys2Proof.Machine.execReportMiss p s
  | .proposeGo p d rung id i => Sys2Proof.Machine.execProposeGo p d rung id i s
  | .proposeAbort p d => Sys2Proof.Machine.execProposeAbort p d s
  | .proposeReceive p b => Sys2Proof.Machine.execProposeReceive p b s
  | .acceptReceive p b => Sys2Proof.Machine.execAcceptReceive p b s
  | .rejectReceive p b => Sys2Proof.Machine.execRejectReceive p b s
  | .commitReceive p b => Sys2Proof.Machine.execCommitReceive p b s
  | .abortReceive p b => Sys2Proof.Machine.execAbortReceive p b s
  | .responseTimeout p d => Sys2Proof.Machine.execResponseTimeout p d s
  | .crossingBackoffExpiry p key i => Sys2Proof.Machine.execCrossingBackoffExpiry p key i s
  | .crossingHoldExpiry p key i => Sys2Proof.Machine.execCrossingHoldExpiry p key i s
  | .codewordArrival x => Sys2Proof.Machine.execCodewordArrival x s
  | .iterationEnd id now word bad => Sys2Proof.Machine.execIterationEnd id now word s bad
  | .codewordDeadline id => Sys2Proof.Machine.execCodewordDeadline id s
  | .codewordRelease p => Sys2Proof.Machine.execCodewordRelease p s
  | .groupFallow g => Sys2Proof.Machine.execGroupFallow g s
  | .groupReturn g => Sys2Proof.Machine.execGroupReturn g s
  | .groupDrainDone g => Sys2Proof.Machine.execGroupDrainDone g s
  | .groupSelftestDone g ok => Sys2Proof.Machine.execGroupSelftestDone g ok s
  | .groupShadowCompare g same => Sys2Proof.Machine.execGroupShadowCompare g same s
  | .groupShadowDone g => Sys2Proof.Machine.execGroupShadowDone g s
  | .statClear p => Sys2Proof.Machine.execStatClear p s
  | .txFrameBuild p clients lanes => Sys2Proof.Machine.execTxFrameBuild p clients lanes s
  | .fasSearchHit p pos header => Sys2Proof.Machine.execFasSearchHit p pos header s
  | .candidateExamine p k header => Sys2Proof.Machine.execCandidateExamine p k header s
  | .frameHeaderReceive p x => Sys2Proof.Machine.execFrameHeaderReceive p x s
  | .faLoss p => Sys2Proof.Machine.execFaLoss p s
  | .skewMeasure m => Sys2Proof.Machine.execSkewMeasure m s
  | .laneLock n d => Sys2Proof.Machine.execLaneLock n d s
  | .laneWakeTimeout n d => Sys2Proof.Machine.execLaneWakeTimeout n d s
  | .laneTestDone n d bad => Sys2Proof.Machine.execLaneTestDone n d bad s
  | .laneJoin n d => Sys2Proof.Machine.execLaneJoin n d s
  | .laneLos n los => Sys2Proof.Machine.execLaneLos n los s
  | .clientGroupUp g spread wrong => Sys2Proof.Machine.execClientGroupUp g spread s wrong
  | .sedgeArm m p b => Sys2Proof.Machine.execSedgeArm m p b s
  | .sedgePacketStart p gap => Sys2Proof.Machine.execSedgePacketStart p s gap
  | .sedgeTxDone p => Sys2Proof.Machine.execSedgeTxDone p s
  | .sedgePreambleDetect p k m run rel fo joint => Sys2Proof.Machine.execSedgePreambleDetect p k m run rel fo s joint
  | .sedgeDelimiterFound p k => Sys2Proof.Machine.execSedgeDelimiterFound p k s
  | .sedgeDelimiterTimeout p k => Sys2Proof.Machine.execSedgeDelimiterTimeout p k s
  | .sedgeHeaderDecode p k h => Sys2Proof.Machine.execSedgeHeaderDecode p k h s
  | .sedgeBodyDecode p k body crc => Sys2Proof.Machine.execSedgeBodyDecode p k body crc s
  | .correlatorWrite p k be data => Sys2Proof.Machine.execCorrelatorWrite p k be data s
  | .sedgeRxqPop p => Sys2Proof.Machine.execSedgeRxqPop p s
  | .helloSend p => Sys2Proof.Machine.execHelloSend p s
  | .helloReceive p b => Sys2Proof.Machine.execHelloReceive p b s
  | .peerSeenTimeout p => Sys2Proof.Machine.execPeerSeenTimeout p s
  | .keyRollGo p c id slot both => Sys2Proof.Machine.execKeyRollGo p c id slot both s
  | .keyPropReceive p b => Sys2Proof.Machine.execKeyPropReceive p b s
  | .keyAckReceive p b => Sys2Proof.Machine.execKeyAckReceive p b s
  | .keyNakReceive p b => Sys2Proof.Machine.execKeyNakReceive p b s
  | .keyTimeout p c => Sys2Proof.Machine.execKeyTimeout p c s
  | .cipherSectionTx p plain => Sys2Proof.Machine.execCipherSectionTx p plain s
  | .cipherSectionRx p c cipher nul => Sys2Proof.Machine.execCipherSectionRx p c cipher nul s
  | .cipherGroupFallow g => Sys2Proof.Machine.execCipherGroupFallow g s
  | .cipherGroupReturn g => Sys2Proof.Machine.execCipherGroupReturn g s
  | .cipherGroupDrainDone g => Sys2Proof.Machine.execCipherGroupDrainDone g s
  | .cipherGroupSelftestDone g ok => Sys2Proof.Machine.execCipherGroupSelftestDone g ok s
  | .cipherGroupShadowDone g ok => Sys2Proof.Machine.execCipherGroupShadowDone g ok s
  | .mceGcmEncrypt m d => Sys2Proof.Machine.execMceGcmEncrypt m d s
  | .mceGcmDecrypt m d => Sys2Proof.Machine.execMceGcmDecrypt m d s
  | .mceKwWrap m d => Sys2Proof.Machine.execMceKwWrap m d s
  | .mceKwUnwrap m d => Sys2Proof.Machine.execMceKwUnwrap m d s
  | .mceKwpWrap m d => Sys2Proof.Machine.execMceKwpWrap m d s
  | .mceKwpUnwrap m d => Sys2Proof.Machine.execMceKwpUnwrap m d s
  | .mceSave m d => Sys2Proof.Machine.execMceSave m d s
  | .mceRestore m d => Sys2Proof.Machine.execMceRestore m d s
  | .mceSuspend blocks ext => Sys2Proof.Machine.execMceSuspend s blocks ext
  | .mceJobComplete ext cut => Sys2Proof.Machine.execMceJobComplete ext cut s
  | .mceResultPop m => Sys2Proof.Machine.execMceResultPop m s
  | .mceKeyLoad m => Sys2Proof.Machine.execMceKeyLoad m s
  | .mceKeyErase m => Sys2Proof.Machine.execMceKeyErase m s
  | .info m d => Sys2Proof.Machine.execInfo m d s
  | .ktkLoad m d => Sys2Proof.Machine.execKtkLoad m d s
  | .keyGen m d => Sys2Proof.Machine.execKeyGen m d s
  | .keyInstall m d => Sys2Proof.Machine.execKeyInstall m d s
  | .keyErase m d => Sys2Proof.Machine.execKeyErase m d s
  | .sessLoad m d => Sys2Proof.Machine.execSessLoad m d s
  | .sessErase m d => Sys2Proof.Machine.execSessErase m d s
  | .pnonce m d => Sys2Proof.Machine.execPnonce m d s
  | .secPropose m d => Sys2Proof.Machine.execSecPropose m d s
  | .approve m d => Sys2Proof.Machine.execApprove m d s
  | .withdraw m d => Sys2Proof.Machine.execWithdraw m d s
  | .enrol m d => Sys2Proof.Machine.execEnrol m d s
  | .lock m d => Sys2Proof.Machine.execLock m d s
  | .attest m d => Sys2Proof.Machine.execAttest m d s
  | .attKey m d => Sys2Proof.Machine.execAttKey m d s
  | .epoch m d => Sys2Proof.Machine.execEpoch m d s
  | .rtSwap m d r => Sys2Proof.Machine.execRtSwap m d r s
  | .rtSwapDone => Sys2Proof.Machine.execRtSwapDone s
  | .approvalRecordCommit failAt otpFail time => Sys2Proof.Machine.execApprovalRecordCommit failAt otpFail s time
  | .attReserveDone failAt time => Sys2Proof.Machine.execAttReserveDone failAt s time
  | .apprConfSend k => Sys2Proof.Machine.execApprConfSend k s
  | .apprConfReceive p b => Sys2Proof.Machine.execApprConfReceive p b s
  | .apprAckReceive p b => Sys2Proof.Machine.execApprAckReceive p b s
  | .apprNakReceive p b => Sys2Proof.Machine.execApprNakReceive p b s
  | .proposalDeadline k => Sys2Proof.Machine.execProposalDeadline k s
  | .imageLoad k => Sys2Proof.Machine.execImageLoad k s
  | .imageLoadDone pages time => Sys2Proof.Machine.execImageLoadDone pages time s
  | .activate r k => Sys2Proof.Machine.execActivate r k s
  | .regionReset r => Sys2Proof.Machine.execRegionReset r s
  | .regionStagingDone r => Sys2Proof.Machine.execRegionStagingDone r s
  | .tableWindowWrite m w be v => Sys2Proof.Machine.execTableWindowWrite m w be v s
  | .sequencerRun mask => Sys2Proof.Machine.execSequencerRun mask s
  | .hdgPost n c => Sys2Proof.Machine.execHdgPost n c s
  | .sequencerRound n => Sys2Proof.Machine.execSequencerRound n s
  | .sequencerTimerExpiry n i => Sys2Proof.Machine.execSequencerTimerExpiry n i s
  | .hostEventPop => Sys2Proof.Machine.execHostEventPop s
  | .samplePop => Sys2Proof.Machine.execSamplePop s
  | .scrubPass => Sys2Proof.Machine.execScrubPass s
  | .diagRead m inst w => Sys2Proof.Machine.execDiagRead m inst w s
  | .diagWrite m inst w v chk => Sys2Proof.Machine.execDiagWrite m inst w v chk s
  | .sqDoorbell r t => Sys2Proof.Machine.execSqDoorbell r t s
  | .cqHeadWrite q h => Sys2Proof.Machine.execCqHeadWrite q h s
  | .sqEnable r en => Sys2Proof.Machine.execSqEnable r en s
  | .cqEnable q en => Sys2Proof.Machine.execCqEnable q en s
  | .commandFetch b => Sys2Proof.Machine.execCommandFetch b s
  | .nop tag => Sys2Proof.Machine.execNop tag s
  | .calInsert tag => Sys2Proof.Machine.execCalInsert tag s
  | .calRemove tag => Sys2Proof.Machine.execCalRemove tag s
  | .tableWrite tag b => Sys2Proof.Machine.execTableWrite tag b s
  | .tableRead tag => Sys2Proof.Machine.execTableRead tag s
  | .flashRead tag => Sys2Proof.Machine.execFlashRead tag s
  | .flashWrite tag b => Sys2Proof.Machine.execFlashWrite tag b s
  | .flashErase tag => Sys2Proof.Machine.execFlashErase tag s
  | .logRead tag => Sys2Proof.Machine.execLogRead tag s
  | .snapshotRead tag => Sys2Proof.Machine.execSnapshotRead tag s
  | .gccSend tag b => Sys2Proof.Machine.execGccSend tag b s
  | .gccRecv tag b => Sys2Proof.Machine.execGccRecv tag b s
  | .secCmd tag b => Sys2Proof.Machine.execSecCmd tag b s
  | .completionWrite q => Sys2Proof.Machine.execCompletionWrite q s
  | .pcieLinkDown ltssm => Sys2Proof.Machine.execPcieLinkDown ltssm s
  | .hostWatchdogExpiry => Sys2Proof.Machine.execHostWatchdogExpiry s
  | .watchdogKick => Sys2Proof.Machine.execWatchdogKick s
  | .i2cRead n => Sys2Proof.Machine.execI2cRead n s
  | .i2cWrite b => Sys2Proof.Machine.execI2cWrite b s
  | .flashMount x => Sys2Proof.Machine.execFlashMount x s
  | .flcRead => Sys2Proof.Machine.execFlcRead s
  | .flcWrite => Sys2Proof.Machine.execFlcWrite s
  | .flcErase => Sys2Proof.Machine.execFlcErase s
  | .retire => Sys2Proof.Machine.execRetire s
  | .scrubNow => Sys2Proof.Machine.execScrubNow s
  | .flashOpDone ce r => Sys2Proof.Machine.execFlashOpDone ce r s
  | .relocation r => Sys2Proof.Machine.execRelocation r s
  | .relocationRetry r => Sys2Proof.Machine.execRelocationRetry r s
  | .flashScrubStart => Sys2Proof.Machine.execFlashScrubStart s
  | .logFlush fails time => Sys2Proof.Machine.execLogFlush fails time s
  | .refMonitorUpdate i offset => Sys2Proof.Machine.execRefMonitorUpdate i offset s
  | .refLos i => Sys2Proof.Machine.execRefLos i s
  | .refQualTimerExpiry i => Sys2Proof.Machine.execRefQualTimerExpiry i s
  | .refSwitchDone n => Sys2Proof.Machine.execRefSwitchDone n s
  | .wtrExpiry n => Sys2Proof.Machine.execWtrExpiry n s
  | .dpllLock n => Sys2Proof.Machine.execDpllLock n s
  | .dpllLockLoss n => Sys2Proof.Machine.execDpllLockLoss n s
  | .historyRecord n mean phase => Sys2Proof.Machine.execHistoryRecord n mean phase s
  | .dpllModeWrite n mode => Sys2Proof.Machine.execDpllModeWrite n mode s
  | .dcoWrite n hi => Sys2Proof.Machine.execDcoWrite n hi s
  | .stileArm m n j => Sys2Proof.Machine.execStileArm m n j s
  | .stileResponse n time b => Sys2Proof.Machine.execStileResponse n time b s
  | .stileRspTimeout n j => Sys2Proof.Machine.execStileRspTimeout n j s
  | .timeSend now => Sys2Proof.Machine.execTimeSend now s
  | .stileHelloSend n => Sys2Proof.Machine.execStileHelloSend n s
  | .stileHelloReceive n time b => Sys2Proof.Machine.execStileHelloReceive n time b s
  | .stileFrameReceive n time bad b => Sys2Proof.Machine.execStileFrameReceive n time bad b s
  | .stileSyncAcquire n => Sys2Proof.Machine.execStileSyncAcquire n s
  | .stileSyncLoss n sd => Sys2Proof.Machine.execStileSyncLoss n sd s
  | .stileTxEnable n => Sys2Proof.Machine.execStileTxEnable n s
  | .stileSelftestDone n bad => Sys2Proof.Machine.execStileSelftestDone n bad s
  | .stileTxSleep n => Sys2Proof.Machine.execStileTxSleep n s
  | .stileRxEnable n => Sys2Proof.Machine.execStileRxEnable n s
  | .stileRxSleep n => Sys2Proof.Machine.execStileRxSleep n s
  | .stileSleepNotice n => Sys2Proof.Machine.execStileSleepNotice n s
  | .stileWake n => Sys2Proof.Machine.execStileWake n s
  | .eyeScanStart n => Sys2Proof.Machine.execEyeScanStart n s
  | .eyeScanDone n err => Sys2Proof.Machine.execEyeScanDone n err s
  | .loopChange n => Sys2Proof.Machine.execLoopChange n s
  | .stileRxqPop => Sys2Proof.Machine.execStileRxqPop s
  | .thmSample temps opens now => Sys2Proof.Machine.execThmSample temps opens now s
  | .throttleApply p => Sys2Proof.Machine.execThrottleApply p s
  | .thmCfgWrite be data => Sys2Proof.Machine.execThmCfgWrite be data s
  | .shutdownForce key now => Sys2Proof.Machine.execShutdownForce key now s
  | .railFault rails now => Sys2Proof.Machine.execRailFault rails now s
  | .sdRecordCommit fails time => Sys2Proof.Machine.execSdRecordCommit fails time s
  | .sdRecordRetry fails time => Sys2Proof.Machine.execSdRecordRetry fails time s
  | .resume force b => Sys2Proof.Machine.execResume force b s
  | .domainPowerUpDone d => Sys2Proof.Machine.execDomainPowerUpDone d s
  | .avsStep fails => Sys2Proof.Machine.execAvsStep fails s
  | .presetOverflow => Sys2Proof.Machine.execPresetOverflow s
  | .fmnInput c x => Sys2Proof.Machine.execFmnInput c x s
  | .fmnCtrlWrite c be data => Sys2Proof.Machine.execFmnCtrlWrite c be data s
  | .procHalt c => Sys2Proof.Machine.execProcHalt c s
  | .sliceFallow p i sl => Sys2Proof.Machine.execSliceFallow p i sl s
  | .sliceReturn p i sl => Sys2Proof.Machine.execSliceReturn p i sl s
  | .sliceCalDone p i tries => Sys2Proof.Machine.execSliceCalDone p i tries s
  | .sliceJoin p i => Sys2Proof.Machine.execSliceJoin p i s
  | .tileFallow p t => Sys2Proof.Machine.execTileFallow p t s
  | .tileReturn p t => Sys2Proof.Machine.execTileReturn p t s
  | .tileSelftestDone p t ok => Sys2Proof.Machine.execTileSelftestDone p t ok s
  | .tileShadowDone p t same => Sys2Proof.Machine.execTileShadowDone p t same s
  | .tileJoin p t => Sys2Proof.Machine.execTileJoin p t s
  | .processorFallow c => Sys2Proof.Machine.execProcessorFallow c s
  | .handoverDone c => Sys2Proof.Machine.execHandoverDone c s
  | .processorReturn c => Sys2Proof.Machine.execProcessorReturn c s
  | .procSelftestDone c ok => Sys2Proof.Machine.execProcSelftestDone c ok s
  | .procJoin c => Sys2Proof.Machine.execProcJoin c s
  | .firmwareUpdate slot mask => Sys2Proof.Machine.execFirmwareUpdate slot mask s
  | .deviceSwathBoundary lanes groups => Sys2Proof.Machine.execDeviceSwathBoundary lanes groups s
  | .payloadPresent p present => Sys2Proof.Machine.execPayloadPresent p present s
  | .refActivityReturn i => Sys2Proof.Machine.execRefActivityReturn i s
  | .counterLevelTick => Sys2Proof.Machine.execCounterLevelTick s
  | .pcieLinkUp width speed ltssm => Sys2Proof.Machine.execPcieLinkUp width speed ltssm s
  | .clientLaneLockLoss g k => Sys2Proof.Machine.execClientLaneLockLoss g k s
  | .hiSerDetect g on => Sys2Proof.Machine.execHiSerDetect g on s

end Sys2Proof.Machine
end

