-- ==== Sys2Proof/Safety.lean ====
section
/-! DEFINITION. What claims call a sound state, an answered command, and what stays as it was. -/
namespace Sys2Proof.Machine

/-- Registers, read latches, SRAM words, their odd check bits and the error records are canonical: equal contents are equal data. -/
def State.canon (s : State) : Bool :=
  sparseWf 0 s.regs && sparseWf 0 s.latches && sparseWf 0 s.sram && sparseWf 0 s.sramChk && sparseWf 0 s.ecc

/-- The command is answered with a next state for which `P` holds. -/
def Answers (c : Instr) (s : State) (P : State → Prop) : Prop := ∃ t, exec c s = .next t ∧ P t

/-- The command leaves a state for which `P` holds, and the block then settles: codewords, keys, clocks, processors and power
follow what the command changed, and the command is answered. -/
def Settles (c : Instr) (s : State) (P : State → Prop) : Prop := ∃ t, exec c s = .next (settle t) ∧ P t

/-- The same for a command that answers with a status. -/
def SettlesWith (c : Instr) (s : State) (st : Nat) (P : State → Prop) : Prop := ∃ t, exec c s = .next ((settle t).answer st []) ∧ P t

/-- Operation `op` of descriptor `d` passes the tests of the mailbox of master `m` (R334). -/
def MailboxTakes (op m d : Nat) (s : State) : Prop :=
  hasMailbox m = true ∧ s.isOn (R.SEC_CMD_STAT_BUSY m) = false ∧ s.get R.THM_SD_STAT_STATE ≠ 1 ∧ s.lingState ≠ 3 ∧ cLen d ≤ 16384 ∧
  s.secNeeds op d (s.winBytes m (cLen d)) ≤ cLen d ∧ d < 2 ^ 128

/-- A mailbox command of master `m` leaves a state for which `P` holds, then ends there with a status and its output, and the block settles. -/
def MailDone (c : Instr) (m : Nat) (s : State) (st : Nat) (out : List Nat) (P : State → Prop) : Prop :=
  ∃ t, exec c s = .next (settle (secDone m st out t)) ∧ P t

/-- Outside addresses `lo` to `hi − 1` every register field reads as before. -/
def RegsOutside (lo hi : Nat) (s t : State) : Prop := ∀ g : Fld, g.key < 32 * lo ∨ 32 * hi ≤ g.key → t.get g = s.get g

/-- Every register field but those listed reads as before. -/
def RegsBut (l : List Fld) (s t : State) : Prop := ∀ g : Fld, (∀ f ∈ l, g.key ≠ f.key) → t.get g = s.get g

/-- Every unit that the command names exists: the line port on this part (R2), and the unit within its array. -/
def State.holds (s : State) : Instr → Bool
  | .por _ | .resetN _ | .srst _ | .vddStbyLoss | .registerWrite _ _ _ _ _ | .latchedRead _ _ _ | .readClear _ _ |
    .actionInsert _ _ | .actionRemove _ _ | .resultPop _ | .journalStore | .journalLoad | .journalStoreDone _ _ |
    .journalLoadDone _ | .iterationEnd _ _ _ _ | .codewordDeadline _ | .skewMeasure _ | .mceGcmEncrypt _ _ |
    .mceGcmDecrypt _ _ | .mceKwWrap _ _ | .mceKwUnwrap _ _ | .mceKwpWrap _ _ | .mceKwpUnwrap _ _ | .mceSave _ _ |
    .mceRestore _ _ | .mceSuspend _ _ | .mceJobComplete _ _ | .mceResultPop _ | .mceKeyLoad _ | .mceKeyErase _ | .info _ _ |
    .ktkLoad _ _ | .keyGen _ _ | .keyInstall _ _ | .keyErase _ _ | .sessLoad _ _ | .sessErase _ _ | .pnonce _ _ |
    .secPropose _ _ | .approve _ _ | .withdraw _ _ | .enrol _ _ | .lock _ _ | .attest _ _ | .attKey _ _ | .epoch _ _ |
    .rtSwap _ _ _ | .rtSwapDone | .approvalRecordCommit _ _ _ | .attReserveDone _ _ | .imageLoad _ | .imageLoadDone _ _ |
    .activate _ _ | .regionReset _ | .regionStagingDone _ | .tableWindowWrite _ _ _ _ | .sequencerRun _ | .hostEventPop |
    .samplePop | .scrubPass | .diagRead _ _ _ | .diagWrite _ _ _ _ _ | .commandFetch _ | .nop _ | .calInsert _ | .calRemove _ |
    .tableWrite _ _ | .tableRead _ | .flashRead _ | .flashWrite _ _ | .flashErase _ | .logRead _ | .snapshotRead _ |
    .gccSend _ _ | .gccRecv _ _ | .secCmd _ _ | .pcieLinkDown _ | .hostWatchdogExpiry | .watchdogKick | .i2cRead _ |
    .i2cWrite _ | .flashMount _ | .flcRead | .flcWrite | .flcErase | .retire | .scrubNow | .relocation _ | .relocationRetry _ |
    .flashScrubStart | .logFlush _ _ | .timeSend _ | .stileRxqPop | .thmSample _ _ _ | .thmCfgWrite _ _ | .shutdownForce _ _ |
    .railFault _ _ | .sdRecordCommit _ _ | .sdRecordRetry _ _ | .resume _ _ | .avsStep _ | .presetOverflow |
    .sliceFallow _ _ _ | .sliceReturn _ _ _ | .tileFallow _ _ | .tileReturn _ _ | .processorFallow _ | .processorReturn _ |
    .firmwareUpdate _ _ | .deviceSwathBoundary _ _ | .counterLevelTick | .pcieLinkUp _ _ _ => true
  | .sidebandTransfer p _ _ | .tswLoad p _ | .converterUnlock p _ _ | .converterLock p | .muteRelease p | .agcRefastExpiry p |
    .foreground p | .restore p | .snapshot p | .foregroundDone p _ _ _ | .restoreDone p _ _ _ | .snapshotDone p |
    .sweepStart p | .sweepStepDone p _ | .sweepEnd p _ | .receiverEnable p | .receiverDisable p | .losDeclare p | .losClear p |
    .freqEstimateDone p _ | .cdScanEnd p _ _ | .eqConverged p | .acqTimerExpiry p | .fecLockDeclare p | .fecLockLoss p |
    .foOutOfRange p _ | .cycleSlip p _ _ _ | .eqSingular p _ | .estimateLatch p _ | .ftuneSend p | .foAlarm p |
    .transmitterModeWrite p _ | .transmitterStop p | .adjMismatchSwap p | .reportReceive p _ | .reportMiss p |
    .proposeGo p _ _ _ _ | .proposeAbort p _ | .proposeReceive p _ | .acceptReceive p _ | .rejectReceive p _ |
    .commitReceive p _ | .abortReceive p _ | .responseTimeout p _ | .crossingBackoffExpiry p _ _ | .crossingHoldExpiry p _ _ |
    .codewordRelease p | .statClear p | .txFrameBuild p _ _ | .fasSearchHit p _ _ | .frameHeaderReceive p _ | .faLoss p |
    .sedgePacketStart p _ | .sedgeTxDone p | .sedgeRxqPop p | .helloSend p | .helloReceive p _ | .peerSeenTimeout p |
    .keyRollGo p _ _ _ _ | .keyPropReceive p _ | .keyAckReceive p _ | .keyNakReceive p _ | .keyTimeout p _ |
    .cipherSectionTx p _ | .apprConfReceive p _ | .apprAckReceive p _ | .apprNakReceive p _ | .throttleApply p |
    .payloadPresent p _ => s.hasPort p
  | .actionStage d _ | .calExecute d _ => s.hasPd d
  | .calPeriodTrigger p band => s.hasPort p && decide (band < 16)
  | .codewordArrival x => s.hasPort x.port
  | .groupFallow g | .groupReturn g | .groupDrainDone g | .groupSelftestDone g _ | .groupShadowCompare g _ |
    .groupShadowDone g => decide (g < 16)
  | .candidateExamine p k _ | .sedgePreambleDetect p k _ _ _ _ _ | .sedgeDelimiterFound p k | .sedgeDelimiterTimeout p k |
    .sedgeHeaderDecode p k _ | .sedgeBodyDecode p k _ _ | .correlatorWrite p k _ _ => s.hasPort p && decide (k < 4)
  | .laneLock n d | .laneWakeTimeout n d | .laneTestDone n d _ | .laneJoin n d => decide (64 * (d / 2) + n < 64)
  | .laneLos n _ => decide (n < 64)
  | .clientGroupUp g _ _ | .clientLaneLockLoss g _ | .hiSerDetect g _ => decide (g < 64)
  | .sedgeArm _ p b => decide (b < 16) && s.hasPort p
  | .cipherSectionRx p c _ _ => s.hasPort p && decide (c < 32)
  | .cipherGroupFallow g | .cipherGroupReturn g | .cipherGroupDrainDone g | .cipherGroupSelftestDone g _ |
    .cipherGroupShadowDone g _ => decide (g < 8)
  | .apprConfSend k | .proposalDeadline k => decide (k < 16)
  | .hdgPost n _ | .sequencerRound n => decide (n < 16)
  | .sequencerTimerExpiry n i => decide (16 * (i / 8) + n < 16)
  | .sqDoorbell r _ | .sqEnable r _ => decide (r < 16)
  | .cqHeadWrite q _ | .cqEnable q _ | .completionWrite q => decide (q < 4)
  | .flashOpDone ce _ => decide (ce < 2)
  | .refMonitorUpdate i _ | .refLos i | .refQualTimerExpiry i | .refActivityReturn i => decide (i < 14)
  | .refSwitchDone n | .wtrExpiry n | .dpllLock n | .dpllLockLoss n | .historyRecord n _ _ | .dpllModeWrite n _ |
    .dcoWrite n _ => decide (n < 3)
  | .stileArm _ n j | .stileRspTimeout n j => n < 8 && j < 2
  | .stileResponse n _ _ | .stileHelloSend n | .stileHelloReceive n _ _ | .stileFrameReceive n _ _ _ | .stileSyncAcquire n |
    .stileSyncLoss n _ | .stileTxEnable n | .stileSelftestDone n _ | .stileTxSleep n | .stileRxEnable n | .stileRxSleep n |
    .stileSleepNotice n | .stileWake n | .eyeScanStart n | .eyeScanDone n _ | .loopChange n => decide (n < 8)
  | .domainPowerUpDone d => decide (d < 248)
  | .fmnInput c _ | .fmnCtrlWrite c _ _ => decide (c < 16)
  | .procHalt c | .handoverDone c | .procSelftestDone c _ | .procJoin c => decide (c < 7)
  | .sliceCalDone p i _ | .sliceJoin p i => s.hasPort p && decide (i < 16)
  | .tileSelftestDone p t _ | .tileShadowDone p t _ | .tileJoin p t => s.hasPort p && decide (t < 16)

/-- The register that a command writes or reads on a unit that this part or the map does not have: the access is answered DECERR (R2, R29). -/
def absentReg : Instr → Option Nat
  | .tswLoad p _ => some (0x100048 + 32 * p)
  | .foreground p | .restore p | .snapshot p => some (0x1000000 * (p + 1) + 0x100010)
  | .receiverEnable p | .receiverDisable p => some (0x1000000 * (p + 1) + 0x200008)
  | .transmitterModeWrite p _ => some (0x1000000 * (p + 1) + 0x400008)
  | .proposeGo p _ _ _ _ | .proposeAbort p _ => some (0x1000000 * (p + 1) + 0x400070)
  | .sedgeArm _ p b => some (0x1700200 + 0x1000000 * p + 4 * b)
  | .correlatorWrite p k _ _ => some (0x1700020 + 0x1000000 * p + 4 * k)
  | .sedgeRxqPop p => some (0x1000000 * (p + 1) + 0x700070)
  | .keyRollGo _ _ _ _ _ => some 0x4000040
  | _ => none

end Sys2Proof.Machine
end

