-- ==== Sys2Proof/Certificates/Slice0/Obligations.lean ====
section
/-! DEFINITION. The statements about the block, chapter by chapter. -/
open Sys2Proof Sys2Proof.Machine

/-- For every command c, rest r and state s, a step of s with the queue c :: r is exec of c on s with the queue r. The queue is the
model's (log entry 1); R53 asks only that happenings have an order. -/
def Obligations.StepRunsFront : Prop :=
  ∀ (c : Instr) (r : List Instr) (s : State), step { s with pending := c :: r } = exec c { s with pending := r }

/-- The model's choice, log entry 1 (DESIGN CHOICE): on an empty queue a step answers the same state. -/
def Obligations.EmptyQueueIdles : Prop :=
  ∀ s : State, s.pending = [] → step s = .next s

/-- In State.reset every register field has its reset value, every memory word reads as never written (log entry 12), no domain is on,
the throttle thresholds are 100 and 108 degrees, nothing waits and the stores are canonical. -/
def Obligations.ResetState : Prop :=
  State.reset.canon = true ∧ State.reset.pending = [] ∧ (∀ f : Fld, State.reset.get f = f.rst) ∧
  (∀ k, getAt 0 State.reset.sram k = 0) ∧ (∀ d, State.reset.domainOn d = false) ∧
  State.reset.get R.THM_CFG_START = 100 ∧ State.reset.get R.THM_CFG_FULL = 108

/-- A register field takes what is written modulo 2^width, and nothing else changes (R5, R7). -/
def Obligations.FieldWriteLocal : Prop :=
  ∀ (s : State) (f : Fld) (v : Nat),
    (s.set f v).get f = v % 2 ^ f.w ∧ RegsBut [f] s (s.set f v) ∧ { (s.set f v) with regs := s.regs } = s ∧
    (s.canon = true → (s.set f v).canon = true)

/-- R463 and R464: an event sets its sticky bit; its counter, in edge mode, gains one modulo 2^48. -/
def Obligations.EventRaise : Prop :=
  ∀ (s : State) (i : Nat), (s.raise i).get (stickyBit i) = 1 ∧
    (i < 3840 → i ≠ Ev.PMC_OVERFLOW → s.get (modeBit i) ≠ 1 → getAt 0 (s.raise i).pmc.cnt i = (getAt 0 s.pmc.cnt i + 1) % 2 ^ 48) ∧
    { (s.raise i) with regs := s.regs, pmc := s.pmc, hdg := s.hdg } = s

/-- Every command is answered with a next state, in every state and for every operand. One that names a port, lane or other unit the
part does not have (log entry 5, DEDUCED) leaves the state as it is where it is a happening; where it is an access to a register of
that unit, the access is answered DECERR and nothing but the error record of the fabric changes (R2, R29, R30, R370). -/
def Obligations.CommandsComplete : Prop :=
  (∀ (c : Instr) (s : State), ∃ t, exec c s = .next t) ∧
  (∀ (c : Instr) (s : State), s.holds c = false → exec c s = .next (match absentReg c with
    | some a => (fabRespond M.host a St.decerr s).answer St.decerr []
    | none => s))

/-- No command changes the part or the commands that wait behind it. -/
def Obligations.CommandsKeepQueue : Prop :=
  ∀ (c : Instr) (s t : State), exec c s = .next t → t.pending = s.pending ∧ t.part = s.part

/-- For every state s whose sparse stores are canonical (keys strictly rising, no entry equal to what an unlisted key reads as; log
entry 9), if a step of s answers next t then the stores of t are canonical. -/
def Obligations.StepKeepsCanon : Prop :=
  ∀ s t : State, s.canon = true → step s = .next t → t.canon = true

/-- R365, R370: an access that the rights, the map or the boot state turn away changes nothing but the fabric's error record and is
answered with that status, for a write and for a read alike. -/
def Obligations.RefusedAccess : Prop :=
  ∀ (m a be data : Nat) (s : State), a % 4 = 0 → a ≠ 0xA0008 → a ≠ 0x20020 → s.accessVerdict m a ≠ St.ok →
    bar2At m a = none →
    exec (.registerWrite m a be data) s = .next ((settle (fabRespond m a (s.accessVerdict m a) s)).answer (s.accessVerdict m a) []) ∧
    exec (.latchedRead m a) s = .next ((fabRespond m a (s.accessVerdict m a) s).answer (s.accessVerdict m a) [0]) ∧
    exec (.readClear m a) s = .next ((fabRespond m a (s.accessVerdict m a) s).answer (s.accessVerdict m a) [0])

/-- R7, R8, R513, one field of a write whose byte lanes are all enabled, of a field that no other part of the block shows: RW takes a
defined value and keeps the old one otherwise; W1C clears the ones written; W1S sets them; RO, RC and WO take nothing; SCH and OWN turn
a change by another writer away with DENIED, LCK with APPROVAL_MISSING. REGISTER_WRITE on the counter registers, LATCHED_READ and
READ_CLEAR on any register that is not banked: the write judges every field and does nothing else; the read answers the word and clears
the RC fields. R367, R378: a burst that would cross from one target to another is answered DECERR and changes nothing but the fabric's
error record. In the doorbell aperture a full 32-bit write of SQ_TAIL or CQ_HEAD is that doorbell, one of the message table stores the
word, another width takes nothing, and a read shows the word; the aperture stands at host addresses from 2^48 on (log entry 177, DESIGN
CHOICE). -/
def Obligations.RegisterAccess : Prop :=
  (∀ (w : Writer) (a b data : Nat) (s : State) (f : FDef), 1 ≤ f.w → f.lo + f.w ≤ 32 → data < 2 ^ 32 → f.acc ≠ .wo →
    let wr := bits data (f.lo + f.w - 1) f.lo
    let old := s.get (fieldAt a b f)
    let put := if f.defines wr then s.set (fieldAt a b f) wr else s
    old < 2 ^ f.w →
    writeField w a b 15 data [] (0, s) f = match f.acc with
      | .rw => (0, put)
      | .ro | .rc | .wo => (0, s)
      | .w1c => (0, s.set (fieldAt a b f) (old &&& (old ^^^ ((2 ^ f.w - 1) &&& wr))))
      | .w1s => (0, s.set (fieldAt a b f) (old ||| ((2 ^ f.w - 1) &&& wr)))
      | .sch => if w.sch then (0, put) else if wr = old then (0, s) else (St.denied, s)
      | .own l => if l.contains w.m then (0, put) else if wr = old then (0, s) else (St.denied, s)
      | .lck => if wr = old then (0, s) else (St.approvalMissing, s)) ∧
  ((∀ (m a be data : Nat) (r : RDef) (s : State), a % 4 = 0 → 0x200000 ≤ a → a < 0x400000 → a ≠ 0x200024 → be % 16 ≠ 0 →
    s.accessVerdict m a = St.ok → s.placeOf a = .reg r → r.banked = false →
    let x := writeFields { m := m } a 0 (be % 16) (data % 2 ^ 32) r s
    exec (.registerWrite m a be data) s = .next ((settle (fabRespond m a x.1 x.2)).answer x.1 [])) ∧
  (∀ (m a : Nat) (r : RDef) (s : State), a % 4 = 0 → s.accessVerdict m a = St.ok → s.placeOf a = .reg r → r.banked = false →
    (a < 0x100130 ∨ 0x100140 ≤ a) → zeroReg a = false → s.noUnit a = false → latched a = false → a ≠ 0x9011C →
    Answers (.readClear m a) s (fun t => t.resp = ⟨0, [s.regWord m a 0 r]⟩ ∧
      (∀ f ∈ r.fs, f.acc = .rc → t.get (fieldAt a 0 f) = 0) ∧ t.part = s.part ∧ t.sram = s.sram)) ∧
  (∀ (m a : Nat) (r : RDef) (s : State), a % 4 = 0 → s.accessVerdict m a = St.ok → s.placeOf a = .reg r → r.banked = false →
    (a < 0x100130 ∨ 0x100140 ≤ a) → zeroReg a = false → s.noUnit a = false → latched a = true →
    exec (.latchedRead m a) s = .next (s.answer 0 [getAt 0 s.latches (latchKey m a)]))) ∧
  ((∀ (m a be data n : Nat) (s : State), a % 16 = 0 → crosses a n = true →
    (s.burstAt m true a n = none → exec (.registerWrite m a be data (some n)) s = .next ((fabRespond m a St.decerr s).answer St.decerr [])) ∧
    (s.burstAt m false a n = none → exec (.latchedRead m a (some n)) s = .next ((fabRespond m a St.decerr s).answer St.decerr []))) ∧
  (∀ (r v : Nat) (s : State), v < 2 ^ 32 →
    (r < 16 → exec (.registerWrite M.host (2 ^ 48 + 16 * r) 15 v) s = .next ((doorbell r (v % 256) s).answer St.ok [])) ∧
    (r < 4 → exec (.registerWrite M.host (2 ^ 48 + 0x100 + 16 * r) 15 v) s = .next ((cqHead r (v % 1024) s).answer St.ok [])) ∧
    (r < 256 → Answers (.registerWrite M.host (2 ^ 48 + 0x800 + 4 * r) 15 v) s (fun t => t.bar2Read (0x800 + 4 * r) = v ∧
      (∀ k < 256, k ≠ r → t.bar2Read (0x800 + 4 * k) = s.bar2Read (0x800 + 4 * k)) ∧ { t with hif := s.hif, resp := s.resp } = s ∧
      exec (.latchedRead M.host (2 ^ 48 + 0x800 + 4 * r)) t = .next (t.answer St.ok [v]))) ∧
    (r < 256 → ∀ be, be % 16 ≠ 15 → exec (.registerWrite M.host (2 ^ 48 + 16 * r) be v) s = .next (s.answer St.ok []))))

/-- R375, R376: a diagnostic read shows a word's data, check bits and valid bit as stored and changes no memory; a diagnostic write,
where it is enabled, stores the data as a valid word and changes no other word. The key stores of instances 9 and 10 answer DENIED to
every master but Ling. R351 and R373: a full write through the table window of a bank that is not in use stores the 16 bytes as a word
with new check bits, and no other word changes; R374: a scrub pass with every word's check bits right only reports its end, and with
PERIOD 0 nothing happens. -/
def Obligations.MemoryCommands : Prop :=
  (∀ (m inst w : Nat) (s : State), inst < 13 → w < sramSize inst →
    (m = M.ling ∨ (inst ≠ 9 ∧ inst ≠ 10) →
      Answers (.diagRead m inst w) s (fun t => t.resp.status = St.ok ∧
        t.get R.FAB_DIAG_CHK_CHECK = (s.sramRaw (sramKey inst w)).2.1 % 2 ^ 9 ∧
        t.get R.FAB_DIAG_CHK_VALID = (s.sramRaw (sramKey inst w)).2.2.toNat ∧
        (∀ z < 4, t.get (R.FAB_DIAG_DATA_DATA z) = (s.sramRaw (sramKey inst w)).1 / 2 ^ (32 * z) % 2 ^ 32) ∧
        RegsOutside 0x40300 0x40324 s t ∧ { t with regs := s.regs, resp := s.resp } = s) ∧
      (s.isOn R.FAB_DIAG_CTRL_EN = true → ∀ v chk, v < 2 ^ 128 → chk < 512 →
        Answers (.diagWrite m inst w v chk) s (fun t => t.resp = ⟨St.ok, [St.ok]⟩ ∧
          (t.sramRaw (sramKey inst w)).1 = v ∧ (t.sramRaw (sramKey inst w)).2.2 = true ∧
          (∀ k, k ≠ sramKey inst w → t.sramRaw k = s.sramRaw k) ∧ RegsOutside 0x40300 0x40324 s t ∧
          ((∀ x ∈ s.swc.acts, x.sram ≠ sramKey inst w) → t.swc = s.swc) ∧
          { t with regs := s.regs, sram := s.sram, sramChk := s.sramChk, swc := s.swc, resp := s.resp } = s))) ∧
    (m ≠ M.ling → inst = 9 ∨ inst = 10 → Answers (.diagRead m inst w) s (fun t => t.get R.FAB_DIAG_CTRL_STATUS = St.denied ∧ t.sram = s.sram))) ∧
  ((∀ (m w v : Nat) (s : State), s.accessVerdict m (0x8000000 + 16 * w) = St.ok → s.tableVerdict m w true = St.ok → v < 2 ^ 128 →
    SettlesWith (.tableWindowWrite m w 65535 v) s St.ok (fun t =>
      t.sramRaw (sramKey 1 w) = (v, Config.eccCheck v, true) ∧ (∀ k, k ≠ sramKey 1 w → t.sramRaw k = s.sramRaw k) ∧
      { t with sram := s.sram, sramChk := s.sramChk } = s)) ∧
  (∀ s : State, s.get R.FAB_SCRUB_PERIOD ≠ 0 → s.sramChk = [] → exec .scrubPass s = .next (s.raise Ev.FAB_SCRUB_DONE)) ∧
  (∀ s : State, s.get R.FAB_SCRUB_PERIOD = 0 → exec .scrubPass s = .next s))

/-- R448: a write of THM_CFG takes START and FULL together where 60 ≤ START, START + 2 ≤ FULL ≤ 108, WARN from 60 to 105 and HYST from
1 to 15; a START below 60 written alone is not taken. -/
def Obligations.ThermalThresholds : Prop :=
  (∀ (start full warn hyst : Nat) (s : State), 60 ≤ start → start + 2 ≤ full → full ≤ 108 → 60 ≤ warn → warn ≤ 105 → 1 ≤ hyst → hyst ≤ 15 →
    exec (.thmCfgWrite 15 (2 ^ 24 * full + 2 ^ 16 * start + 2 ^ 8 * warn + hyst)) s =
      .next (((((s.set R.THM_CFG_START start).set R.THM_CFG_FULL full).set R.THM_CFG_WARN warn).set R.THM_CFG_HYST hyst).answer St.ok [])) ∧
  (∀ (data : Nat) (s : State), bits data 23 16 < 60 →
    Answers (.thmCfgWrite 4 data) s (fun t => t.get R.THM_CFG_START = s.get R.THM_CFG_START))

/-- R38, R42, R54, R57: the descriptor of an insertion stands in SWC_INS_W0 to W3 of the master's bank; one that passes the six tests
is stored under the word code and a handle with the rank of its master, its status and handle shown in the master's bank; one that
fails a test stores nothing and shows the first status that failed. -/
def Obligations.ActionInsertion : Prop :=
  ∀ (m d : Nat) (s : State), mayInsert m = true → d < 2 ^ 128 →
    let u := insPut (bankOf m) d s
    (u.insertVerdict m d false = St.ok →
      SettlesWith (.actionInsert m d) s St.ok (fun t => ∃ h : Nat,
        t.swc.acts = s.swc.acts ++ [{ handle := h, bank := bankOf m, seq := s.swc.seq, desc := withRank d (rankOf m), slot := s.freeSlot }] ∧
        t.sramRaw (sramKey 11 s.freeSlot) = (withRank d (rankOf m) % 2 ^ 128, Config.eccCheck (withRank d (rankOf m) % 2 ^ 128), true) ∧
        (∀ k, k ≠ sramKey 11 s.freeSlot → t.sramRaw k = s.sramRaw k) ∧
        t.get (R.SWC_INS_STAT_STATUS (bankOf m)) = St.ok ∧ t.get (R.SWC_INS_STAT_HANDLE (bankOf m)) = h % 2 ^ 16 ∧
        t.swc.res = s.swc.res ∧ t.swc.pds = s.swc.pds ∧
        { t with regs := s.regs, swc := s.swc, sram := s.sram, sramChk := s.sramChk, freeCtr := s.freeCtr } = s)) ∧
    (u.insertVerdict m d false ≠ St.ok →
      SettlesWith (.actionInsert m d) s (u.insertVerdict m d false) (fun t => t.swc = s.swc ∧
        t.get (R.SWC_INS_STAT_STATUS (bankOf m)) = u.insertVerdict m d false % 2 ^ 8 ∧
        { t with regs := s.regs, pmc := s.pmc, hdg := s.hdg } = s))

/-- R38 and R35, the tests in order: a master that may not insert the kind is denied first; a position below the frame in progress plus
3 is STALE; one beyond the horizon of 262,143 swaths is HORIZON; a full pool or bucket is FULL. R41: the reserve, 4,096 descriptors at
reset, is kept for rank 3: a lower rank gets FULL when the free count is at or below it. -/
def Obligations.InsertTestOrder : Prop :=
  ∀ (m d : Nat) (s : State), 
    (mayInsertKind m d = false → s.insertVerdict m d false = St.denied) ∧
    (mayInsertKind m d = true → s.argVerdict d false = St.ok →
      (dPos d < s.posN (dPd d) + 3 → s.insertVerdict m d false = St.stale) ∧
      (s.posN (dPd d) + 3 ≤ dPos d → s.posN (dPd d) / 256 + 262143 < dSwath d → s.insertVerdict m d false = St.horizon) ∧
      (s.posN (dPd d) + 3 ≤ dPos d → dSwath d ≤ s.posN (dPd d) / 256 + 262143 →
        (65536 ≤ s.swc.acts.length ∨ (rankOf m < 3 ∧ 65536 - s.swc.acts.length ≤ s.get R.SWC_CFG_RSV_RANK3) ∨
          256 ≤ s.bucketOcc (bucketOf (dSwath d)) → s.insertVerdict m d false = St.full) ∧
        (s.swc.acts.length < 65536 → (rankOf m < 3 → s.get R.SWC_CFG_RSV_RANK3 < 65536 - s.swc.acts.length) → s.bucketOcc (bucketOf (dSwath d)) < 256 →
          s.insertVerdict m d false = St.ok))) ∧ State.reset.get R.SWC_CFG_RSV_RANK3 = 4096

/-- R52, R54: SWC_REM of a pending action ends it with ABORTED and frees its descriptor; of an action that is staged or executed it
answers STALE; of a handle the bank does not hold, DENIED. R33, R40: a start value is loaded while the transmit position does not run;
while it runs the load is BUSY. R54, R58: reading the result registers answers the bank's first result and removes it. -/
def Obligations.RemovalAndResults : Prop :=
  (∀ (m h : Nat) (s : State), mayInsert m = true → h < 65536 →
    (∀ a, s.findAct (bankOf m) h = some a → a.phase = 0 → a.owner = .none → bankOf m ≠ 12 → (s.results a.bank).length < 256 → dKind a.desc ≠ 3 →
      SettlesWith (.actionRemove m h) s St.ok (fun t => t.swc.acts = s.swc.acts.filter (fun b => !(b.bank == a.bank && b.handle == a.handle)) ∧
        t.swc.res = s.swc.res ++ [⟨a.handle, a.bank, St.aborted, 0,
          if dKind a.desc = 9 then dArg a.desc % 2 ^ 32 else (s.pdPos (dPd a.desc)).swath % 2 ^ 32⟩] ∧
        RegsBut [R.SWC_REM_STAT_STATUS (bankOf m)] s t ∧ { t with regs := s.regs, swc := s.swc } = s)) ∧
    (∀ a, s.findAct (bankOf m) h = some a → a.phase ≠ 0 →
      exec (.actionRemove m h) s = .next ((settle (s.set (R.SWC_REM_STAT_STATUS (bankOf m)) St.stale)).answer St.stale [])) ∧
    (s.findAct (bankOf m) h = none → s.swc.res.any (fun r => r.bank == bankOf m && r.handle == h) = false →
      exec (.actionRemove m h) s = .next ((settle (s.set (R.SWC_REM_STAT_STATUS (bankOf m)) St.denied)).answer St.denied []))) ∧
  ((∀ (p sw : Nat) (s : State), s.hasPort p = true → (s.pdPos (txPd p)).valid = false → s.swc.acts = [] → s.swc.pds.length = 4 →
    SettlesWith (.tswLoad p sw) s St.ok (fun t => (t.pdPos (txPd p)).swath = sw % 2 ^ 48 ∧ (t.pdPos (txPd p)).frame = 0 ∧
      t.get (R.SWC_TSW_LOAD_LO_SWN_L p) = sw % 2 ^ 32 ∧ t.get (R.SWC_TSW_LOAD_HI_SWN_H p) = sw / 2 ^ 32 % 2 ^ 16 ∧
      (∀ d, d ≠ txPd p → t.pdPos d = s.pdPos d) ∧ RegsBut [R.SWC_TSW_LOAD_LO_SWN_L p, R.SWC_TSW_LOAD_HI_SWN_H p] s t ∧
      { t with regs := s.regs, swc := s.swc } = s)) ∧
  (∀ (p sw : Nat) (s : State), s.hasPort p = true → (s.pdPos (txPd p)).valid = true →
    exec (.tswLoad p sw) s = .next ((settle s).answer St.busy [])) ∧
  (∀ (m : Nat) (r : Res) (l : List Res) (s : State), mayInsert m = true → s.accessVerdict m 0x100144 = St.ok →
    s.results (bankOf m) = r :: l → r.late < 256 → r.status < 256 → r.handle < 65536 → r.value < 2 ^ 32 →
    Answers (.resultPop m) s (fun t => t.resp = ⟨St.ok, [2 ^ 24 * r.late + 2 ^ 16 * r.status + r.handle, r.value]⟩ ∧
      t.swc = { s.swc with res := s.swc.res.erase r } ∧ RegsBut [R.SWC_RES_1_VALUE (bankOf m)] s t ∧
      { t with regs := s.regs, swc := s.swc, resp := s.resp } = s)))

/-- R36, R46, R48, R49, R54: actions of the frame after the next are staged; one whose descriptor is uncorrectable ends with UNCORR. A
boundary with no action of its direction leaves the others waiting; a staged host event raises its event and ends with OK and its
value, one deferred from an earlier boundary with LATE and how late it is. Where the position does not run nothing happens. R48: a
boundary's actions run in the order of their frame positions, then of falling rank, then of insertion. -/
def Obligations.StagingAndExecution : Prop :=
  ((∀ (d : Nat) (s : State), s.hasPd d = true → s.execRuns d = true → s.swc.acts.all (fun a => dKind a.desc != 3) = true →
    (∀ a ∈ s.swc.acts, getAt 0 s.sramChk a.sram = 0) →
    Settles (.actionStage d []) s (fun t =>
      t.swc.acts = s.swc.acts.map (fun a => if (a.phase == 0 && dPd a.desc == d && dPos a.desc == s.nextPos d + 1) = true then { a with phase := 1 } else a) ∧
      { t with swc := { t.swc with acts := s.swc.acts } } = s)) ∧
  (∀ (d : Nat) (a : Act) (s : State), s.hasPd d = true → s.execRuns d = true → s.swc.acts = [a] → a.phase = 0 → dPd a.desc = d →
    dPos a.desc = s.nextPos d + 1 → dKind a.desc ≠ 3 → dKind a.desc ≠ 9 → a.owner = .none → a.bank ≠ 12 → (s.results a.bank).length < 256 →
    Settles (.actionStage d [(a.bank, a.handle)]) s (fun t => t.swc.acts = [] ∧
      t.swc.res = s.swc.res ++ [{ handle := a.handle, bank := a.bank, status := St.uncorr, late := 0, value := (s.pdPos d).swath % 2 ^ 32 }] ∧
      t.get (stickyBit Ev.FAB_UE) = 1 ∧ t.get (stickyBit Ev.SWC_EXEC_ERROR) = 1 ∧
      { t with regs := s.regs, pmc := s.pmc, hdg := s.hdg, swc := s.swc, ecc := s.ecc } = s)) ∧
  (∀ (d : Nat) (bad : List (Nat × Nat)) (joint : Bool) (s : State), s.hasPd d = true → s.execRuns d = false →
    exec (.actionStage d bad) s = .next (settle s) ∧ exec (.calExecute d joint) s = .next (settle s)) ∧
  (∀ (d : Nat) (joint : Bool) (s : State), s.hasPd d = true → s.execRuns d = true → s.swc.acts.all (fun a => dPd a.desc != d) = true →
    s.swc.jobs.all (fun j => j.pd != d) = true →
    Settles (.calExecute d joint) s (fun t => t.swc.acts = s.swc.acts ∧ t.swc.res = s.swc.res ∧ t.swc.pds = s.swc.pds ∧ t.swc.jobs = s.swc.jobs ∧
      { t with swc := s.swc } = s)) ∧
  (∀ (d : Nat) (joint : Bool) (a : Act) (s : State), s.hasPd d = true → s.execRuns d = true → s.swc.acts = [a] → s.swc.jobs = [] → dPd a.desc = d →
    dKind a.desc = 9 → a.owner = .none → a.bank ≠ 12 → (s.results a.bank).length < 256 →
    (a.phase = 1 → dPos a.desc = s.nextPos d →
      Settles (.calExecute d joint) s (fun t => t.swc.acts = [] ∧
        t.swc.res = s.swc.res ++ [{ handle := a.handle, bank := a.bank, status := St.ok, late := 0, value := dArg a.desc % 2 ^ 32 }] ∧
        t.get (stickyBit Ev.SWC_HOST_EVENT) = 1 ∧ { t with regs := s.regs, pmc := s.pmc, hdg := s.hdg, swc := s.swc } = s)) ∧
    (a.phase = 2 → dPos a.desc < s.nextPos d →
      Settles (.calExecute d joint) s (fun t => t.swc.acts = [] ∧
        t.swc.res = s.swc.res ++ [{ handle := a.handle, bank := a.bank, status := St.late, late := min 255 (s.nextPos d - dPos a.desc),
                                    value := dArg a.desc % 2 ^ 32 }] ∧
        t.get (stickyBit Ev.SWC_HOST_EVENT) = 1 ∧ t.get (stickyBit Ev.SWC_LATE) = 1 ∧
        { t with regs := s.regs, pmc := s.pmc, hdg := s.hdg, swc := s.swc } = s)))) ∧
  (∀ l : List Act, (orderActs l).Perm l ∧ (orderActs l).Pairwise (fun a b => b.before a = false))

/-- R14, R65, R73: a sideband transfer brings a value of the register files to the converter die, and the fourth failure is reported
and the value marked; lock and loss of lock of a port's converters, the release of the mute, and the refast timer. R84, R85, R87, R93,
R96: calibration commands. FOREGROUND and RESTORE need a stopped transmitter, a disabled receiver and locked converters, answer
CONFLICT otherwise and BUSY while one runs; what an accepted one does to the state of R86, and how each ends: BUSY stays while another
command of the port runs. R90, R91, R92: the lowest queued band that may sweep starts; the end of a sweep is taken once it is done; the
period trigger queues a band once, while the core that holds the calibration loops of the port runs. A sweep starts in READY alone (log
entry 38, DESIGN CHOICE). -/
def Obligations.ConvertersAndCalibration : Prop :=
  (∀ (p : Nat) (s : State), s.hasPort p = true →
    (∀ k fails, k < 8196 → fails < 4 → Answers (.sidebandTransfer p k fails) s (fun t =>
      getAt 0 (t.port p).cnv.die k = s.fileWord p k ∧ (∀ x, x ≠ k → getAt 0 (t.port p).cnv.die x = getAt 0 (s.port p).cnv.die x) ∧
      (t.port p).cnv.reapply = (s.port p).cnv.reapply ∧ t.port (1 - p) = s.port (1 - p) ∧ { t with port0 := s.port0, port1 := s.port1 } = s)) ∧
    (∀ k fails, 8196 ≤ k → fails < 4 → exec (.sidebandTransfer p k fails) s = .next s) ∧
    (∀ k fails, k < 8196 → 4 ≤ fails → (s.port p).cnv.reapply.contains k = false → exec (.sidebandTransfer p k fails) s =
      .next ((s.modCnv p (fun c => { c with reapply := c.reapply ++ [k] })).raise (Ev.CNV_SIDEBAND_FAIL p))) ∧
    (s.cnvLocked p = false → exec (.converterLock p) s =
      .next (((s.set (R.CNV_SYN_SYN_LOCK p) 1).set (R.CNV_SYN_LO_LOCK p) 1).modCnv p (fun c => { c with hold := true }))) ∧
    (∀ syn lo, (syn && lo) = false → Answers (.converterUnlock p syn lo) s (fun t =>
      t.get (R.CNV_SYN_SYN_LOCK p) = syn.toNat ∧ t.get (R.CNV_SYN_LO_LOCK p) = lo.toNat ∧ t.get (R.CNV_DAC_CTRL_HW_SYN p) = 1 ∧
      (s.isOn (R.CNV_DAC_CTRL_HW_SYN p) = false → t.get (R.CNV_DAC_CTRL_HW_MUTE p) = 1 ∧ t.get (stickyBit (Ev.CNV_DAC_MUTE p)) = 1) ∧
      (s.get (R.CAL_STATE_STATE p) = 1 ∨ s.get (R.CAL_STATE_STATE p) = 2 → t.get (R.CAL_STATE_STATE p) = 0 ∧
        t.get (R.CAL_CMD_STAT_BUSY p) = (s.port p).cal.snapshot.toNat ∧ t.get (R.CAL_CMD_STAT_STATUS p) = St.aborted) ∧
      (t.port p).cnv.hold = false ∧ (t.port p).cnv.samples = false ∧ t.port (1 - p) = s.port (1 - p) ∧
      { t with regs := s.regs, pmc := s.pmc, hdg := s.hdg, port0 := s.port0, port1 := s.port1 } = s)) ∧
    (s.cnvLocked p = true → (s.port p).cnv.hold = true → Answers (.muteRelease p) s (fun t =>
      t.get (R.CNV_DAC_CTRL_HW_SYN p) = 0 ∧ t.get (R.CNV_DAC_CTRL_HW_MUTE p) = (s.isOn (R.CNV_DAC_CTRL_HW_THERM p)).toNat ∧
      (t.port p).cnv.samples = true ∧ (t.port p).cnv.hold = false ∧
      RegsBut [R.CNV_DAC_CTRL_HW_SYN p, R.CNV_DAC_CTRL_HW_MUTE p] s t ∧ { t with regs := s.regs, port0 := s.port0, port1 := s.port1 } = s)) ∧
    (s.get (R.CNV_AGC_STATE_STATE p) = 3 → (s.port p).cnv.refast = true → exec (.agcRefastExpiry p) s =
      .next (((s.set (R.CNV_AGC_STATE_STATE p) 2).modCnv p (fun c => { c with refast := false })).raise (Ev.CNV_AGC_REFAST p)))) ∧
  (∀ (p : Nat) (s : State), s.hasPort p = true →
    (calVerdict p 1 s = St.ok → s.isOn (R.CAL_STATE_SWEEPING p) = false → exec (.foreground p) s =
      .next ((((s.set (R.CAL_CMD_STAT_ACCEPT p) St.ok).set (R.CAL_CMD_STAT_BUSY p) 1).set (R.CAL_QUEUE_QUEUED p) 0).set (R.CAL_STATE_STATE p) 1)) ∧
    (calVerdict p 1 s ≠ St.ok → exec (.foreground p) s = .next (s.set (R.CAL_CMD_STAT_ACCEPT p) (calVerdict p 1 s)) ∧
      exec (.restore p) s = .next (s.set (R.CAL_CMD_STAT_ACCEPT p) (calVerdict p 1 s))) ∧
    (calVerdict p 2 s = St.ok → Answers (.restore p) s (fun t => t.get (R.CAL_CMD_STAT_ACCEPT p) = St.ok ∧ t.get (R.CAL_CMD_STAT_BUSY p) = 1 ∧
      t.get (R.CAL_STATE_STATE p) = 2 ∧ t.get (R.CAL_QUEUE_QUEUED p) = s.get (R.CAL_QUEUE_QUEUED p) ∧
      (t.port p).cal.staging = (s.port p).cal.staging ∧ t.port (1 - p) = s.port (1 - p) ∧ t.swc = s.swc ∧ t.sram = s.sram)) ∧
    (s.jnl.op ≠ 2 → exec (.snapshot p) s =
      .next (((s.set (R.CAL_CMD_STAT_ACCEPT p) St.ok).set (R.CAL_CMD_STAT_BUSY p) 1).modCal p (fun c => { c with snapshot := true }))) ∧
    (∀ l w, s.get (R.CAL_STATE_STATE p) = 1 → exec (.foregroundDone p l w true) s =
      .next ((((s.set (R.CAL_STATE_STATE p) 0).set (R.CAL_CMD_STAT_BUSY p) (s.port p).cal.snapshot.toNat).set (R.CAL_CMD_STAT_STATUS p) St.aborted).raise
        (Ev.CAL_FG_FAIL p))) ∧
    (∀ l w, s.get (R.CAL_STATE_STATE p) = 1 → (∀ i < 16, s.bandPowered p i = false) → exec (.foregroundDone p l w false) s =
      .next (((s.set (R.CAL_STATE_STATE p) 3).set (R.CAL_CMD_STAT_BUSY p) (s.port p).cal.snapshot.toNat).set (R.CAL_CMD_STAT_STATUS p) St.ok)) ∧
    (∀ l r w, s.get (R.CAL_STATE_STATE p) = 2 → Answers (.restoreDone p l r w) s (fun t =>
      t.get (R.CAL_STATE_STATE p) = 3 ∧ t.get (R.CAL_CMD_STAT_BUSY p) = (s.port p).cal.snapshot.toNat ∧ t.get (R.CAL_CMD_STAT_STATUS p) = St.ok ∧
      t.port (1 - p) = s.port (1 - p) ∧ t.swc = s.swc ∧ t.sram = s.sram)) ∧
    ((s.port p).cal.snapshot = true → exec (.snapshotDone p) s =
      .next (((s.modCal p (fun c => { c with staging := c.live, snapshot := false })).set (R.CAL_CMD_STAT_BUSY p)
        (decide (s.get (R.CAL_STATE_STATE p) = 1 ∨ s.get (R.CAL_STATE_STATE p) = 2)).toNat).set (R.CAL_CMD_STAT_STATUS p) St.ok))) ∧
  (∀ (p i : Nat) (s : State), s.hasPort p = true → i < 16 →
    (s.get (R.CAL_STATE_STATE p) = 3 → s.isOn (R.CAL_STATE_SWEEPING p) = false → s.isOn (R.CAL_TRIG_HOLD p) = false → s.get (bandSpare p i) = 0 →
      bitAt (s.get (R.CAL_QUEUE_QUEUED p)) i = 1 → bitAt (s.get (R.GCTL_SLICE_FLW_FALLOWED p)) i = 0 →
      (∀ j < i, bitAt (s.get (R.CAL_QUEUE_QUEUED p)) j = 0 ∨ bitAt (s.get (R.GCTL_SLICE_FLW_FALLOWED p)) j = 1) →
      Answers (.sweepStart p) s (fun t => t.get (R.CAL_STATE_SWEEPING p) = 1 ∧ t.get (R.CAL_STATE_SWEEP_BAND p) = i ∧
        t.get (R.CAL_STATE_STEP p) = 0 ∧ t.get (R.CAL_QUEUE_QUEUED p) = s.get (R.CAL_QUEUE_QUEUED p) - 2 ^ i ∧
        RegsBut [R.CAL_STATE_SWEEPING p, R.CAL_STATE_SWEEP_BAND p, R.CAL_STATE_STEP p, R.CAL_QUEUE_QUEUED p] s t ∧
        { t with regs := s.regs, port0 := s.port0, port1 := s.port1 } = s)) ∧
    (∀ tries, s.isOn (R.CAL_STATE_SWEEPING p) = true → (s.port p).cal.sweepDone = false → s.get (R.CAL_STATE_SWEEP_BAND p) = i →
      s.units.slice = none → s.get (R.CAL_STATE_STEP p) < 64 →
      s.get (bandSpare p i) = 0 → Answers (.sweepStepDone p tries) s (fun t => t.part = s.part ∧ t.sram = s.sram ∧
        (t.get (bandSpare p i) ≠ 2 → t.get (R.CAL_STATE_STEP p) = s.get (R.CAL_STATE_STEP p) + 1))) ∧
    (s.isOn (R.CAL_STATE_SWEEPING p) = true → (s.port p).cal.sweepDone = true → s.get (R.CAL_STATE_SWEEP_BAND p) = i →
      Answers (.sweepEnd p []) s (fun t => t.get (R.CAL_STATE_SWEEPING p) = 0 ∧ (t.port p).cal.sweepDone = false ∧
        (t.port p).cal.live = (s.port p).cal.live ∧ { t with regs := s.regs, port0 := s.port0, port1 := s.port1 } = s)) ∧
    (s.get (R.CAL_TRIG_PERIOD p) ≠ 0 → s.loopRuns (calLoops p) = true → s.sweeps p i = false → s.get (bandSpare p i) = 0 →
      bitAt (s.get (R.CAL_QUEUE_QUEUED p)) i = 0 → s.get (R.CAL_QUEUE_QUEUED p) < 2 ^ 16 →
      exec (.calPeriodTrigger p i) s = .next (s.set (R.CAL_QUEUE_QUEUED p) (s.get (R.CAL_QUEUE_QUEUED p) + 2 ^ i))))

/-- R100 to R103: a STORE erases the slot that does not hold the newest valid record and programs there the header, the payload of its
buffer and the commit page with the next SEQ; outside the temperature window it ends with TEMP_INHIBIT and programs nothing. A LOAD
takes the newest record that it reads valid into the staging copies of the ports it names, and ends with OK also where there is none. A
command during another answers BUSY. -/
def Obligations.JournalCommands : Prop :=
  ∀ s : State,
    (s.jnl.op = 0 → exec .journalStore s = .next (({ (s.set (R.CAL_JNL_STAT_BUSY 0) 1) with jnl := { s.jnl with op := 1, buf := stagingAll s } }).answer St.ok []) ∧
      exec .journalLoad s = .next (({ (s.set (R.CAL_JNL_STAT_BUSY 0) 1) with jnl := { s.jnl with op := 2 } }).answer St.ok [])) ∧
    (s.jnl.op ≠ 0 → exec .journalStore s = .next (s.answer St.busy []) ∧ exec .journalLoad s = .next (s.answer St.busy [])) ∧
    (s.jnl.op = 1 → (s.partition 0x20).isSome = true → ∀ time,
      (s.writeWindow = false → Answers (.journalStoreDone none time) s (fun t =>
        t.get (R.CAL_JNL_STAT_STATUS 0) = St.tempInhibit ∧ t.get (R.CAL_JNL_STAT_BUSY 0) = 0 ∧ t.jnl.op = 0 ∧ t.get (stickyBit (Ev.CAL_JNL_FAIL 0)) = 1 ∧
        { t with regs := s.regs, jnl := s.jnl, pmc := s.pmc, hdg := s.hdg } = s)) ∧
      (s.writeWindow = true → Answers (.journalStoreDone none time) s (fun t =>
        t.get (R.CAL_JNL_STAT_STATUS 0) = St.ok ∧ t.get (R.CAL_JNL_STAT_BUSY 0) = 0 ∧ t.jnl.op = 0 ∧ t.get (stickyBit (Ev.CAL_JNL_DONE 0)) = 1 ∧
        t.flc = (storeRun 0x20 (s.storeSlot 0x20) (s.storePages 0x20 s.jnlPayload) ((s.storePages 0x20 s.jnlPayload).length + 1) s).flc ∧
        (∀ k r, s.newestSlot 0x20 = some (k, r) → t.get (R.CAL_JNL_STAT_SLOT 0) = 1 - k ∧
          t.get (R.CAL_JNL_SEQ_LO_SEQ_L 0) = (r.seq + 1) % 2 ^ 32) ∧
        (s.newestSlot 0x20 = none → t.get (R.CAL_JNL_STAT_SLOT 0) = 0 ∧ t.get (R.CAL_JNL_SEQ_LO_SEQ_L 0) = 1 ∧ t.get (R.CAL_JNL_SEQ_HI_SEQ_H 0) = 0)))) ∧
    (s.jnl.op = 2 → (s.partition 0x20).isSome = true → ∀ r : FlashResult,
      let a := readSlot 0x20 0 r.time (r.pages.take (s.slotSpan 0x20 0)) s
      let b := readSlot 0x20 1 r.time (r.pages.drop (s.slotSpan 0x20 0)) a.2.2
      Answers (.journalLoadDone r) s (fun t => t.get (R.CAL_JNL_STAT_STATUS 0) = St.ok ∧ t.jnl.op = 0 ∧ t.get (stickyBit (Ev.CAL_JNL_DONE 0)) = 1 ∧
        (∀ k x, newest a.1 b.1 = some (k, x) → t.get (R.CAL_JNL_STAT_FOUND 0) = 1 ∧ t.get (R.CAL_JNL_STAT_SLOT 0) = k ∧
          t.get (R.CAL_JNL_SEQ_LO_SEQ_L 0) = x.seq % 2 ^ 32 ∧ (∀ p, p < 2 → p ∉ x.ports → t.port p = s.port p)) ∧
        (newest a.1 b.1 = none → t.get (R.CAL_JNL_STAT_FOUND 0) = 0 ∧ t.port0 = s.port0 ∧ t.port1 = s.port1)))

/-- R485, R486, R487: a slice leaves service through the band's spare, is calibrated offline and takes its position back. R485, R488,
R489: a tile leaves its group at once where no frame runs, and powers up, tests, shadows and joins in turn. -/
def Obligations.SlicesAndTiles : Prop :=
  (∀ (p i sl : Nat) (s : State), s.hasPort p = true → i < 16 → sl < 64 →
    (s.unitVerdict 1 1 p i sl = St.ok → s.sweeps p i = false → Answers (.sliceFallow p i sl) s (fun t =>
      t.get (bandSpare p i) = 1 ∧ t.get (bandPos p i) = sl ∧ t.get (bandIdle p i) = sl ∧ t.bandFlw p i = true ∧
      t.get R.GCTL_UNIT_STAT_STATUS = St.ok ∧ t.get R.GCTL_UNIT_STAT_BUSY = 0 ∧
      RegsBut [bandSpare p i, bandPos p i, bandIdle p i, R.GCTL_SLICE_FLW_FALLOWED p, R.GCTL_UNIT_STAT_BUSY, R.GCTL_UNIT_STAT_STATUS] s t ∧
      (∀ k, k ≠ sliceKey i 64 → getAt 0 (t.port p).cal.live k = getAt 0 (s.port p).cal.live k) ∧ t.port (1 - p) = s.port (1 - p) ∧
      { t with regs := s.regs, port0 := s.port0, port1 := s.port1, freeCtr := s.freeCtr, resp := s.resp } = s)) ∧
    (s.unitVerdict 1 2 p i sl = St.ok → Answers (.sliceReturn p i sl) s (fun t =>
      t.units.cal = s.units.cal.filter (· ≠ 16 * p + i) ++ [16 * p + i] ∧ t.get R.GCTL_UNIT_STAT_STATUS = St.ok ∧
      RegsBut [R.GCTL_UNIT_STAT_BUSY, R.GCTL_UNIT_STAT_STATUS] s t ∧ { t with regs := s.regs, units := s.units, resp := s.resp } = s)) ∧
    (∀ tries, s.units.cal.contains (16 * p + i) = true → Answers (.sliceCalDone p i tries) s (fun t =>
      t.units.cal = s.units.cal.filter (· ≠ 16 * p + i) ∧
      (t.get (bandSpare p i) = 2 → t.bandFlw p i = false) ∧ (t.get (bandSpare p i) ≠ 2 → t.bandReady p i = true))) ∧
    (s.bandReady p i = true → Answers (.sliceJoin p i) s (fun t => t.get (bandSpare p i) = 0 ∧ t.get (bandIdle p i) = 64 ∧
      t.bandFlw p i = false ∧ t.bandReady p i = false ∧ t.get (stickyBit Ev.GCTL_UNIT_JOINED) = 1 ∧
      { t with regs := s.regs, pmc := s.pmc, hdg := s.hdg } = s)) ∧
    (∀ v, s.unitVerdict 1 1 p i sl = v → v ≠ St.ok → exec (.sliceFallow p i sl) s =
      .next ((s.set R.GCTL_UNIT_STAT_STATUS v).answer St.ok []))) ∧
  (∀ (p t : Nat) (s : State), s.hasPort p = true → t < 16 →
    (s.unitVerdict 2 1 p t 0 = St.ok → s.tileState p t = 0 → s.isOn (R.LFR_ALIGN_STAT_FA p) = false → Answers (.tileFallow p t) s (fun u =>
      u.tileState p t = 2 ∧ u.domainOn (tileDomain p t) = false ∧ u.get R.GCTL_UNIT_STAT_STATUS = St.ok ∧
      (u.port p).rxd.tiles = (s.port p).rxd.tiles ||| 2 ^ s.logicTile p t ∧
      u.port (1 - p) = s.port (1 - p) ∧
      { u with regs := s.regs, port0 := s.port0, port1 := s.port1, pwr := s.pwr, pmc := s.pmc, hdg := s.hdg, freeCtr := s.freeCtr, resp := s.resp } = s)) ∧
    (s.unitVerdict 2 2 p t 0 = St.ok → s.rxState p = 0 → exec (.tileReturn p t) s =
      .next (((((s.set (tileField p t) 5).modUnits (fun u => { u with late := u.late.filter (· ≠ (p, t)) ++ [(p, t)] })).set R.GCTL_UNIT_STAT_BUSY 0).set
        R.GCTL_UNIT_STAT_STATUS St.ok).answer St.ok [])) ∧
    (s.tileState p t = 3 → exec (.tileSelftestDone p t true) s = .next (s.set (tileField p t) 4) ∧
      exec (.tileSelftestDone p t false) s = .next ((s.set (tileField p t) 6).raise Ev.GCTL_UNIT_FAIL)) ∧
    (s.tileState p t = 4 → exec (.tileShadowDone p t true) s = .next (s.set (tileField p t) 5) ∧
      exec (.tileShadowDone p t false) s = .next ((s.set (tileField p t) 6).raise Ev.GCTL_UNIT_FAIL)) ∧
    (s.tileState p t = 5 → s.rxState p = 7 → Answers (.tileJoin p t) s (fun u => u.get (stickyBit Ev.GCTL_UNIT_JOINED) = 1 ∧
      u.tileState p t = 0 ∧ u.units.late = s.units.late.filter (· ≠ (p, t)) ∧ u.sram = s.sram ∧ u.swc = s.swc)) ∧
    (s.tileState p t = 5 → s.units.late.contains (p, t) = true → s.rxState p ≠ 7 → exec (.tileJoin p t) s = .next s))

/-- R18, R485, R490 to R493: a core leaves after its handover, a Bracken core once its loops have gone to a running sibling, returns
through a load and a test, and joins; an update that names no verified bundle is denied. R483: at a device swath boundary with no
measurements, a READY core joins. -/
def Obligations.ProcessorService : Prop :=
  (∀ (c : Nat) (s : State), c < 7 →
    (s.unitVerdict 3 1 0 c 0 = St.ok → s.procState c = 0 → c ≠ 6 → exec (.processorFallow c) s =
      .next ((((s.set (R.GCTL_PROC_STATE_STATE c) 1).set R.GCTL_UNIT_STAT_BUSY 0).set R.GCTL_UNIT_STAT_STATUS St.ok).answer St.ok [])) ∧
    (s.procState c = 1 → s.units.update = none → (c < 4 → s.sibling c ≠ none) → (4 ≤ c → c < 6 → s.procState (9 - c) ≤ 1) → c ≠ 6 →
      Answers (.handoverDone c) s (fun t => t.procState c = 2 ∧ t.domainOn (217 + c) = false ∧ (∀ i < 4, t.loopCore i ≠ c ∨ 4 ≤ c) ∧
        { t with regs := s.regs, pwr := s.pwr, units := s.units, fab := s.fab } = s)) ∧
    (s.procState c = 1 → c < 4 → s.sibling c = none → s.loopsOf c ≠ 0 → exec (.handoverDone c) s = .next s) ∧
    (s.unitVerdict 3 2 0 c 0 = St.ok → s.inShutdown = false → s.mayPower (217 + c) = true → Answers (.processorReturn c) s (fun t =>
      t.procState c = 3 ∧ t.get R.GCTL_UNIT_STAT_STATUS = St.ok ∧ { t with regs := s.regs, pwr := s.pwr, resp := s.resp } = s)) ∧
    (s.procState c = 3 → exec (.procSelftestDone c true) s = .next ((s.set (R.GCTL_PROC_STATE_STATE c) 5).raise Ev.GCTL_UNIT_READY)) ∧
    (s.procState c = 3 → s.units.update = none → exec (.procSelftestDone c false) s =
      .next ((s.set (R.GCTL_PROC_STATE_STATE c) 6).raise Ev.GCTL_UNIT_FAIL)) ∧
    (s.procState c = 5 → s.units.update = none → exec (.procJoin c) s =
      .next (loopsBack c ((s.set (R.GCTL_PROC_STATE_STATE c) 0).raise Ev.GCTL_UNIT_JOINED))) ∧
    (s.procState c ≤ 1 → bitAt s.units.halted c = 0 → exec (.procHalt c) s =
      .next ((s.modUnits (fun u => { u with halted := u.halted ||| 2 ^ c })).raise Ev.GCTL_PROC_HALT)) ∧
    (∀ slot mask i, s.unitVerdict 4 1 0 slot mask = St.ok → s.lingState ≠ 3 → s.image slot = some i →
      Answers (.firmwareUpdate slot mask) s (fun t => t.resp = ⟨St.ok, []⟩ ∧ let fits := i.sects.any (fun x => x.typ == 3 && x.fwOk && s.signedOk false x.fw)
        (fits = true → mask % 128 = 0 → t.units.update = none ∧ t.get R.GCTL_UNIT_STAT_BUSY = 0 ∧ t.get R.GCTL_UNIT_STAT_STATUS = St.ok ∧
          t.get (stickyBit Ev.GCTL_FW_DONE) = 1) ∧
        (fits = false → t.get R.GCTL_UNIT_STAT_BUSY = 0 ∧ t.get R.GCTL_UNIT_STAT_STATUS = St.denied ∧
          RegsBut [R.GCTL_UNIT_STAT_BUSY, R.GCTL_UNIT_STAT_STATUS] s t ∧ { t with regs := s.regs, resp := s.resp } = s)))) ∧
  (∀ (c : Nat) (s : State), c < 7 → s.units.update = none → s.procState c = 5 → (∀ k < 7, k ≠ c → s.procState k = 0) →
    (∀ k < 4, bitAt s.units.halted k = 0) →
    exec (.deviceSwathBoundary [] []) s = .next (loopsBack c ((s.set (R.GCTL_PROC_STATE_STATE c) 0).raise Ev.GCTL_UNIT_JOINED)))

/-- R126, R128, R451, R453: EN takes a receiver from OFF to BEACON with the acquisition rung and no attempts counted, unless a shutdown
record waits or the device is in SHUTDOWN; EN = 0 takes it to OFF from every state. -/
def Obligations.ReceiverEnableDisable : Prop :=
  ∀ (p : Nat) (s : State), s.hasPort p = true →
    (s.get (R.RXD_CTRL_EN p) = 0 → s.isOn R.THM_SD_STAT_PEND = false → s.inShutdown = false → s.rxState p = 0 →
      SettlesWith (.receiverEnable p) s St.ok (fun t => t.get (R.RXD_CTRL_EN p) = 1 ∧ t.rxState p = 1 ∧ t.get (R.RXD_ACQ_ATTEMPTS p) = 0 ∧
        t.get (R.RXD_ACQ_RUNG p) = s.get (R.RXD_CTRL_ACQ_RUNG p) % 2 ^ 6 ∧ t.swc = s.swc ∧ t.sram = s.sram ∧ t.port (1 - p) = s.port (1 - p))) ∧
    (s.get (R.RXD_CTRL_EN p) = 0 → s.isOn R.THM_SD_STAT_PEND = true →
      SettlesWith (.receiverEnable p) s St.tempInhibit (fun t => t.get (R.RXD_CTRL_EN p) = 0 ∧ t.rxState p = s.rxState p ∧ { t with regs := s.regs } = s)) ∧
    (s.get (R.RXD_CTRL_EN p) = 0 → s.isOn R.THM_SD_STAT_PEND = false → s.inShutdown = true →
      SettlesWith (.receiverEnable p) s St.conflict (fun t => t.get (R.RXD_CTRL_EN p) = 0 ∧ t.rxState p = s.rxState p ∧ { t with regs := s.regs } = s)) ∧
    (s.get (R.RXD_CTRL_EN p) = 1 → s.rxState p ≠ 0 →
      SettlesWith (.receiverDisable p) s St.ok (fun t => t.get (R.RXD_CTRL_EN p) = 0 ∧ t.rxState p = 0 ∧ t.get (R.RXD_FO_VALID p) = 0 ∧
        t.get (R.RXD_ACQ_SEDGE_SEEN p) = 0 ∧ (t.port p).rxd.payload = false ∧ (5 ≤ s.rxState p → t.faHolds p = false) ∧
        (s.faHolds p = false → t.swc = s.swc) ∧ t.sram = s.sram))

/-- R119, R126 to R130: the acquisition of a receiver, state by state, on the way up: beacon judged, frequency, equaliser, frame, FEC,
lock. R119, R126, R130: how a receiver falls back: FEC lock lost returns to FEC, a frequency out of range and LOS end the lock in
BEACON, LOS during acquisition fails the attempt. -/
def Obligations.ReceiverAcquisition : Prop :=
  (∀ (p : Nat) (s : State), s.hasPort p = true →
    (s.rxState p = 1 → s.rungOk p (s.rxRungIx p) = true → (s.port p).rxd.los = false → s.isOn (R.RXD_CTRL_BEACON_REQ p) = false →
      Settles (.payloadPresent p true) s (fun t => t.rxState p = 2 ∧ t.get (R.RXD_FO_VALID p) = 0 ∧ t.swc = s.swc ∧ (t.port p).rxd.payload = true)) ∧
    (s.rxState p = 1 → s.rungOk p (s.rxRungIx p) = true → (s.port p).rxd.payload = true → s.isOn (R.RXD_CTRL_BEACON_REQ p) = false →
      Settles (.losClear p) s (fun t => t.rxState p = 2 ∧ (t.port p).rxd.los = false ∧ t.swc = s.swc)) ∧
    (∀ fo : Int, s.rxState p = 2 → -5000 ≤ fo → fo ≤ 5000 → s.isOn (R.RXD_ACQ_WARM p) = true →
      Settles (.freqEstimateDone p fo) s (fun t => t.rxState p = 4 ∧ t.getI (R.RXD_FO_FO p) = fo ∧ t.get (R.RXD_FO_VALID p) = 1 ∧ t.swc = s.swc)) ∧
    (∀ fo : Int, s.rxState p = 2 → fo < -5000 ∨ 5000 < fo →
      Settles (.freqEstimateDone p fo) s (fun t => t.rxState p = 2 ∧ t.get (R.RXD_FO_VALID p) = 1 ∧ { t with regs := s.regs } = s)) ∧
    (∀ coarse, s.rxState p = 3 → Settles (.cdScanEnd p coarse []) s (fun t => t.rxState p = 1 ∧ t.get (R.RXD_ACQ_LAST_FAIL p) = 3 ∧
      t.get (stickyBit (Ev.RXD_CD_SCAN_FAIL p)) = 1 ∧ t.get (stickyBit (Ev.RXD_ACQ_FAIL p)) = 1)) ∧
    (s.rxState p = 4 → Settles (.eqConverged p) s (fun t => t.rxState p = 5 ∧ { t with regs := s.regs } = s)) ∧
    (s.rxState p = 2 ∨ s.rxState p = 4 → Settles (.acqTimerExpiry p) s (fun t => t.rxState p = 1 ∧ t.get (R.RXD_ACQ_LAST_FAIL p) = s.rxState p ∧
      t.get (stickyBit (Ev.RXD_ACQ_FAIL p)) = 1 ∧ { t with regs := s.regs, pmc := s.pmc, hdg := s.hdg, port0 := s.port0, port1 := s.port1 } = s)) ∧
    (s.rxState p = 6 → s.faHolds p = true → Settles (.fecLockDeclare p) s (fun t => t.rxState p = 7 ∧ t.get (R.RXD_ACQ_ATTEMPTS p) = 0 ∧
      (t.port p).rxd.fecLock = true ∧ t.get (stickyBit (Ev.RXD_LOCKED p)) = 1 ∧
      { t with regs := s.regs, pmc := s.pmc, hdg := s.hdg, port0 := s.port0, port1 := s.port1, freeCtr := s.freeCtr } = s))) ∧
  (∀ (p : Nat) (s : State), s.hasPort p = true →
    (s.rxState p = 7 → Settles (.fecLockLoss p) s (fun t => t.rxState p = 6 ∧ (t.port p).rxd.fecLock = false ∧
      t.get (stickyBit (Ev.RXD_LOCK_LOST p)) = 1 ∧ { t with regs := s.regs, pmc := s.pmc, hdg := s.hdg, port0 := s.port0, port1 := s.port1 } = s)) ∧
    (∀ fo : Int, s.rxState p = 7 → -5000 ≤ fo → fo ≤ 5000 → Settles (.foOutOfRange p fo) s (fun t =>
      t.rxState p = 7 ∧ t.getI (R.RXD_FO_FO p) = fo ∧ RegsBut [R.RXD_FO_FO p] s t ∧ { t with regs := s.regs } = s)) ∧
    (∀ fo : Int, s.rxState p = 7 → fo < -5000 ∨ 5000 < fo → Settles (.foOutOfRange p fo) s (fun t => t.rxState p = 1)) ∧
    (s.rxState p = 7 → (s.port p).rxd.los = false → Settles (.losDeclare p) s (fun t => t.rxState p = 1 ∧ (t.port p).rxd.los = true ∧
      t.get (stickyBit (Ev.RXD_LOS p)) = 1 ∧ t.get (stickyBit (Ev.RXD_LOCK_LOST p)) = 1)) ∧
    (2 ≤ s.rxState p → s.rxState p < 5 → (s.port p).rxd.los = false → Settles (.losDeclare p) s (fun t => t.rxState p = 1 ∧ (t.port p).rxd.los = true ∧
      t.get (R.RXD_ACQ_LAST_FAIL p) = s.rxState p ∧ t.get (stickyBit (Ev.RXD_LOS p)) = 1 ∧ t.get (stickyBit (Ev.RXD_ACQ_FAIL p)) = 1 ∧
      { t with regs := s.regs, pmc := s.pmc, hdg := s.hdg, port0 := s.port0, port1 := s.port1 } = s)) ∧
    (s.rxState p = 0 ∨ (s.port p).rxd.los = true → exec (.losDeclare p) s = .next (settle (s.modRxd p (fun r => { r with los := true })))))

/-- R115, R118, R120, R132, R133, R450: a cycle slip turns symbols of codewords not yet complete and a singular equaliser takes new
filters for the Y output; the latch of the estimates, the steering of the LO laser, and the throttle entry a receive direction takes. -/
def Obligations.ReceiverReports : Prop :=
  ∀ (p : Nat) (s : State), s.hasPort p = true →
    (∀ j n k, 4 ≤ s.rxState p → Answers (.cycleSlip p j n k) s (fun t => t.get (stickyBit (Ev.RXD_CYCLE_SLIP p)) = 1 ∧
      (t.port p).rxd.cwq.map (·.amps.length) = (s.port p).rxd.cwq.map (·.amps.length) ∧ (n = 0 → (t.port p).rxd.cwq = (s.port p).rxd.cwq) ∧
      (let r := (s.port p).rxd; (t.port p).rxd = { r with cwq := (t.port p).rxd.cwq }) ∧ t.port (1 - p) = s.port (1 - p) ∧
      { t with regs := s.regs, pmc := s.pmc, hdg := s.hdg, port0 := s.port0, port1 := s.port1 } = s)) ∧
    (∀ j, 4 ≤ s.rxState p →
      let l := (s.port p).rxd.taps
      let new := l.take (4 * j) ++ orthoTaps ((l.drop (4 * j)).take 4) ++ l.drop (4 * j + 4)
      exec (.eqSingular p j) s = .next ((s.modRxd p (fun r => { r with taps := new })).raise (Ev.RXD_EQ_SINGULAR p))) ∧
    (∀ j n k, s.rxState p < 4 → exec (.cycleSlip p j n k) s = .next s ∧ exec (.eqSingular p j) s = .next s) ∧
    (∀ e : Estimates, s.rxState p ≠ 0 → s.isOn (R.LFR_ALIGN_STAT_SA p) = false → Answers (.estimateLatch p e) s (fun t =>
      t.get (R.RXD_EST_SEQ_VALUE p) = (s.get (R.RXD_EST_SEQ_VALUE p) + 1) % 2 ^ 32 ∧ t.get (R.RXD_EST_SWATH_VALUE p) = 0 ∧
      t.get (R.RXD_EST_VALID_SW_VALID p) = 0 ∧ t.get (stickyBit (Ev.RXD_EST_READY p)) = 1 ∧
      { t with regs := s.regs, pmc := s.pmc, hdg := s.hdg, port0 := s.port0, port1 := s.port1 } = s)) ∧
    (∀ n, s.roleLane (2 + 3 * p) = some n → s.isOn (R.RXD_FTUNE_EN p) = true → s.loopRuns (linkLoops p) = true → Answers (.ftuneSend p) s (fun t =>
      ∃ tag < 128, getAt [] t.stl.sent n = stlFrame ([0x10, tag, 0, 2] ++ bytesBe 2 (toField 16 (s.ftuneStep p))))) ∧
    (s.roleLane (2 + 3 * p) = none → exec (.ftuneSend p) s = .next s) ∧
    (s.rxState p = 7 → 4 * s.get (R.RXD_FTUNE_ALARM p) < (s.getI (R.RXD_FO_FO p)).natAbs → exec (.foAlarm p) s = .next (s.raise (Ev.RXD_FO_RANGE p))) ∧
    Answers (.throttleApply p) s (fun t => (t.port p).rxd.entry = s.throttleEntry (s.get R.THM_LEVEL_LEVEL) ∧ t.port (1 - p) = s.port (1 - p) ∧
      t.get (R.FEC_CAP_EFFECTIVE p) = min (s.get (R.FEC_CAP_CAP p)) (bits (s.throttleEntry (s.get R.THM_LEVEL_LEVEL)) 5 0) % 2 ^ 6 ∧
      { t with regs := s.regs, pmc := s.pmc, hdg := s.hdg, port0 := s.port0, port1 := s.port1, freeCtr := s.freeCtr } = s)

/-- R33, R40, R145, R154: MODE written outside PAYLOAD takes the transmitter to OFF or to PILOT at once, and to PAYLOAD with the rung
of RUNG_INIT where that rung is defined; in PAYLOAD it is stored, and the boundary after it stops the position. R451 and R453 for the
transmitter: a MODE other than OFF is not taken: it answers TEMP_INHIBIT while a shutdown record waits, and CONFLICT in SHUTDOWN. -/
def Obligations.TransmitterStates : Prop :=
  (∀ (p : Nat) (s : State), s.hasPort p = true → s.isOn R.THM_SD_STAT_PEND = false → s.inShutdown = false →
    (∀ mode < 2, s.txState p ≠ 2 → exec (.transmitterModeWrite p mode) s =
      .next ((settle ((s.set (R.TXD_CTRL_MODE p) mode).set (R.TXD_STATE_STATE p) mode)).answer St.ok [])) ∧
    (∀ mode < 3, s.txState p = 2 → exec (.transmitterModeWrite p mode) s = .next ((settle (s.set (R.TXD_CTRL_MODE p) mode)).answer St.ok [])) ∧
    (s.txState p ≠ 2 → s.rungOk p (s.get (R.TXD_CTRL_RUNG_INIT p)) = false → exec (.transmitterModeWrite p 2) s =
      .next ((settle (s.set (R.TXD_STATE_RUNG_BAD p) 1)).answer St.ok [])) ∧
    (s.txState p ≠ 2 → s.rungOk p (s.get (R.TXD_CTRL_RUNG_INIT p)) = true → s.swc.acts = [] → s.swc.pds.length = 4 →
      SettlesWith (.transmitterModeWrite p 2) s St.ok (fun t => t.txState p = 2 ∧ t.get (R.TXD_CTRL_MODE p) = 2 ∧
        t.txRungIx p = s.get (R.TXD_CTRL_RUNG_INIT p) % 2 ^ 6 ∧ (t.pdPos (txPd p)).valid = true ∧ (t.pdPos (txPd p)).frame = 0 ∧
        (t.pdPos (txPd p)).swath = (s.pdPos (txPd p)).swath)) ∧
    (s.txState p = 2 → s.get (R.TXD_CTRL_MODE p) = 2 → exec (.transmitterStop p) s = .next (settle s)) ∧
    (s.txState p = 2 → s.get (R.TXD_CTRL_MODE p) < 2 → s.swc.acts = [] → s.swc.pds.length = 4 → (s.pdPos (txPd p)).first = false →
      Settles (.transmitterStop p) s (fun t => t.txState p = s.get (R.TXD_CTRL_MODE p) ∧ (t.pdPos (txPd p)).valid = false ∧
        (t.pdPos (txPd p)).frame = 0 ∧ (t.pdPos (txPd p)).swath = ((s.pdPos (txPd p)).swath + 1) % 2 ^ 48 ∧
        RegsBut [R.TXD_STATE_STATE p] s t ∧ { t with regs := s.regs, swc := s.swc } = s))) ∧
  (∀ (p mode : Nat) (s : State), s.hasPort p = true → 1 ≤ mode → mode < 3 →
    (s.isOn R.THM_SD_STAT_PEND = true → exec (.transmitterModeWrite p mode) s = .next ((settle s).answer St.tempInhibit [])) ∧
    (s.isOn R.THM_SD_STAT_PEND = false → s.inShutdown = true → exec (.transmitterModeWrite p mode) s = .next ((settle s).answer St.conflict [])))

/-- R160, R272: a report of 84 bytes is shown and ends a pause; its miss pauses the policy of the direction. R276: a back-off or a hold
after a crossing ends. -/
def Obligations.FarEndReports : Prop :=
  (∀ (p : Nat) (s : State), s.hasPort p = true →
    (∀ b : List Nat, s.coreRuns 6 = true → b.length = 84 → s.authority p 0 ≠ 3 → Answers (.reportReceive p b) s (fun t =>
      t.get (R.TXD_FER_SEQ_VALUE p) = (s.get (R.TXD_FER_SEQ_VALUE p) + 1) % 2 ^ 32 ∧ t.get (R.TXD_FER_SWATH_VALUE p) = beAt b 2 4 % 2 ^ 32 ∧
      (t.port p).txd.paused = false ∧ t.get (stickyBit (Ev.TXD_RPT_RX p)) = 1 ∧
      { t with regs := s.regs, pmc := s.pmc, hdg := s.hdg, port0 := s.port0, port1 := s.port1 } = s)) ∧
    (∀ b : List Nat, b.length ≠ 84 → exec (.reportReceive p b) s = .next (s.modSgp p (fun g => { g with coreIn := g.coreIn.erase (0x10, b) }))) ∧
    ((s.pdPos (rxPd p)).valid = true → exec (.reportMiss p) s =
      .next ((s.raise (Ev.TXD_RPT_MISS p)).modTxd p (fun t => { t with paused := true }))) ∧
    ((s.pdPos (rxPd p)).valid = false → exec (.reportMiss p) s = .next s)) ∧
  (∀ (p i : Nat) (s : State), s.hasPort p = true →
    (i < 2 → exec (.crossingHoldExpiry p false i) s = .next (s.modProp p i (fun x => { x with hold := false }))) ∧
    (i < 32 → exec (.crossingHoldExpiry p true i) s = .next (s.modEx p i (fun x => { x with hold := false }))) ∧
    (i < 2 → (s.prop p i).backoff = true → s.propOpen p i = false → (s.prop p i).rung = true →
      Settles (.crossingBackoffExpiry p false i) s (fun t => ∃ u : State, ∃ body : List Nat, t = coreSend p 0x11 body u ∧ u.propState p i = 1 ∧
        (u.prop p i).waiting = true ∧ (u.prop p i).backoff = false ∧ (u.prop p i).content = (s.prop p i).content ∧
        (u.prop p i).target = reTarget (s.prop p i).brk (s.prop p i).target (s.leastTarget p i))) ∧
    (i < 2 → (s.prop p i).backoff = false → exec (.crossingBackoffExpiry p false i) s = .next (settle s)) ∧
    (∀ old least : Nat, least ≤ reTarget false old least ∧ (least ≤ old → reTarget false old least = old) ∧
      (old < least → reTarget false old least % 256 = 0 ∧ reTarget false old least < least + 256)))

/-- R162, R164: what GO and ABORT of TXD_PROP_CMD do at the decider: a PROPOSE sent and waited for, an open proposal of this end ended
with ABORTED, also by its response timer with TIMEOUT. -/
def Obligations.ProposalCommands : Prop :=
  ∀ (p d id i : Nat) (s : State), s.hasPort p = true → d < 2 → id < 256 → i < 64 →
    (s.authority p d = 1 → s.propOpen p d = false → (s.prop p d).hold = false →
      SettlesWith (.proposeGo p d true id i) s St.ok (fun t => ∃ u : State, ∃ body : List Nat, t = coreSend p 0x11 body u ∧
        u.propState p d = 1 ∧ u.get (R.TXD_PROP_STAT_ROLE p d) = 0 ∧ u.get (R.TXD_PROP_STAT_ID p d) = id ∧ (u.prop p d).waiting = true ∧
        (u.prop p d).content = [i] ∧ (u.prop p d).target = s.get (R.TXD_PROP_SW_LO_SW_L p) + 2 ^ 32 * s.get (R.TXD_PROP_SW_HI_SW_H p) ∧
        RegsBut [R.TXD_PROP_STAT_STATE p d, R.TXD_PROP_STAT_ROLE p d, R.TXD_PROP_STAT_ID p d, R.TXD_PROP_STAT_STATUS p d] s u ∧
        { u with regs := s.regs, port0 := s.port0, port1 := s.port1 } = s)) ∧
    (s.authority p d ≠ 1 → ∀ rung, exec (.proposeGo p d rung id i) s = .next ((settle s).answer St.denied [])) ∧
    (s.authority p d = 1 → s.propOpen p d = true → ∀ rung, exec (.proposeGo p d rung id i) s = .next ((settle s).answer St.busy [])) ∧
    (s.coreRuns 6 = false → s.propOpen p d = true → s.get (R.TXD_PROP_STAT_ROLE p d) = 0 → (s.prop p d).act = none →
      SettlesWith (.proposeAbort p d) s St.ok (fun t => t.propState p d = 6 ∧ t.get (R.TXD_PROP_STAT_STATUS p d) = St.aborted ∧
        (t.prop p d).waiting = false ∧ t.get (stickyBit (Ev.TXD_PROP_FAIL p)) = 1 ∧
        { t with regs := s.regs, pmc := s.pmc, hdg := s.hdg, port0 := s.port0, port1 := s.port1 } = s)) ∧
    (s.propOpen p d = false → exec (.proposeAbort p d) s = .next ((settle s).answer St.ok [])) ∧
    (s.coreRuns 6 = false → s.propState p d = 1 → (s.prop p d).waiting = true → s.get (R.TXD_PROP_STAT_ROLE p d) = 0 → (s.prop p d).act = none →
      Settles (.responseTimeout p d) s (fun t => t.propState p d = 6 ∧ t.get (R.TXD_PROP_STAT_STATUS p d) = St.timeout ∧ (t.prop p d).waiting = false))

/-- R163, R164: the answers of the two ends. A PROPOSE of a rung or a set that passes the responder's checks and the insertion is
stored, shown ACCEPTED and answered ACCEPT; one it turns away is answered REJECT; ACCEPT moves the decider's proposal on, REJECT ends
it, COMMIT moves the responder's on, ABORT ends it. -/
def Obligations.ProposalAnswers : Prop :=
  ∀ (p : Nat) (b : List Nat) (s : State), s.hasPort p = true → s.coreRuns 6 = true → let d := 1 - bitAt (b.getD 1 0) 0
    (s.propState p d ≠ 1 → s.propOpen p d = false → s.authority p d ≠ 2 → s.authority p d ≠ 4 →
      Settles (.proposeReceive p b) s (fun t => ∃ u : State, u = coreSend p 0x13 [b.getD 0 0, d, St.denied]
          (s.modSgp p (fun g => { g with coreIn := g.coreIn.erase (0x11, b) })) ∧
        (u.propOpen p d = false → t.propState p d = 5 ∧ t.get (R.TXD_PROP_STAT_ROLE p d) = 1 ∧ t.get (R.TXD_PROP_STAT_STATUS p d) = St.denied ∧
          t.get (stickyBit (Ev.TXD_PROP_FAIL p)) = 1))) ∧
    (let w := (List.range 3).map (fun k => ofLe ((b.drop (8 + 16 * k)).take 16))
     let rung := bitAt (b.getD 1 0) 1 == 1
     let i := b.getD 8 0 % 64
     let u := s.modSgp p (fun g => { g with coreIn := g.coreIn.erase (0x11, b) })
     let v := if rung then u else u.setBankWords (adjTab p d) (u.idleAdj p d) 0 w
     u.proposeVerdict p d rung (beAt b 2 6) i (adjOf (word w 0) (word w 1) (word w 2)) = St.ok →
     v.insertVerdict M.sedge (v.propDesc p d rung (beAt b 2 6) i) false = St.ok →
      Settles (.proposeReceive p b) s (fun t => ∃ x : State, t = coreSend p 0x12 [b.getD 0 0, d] x ∧ x.propState p d = 2 ∧
        x.get (R.TXD_PROP_STAT_ROLE p d) = 1 ∧ x.get (R.TXD_PROP_STAT_ID p d) = b.getD 0 0 % 2 ^ 8 ∧ x.get (R.TXD_PROP_STAT_STATUS p d) = 0 ∧
        x.swc.acts.length = s.swc.acts.length + 1 ∧ (x.prop p d).target = beAt b 2 6 ∧ (x.prop p d).rung = rung ∧
        (x.prop p d).content = (if rung then [i] else w) ∧ (x.prop p d).act.isSome = true)) ∧
    (s.propState p d = 1 → (s.prop p d).waiting = true → s.get (R.TXD_PROP_STAT_ID p d) = b.getD 0 0 → 
      Settles (.rejectReceive p b) s (fun t => t.propState p d = 5 ∧ t.get (R.TXD_PROP_STAT_STATUS p d) = b.getD 2 0 % 2 ^ 8 ∧
        (t.prop p d).waiting = false ∧ t.get (stickyBit (Ev.TXD_PROP_FAIL p)) = 1 ∧
        { t with regs := s.regs, pmc := s.pmc, hdg := s.hdg, port0 := s.port0, port1 := s.port1 } = s)) ∧
    (s.propState p d = 1 → (s.prop p d).waiting = true → s.get (R.TXD_PROP_STAT_ID p d) = b.getD 0 0 → s.get (R.TXD_PROP_STAT_ROLE p d) = 0 →
      (s.prop p d).rung = true → (s.prop p d).brk = false →
      (s.modSgp p (fun g => { g with coreIn := g.coreIn.erase (0x12, b) })).insertVerdict M.host
        (s.propDesc p d true (s.prop p d).target ((s.prop p d).content.headD 0)) false = St.ok →
      Settles (.acceptReceive p b) s (fun t => ∃ u : State, t = coreSend p 0x14 [b.getD 0 0, d] u ∧ u.propState p d = 3 ∧
        u.swc.acts.length = s.swc.acts.length + 1 ∧ (u.prop p d).waiting = false ∧ (u.prop p d).act.isSome = true)) ∧
    (s.propState p d = 2 → s.get (R.TXD_PROP_STAT_ROLE p d) = 1 → s.get (R.TXD_PROP_STAT_ID p d) = b.getD 0 0 →
      exec (.commitReceive p b) s = .next (settle ((s.modSgp p (fun g => { g with coreIn := g.coreIn.erase (0x14, b) })).set (R.TXD_PROP_STAT_STATE p d) 3))) ∧
    (s.propOpen p d = true → s.get (R.TXD_PROP_STAT_ROLE p d) = 1 → s.get (R.TXD_PROP_STAT_ID p d) = b.getD 0 0 → (s.prop p d).act = none →
      Settles (.abortReceive p b) s (fun t => t.propState p d = 6 ∧ t.get (R.TXD_PROP_STAT_STATUS p d) = St.aborted ∧
        t.get (stickyBit (Ev.TXD_PROP_FAIL p)) = 1 ∧
        { t with regs := s.regs, pmc := s.pmc, hdg := s.hdg, port0 := s.port0, port1 := s.port1 } = s))

/-- R33, R199, R202 to R205: a frame built in PAYLOAD takes the next position, and its header is FAS and the scrambled copies of a
control block of that position, of the rung, of the codeword pointer and of the key epoch; the other port changes only where a bonded
group shares what its clients bring. Outside PAYLOAD nothing is built. -/
def Obligations.FrameBuild : Prop :=
  ∀ (p : Nat) (clients : List (List ClientSig)) (lanes : List (List Int)) (s : State), s.hasPort p = true →
    (s.txState p ≠ 2 → exec (.txFrameBuild p clients lanes) s = .next (settle s)) ∧
    (s.txState p = 2 → s.txNext p % 256 ≠ 0 → s.swc.pds.length = 4 →
      Settles (.txFrameBuild p clients lanes) s (fun t => (t.pdPos (txPd p)).swath = s.txNext p / 256 % 2 ^ 48 ∧
        (t.pdPos (txPd p)).frame = s.txNext p % 256 ∧ (t.pdPos (txPd p)).first = false ∧
        (∃ d : List Nat, (t.port p).txd.header = headerBytes ⟨s.txNext p % 256, s.txNext p / 256 % 2 ^ 48, s.txRungIx p,
          (s.port p).txd.stream.pointer (s.txRung p), s.txEpoch p, (t.port p).txd.jcNext,
          if (s.pdPos (txPd p)).first then 0 else min (s.port p).txd.jcNext (allotment (s.txRung p) (s.dirHqs p 0) (s.port p).txd.stream
            ((s.txRung p).restartsMatch (s.planRung p 0 (s.txNext p % 2 ^ 56 + 1) (s.txRungIx p)).2)
            ((s.txRung p).restartsCode (s.planRung p 0 (s.txNext p % 2 ^ 56 + 1) (s.txRungIx p)).2))⟩ d) ∧
        t.sram = s.sram ∧ t.img = s.img ∧ t.swc.acts = s.swc.acts ∧
        (s.bonded = false ∨ clients = [] → t.port (1 - p) = s.port (1 - p)))) ∧
    (∀ (c : Control) (d : List Nat), (headerBytes c d).take 16 = fas)

/-- R210, R211: a position whose FAS check and control copy pass becomes candidate 0 with one hit while none is held, and is dropped
with an event or counted on by its examination one frame later; the third hit declares frame alignment. R65, R86, R208, R213: a frame
without frame alignment only measures, and a lane whose band carries no samples reads 0; under alignment a fifth failing FAS check in a
row ends it, the check of the header that the symbols recovered from the samples spell where there are any. -/
def Obligations.FrameReception : Prop :=
  (∀ (p : Nat) (header : List Nat) (s : State), s.hasPort p = true →
    (∀ pos, s.faHolds p = true ∨ s.rxState p ≠ 5 ∨ 65536 / (s.rxRung p).subs ≤ pos ∨ s.fasPasses p header = false ∨ copyIn header = none →
      exec (.fasSearchHit p pos header) s = .next s) ∧
    (∀ pos k c, s.faHolds p = false → s.rxState p = 5 → pos < 65536 / (s.rxRung p).subs → s.fasPasses p header = true → copyIn header = some (k, c) →
      (∀ j < 4, s.isOn (R.LFR_CAND_VALID p j) = false) →
      Answers (.fasSearchHit p pos header) s (fun t => t.get (R.LFR_CAND_VALID p 0) = 1 ∧ t.get (R.LFR_CAND_HITS p 0) = 1 ∧
        t.get (R.LFR_CAND_MFAS p 0) = c.mfas % 2 ^ 8 ∧ t.get (R.LFR_CAND_POS p 0) = pos % 2 ^ 16 ∧ t.get (R.LFR_ALIGN_STAT_CANDS p) = 1 ∧
        RegsBut [R.LFR_CAND_VALID p 0, R.LFR_CAND_HITS p 0, R.LFR_CAND_MFAS p 0, R.LFR_CAND_POS p 0, R.LFR_ALIGN_STAT_CANDS p] s t ∧
        { t with regs := s.regs } = s)) ∧
    (∀ k < 4, s.isOn (R.LFR_CAND_VALID p k) = true → s.faHolds p = false →
      (copyIn header = none ∨ s.fasPasses p header = false → Settles (.candidateExamine p k header) s (fun t => t.isOn (R.LFR_CAND_VALID p k) = false ∧
        t.get (R.LFR_CAND_STAT_DROPPED p) = satAdd 65535 (s.get (R.LFR_CAND_STAT_DROPPED p)) 1 ∧ t.get (stickyBit (Ev.LFR_CAND_DROP p)) = 1 ∧
        { t with regs := s.regs, pmc := s.pmc, hdg := s.hdg } = s)) ∧
      (∀ j c, copyIn header = some (j, c) → s.fasPasses p header = true → c.mfas = (s.get (R.LFR_CAND_MFAS p k) + 1) % 256 →
        (s.get (R.LFR_CAND_HITS p k) < 2 → exec (.candidateExamine p k header) s = .next (settle
          ((s.set (R.LFR_CAND_HITS p k) (s.get (R.LFR_CAND_HITS p k) + 1)).set (R.LFR_CAND_MFAS p k) c.mfas))) ∧
        (2 ≤ s.get (R.LFR_CAND_HITS p k) → Settles (.candidateExamine p k header) s (fun t => t.faHolds p = true ∧
          t.get (R.LFR_ALIGN_STAT_MFAS p) = c.mfas ∧ t.get (R.LFR_ALIGN_STAT_CANDS p) = 0 ∧ t.swc = s.swc ∧ t.img = s.img)))) ∧
    (∀ k < 4, s.isOn (R.LFR_CAND_VALID p k) = false → exec (.candidateExamine p k header) s = .next (settle s))) ∧
  (∀ (p : Nat) (x : RxFrame) (s : State), s.hasPort p = true → (∀ y ∈ s.units.tiles, y.2 < 16) →
    (s.faHolds p = false → Settles (.frameHeaderReceive p x) s (fun t => t.faHolds p = false ∧ t.swc.pds = s.swc.pds ∧ t.sram = s.sram ∧
      (∀ l < 4, t.get (R.CNV_PWR_RMS p l) = if s.bandCarries p (2 * l) then min 511 (x.lanes.rms.getD l 0) else 0))) ∧
    (4 ≤ (s.port p).lfr.fasFails → (∀ syms, syms = (rxField p x (losJudge p (rxFrameStep p (frameMeasure p x.lanes (tilesLeave p s))))).1 →
        s.fasPasses p (if syms = [] then x.header else headDecide (s.rxRung p) syms) = false) → Settles (.frameHeaderReceive p x) s (fun t => t.faHolds p = false)) ∧
    (s.faHolds p = false → exec (.faLoss p) s = .next (settle s)) ∧
    (s.faHolds p = true → Settles (.faLoss p) s (fun t => t.faHolds p = false ∧ t.isOn (R.LFR_ALIGN_STAT_SA p) = false ∧
      t.get (stickyBit (Ev.LFR_FA_LOST p)) = 1 ∧ (t.port p).rxd.fecLock = false ∧
      (s.isOn (R.LFR_ALIGN_STAT_SA p) = false → { t with regs := s.regs, pmc := s.pmc, hdg := s.hdg, port0 := s.port0, port1 := s.port1 } = s))))

/-- R230, R231: the skew of a bonded group is shown, its peak held, a third value in a row above 16 µs raises the alarm, and the group
is squelched while a cause holds; nothing is shown of ports that are not bonded. R165: the receive adjustment swaps to the idle set
whose ADJ_ID is received. -/
def Obligations.SkewAndSwap : Prop :=
  (∀ (m : Option Int) (s : State), s.bonded = false → exec (.skewMeasure m) s = .next (settle s)) ∧
  (∀ s : State, s.bonded = true → exec (.skewMeasure none) s = .next (settle (s.set (R.LFR_BOND_STAT_VALID 0) 0))) ∧
  (∀ (x : Int) (s : State), s.bonded = true → -(2 ^ 19) ≤ x → x < 2 ^ 19 →
    Settles (.skewMeasure (some x)) s (fun t => t.getI (R.LFR_BOND_STAT_SKEW 0) = x ∧ t.get (R.LFR_BOND_STAT_VALID 0) = 1 ∧
      t.get (R.LFR_BOND_PEAK_MAX 0) = max (s.get (R.LFR_BOND_PEAK_MAX 0)) x.natAbs ∧
      (16000 < x.natAbs → 2 ≤ (s.port 0).lfr.skewBad → t.get (R.LFR_BOND_STAT_SKEW_ALARM 0) = 1 ∧
        (s.get (R.LFR_BOND_STAT_SKEW_ALARM 0) = 0 → t.get (stickyBit (Ev.LFR_BOND_SKEW 0)) = 1)) ∧
      (x.natAbs ≤ 15000 → 2 ≤ (s.port 0).lfr.skewGood → t.get (R.LFR_BOND_STAT_SKEW_ALARM 0) = 0) ∧
      t.get (R.LFR_BOND_STAT_SQUELCH 0) = t.squelchCause.toNat ∧
      { t with regs := s.regs, pmc := s.pmc, hdg := s.hdg, port0 := s.port0 } = s)) ∧
  (∀ (p : Nat) (s : State), s.hasPort p = true →
    ((s.port p).lfr.adjSwap = false ∨ (s.adjIdle p 1).id ≠ s.get (R.TXD_ADJ_STAT_RCVD_ID p) → exec (.adjMismatchSwap p) s = .next s) ∧
    (∀ e, (s.port p).lfr.adjSwap = true → (s.adjIdle p 1).id = s.get (R.TXD_ADJ_STAT_RCVD_ID p) → s.findTab (adjTab p 1) = some e → e.perDir = false →
      s.actBank (adjTab p 1) false ≤ 1 →
      Answers (.adjMismatchSwap p) s (fun t => t.img = { s.img with actTx := setAt 0 s.img.actTx (adjTab p 1) (1 - s.actBank (adjTab p 1) false) } ∧
        t.get (R.TXD_ADJ_STAT_RX_BANK p) = 1 - s.actBank (adjTab p 1) false ∧ t.get (stickyBit (Ev.TXD_ADJ_MISMATCH p)) = 1 ∧
        (t.port p).lfr.adjSwap = false ∧ t.swc = s.swc ∧ t.sram = s.sram)))

/-- R234: the states of a client lane direction: WAKE to TEST on lock, TEST to ON at the swath boundary after a loop test without
error, FAILED where the test or the synthesiser fails, and ON back to WAKE when a receive lane loses its signal. R238, R240, R246: a
group in ALIGN goes UP when its lanes lock, each to its own number, within the deskew buffer of 180 ns, and a replacement then goes on
to the next frame boundary; with a wrong lane it stays, and beyond the buffer SKEW_ERR is set and it stays. A lane that loses lock
takes it from UP to ALIGN; hi_ser of an Ethernet group is shown. -/
def Obligations.ClientSide : Prop :=
  (∀ (n d : Nat) (s : State), n < 64 → d < 2 →
    (s.laneState n d = 1 → Settles (.laneLock n d) s (fun t => t.laneState n d = 2 ∧ (d = 1 → t.get (R.CLI_LANE_STAT_CDR_LOCK n) = 1 ∧
      t.get (R.CLI_LANE_STAT_LOS n) = 0) ∧ (∀ m < 64, ∀ e < 2, m ≠ n ∨ e ≠ d → t.laneState m e = s.laneState m e) ∧
      { t with regs := s.regs, pmc := s.pmc, hdg := s.hdg, cli := s.cli } = s)) ∧
    (s.laneState n d ≠ 1 → exec (.laneLock n d) s = .next (settle s) ∧ exec (.laneWakeTimeout n d) s = .next (settle s)) ∧
    (s.laneState n d = 1 → d = 1 → exec (.laneWakeTimeout n d) s = .next (settle (s.raiseClient Ev.CLI_LANE_LOS (3840 + 4 * n)))) ∧
    (s.laneState n d = 1 → d = 0 → Settles (.laneWakeTimeout n d) s (fun t => t.laneState n d = 4 ∧ t.get (stickyBit Ev.CLI_LANE_FAIL) = 1 ∧
      { t with regs := s.regs, pmc := s.pmc, hdg := s.hdg, cli := s.cli } = s)) ∧
    (s.laneState n d = 2 → Settles (.laneTestDone n d true) s (fun t => t.laneState n d = 4 ∧ t.get (stickyBit Ev.CLI_LANE_FAIL) = 1 ∧
      { t with regs := s.regs, pmc := s.pmc, hdg := s.hdg, cli := s.cli } = s)) ∧
    (s.laneState n d = 2 → Settles (.laneTestDone n d false) s (fun t => t.cli.passed.contains (2 * n + d) = true ∧
      (∀ x, x ≠ 2 * n + d → t.cli.passed.contains x = s.cli.passed.contains x) ∧ { t with cli := { t.cli with passed := s.cli.passed } } = s)) ∧
    (s.laneState n d ≠ 2 → ∀ bad, exec (.laneTestDone n d bad) s = .next (settle s)) ∧
    (s.laneState n d = 2 → s.cli.passed.contains (2 * n + d) = true → Settles (.laneJoin n d) s (fun t => t.laneState n d = 3 ∧
      (∀ m < 64, ∀ e < 2, m ≠ n ∨ e ≠ d → t.laneState m e = s.laneState m e) ∧
      { t with regs := s.regs, pmc := s.pmc, hdg := s.hdg, cli := s.cli } = s)) ∧
    (s.laneState n d ≠ 2 ∨ s.cli.passed.contains (2 * n + d) = false → exec (.laneJoin n d) s = .next (settle s)) ∧
    (∀ los, s.laneState n 1 = 3 → Settles (.laneLos n los) s (fun t => t.laneState n 1 = 1 ∧ t.get (R.CLI_LANE_STAT_CDR_LOCK n) = 0 ∧
      t.get (R.CLI_LANE_STAT_LOS n) = los.toNat ∧ t.get (stickyBit Ev.CLI_LANE_LOS) = 1 ∧ t.laneState n 0 = s.laneState n 0 ∧
      { t with regs := s.regs, pmc := s.pmc, hdg := s.hdg, cli := s.cli } = s)) ∧
    (∀ los, s.laneState n 1 ≠ 3 → exec (.laneLos n los) s = .next (settle s))) ∧
  (∀ (g : Nat) (s : State), g < 64 →
    (∀ spread wrong, s.grpState g = 2 → (∀ k < ifLanes (grpIf (s.grpWord g)), k ∉ wrong) → spread ≤ 1800 → Settles (.clientGroupUp g spread wrong) s (fun t => t.grpState g = 3 ∧
      t.get (R.CLI_GRP_SKEW_SKEW g) = spread ∧ t.get (R.CLI_GRP_STAT_LANE_LOCK g) = 2 ^ ifLanes (grpIf (s.grpWord g)) - 1 ∧
      t.get (R.CLI_GRP_STAT_SKEW_ERR g) = 0 ∧
      (s.cli.flexo.contains g = false → t.isOn (R.CLI_GRP_STAT_REPLACE_IN g) = s.isOn (R.CLI_GRP_STAT_REPLACE_IN g)) ∧ t.get (stickyBit Ev.CLI_GRP_UP) = 1 ∧
      (∀ h < 64, h ≠ g → t.grpState h = s.grpState h) ∧ { t with regs := s.regs, pmc := s.pmc, hdg := s.hdg } = s)) ∧
    (∀ spread wrong k, s.grpState g = 2 → k < ifLanes (grpIf (s.grpWord g)) → k ∈ wrong → Settles (.clientGroupUp g spread wrong) s (fun t =>
      t.grpState g = 2 ∧ t.get (R.CLI_GRP_SKEW_SKEW g) = min 65535 spread ∧
      (∀ i < ifLanes (grpIf (s.grpWord g)), bitAt (t.get (R.CLI_GRP_STAT_LANE_LOCK g)) i = if i ∈ wrong then 0 else 1) ∧
      RegsBut [R.CLI_GRP_SKEW_SKEW g, R.CLI_GRP_STAT_LANE_LOCK g] s t ∧ { t with regs := s.regs } = s)) ∧
    (∀ spread wrong, s.grpState g = 2 → (∀ k < ifLanes (grpIf (s.grpWord g)), k ∉ wrong) → 1800 < spread → Settles (.clientGroupUp g spread wrong) s (fun t => t.grpState g = 2 ∧
      t.get (R.CLI_GRP_SKEW_SKEW g) = min 65535 spread ∧ t.get (R.CLI_GRP_STAT_SKEW_ERR g) = 1 ∧ t.get (stickyBit Ev.CLI_SKEW) = 1 ∧
      (∀ h < 64, h ≠ g → t.grpState h = s.grpState h) ∧ { t with regs := s.regs, pmc := s.pmc, hdg := s.hdg } = s)) ∧
    (∀ spread wrong, s.grpState g ≠ 2 → exec (.clientGroupUp g spread wrong) s = .next (settle s)) ∧
    (∀ k, s.grpState g = 3 → k < ifLanes (grpIf (s.grpWord g)) → Settles (.clientLaneLockLoss g k) s (fun t => t.grpState g = 2 ∧
      bitAt (t.get (R.CLI_GRP_STAT_LANE_LOCK g)) k = 0 ∧ t.get (stickyBit Ev.CLI_GRP_DOWN) = 1 ∧
      (∀ h < 64, h ≠ g → t.grpState h = s.grpState h) ∧ { t with regs := s.regs, pmc := s.pmc, hdg := s.hdg } = s)) ∧
    (∀ k, s.grpState g ≠ 3 ∨ ifLanes (grpIf (s.grpWord g)) ≤ k → exec (.clientLaneLockLoss g k) s = .next (settle s)) ∧
    (∀ on, isEthernet (grpIf (s.grpWord g)) = true → grpDefined (s.grpWord g) = true → exec (.hiSerDetect g on) s =
      .next (settle ((s.set (R.CLI_GRP_STAT_HI_SER g) on.toNat).raiseClient Ev.CLI_HI_SER (4096 + 8 * g + 3)))) ∧
    (∀ on, isEthernet (grpIf (s.grpWord g)) = false ∨ grpDefined (s.grpWord g) = false → exec (.hiSerDetect g on) s = .next (settle s)))

/-- R258: ARM queues a LOADED buffer, is BUSY on one that is queued, DENIED on buffers 0 to 7 to every master but Sedge, and an event
on an empty one; the next packet takes the SEQ once 16 symbols have gone by since the one before, with idle symbols between them in
BEACON, and a protected one without a key fails; a sent packet leaves its buffer LOADED. R455: with domain 247 off nothing is sent.
R261, R262, R270, R271, R278, R455, R456: the host queue popped; HELLO sent only where it is due, its fields judged on arrival, and
PEER_SEEN falling without it; a correlator takes CODE, EN and DET_THR, its CODE stays where another enabled one holds it, EN = 0 ends
in IDLE, and an EN whose domain 247 may not be powered stays 0 with CONFLICT. -/
def Obligations.SedgeSending : Prop :=
  (∀ (p b : Nat) (s : State), s.hasPort p = true → b < 16 →
    (∀ m, b < 8 → m ≠ M.sedge → exec (.sedgeArm m p b) s = .next ((settle s).answer St.denied [])) ∧
    (∀ m, 8 ≤ b ∨ m = M.sedge → 2 ≤ s.bufState p b → exec (.sedgeArm m p b) s = .next ((settle s).answer St.busy [])) ∧
    (∀ m, 8 ≤ b ∨ m = M.sedge → s.bufState p b = 0 → exec (.sedgeArm m p b) s = .next ((settle (s.raise (Ev.SGP_TX_FAIL p))).answer St.ok [])) ∧
    (∀ m, 8 ≤ b ∨ m = M.sedge → s.bufState p b = 1 → s.get (R.SGP_TXB_CTRL_LENGTH p b) ≤ (if s.get (R.SGP_TXB_CTRL_SEC p b) = 0 then 2048 else 2024) →
      b < 8 ∨ isCoreType (s.get (R.SGP_TXB_CTRL_TYPE p b)) = false →
      SettlesWith (.sedgeArm m p b) s St.ok (fun t => t.bufState p b = 2 ∧ (t.port p).sgp.queue = (s.port p).sgp.queue ++ [b] ∧
        t.get (R.SGP_TX_STAT_QUEUED p) = ((s.port p).sgp.queue.length + 1) % 2 ^ 5 ∧
        RegsBut [R.SGP_TXB_CTRL_STATE p b, R.SGP_TX_STAT_QUEUED p] s t ∧ { t with regs := s.regs, port0 := s.port0, port1 := s.port1 } = s)) ∧
    (∀ gap, gap < 16 ∨ s.domainOn 247 = false ∨ s.isOn (R.SGP_TX_CTRL_EN p) = false ∨ s.get (R.TXD_STATE_STATE p) = 0 ∨
        (s.port p).sgp.sending.isSome = true ∨ (s.port p).sgp.queue = [] → exec (.sedgePacketStart p gap) s = .next s) ∧
    (∀ gap, 16 ≤ gap → s.domainOn 247 = true → s.isOn (R.SGP_TX_CTRL_EN p) = true → s.get (R.TXD_STATE_STATE p) ≠ 0 → (s.port p).sgp.sending = none → s.nextBuf p = some b →
      (s.get (R.SGP_TXB_CTRL_SEC p b) = 0 → Answers (.sedgePacketStart p gap) s (fun t => ∃ k : TxPacket, (t.port p).sgp.sending = some k ∧ k.buf = b ∧
        k.typ = s.get (R.SGP_TXB_CTRL_TYPE p b) ∧ k.sec = 0 ∧ k.len = s.get (R.SGP_TXB_CTRL_LENGTH p b) ∧ k.seq = s.get (R.SGP_TX_STAT_SEQ p) ∧
        k.code = s.get (R.SGP_TX_CTRL_OWN_CODE p) ∧ k.body = (List.range k.len).map (fun i => getAt 0 (s.port p).sgp.data (2048 * b + i)) ∧
        k.syms = packetSymbols (packetHeader k.typ 0 k.len k.seq k.code) k.body ∧ t.bufState p b = 3 ∧
        t.get (R.SGP_TX_STAT_SEQ p) = (k.seq + 1) % 4096 ∧ t.get (R.SGP_TX_STAT_SENDING p) = 1 ∧ t.get (R.SGP_TX_STAT_BUF p) = b ∧
        (t.port p).sgp.idle = (if s.get (R.TXD_STATE_STATE p) = 1 then prbs23 0x2AAAAA gap else []) ∧
        (t.port p).sgp.queue = (s.port p).sgp.queue.filter (· ≠ b) ∧ { t with regs := s.regs, port0 := s.port0, port1 := s.port1 } = s)) ∧
      (s.get (R.SGP_TXB_CTRL_SEC p b) ≠ 0 → (s.sess (s.get (R.SGP_AUTH_POL_SESSION p))).key = none → Answers (.sedgePacketStart p gap) s (fun t =>
        (t.port p).sgp.sending = none ∧ t.bufState p b = 1 ∧ t.get (stickyBit (Ev.SGP_TX_FAIL p)) = 1 ∧
        (t.port p).sgp.queue = (s.port p).sgp.queue.filter (· ≠ b) ∧
        { t with regs := s.regs, pmc := s.pmc, hdg := s.hdg, port0 := s.port0, port1 := s.port1 } = s))) ∧
    ((s.port p).sgp.sending = none → exec (.sedgeTxDone p) s = .next s) ∧
    (∀ k, (s.port p).sgp.sending = some k → k.buf < 16 → (s.port p).sgp.coreOut = [] → Answers (.sedgeTxDone p) s (fun t =>
      (t.port p).sgp.sending = none ∧ t.bufState p k.buf = 1 ∧ t.get (R.SGP_TX_STAT_SENDING p) = 0 ∧ t.get (stickyBit (Ev.SGP_TX_DONE p)) = 1 ∧
      { t with regs := s.regs, pmc := s.pmc, hdg := s.hdg, port0 := s.port0, port1 := s.port1 } = s))) ∧
  (∀ (p : Nat) (s : State), s.hasPort p = true →
    exec (.sedgeRxqPop p) s = .next ((settle (s.modSgp p (fun g => { g with rxq := g.rxq.tail }))).answer St.ok []) ∧
    (s.isOn (R.SGP_NEG_CTRL_NEG_EN p) = false ∨ s.get (R.TXD_STATE_STATE p) = 0 → exec (.helloSend p) s = .next s) ∧
    (s.isOn (R.SGP_NEG_CTRL_NEG_EN p) = true → s.get (R.TXD_STATE_STATE p) = 1 → exec (.helloSend p) s = .next (coreSend p 0x01 (s.hello p) s)) ∧
    (∀ b, b.length ≠ 36 → exec (.helloReceive p b) s = .next (s.modSgp p (fun g => { g with coreIn := g.coreIn.erase (0x01, b) }))) ∧
    (∀ b, s.coreRuns 6 = true → b.length = 36 → (∀ x ∈ b, x < 256) → Answers (.helloReceive p b) s (fun t => t.get (R.SGP_NEG_STAT_PEER_SEEN p) = 1 ∧
      t.get (R.SGP_NEG_STAT_PEER_RANK p) = b.getD 8 0 ∧ (t.port p).sgp.peer = some (b.getD 8 0, beAt b 0 8) ∧
      t.get (R.SGP_NEG_STAT_LADDER_OK p) = (decide (beAt b 16 4 = s.ladderCrc p)).toNat ∧
      t.get (R.SGP_NEG_STAT_CODE_OK p) = (decide (beAt b 10 2 % 2048 = s.get (R.SGP_TX_CTRL_OWN_CODE p))).toNat ∧
      t.get (R.SGP_NEG_STAT_MUTUAL p) = bitAt (b.getD 9 0) 0 ∧
      { t with regs := s.regs, pmc := s.pmc, hdg := s.hdg, port0 := s.port0, port1 := s.port1 } = s)) ∧
    (s.isOn (R.SGP_NEG_STAT_PEER_SEEN p) = false → exec (.peerSeenTimeout p) s = .next s) ∧
    (s.isOn (R.SGP_NEG_STAT_PEER_SEEN p) = true → (s.port p).sgp.peerTx ≠ 2 ∨ s.get (R.SGP_NEG_CTRL_HELLO_P p) ≠ 0 → exec (.peerSeenTimeout p) s =
      .next (((s.set (R.SGP_NEG_STAT_PEER_SEEN p) 0).set (R.SGP_NEG_STAT_AGREED p) 0).raise (Ev.SGP_NEG_LOST p))) ∧
    (∀ k data, k < 4 → data < 2 ^ 32 → bits data 26 16 ≤ 1024 →
      (bitAt data 31 = 1 → (s.isOn (R.SGP_CORR_EN p k) = true ∨ s.get R.THM_SD_STAT_STATE ≠ 1 ∧ s.mayPower 247 = true) →
        (∀ j < 4, j ≠ k → s.isOn (R.SGP_CORR_EN p j) = true → s.get (R.SGP_CORR_CODE p j) = bits data 26 16 → s.get (R.SGP_CORR_CODE p k) ≤ 1024 →
          SettlesWith (.correlatorWrite p k 15 data) s St.ok (fun t => t.get (R.SGP_CORR_CODE p k) = s.get (R.SGP_CORR_CODE p k) ∧
            t.get (R.SGP_CORR_CODE p j) = s.get (R.SGP_CORR_CODE p j) ∧ { t with regs := s.regs, port0 := s.port0, port1 := s.port1, pwr := s.pwr } = s)) ∧
        ((∀ j < 4, j ≠ k → s.isOn (R.SGP_CORR_EN p j) = true → s.get (R.SGP_CORR_CODE p j) ≠ bits data 26 16) →
          16 ≤ bits data 7 0 → bits data 7 0 ≤ 160 →
          SettlesWith (.correlatorWrite p k 15 data) s St.ok (fun t => t.get (R.SGP_CORR_CODE p k) = bits data 26 16 ∧
            t.isOn (R.SGP_CORR_EN p k) = true ∧ t.get (R.SGP_CORR_DET_THR p k) = bits data 7 0 ∧
            (∀ j < 4, j ≠ k → t.get (R.SGP_CORR_CODE p j) = s.get (R.SGP_CORR_CODE p j) ∧ t.get (R.SGP_CORR_EN p j) = s.get (R.SGP_CORR_EN p j)) ∧
            { t with regs := s.regs, port0 := s.port0, port1 := s.port1, pwr := s.pwr } = s))) ∧
      (bitAt data 31 = 1 → s.isOn (R.SGP_CORR_EN p k) = false → s.get R.THM_SD_STAT_STATE ≠ 1 → s.mayPower 247 = false →
        (∀ j < 4, j ≠ k → s.isOn (R.SGP_CORR_EN p j) = true → s.get (R.SGP_CORR_CODE p j) ≠ bits data 26 16) →
        SettlesWith (.correlatorWrite p k 15 data) s St.conflict (fun t => t.get (R.SGP_CORR_EN p k) = 0 ∧
          t.get (R.SGP_CORR_CODE p k) = bits data 26 16 ∧ t.get (stickyBit Ev.PWR_DENIED) = 1)) ∧
      (bitAt data 31 = 0 → SettlesWith (.correlatorWrite p k 15 data) s St.ok (fun t => t.get (R.SGP_CORR_EN p k) = 0 ∧ t.corrState p k = 0 ∧
        t.get (R.SGP_CORR_CODE p k) = bits data 26 16))))

/-- R262 to R264: how a correlator synchronises: SEARCH takes a preamble that reaches DET_THR, a packet in progress gives way to one
whose metric is at least 2 × CAPTURE above it, and the end of the wait for a delimiter ends SYNC. R255, R256, R262, R267: what a
decoded header and a decoded body do: a failing CRC counts and returns to SEARCH, a good header starts BODY, and a good user message
for the host enters the queue of 8, or is lost with an event where it is full. -/
def Obligations.SedgeReception : Prop :=
  (∀ (p k : Nat) (s : State), s.hasPort p = true → k < 4 →
    (∀ (m run : Nat) (rel fo : Int) (joint : Bool),
      (s.corrState p k = 0 ∨ s.corrState p k = 1 ∧ m < s.get (R.SGP_CORR_DET_THR p k) →
        exec (.sedgePreambleDetect p k m run rel fo joint) s = .next (settle s)) ∧
      (s.corrState p k = 4 → m < run + 2 * s.get (R.SGP_RX_CTRL_CAPTURE p) →
        exec (.sedgePreambleDetect p k m run rel fo joint) s = .next (settle (s.set (R.SGP_CORR_STAT_METRIC p k) run))) ∧
      (s.corrState p k = 1 → s.get (R.SGP_CORR_DET_THR p k) ≤ m → m < 256 → k ≠ 0 → -(2 ^ 7) ≤ rel → rel < 2 ^ 7 →
        Settles (.sedgePreambleDetect p k m run rel fo joint) s (fun t => t.corrState p k = 2 ∧ t.get (R.SGP_CORR_STAT_METRIC p k) = m ∧
          t.getI (R.SGP_CORR_STAT_REL p k) = rel ∧ (t.port p).sgp.queue = (s.port p).sgp.queue ∧ (t.port p).sgp.rxq = (s.port p).sgp.rxq ∧
          RegsBut [R.SGP_CORR_STAT_STATE p k, R.SGP_CORR_STAT_METRIC p k, R.SGP_CORR_STAT_REL p k] s t ∧
          { t with regs := s.regs, port0 := s.port0, port1 := s.port1 } = s)) ∧
      (s.corrState p k = 1 → s.get (R.SGP_CORR_DET_THR p k) ≤ m → k = 0 → Settles (.sedgePreambleDetect p k m run rel fo joint) s (fun t =>
        t.get (stickyBit (Ev.SGP_PREAMBLE p)) = 1 ∧ t.get (R.SGP_RX_FO_VALID p) = 1)) ∧
      (s.corrState p k = 4 → run + 2 * s.get (R.SGP_RX_CTRL_CAPTURE p) ≤ m → Settles (.sedgePreambleDetect p k m run rel fo joint) s (fun t =>
        t.corrState p k = 2 ∧ t.get (R.SGP_CNT_COUNT p k 4) = satAdd (2 ^ 32 - 1) (s.get (R.SGP_CNT_COUNT p k 4)) 1 ∧
        t.get (stickyBit (Ev.SGP_CAPTURED p)) = 1 ∧
        { t with regs := s.regs, pmc := s.pmc, hdg := s.hdg, port0 := s.port0, port1 := s.port1 } = s))) ∧
    (s.corrState p k ≠ 2 → exec (.sedgeDelimiterFound p k) s = .next s ∧ exec (.sedgeDelimiterTimeout p k) s = .next s) ∧
    (s.corrState p k = 2 → (s.port p).sgp.corr.length = 4 → Answers (.sedgeDelimiterFound p k) s (fun t => t.corrState p k = 3 ∧
      ((t.port p).sgp.corr.getD k {}).swValid = (s.pdPos (rxPd p)).valid ∧
      ((t.port p).sgp.corr.getD k {}).swath = (if (s.pdPos (rxPd p)).valid then (s.pdPos (rxPd p)).swath % 2 ^ 32 else 0) ∧
      RegsBut [R.SGP_CORR_STAT_STATE p k] s t ∧ { t with regs := s.regs, port0 := s.port0, port1 := s.port1 } = s)) ∧
    (s.corrState p k = 2 → exec (.sedgeDelimiterTimeout p k) s =
      .next ((s.set (R.SGP_CORR_STAT_STATE p k) 1).addSat (R.SGP_CNT_COUNT p k 1) 1))) ∧
  (∀ (p k : Nat) (s : State), s.hasPort p = true → k < 4 →
    (∀ h, s.corrState p k ≠ 3 → exec (.sedgeHeaderDecode p k h) s = .next s) ∧
    (∀ h, s.corrState p k = 3 → crc16 (bytesBe 6 (bits h 63 16)) ≠ bits h 15 0 → exec (.sedgeHeaderDecode p k h) s =
      .next (((s.set (R.SGP_CORR_STAT_STATE p k) 1).raise (Ev.SGP_HDR_FAIL p)).addSat (R.SGP_CNT_COUNT p k 2) 1)) ∧
    (∀ h, s.corrState p k = 3 → (s.port p).sgp.corr.length = 4 → crc16 (bytesBe 6 (bits h 63 16)) = bits h 15 0 → bits h 51 40 ≤ 2048 →
      bits h 55 54 ≠ 3 → bits h 55 54 = 0 ∨ 24 ≤ bits h 51 40 → bits h 27 17 = s.get (R.SGP_CORR_CODE p k) →
      Answers (.sedgeHeaderDecode p k h) s (fun t => t.corrState p k = 4 ∧
        (t.port p).sgp.corr.getD k {} = { (s.port p).sgp.corr.getD k {} with typ := bits h 63 56, sec := bits h 55 54, len := bits h 51 40, seq := bits h 39 28 } ∧
        RegsBut [R.SGP_CORR_STAT_STATE p k] s t ∧ { t with regs := s.regs, port0 := s.port0, port1 := s.port1 } = s)) ∧
    (∀ body crc, s.corrState p k ≠ 4 → exec (.sedgeBodyDecode p k body crc) s = .next s) ∧
    (∀ body crc, s.corrState p k = 4 → crc32 body ≠ crc → exec (.sedgeBodyDecode p k body crc) s =
      .next (((s.set (R.SGP_CORR_STAT_STATE p k) 1).raise (Ev.SGP_CRC_FAIL p)).addSat (R.SGP_CNT_COUNT p k 6) 1)) ∧
    (∀ body c, s.corrState p k = 4 → k = 0 → (s.port p).sgp.corr.getD 0 {} = c → c.sec = 0 → 0x40 ≤ c.typ → c.typ ≤ 0x7F → c.len ≤ 2048 →
      body.length = c.len → s.isOn (R.SGP_AUTH_POL_REQ_USER p) = false →
      ((s.port p).sgp.rxq.length < 8 → Answers (.sedgeBodyDecode p k body (crc32 body)) s (fun t => t.corrState p k = 1 ∧
        (t.port p).sgp.rxq = (s.port p).sgp.rxq ++ [{ typ := c.typ, sec := 0, corr := 0, seq := c.seq, swValid := c.swValid, swath := c.swath, body := body }] ∧
        t.get (stickyBit (Ev.SGP_RX_PKT p)) = 1 ∧
        { t with regs := s.regs, pmc := s.pmc, hdg := s.hdg, port0 := s.port0, port1 := s.port1 } = s)) ∧
      (8 ≤ (s.port p).sgp.rxq.length → Answers (.sedgeBodyDecode p k body (crc32 body)) s (fun t => t.corrState p k = 1 ∧
        (t.port p).sgp.rxq = (s.port p).sgp.rxq ∧ t.get (stickyBit (Ev.SGP_RXQ_FULL p)) = 1 ∧
        { t with regs := s.regs, pmc := s.pmc, hdg := s.hdg, port0 := s.port0, port1 := s.port1 } = s))))

/-- R292, R336: a key roll as it goes at the initiating end: refused, held back while the Ling runtime is replaced, or begun with its
switch inserted, or both, and KEY_PROP sent; DONE with the acknowledgement, FAILED with a refusal or after KEY_TO. At the other end a
proposal that passes the checks inserts the switches and is answered KEY_ACK, one that fails KEY_NAK with the status. Messages wait
while the runtime is replaced. -/
def Obligations.KeyRolls : Prop :=
  ∀ (p c : Nat) (s : State), s.hasPort p = true → c < 32 → let target := s.get R.LCX_KEY_SW_LO_SW_L + 2 ^ 32 * s.get R.LCX_KEY_SW_HI_SW_H
    (∀ id slot both, id < 256 → slot < 2 →
      (s.ctxMode p c ≠ 1 → exec (.keyRollGo p c id slot both) s = .next ((settle s).answer St.denied [])) ∧
      (s.ctxMode p c = 1 → (s.keyEx p c).waiting = true → exec (.keyRollGo p c id slot both) s = .next ((settle s).answer St.busy [])) ∧
      (s.ctxMode p c = 1 → (s.keyEx p c).waiting = false → (s.keyEx p c).asked = false → (s.keyEx p c).hold = false →
        (target < s.dirSwath p 0 + s.get R.LCX_KEY_TMR_MIN_LEAD → exec (.keyRollGo p c id slot both) s = .next ((settle s).answer St.stale [])) ∧
        (s.dirSwath p 0 + s.get R.LCX_KEY_TMR_MIN_LEAD ≤ target → s.lingState = 3 → SettlesWith (.keyRollGo p c id slot both) s St.ok (fun t =>
          (t.keyEx p c).asked = true ∧ (t.keyEx p c).id = id ∧ (t.keyEx p c).target = target ∧ t.get (R.LCX_KEY_STAT_STATE p) = 1 ∧
          t.get (R.LCX_KEY_STAT_CTX p) = c ∧ t.get (R.LCX_KEY_STAT_ID p) = id ∧ { t with regs := s.regs, lcx := s.lcx } = s)) ∧
        (s.dirSwath p 0 + s.get R.LCX_KEY_TMR_MIN_LEAD ≤ target → s.lingState ≠ 3 → let v := s.insertVerdict M.ling (descOf target 0 (2 * p) 4 (c + 256 * slot)) false
          (v ≠ St.ok → SettlesWith (.keyRollGo p c id slot both) s v (fun t => t.get (R.LCX_KEY_STAT_STATE p) = 3 ∧
            t.get (R.LCX_KEY_STAT_STATUS p) = v % 2 ^ 8 ∧ t.get (stickyBit (Ev.LCX_KEY_FAIL p)) = 1 ∧ (t.keyEx p c).waiting = false ∧
            { t with regs := s.regs, pmc := s.pmc, hdg := s.hdg, lcx := s.lcx } = s)) ∧
          (v = St.ok → both = false → SettlesWith (.keyRollGo p c id slot both) s St.ok (fun t => ∃ u : State, ∃ body : List Nat, t = coreSend p 0x20 body u ∧
            u.swc.acts.length = s.swc.acts.length + 1 ∧ (u.keyEx p c).waiting = true ∧ (u.keyEx p c).id = id ∧ (u.keyEx p c).target = target ∧
            u.get (R.LCX_KEY_STAT_STATE p) = 1 ∧
            { u with regs := s.regs, lcx := s.lcx, swc := s.swc, sram := s.sram, sramChk := s.sramChk, freeCtr := s.freeCtr } = s)) ∧
          (v = St.ok → both = true → (insertSwitch p 1 c slot target (insertSwitch p 0 c slot target s).2.2).1 = St.ok →
            SettlesWith (.keyRollGo p c id slot both) s St.ok (fun t => ∃ u : State, ∃ body : List Nat, t = coreSend p 0x20 body u ∧
              u.swc.acts.length = s.swc.acts.length + 2 ∧ (u.keyEx p c).waiting = true ∧ (u.keyEx p c).both = true ∧
              u.get (R.LCX_KEY_STAT_STATE p) = 1 ∧
              { u with regs := s.regs, lcx := s.lcx, swc := s.swc, sram := s.sram, sramChk := s.sramChk, freeCtr := s.freeCtr } = s))))) ∧
    (∀ b, s.lingState = 3 →
      exec (.keyPropReceive p b) s = .next (settle (s.modSec (fun y => { y with held := y.held ++ [(p, 0x20, b)] }))) ∧
      exec (.keyAckReceive p b) s = .next (settle (s.modSec (fun y => { y with held := y.held ++ [(p, 0x21, b)] }))) ∧
      exec (.keyNakReceive p b) s = .next (settle (s.modSec (fun y => { y with held := y.held ++ [(p, 0x22, b)] })))) ∧
    (∀ b, s.lingState ≠ 3 → s.coreRuns 6 = true → b.getD 1 0 % 32 = c → (s.keyEx p c).waiting = true → (s.keyEx p c).id = b.getD 0 0 →
      Settles (.keyAckReceive p b) s (fun t => t.get (R.LCX_KEY_STAT_STATE p) = 2 ∧ t.get (R.LCX_KEY_STAT_STATUS p) = 0 ∧
        (t.keyEx p c).waiting = false ∧ (t.keyEx p c).acts = [] ∧ t.get (stickyBit (Ev.LCX_KEY_DONE p)) = 1 ∧ t.swc = s.swc) ∧
      Settles (.keyNakReceive p b) s (fun t => t.get (R.LCX_KEY_STAT_STATE p) = 3 ∧ t.get (R.LCX_KEY_STAT_STATUS p) = b.getD 2 0 % 2 ^ 8 ∧
        (t.keyEx p c).waiting = false ∧ (t.keyEx p c).acts = [] ∧ t.get (stickyBit (Ev.LCX_KEY_FAIL p)) = 1)) ∧
    ((s.keyEx p c).waiting = true → Settles (.keyTimeout p c) s (fun t => t.get (R.LCX_KEY_STAT_STATE p) = 3 ∧
      t.get (R.LCX_KEY_STAT_STATUS p) = St.timeout ∧ (t.keyEx p c).waiting = false ∧ t.get (stickyBit (Ev.LCX_KEY_FAIL p)) = 1)) ∧
    ((s.keyEx p c).waiting = false → exec (.keyTimeout p c) s = .next (settle s)) ∧
    (∀ b, s.lingState ≠ 3 → s.coreRuns 6 = true → b.getD 1 0 % 32 = c → (s.keyEx p c).waiting = false →
      let both := bitAt (b.getD 2 0) 1 == 1
      let v := s.keyVerdict p c (bitAt (b.getD 2 0) 0) (beAt b 9 4) both
      let r := insertSwitches p 1 c (bitAt (b.getD 2 0) 0) (beAt b 3 6) both (takeMsg p 0x20 b s)
      (v ≠ St.ok → Settles (.keyPropReceive p b) s (fun t => ∃ u : State, t = coreSend p 0x22 [b.getD 0 0, c, v] u ∧
        { u with lcx := s.lcx, port0 := s.port0, port1 := s.port1 } = s)) ∧
      (v = St.ok → r.1 ≠ St.ok → Settles (.keyPropReceive p b) s (fun t => ∃ u : State, t = coreSend p 0x22 [b.getD 0 0, c, r.1] u)) ∧
      (v = St.ok → r.1 = St.ok → Settles (.keyPropReceive p b) s (fun t => ∃ u : State, t = coreSend p 0x21 ([b.getD 0 0, c] ++ bytesBe 6 (beAt b 3 6)) u ∧
        u.swc.acts.length = s.swc.acts.length + 1 + both.toNat ∧ (u.keyEx p c).hold = false ∧ (u.keyEx p c).waiting = false ∧
        { u with regs := s.regs, lcx := s.lcx, swc := s.swc, sram := s.sram, sramChk := s.sramChk, freeCtr := s.freeCtr, port0 := s.port0,
                 port1 := s.port1 } = s)))

/-- R26, R203, R294, R296, R297: what a transmit section leaves in each context, from the bytes given for it, or in through mode, on a
context of the whole payload, from those the other port has deciphered; the tag of the section before goes into the tag to send: the
plaintext in bypass, nothing where unused, a null section without a current key or with its budget spent, else the ciphertext and tag
under the IV of the section, with the blocks counted. R26, R297 to R300: a received section judged; in through mode what a context of
the whole payload delivers, all ones for AIS, goes to the other port: bypass passes, a section without a position or without a boundary
before it gives AIS, NULL_CTX gives AIS with its event, one without a slot its counter and event, one whose tag fails its event, and a
good one its plaintext and a new mark. -/
def Obligations.CipherSections : Prop :=
  (∀ (p : Nat) (plain : List (Nat × List Nat)) (s : State), s.hasPort p = true →
    (s.get (R.TXD_STATE_STATE p) ≠ 2 ∨ s.txNext p % 4 ≠ 0 → exec (.cipherSectionTx p plain) s = .next s) ∧
    (s.get (R.TXD_STATE_STATE p) = 2 → s.txNext p % 4 = 0 → ∀ c < 32,
      let x := s.ctx p 0 c
      let k := x.slot x.cur
      let w := s.policy p c
      let g := ((plain.find? (·.1 == c)).map (·.2)).getD []
      let b := if s.regenerates p c then (getAt [] s.lcx.onward p).take g.length ++ g.drop (getAt [] s.lcx.onward p).length else g
      let budget := 2 ^ min (polBudget w) (s.get R.LCX_BUDGET_LOG)
      (s.regenerates p c = true → ∀ e < c, s.regenerates p e = false) → Answers (.cipherSectionTx p plain) s (fun t =>
        (t.ctx p 0 c).prevTag = x.tag ∧
        (polMode w = 2 → (t.ctx p 0 c).out = b ∧ (t.ctx p 0 c).tag = List.replicate 16 0 ∧ (t.ctx p 0 c).null = false) ∧
        (polMode w ≠ 1 → polMode w ≠ 2 → (t.ctx p 0 c).out = [] ∧ (t.ctx p 0 c).null = false) ∧
        (polMode w = 1 → k.state ≠ 2 → (t.ctx p 0 c).null = true ∧ (t.ctx p 0 c).out = List.replicate b.length 0) ∧
        (polMode w = 1 → k.state = 2 → budget ≤ k.used → (t.ctx p 0 c).null = true ∧ ((t.ctx p 0 c).slot x.cur).state = 3 ∧
          t.get (stickyBit (Ev.LCX_BUDGET_END p)) = 1) ∧
        (polMode w = 1 → k.state = 2 → k.used < budget → (∀ m, k.mark = some m → m < s.txNext p) → (t.ctx p 0 c).null = false ∧
          (t.ctx p 0 c).iv = sectionIv k.salt (s.txNext p) c ∧ (t.ctx p 0 c).out = Config.gcmCrypt k.key (bytesBe 12 (sectionIv k.salt (s.txNext p) c)) b ∧
          (t.ctx p 0 c).tag = Config.gcmTag k.key (bytesBe 12 (sectionIv k.salt (s.txNext p) c)) [] (t.ctx p 0 c).out ∧
          ((t.ctx p 0 c).slot x.cur).used = k.used + ceilDiv b.length 16 ∧ ((t.ctx p 0 c).slot x.cur).mark = some (s.txNext p)) ∧
        t.ctx p 1 c = s.ctx p 1 c ∧ { t with regs := s.regs, pmc := s.pmc, hdg := s.hdg, lcx := s.lcx } = s))) ∧
  (∀ (p c : Nat) (b : List Nat) (nul : Bool) (s : State), s.hasPort p = true → c < 32 →
    let x := s.ctx p 1 c
    let w := s.policy p c
    let n := (s.pdPos (rxPd p)).pos / 4 * 4 - 4
    (∃ t, exec (.cipherSectionRx p c b nul) s = .next t ∧
      (s.regenerates p c = true → getAt [] t.lcx.onward (1 - p) = getAt [] s.lcx.onward (1 - p) ++ ((t.ctx p 1 c).plain).getD (List.replicate b.length 255)) ∧
      (s.regenerates p c = false → t.lcx.onward = s.lcx.onward)) ∧
    (polMode w = 2 → exec (.cipherSectionRx p c b nul) s =
      .next (cipherOnward p c b.length (s.modCtx p 1 c (fun x => { x with plain := some b })))) ∧
    (polMode w ≠ 1 → polMode w ≠ 2 → exec (.cipherSectionRx p c b nul) s = .next (cipherOnward p c b.length s)) ∧
    (polMode w = 1 → (s.pdPos (rxPd p)).valid = false ∨ x.prev = none →
      exec (.cipherSectionRx p c b nul) s = .next (cipherOnward p c b.length (s.modCtx p 1 c (fun x => { x with plain := none })))) ∧
    (∀ sl, polMode w = 1 → (s.pdPos (rxPd p)).valid = true → x.prev = some sl →
      (nul = true → Answers (.cipherSectionRx p c b nul) s (fun t => (t.ctx p 1 c).plain = none ∧ (t.ctx p 1 c).cnt = modNth 3 (satAdd (2 ^ 32 - 1) 1) x.cnt ∧
        t.get (stickyBit (Ev.LCX_NULL_RX p)) = 1 ∧ { t with regs := s.regs, pmc := s.pmc, hdg := s.hdg, lcx := s.lcx } = s)) ∧
      (nul = false → sl = none → Answers (.cipherSectionRx p c b nul) s (fun t => (t.ctx p 1 c).plain = none ∧
        (t.ctx p 1 c).cnt = modNth 0 (satAdd (2 ^ 32 - 1) 1) x.cnt ∧ t.get (stickyBit (Ev.LCX_TAG_FAIL p)) = 1 ∧
        { t with regs := s.regs, pmc := s.pmc, hdg := s.hdg, lcx := s.lcx } = s)) ∧
      (∀ k tag i, nul = false → sl = some k → x.holder k = some i → (∀ m, (x.slot i).mark = some m → m < n) → look c (s.port p).lfr.tags = some tag →
        (tag = Config.gcmTag k.key (bytesBe 12 (sectionIv k.salt n c)) [] b → Answers (.cipherSectionRx p c b nul) s (fun t =>
          (t.ctx p 1 c).plain = some (Config.gcmCrypt k.key (bytesBe 12 (sectionIv k.salt n c)) b) ∧ ((t.ctx p 1 c).slot i).mark = some n ∧
          (t.ctx p 1 c).iv = sectionIv k.salt n c ∧ { t with lcx := s.lcx, port0 := s.port0, port1 := s.port1 } = s)) ∧
        (tag ≠ Config.gcmTag k.key (bytesBe 12 (sectionIv k.salt n c)) [] b → Answers (.cipherSectionRx p c b nul) s (fun t =>
          ((t.ctx p 1 c).plain = none ↔ polHold w = true ∧ polOnFail w = true) ∧ ((t.ctx p 1 c).slot i).mark = (x.slot i).mark ∧
          t.get (stickyBit (Ev.LCX_TAG_FAIL p)) = 1 ∧ { t with regs := s.regs, pmc := s.pmc, hdg := s.hdg, lcx := s.lcx, port0 := s.port0, port1 := s.port1 } = s)))))

/-- R192, R302: the states of a group of decoder engines (`l` false) or of cipher pipelines (`l` true): fallow drains it while another
is in service, a drained group goes OFF, a return powers and tests it, and it shadows before it is READY. R192, R302: SHADOW: a decoder
group counts comparisons that agree, fails on one that does not, and is READY after 256; a cipher group is READY or fails as its
comparison says. -/
def Obligations.UnitGroups : Prop :=
  (∀ (l : Bool) (g : Nat) (s : State), g < grpCount l →
    let fallow := if l then Instr.cipherGroupFallow g else Instr.groupFallow g
    let back := if l then Instr.cipherGroupReturn g else Instr.groupReturn g
    let drained := if l then Instr.cipherGroupDrainDone g else Instr.groupDrainDone g
    let tested := fun ok => if l then Instr.cipherGroupSelftestDone g ok else Instr.groupSelftestDone g ok
    let status := if l then R.LCX_GRP_CMD_STAT_STATUS else R.FEC_GRP_CMD_STAT_STATUS
    (s.unitState l g = 0 → (s.inService l).filter (· ≠ g) ≠ [] →
      l = false ∨ (∀ p < 2, s.hasPort p = true → s.cipherReq p = 0 ∨ s.cipherReq p ≤ s.cipherCapOf p ((s.inService l).filter (· ≠ g))) →
      exec fallow s = .next (((s.set (grpField l g) 1).set status St.ok).answer St.ok [])) ∧
    (s.unitState l g = 0 → (s.inService l).filter (· ≠ g) = [] → exec fallow s = .next ((s.set status St.conflict).answer St.conflict [])) ∧
    (s.unitState l g ≠ 0 → s.unitState l g ≠ 6 → exec fallow s = .next ((s.set status St.conflict).answer St.conflict [])) ∧
    (s.unitState l g = 6 → Answers fallow s (fun t => t.unitState l g = 2 ∧ t.domainOn (grpDomain l g) = false ∧ t.get (stickyBit (evGrpOff l)) = 1 ∧
      { t with regs := s.regs, pmc := s.pmc, hdg := s.hdg, pwr := s.pwr, resp := s.resp } = s)) ∧
    (s.unitState l g ≠ 2 → exec back s = .next ((s.set status St.conflict).answer St.conflict [])) ∧
    (s.unitState l g = 2 → s.get R.THM_SD_STAT_STATE ≠ 1 → s.mayPower (grpDomain l g) = true → Answers back s (fun t => t.unitState l g = 3 ∧
      t.get status = St.ok ∧ RegsBut [grpField l g, status] s t ∧ { t with regs := s.regs, pwr := s.pwr, resp := s.resp } = s)) ∧
    (s.unitState l g = 2 → s.get R.THM_SD_STAT_STATE ≠ 1 → s.mayPower (grpDomain l g) = false → Answers back s (fun t => t.unitState l g = 2 ∧
      t.get status = St.conflict ∧ t.get (stickyBit Ev.PWR_DENIED) = 1 ∧ { t with regs := s.regs, pmc := s.pmc, hdg := s.hdg, resp := s.resp } = s)) ∧
    (s.unitState l g = 1 → l = true ∨ s.grpIdle g = true → Answers drained s (fun t => t.unitState l g = 2 ∧ t.domainOn (grpDomain l g) = false ∧
      t.get (stickyBit (evGrpOff l)) = 1 ∧ { t with regs := s.regs, pmc := s.pmc, hdg := s.hdg, pwr := s.pwr } = s)) ∧
    (s.unitState l g ≠ 1 ∨ l = false ∧ s.grpIdle g = false → exec drained s = .next s) ∧
    (∀ ok, s.unitState l g ≠ 3 → exec (tested ok) s = .next s) ∧
    (s.unitState l g = 3 → bitAt (direct l s) g = 0 → Answers (tested true) s (fun t => t.unitState l g = 4 ∧
      RegsBut [grpField l g] s t ∧ { t with regs := s.regs, fec := s.fec } = s)) ∧
    (s.unitState l g = 3 → bitAt (direct l s) g = 0 → exec (tested false) s = .next ((s.set (grpField l g) 6).raise (evGrpFail l))) ∧
    (s.unitState l g = 3 → bitAt (direct l s) g = 1 → Answers (tested true) s (fun t => t.unitState l g = 0 ∧ t.swc = s.swc ∧ t.pwr = s.pwr))) ∧
  (∀ (g : Nat) (s : State),
    (g < 16 → s.unitState false g = 4 →
      exec (.groupShadowCompare g true) s = .next (s.modFec (fun f => { f with comps := modAt 0 f.comps g (· + 1) })) ∧
      exec (.groupShadowCompare g false) s = .next ((s.set (grpField false g) 6).raise Ev.FEC_GRP_FAIL) ∧
      (getAt 0 s.fec.comps g < 256 → exec (.groupShadowDone g) s = .next s) ∧
      (256 ≤ getAt 0 s.fec.comps g → exec (.groupShadowDone g) s = .next ((s.set (grpField false g) 5).raise Ev.FEC_GRP_READY))) ∧
    (g < 16 → s.unitState false g ≠ 4 → ∀ b, exec (.groupShadowCompare g b) s = .next s ∧ exec (.groupShadowDone g) s = .next s) ∧
    (g < 8 → s.unitState true g = 4 → exec (.cipherGroupShadowDone g true) s = .next ((s.set (grpField true g) 5).raise Ev.LCX_GRP_READY) ∧
      exec (.cipherGroupShadowDone g false) s = .next ((s.set (grpField true g) 6).raise Ev.LCX_GRP_FAIL)) ∧
    (g < 8 → s.unitState true g ≠ 4 → ∀ ok, exec (.cipherGroupShadowDone g ok) s = .next s))

/-- R123, R178 to R183, R190: a codeword received whole has its LLRs written to its slot and enters the pool with its deadline and its
parity check; it is worked on for an iteration, stops at its deadline, and is released and counted; FEC_STAT_CLR clears the counters of
a port. Before the first noise window the LLRs rest on a free value, so nothing is said of them (log entry 166). -/
def Obligations.CodewordDecoding : Prop :=
  (∀ (x : RxCodeword) (s : State), s.hasPort x.port = true →
    (∀ g ∈ (s.port x.port).rxd.cwq.head?, g.closed = false) → exec (.codewordArrival x) s = .next s) ∧
  (∀ (x : RxCodeword) (g : RxSeg) (rest : List RxSeg) (s : State), s.hasPort x.port = true → (s.port x.port).rxd.cwq = g :: rest → g.closed = true →
    let llrs := codeLlrs g.rc (List.zipWith (fun (a : RxAmp) l => l.map (s.quantAt x.port (a.dim / 4))) g.amps (g.amps.map (s.ampLlrs x.port g.m 1)))
    Answers (.codewordArrival x) s (fun t =>
      t.fec.nextId = s.fec.nextId + 1 ∧ t.fec.cws.map (·.id) = s.fec.cws.map (·.id) ++ [s.fec.nextId] ∧
      (∃ c : Codeword, t.fec.cws.getLast? = some c ∧ c.port = x.port ∧ c.iters = 0 ∧ c.baud = g.baud ∧ c.rc = g.rc ∧ c.m = g.m ∧
        c.dl = x.now * g.baud + s.get R.FEC_POOL_W * 294912 ∧ c.chan = c.word ∧ c.tags.length = g.amps.length ∧
        (g.noSlot = true → c.noSlot = true ∧ c.conv = false ∧ c.stopped = true) ∧
        (g.noSlot = false → c.noSlot = false ∧ c.slot = g.slot.getD 0 ∧ c.conv = ldpcOk g.rc c.word ∧ c.stopped = c.conv) ∧
        (g.noSlot = false → (s.port x.port).rxd.noise ≠ [] → c.word = hardOf llrs x.bad)) ∧
      (g.noSlot = false → (s.port x.port).rxd.noise ≠ [] → ∀ k < 288, ∀ v, slotWord llrs k = some v →
        t.sramView (sramKey 0 (288 * g.slot.getD 0 + k)) = v % 2 ^ 128) ∧
      t.port (1 - x.port) = s.port (1 - x.port) ∧
      { t with regs := s.regs, pmc := s.pmc, hdg := s.hdg, ecc := s.ecc, fec := s.fec, sram := s.sram, sramChk := s.sramChk, freeCtr := s.freeCtr,
               port0 := s.port0, port1 := s.port1 } = s)) ∧
  (∀ (id now word : Nat) (bad : List Nat) (s : State), (∀ c ∈ s.fec.cws, c.id = id → c.engine = none) → exec (.iterationEnd id now word bad) s = .next s) ∧
  (∀ (id now word : Nat) (bad : List Nat) (c : Codeword) (s : State), c ∈ s.fec.cws → c.id = id → c.engine.isSome = true → (∀ x ∈ s.fec.cws, x.id = id → x = c) →
    Answers (.iterationEnd id now word bad) s (fun t => t.fec.cws.map (·.id) = s.fec.cws.map (·.id) ∧
      (∃ x ∈ t.fec.cws, x.id = id ∧ x.word = word ∧ x.iters = c.iters + 1 ∧ x.conv = ldpcOk c.rc word ∧ x.chan = c.chan ∧
        (ldpcOk c.rc word = true ∨ s.get (R.FEC_CAP_EFFECTIVE c.port) ≤ c.iters + 1 → x.stopped = true ∧ x.engine = none) ∧
        (ldpcOk c.rc word = false → c.iters + 1 < s.get (R.FEC_CAP_EFFECTIVE c.port) → x.engine = c.engine)) ∧
      (bad ≠ [] → t.get (stickyBit Ev.FEC_MEM_UNCORR) = 1) ∧
      { t with regs := s.regs, pmc := s.pmc, hdg := s.hdg, ecc := s.ecc, fec := s.fec } = s)) ∧
  (∀ (id : Nat) (s : State), Answers (.codewordDeadline id) s (fun t => t.fec.cws.map (·.id) = s.fec.cws.map (·.id) ∧
    (∀ x ∈ t.fec.cws, x.id = id → x.stopped = true ∧ x.engine = none) ∧ { t with regs := s.regs, fec := s.fec } = s)) ∧
  (∀ (p : Nat) (s : State), s.hasPort p = true →
    (s.fec.cws.find? (fun c => c.port == p) = none → (s.port p).rxd.parts = [] → (s.port p).lfr.otuBits = [] → exec (.codewordRelease p) s = .next s) ∧
    (∀ c, s.fec.cws.find? (fun c => c.port == p) = some c → Answers (.codewordRelease p) s (fun t =>
      t.fec.cws.map (·.id) = (s.fec.cws.filter (fun x => x.id != c.id)).map (·.id) ∧
      t.get (R.FEC_CNT_LO_COUNT_L p 0) + 2 ^ 32 * t.get (R.FEC_CNT_HI_COUNT_H p 0) =
        min (2 ^ 48 - 1) (s.get (R.FEC_CNT_LO_COUNT_L p 0) + 2 ^ 32 * s.get (R.FEC_CNT_HI_COUNT_H p 0) + 1) ∧
      (c.conv = false → t.get (stickyBit (Ev.FEC_UNCORR p)) = 1) ∧ t.fec.signsErr = !c.conv ∧
      { t with regs := s.regs, pmc := s.pmc, hdg := s.hdg, fec := s.fec, cli := s.cli, port0 := s.port0, port1 := s.port1 } = s)) ∧
    Answers (.statClear p) s (fun t => (∀ k < 8, t.get (R.FEC_CNT_LO_COUNT_L p k) = 0 ∧ t.get (R.FEC_CNT_HI_COUNT_H p k) = 0) ∧
      (∀ i < 49, t.get (R.FEC_IHIST_LO_COUNT_L p i) = 0) ∧ (∀ b < 64, t.get (R.FEC_MHIST_LO_COUNT_L p b) = 0) ∧
      RegsOutside 0x800100 0x801800 s t ∧ { t with regs := s.regs } = s))

/-- R304, R305: the order in which the tests of a submission are made, each with its status. R305: every kind of job is submitted
alike: a master without a bank is DENIED, a submission that fails a test queues nothing and shows its status, and one that passes is
held under a handle. -/
def Obligations.MessageSubmission : Prop :=
  (∀ (m d : Nat) (s : State), let x := s.sess (jSess d)
    (jOp d = 0 ∨ 8 < jOp d ∨ bits d 63 40 ≠ 0 ∨ 2 ^ 48 ≤ jAddr d → s.jobVerdict m d = St.decerr) ∧
    (1 ≤ jOp d → jOp d ≤ 8 → bits d 63 40 = 0 → jAddr d < 2 ^ 48 →
      (x.allows m = false ∨ (jOp d = 4 ∨ jOp d = 6) ∧ m ≠ M.ling ∧ (targetOf (jAddr d)).1 ≠ 10 → s.jobVerdict m d = St.denied) ∧
      (x.allows m = true → (jOp d ≠ 4 ∧ jOp d ≠ 6) ∨ m = M.ling ∨ (targetOf (jAddr d)).1 = 10 →
        (x.key = none → s.jobVerdict m d = St.conflict) ∧
        (x.key ≠ none → jGcm d = true → jFirst d = false → s.lastSegment (jSess d) % 16 ≠ 0 → s.jobVerdict m d = St.conflict) ∧
        (x.key ≠ none → jGcm d = false ∨ jFirst d = true ∨ s.lastSegment (jSess d) % 16 = 0 →
          ((targetOf (jAddr d)).2 < jAddr d + s.jobSize d → s.jobVerdict m d = St.length) ∧
          (jAddr d + s.jobSize d ≤ (targetOf (jAddr d)).2 → s.jobVerdict m d =
            (if 16 ≤ (s.mce.queue.filter (·.bank == bankOf m)).length then St.full else St.ok)))))) ∧
  (∀ (m d : Nat) (s : State), ∀ x ∈ [(1, Instr.mceGcmEncrypt m d), (2, .mceGcmDecrypt m d), (3, .mceKwWrap m d), (4, .mceKwUnwrap m d),
      (5, .mceKwpWrap m d), (6, .mceKwpUnwrap m d), (7, .mceSave m d), (8, .mceRestore m d)],
    (mceMaster m = false → exec x.2 s = .next (s.answer St.denied [0])) ∧
    (mceMaster m = true → s.jobVerdict m (withOp x.1 d) ≠ St.ok → exec x.2 s =
      .next ((s.set (R.MCE_JOB_STAT_STATUS (bankOf m)) (s.jobVerdict m (withOp x.1 d))).answer (s.jobVerdict m (withOp x.1 d)) [0])) ∧
    (mceMaster m = true → s.jobVerdict m (withOp x.1 d) = St.ok → Answers x.2 s (fun t => ∃ h < 65536, t.resp = ⟨St.ok, [h]⟩ ∧
      t.get (R.MCE_JOB_STAT_STATUS (bankOf m)) = St.ok ∧ t.get (R.MCE_JOB_STAT_HANDLE (bankOf m)) = h ∧
      { handle := h, bank := bankOf m, desc := withOp x.1 d } ∈ t.mce.open ∧ t.mce.open.length = s.mce.open.length + 1 ∧
      t.mce.sess = s.mce.sess ∧ t.mce.results = s.mce.results ∧
      RegsBut [R.MCE_JOB_STAT_STATUS (bankOf m), R.MCE_JOB_STAT_HANDLE (bankOf m)] s t ∧
      { t with regs := s.regs, mce := s.mce, resp := s.resp, freeCtr := s.freeCtr } = s)))

/-- R305 to R308, R311: a queued job of higher PRIO suspends the running one at a block boundary while fewer than 4 are suspended, what
the blocks done have left stands in the buffer and their chaining state in the suspension store; the running job completes with what
its operation leaves, or with the answer of a buffer that it may not reach, that holds an uncorrectable word (R372) or whose block is
reset (R369); a master takes its bank's results in order. -/
def Obligations.MessageJobs : Prop :=
  (∀ (blocks : Nat) (ext : List Nat) (s : State), s.mce.running = none ∨ s.mce.queue = [] → exec (.mceSuspend blocks ext) s = .next s) ∧
  (∀ (blocks : Nat) (ext : List Nat) (r q : Job) (s : State), s.mce.running = some r → nextJob s.mce.queue = some q →
    let x := s.sess (jSess r.desc)
    let buf := s.bufBytes (jAddr r.desc) (s.jobSize r.desc) ext
    let c := jobChain x r buf
    let n := max c.2 (min (16 * blocks) (jLen r.desc / 16 * 16))
    (jPrio r.desc < jPrio q.desc → s.mce.susp.length < 4 →
      (jGcm r.desc = false ∨ jobReach r ≠ St.ok → Answers (.mceSuspend blocks ext) s (fun t => t.mce.running = some q ∧
        t.mce.queue = s.mce.queue.erase q ∧ t.mce.susp = r :: s.mce.susp ∧ t.mce.results = s.mce.results ∧ t.get (stickyBit Ev.MCE_SUSPEND) = 1 ∧
        { t with regs := s.regs, pmc := s.pmc, hdg := s.hdg, mce := s.mce } = s)) ∧
      (jGcm r.desc = true → jobReach r = St.ok → Answers (.mceSuspend blocks ext) s (fun t => t.mce.running = some q ∧
        t.mce.queue = s.mce.queue.erase q ∧ t.mce.susp = { r with part := some ((gcmPart x r buf n).2, n) } :: s.mce.susp ∧
        t.sram = (bufWrite (jAddr r.desc + jHead r.desc + c.2) (gcmPart x r buf n).1 s).sram ∧ t.get (stickyBit Ev.MCE_SUSPEND) = 1 ∧
        { t with regs := s.regs, pmc := s.pmc, hdg := s.hdg, mce := s.mce, sram := s.sram, sramChk := s.sramChk, ecc := s.ecc } = s))) ∧
    (jPrio q.desc ≤ jPrio r.desc ∨ 4 ≤ s.mce.susp.length → exec (.mceSuspend blocks ext) s = .next s)) ∧
  (∀ (ext : List Nat) (cut : Bool) (s : State), s.mce.running = none → exec (.mceJobComplete ext cut) s = .next s) ∧
  (∀ (j : Job), let t := (targetOf (jAddr j.desc)).1
    (t = 11 → jobReach j = St.decerr) ∧ (t ≠ 11 → mayAccess false j.bank t = true ∨ j.bank = M.host ∧ t = 9 → jobReach j = St.ok) ∧
    (t ≠ 11 → mayAccess false j.bank t = false → j.bank ≠ M.host ∨ t ≠ 9 → jobReach j = St.denied)) ∧
  (∀ (ext : List Nat) (cut : Bool) (j : Job) (s : State), s.mce.running = some j → s.mce.queue = [] → s.mce.susp = [] → jSess j.desc < s.mce.sess.length →
    let buf := s.bufBytes (jAddr j.desc) (s.jobSize j.desc) ext
    let check := bufCheck (jAddr j.desc) (s.jobSize j.desc) s
    let r := if jGcm j.desc then gcmJob (s.sess (jSess j.desc)) j buf
      else if jOp j.desc ≤ 6 then wrapJob (s.sess (jSess j.desc)) j.desc buf
      else stateJob (s.sess (jSess j.desc)) j.desc buf
    (jobReach j = St.ok → check.1 = St.ok → cut = false → Answers (.mceJobComplete ext cut) s (fun u => u.resp = ⟨r.status, r.out⟩ ∧ u.mce.running = none ∧
      u.mce.results = s.mce.results ++ [{ bank := j.bank, handle := j.handle, status := r.status }] ∧ u.sess (jSess j.desc) = r.sess ∧
      (∀ n, n ≠ jSess j.desc → u.sess n = s.sess n) ∧
      (r.auth = true → u.get (stickyBit Ev.MCE_AUTH_FAIL) = 1) ∧ (r.fail = true → u.get (stickyBit Ev.MCE_STATE_FAIL) = 1) ∧
      u.get (stickyBit Ev.MCE_JOB_DONE) = 1 ∧
      { u with regs := s.regs, pmc := s.pmc, hdg := s.hdg, mce := s.mce, sram := s.sram, sramChk := s.sramChk, ecc := s.ecc, resp := s.resp } = s)) ∧
    (jobReach j = St.ok → check.1 = St.ok → cut = true → Answers (.mceJobComplete ext cut) s (fun u => u.resp = ⟨St.aborted, []⟩ ∧ u.mce.running = none ∧
      u.mce.results = s.mce.results ++ [{ bank := j.bank, handle := j.handle, status := St.aborted }] ∧ u.mce.sess = s.mce.sess ∧
      { u with regs := s.regs, pmc := s.pmc, hdg := s.hdg, mce := s.mce, sram := s.sram, sramChk := s.sramChk, ecc := s.ecc, resp := s.resp, freeCtr := s.freeCtr } = s)) ∧
    (jobReach j = St.ok → check.1 ≠ St.ok → Answers (.mceJobComplete ext cut) s (fun u => u.resp = ⟨check.1, []⟩ ∧ u.mce.running = none ∧
      u.mce.results = s.mce.results ++ [{ bank := j.bank, handle := j.handle, status := check.1 }] ∧ u.mce.sess = s.mce.sess ∧
      { u with regs := s.regs, pmc := s.pmc, hdg := s.hdg, mce := s.mce, sram := s.sram, sramChk := s.sramChk, ecc := s.ecc, resp := s.resp } = s)) ∧
    (jobReach j ≠ St.ok → Answers (.mceJobComplete ext cut) s (fun u => u.resp = ⟨jobReach j, []⟩ ∧ u.mce.running = none ∧
      u.mce.results = s.mce.results ++ [{ bank := j.bank, handle := j.handle, status := jobReach j }] ∧ u.mce.sess = s.mce.sess ∧
      { u with regs := s.regs, pmc := s.pmc, hdg := s.hdg, mce := s.mce, resp := s.resp } = s))) ∧
  (∀ (m : Nat) (s : State), 
    (mceMaster m = false → exec (.mceResultPop m) s = .next ((fabRespond m 0x9011C St.denied s).answer St.denied [0])) ∧
    (mceMaster m = true → s.mce.results.find? (·.bank == bankOf m) = none → exec (.mceResultPop m) s = .next (s.answer St.ok [0])) ∧
    (∀ r, mceMaster m = true → s.mce.results.find? (·.bank == bankOf m) = some r → exec (.mceResultPop m) s =
      .next ({ s with mce := { s.mce with results := s.mce.results.erase r } }.answer St.ok [r.status * 65536 + r.handle])))

/-- R309: Ling alone loads and erases the key of the selected session, never of one that is busy; a load takes the key registers and
clears them, an erase zeroises. -/
def Obligations.MessageKeys : Prop :=
  ∀ s : State, let n := s.get R.MCE_KEY_SEL_SESSION
    (∀ m, m ≠ M.ling → exec (.mceKeyLoad m) s = .next ((fabRespond m 0x90048 St.denied s).answer St.denied []) ∧
      exec (.mceKeyErase m) s = .next ((fabRespond m 0x90048 St.denied s).answer St.denied [])) ∧
    (s.sessBusy n = true → exec (.mceKeyLoad M.ling) s = .next ((s.set R.MCE_KEY_STAT_STATUS St.busy).answer St.busy []) ∧
      exec (.mceKeyErase M.ling) s = .next ((s.set R.MCE_KEY_STAT_STATUS St.busy).answer St.busy [])) ∧
    (s.sessBusy n = false → s.mce.sess.length = 64 →
      Answers (.mceKeyLoad M.ling) s (fun t => (t.sess n).key = some s.keyRegs ∧ (t.sess n).salt = s.get R.MCE_KEY_SALT_SALT ∧ (t.sess n).txCtr = 0 ∧
        (t.sess n).rxMark = none ∧ (∀ i, i ≠ n → t.sess i = s.sess i) ∧ (∀ k < 8, t.get (R.MCE_KEY_KEY k) = 0) ∧ t.get R.MCE_KEY_SALT_SALT = 0 ∧
        t.get R.MCE_KEY_STAT_STATUS = St.ok ∧ { t with regs := s.regs, mce := s.mce, resp := s.resp } = s) ∧
      Answers (.mceKeyErase M.ling) s (fun t => (t.sess n).key = none ∧ (t.sess n).salt = 0 ∧ (∀ i, i ≠ n → t.sess i = s.sess i) ∧
        t.get R.MCE_KEY_STAT_STATUS = St.ok ∧ RegsBut [R.MCE_KEY_STAT_STATUS] s t ∧ { t with regs := s.regs, mce := s.mce, resp := s.resp } = s))

/-- R334, R335: every mailbox command is denied to a master without a mailbox, refused while its bank is busy, shown BUSY in SHUTDOWN
and while the runtime is replaced, and ends with LENGTH or DECERR where its input does not fit. -/
def Obligations.MailboxTests : Prop :=
  ∀ (m d : Nat) (b : FlashResult) (s : State), d < 2 ^ 128 → ∀ x ∈ [(1, Instr.info m d), (2, .ktkLoad m d), (3, .keyGen m d), (4, .keyInstall m d), (5, .keyErase m d),
      (6, .sessLoad m d), (7, .sessErase m d), (8, .pnonce m d), (9, .secPropose m d), (10, .approve m d), (11, .withdraw m d), (12, .enrol m d),
      (13, .lock m d), (14, .attest m d), (15, .attKey m d), (16, .epoch m d), (17, .rtSwap m d b)],
    (hasMailbox m = false → exec x.2 s = .next (settle (s.answer St.denied []))) ∧
    (hasMailbox m = true → s.isOn (R.SEC_CMD_STAT_BUSY m) = true → exec x.2 s = .next (settle (s.answer St.busy []))) ∧
    (hasMailbox m = true → s.isOn (R.SEC_CMD_STAT_BUSY m) = false →
      (s.get R.THM_SD_STAT_STATE = 1 → exec x.2 s = .next (settle ((s.set (R.SEC_CMD_STAT_BUSY m) 1).answer St.ok []))) ∧
      (s.get R.THM_SD_STAT_STATE ≠ 1 →
        (s.lingState = 3 → exec x.2 s = .next (settle (secDone m St.busy [] (if x.1 = 14 then s.raise Ev.SEC_ATT_REFUSED else s)))) ∧
        (s.lingState ≠ 3 → 16384 < cLen d → exec x.2 s = .next (settle (secDone m St.length [] s))) ∧
        (s.lingState ≠ 3 → cLen d ≤ 16384 → cLen d < s.secNeeds x.1 d (s.winBytes m (cLen d)) → exec x.2 s = .next (settle (secDone m St.decerr [] s)))))

/-- R288, R292, R309, R335: what the key and session commands of the mailbox do and answer. R318 to R321, R336: attestation signs with
the next leaf while one is reserved, asks for a reservation otherwise, and ends when the leaves do; the runtime is replaced by a
verified boot image alone. -/
def Obligations.MailboxOperations : Prop :=
  (∀ (m d : Nat) (s : State), let x := s.winBytes m (cLen d)
    let old := (s.ctx (cPort d) (cDir d) (cCtx d)).slot (cSlot d)
    let mode := s.ctxMode (cPort d) (cCtx d)
    (MailboxTakes 1 m d s → exec (.info m d) s = .next (settle (secDone m St.ok (bytesLe 4 s.secStateWord ++ bytesLe 4 s.secOtpWord ++
      bytesLe 4 (s.get R.SEC_ATT_LEAF_VALUE) ++ bytesLe 4 (s.get R.SEC_ATT_RSV_VALUE) ++ (List.range 16).map (fun k => (s.slotAt k).state)) s))) ∧
    (MailboxTakes 2 m d s → s.get R.SEC_STATE_LIFECYCLE = 1 → MailDone (.ktkLoad m d) m s St.ok [] (fun t => t.ktk (cArg d % 4) = ofBe (x.take 32) ∧
      (∀ i, i ≠ cArg d % 4 → t.ktk i = s.ktk i) ∧ { t with sec := s.sec } = s)) ∧
    (MailboxTakes 2 m d s → s.get R.SEC_STATE_LIFECYCLE ≠ 1 → match unblob s (bits (cArg d) 3 2) x with
      | none => exec (.ktkLoad m d) s = .next (settle (secDone m St.denied [] s))
      | some key => MailDone (.ktkLoad m d) m s St.ok [] (fun t => t.ktk (cArg d % 4) = key ∧ (∀ i, i ≠ cArg d % 4 → t.ktk i = s.ktk i) ∧
        { t with sec := s.sec } = s)) ∧
    (MailboxTakes 3 m d s → cDir d = 1 ∨ s.hasPort (cPort d) = false → exec (.keyGen m d) s = .next (settle (secDone m St.decerr [] s))) ∧
    (MailboxTakes 3 m d s → cDir d = 0 → s.hasPort (cPort d) = true → mode ≠ 0 → old.state ≠ 2 → ∃ key salt : Nat,
      MailDone (.keyGen m d) m s St.ok (blobOf s (cArg d % 4) key ++ saltKcv key salt) (fun t =>
        let new := (t.ctx (cPort d) 0 (cCtx d)).slot (cSlot d)
        new.key = key ∧ new.salt = salt ∧ new.state = (if (s.ctx (cPort d) 0 (cCtx d)).cur = cSlot d then 2 else 1) ∧
        { t with lcx := s.lcx, freeCtr := s.freeCtr } = s)) ∧
    (MailboxTakes 3 m d s → cDir d = 0 → s.hasPort (cPort d) = true → mode = 0 ∨ old.state = 2 →
      exec (.keyGen m d) s = .next (settle (secDone m St.conflict [] s))) ∧
    (MailboxTakes 4 m d s → s.hasPort (cPort d) = true → cDir d = 1 → mode ≠ 0 → old.state ≠ 2 → match unblob s (cArg d % 4) x with
      | none => exec (.keyInstall m d) s = .next (settle (secDone m St.denied [] s))
      | some key => MailDone (.keyInstall m d) m s St.ok (saltKcv key (beAt x 40 4)) (fun t =>
        let new := (t.ctx (cPort d) 1 (cCtx d)).slot (cSlot d)
        new.key = key ∧ new.salt = beAt x 40 4 ∧ new.mark = none ∧ { t with lcx := s.lcx } = s)) ∧
    (MailboxTakes 5 m d s → s.hasPort (cPort d) = true → old.state = 2 → exec (.keyErase m d) s = .next (settle (secDone m St.conflict [] s))) ∧
    (MailboxTakes 5 m d s → s.hasPort (cPort d) = true → old.state ≠ 2 → MailDone (.keyErase m d) m s St.ok [] (fun t =>
      (t.ctx (cPort d) (cDir d) (cCtx d)).slot (cSlot d) = {} ∧ { t with lcx := s.lcx } = s)) ∧
    (MailboxTakes 6 m d s → s.sessBusy (bits (cArg d) 13 8) = false → s.mce.sess.length = 64 → match unblob s (cArg d % 4) x with
      | none => exec (.sessLoad m d) s = .next (settle (secDone m St.denied [] s))
      | some key => MailDone (.sessLoad m d) m s St.ok [] (fun t => (t.sess (bits (cArg d) 13 8)).key = some key ∧
        (t.sess (bits (cArg d) 13 8)).salt = beAt x 40 4 ∧ (t.sess (bits (cArg d) 13 8)).rights = byteAt x 44 % 8 ∧ { t with mce := s.mce } = s)) ∧
    (MailboxTakes 7 m d s → s.sessBusy (bits (cArg d) 13 8) = true → exec (.sessErase m d) s = .next (settle (secDone m St.busy [] s))) ∧
    (MailboxTakes 7 m d s → s.sessBusy (bits (cArg d) 13 8) = false → s.mce.sess.length = 64 → MailDone (.sessErase m d) m s St.ok [] (fun t =>
      (t.sess (bits (cArg d) 13 8)).key = none ∧ (∀ i, i ≠ bits (cArg d) 13 8 → t.sess i = s.sess i) ∧ { t with mce := s.mce } = s)) ∧
    (MailboxTakes 16 m d s → s.hasPort (cPort d) = true → polRollReq (s.policy (cPort d) (cCtx d)) = true →
      exec (.epoch m d) s = .next (settle (secDone m St.approvalMissing [] s))) ∧
    (MailboxTakes 16 m d s → s.hasPort (cPort d) = true → polRollReq (s.policy (cPort d) (cCtx d)) = false →
      s.insertVerdict M.ling (descOf (leAt x 0 8) 0 (2 * cPort d + cDir d) 4 (cCtx d + 256 * cSlot d)) false = St.ok → ∃ h : Nat,
      MailDone (.epoch m d) m s St.ok (bytesLe 2 h) (fun t => t.swc.acts.length = s.swc.acts.length + 1 ∧ (t.findAct M.ling h).isSome = true ∧
        { t with swc := s.swc, sram := s.sram, sramChk := s.sramChk, freeCtr := s.freeCtr, regs := s.regs } = s))) ∧
  (∀ (m d : Nat) (s : State), let q := s.get R.SEC_ATT_LEAF_VALUE
    (MailboxTakes 14 m d s → 1048576 ≤ q → exec (.attest m d) s = .next (settle (secDone m St.quarantined [] (s.raise Ev.SEC_ATT_REFUSED)))) ∧
    (MailboxTakes 14 m d s → q < 1048576 → q < s.get R.SEC_ATT_RSV_VALUE → s.sec.att = [] → let r := s.attReport (s.winBytes m (cLen d)) q
      exec (.attest m d) s = .next (settle (secDone m St.ok (r ++ attSig q r) (s.set R.SEC_ATT_LEAF_VALUE (q + 1))))) ∧
    (MailboxTakes 14 m d s → q < 1048576 → s.get R.SEC_ATT_RSV_VALUE ≤ q ∨ s.sec.att ≠ [] → Settles (.attest m d) s (fun t =>
      t.get (R.SEC_CMD_STAT_BUSY m) = 1 ∧ t.sec.att = s.sec.att ++ [(m, slice (s.winBytes m (cLen d)) 0 32)] ∧
      (s.sec.att = [] → t.get (stickyBit Ev.SEC_ATT_RESERVE) = 1) ∧ t.get R.SEC_ATT_LEAF_VALUE = q ∧
      { t with regs := s.regs, pmc := s.pmc, hdg := s.hdg, sec := s.sec, resp := s.resp } = s)) ∧
    (∀ failAt time, s.sec.att = [] → exec (.attReserveDone failAt time) s = .next (settle s)) ∧
    (∀ failAt time nonce, s.sec.att = [(m, nonce)] → hasMailbox m = true → q < 1048576 → let v := s.recStatus 0x21 4 failAt
      (v = St.ok → Settles (.attReserveDone failAt time) s (fun t => t.get R.SEC_ATT_RSV_VALUE = min (q + 1024) 1048576 ∧
        t.get R.SEC_ATT_LEAF_VALUE = q + 1 ∧ t.sec.att = [] ∧ t.get (R.SEC_CMD_STAT_STATUS m) = St.ok ∧ t.get (R.SEC_CMD_STAT_BUSY m) = 0)) ∧
      (v ≠ St.ok → Settles (.attReserveDone failAt time) s (fun t => t.get R.SEC_ATT_RSV_VALUE = s.get R.SEC_ATT_RSV_VALUE ∧
        t.get R.SEC_ATT_LEAF_VALUE = q ∧ t.sec.att = [] ∧ t.get (R.SEC_CMD_STAT_STATUS m) = v ∧ t.get (R.SEC_CMD_STAT_BUSY m) = 0 ∧
        t.get (stickyBit Ev.SEC_ATT_REFUSED) = 1))) ∧
    ((s.partition 0x21).isSome = true → s.writeWindow = true → s.recStatus 0x21 4 none = St.ok) ∧
    (MailboxTakes 15 m d s → exec (.attKey m d) s = .next (settle (secDone m St.ok attPublic s))) ∧ attPublic.length = 56 ∧
    (∀ r, MailboxTakes 17 m d s → let x := bootRead (cArg d % 2) r s
      match x.1 with
      | none => exec (.rtSwap m d r) s = .next (settle (secDone m St.denied [] x.2))
      | some o => s.signedOk false o = true ∧ Settles (.rtSwap m d r) s (fun t => t.lingState = 3 ∧
        t.get (R.SEC_CMD_STAT_BUSY m) = 1 ∧ t.sec.swap = some (m, cArg d % 2, o) ∧ t.get (stickyBit Ev.SEC_SWAP) = 1 ∧
        { t with regs := s.regs, pmc := s.pmc, hdg := s.hdg, sec := s.sec, resp := s.resp, flc := s.flc } = s)) ∧
    (s.sec.swap = none → exec .rtSwapDone s = .next (settle s)) ∧
    (∀ k o, s.sec.swap = some (m, k, o) → hasMailbox m = true → k < 2 → (∀ i < 64, (s.keyEx (i / 32) (i % 32)).asked = false) → s.sec.held = [] → Settles .rtSwapDone s (fun t =>
      t.lingState = 1 ∧ t.get R.SEC_STATE_BOOT_SLOT = k ∧ t.sec.swap = none ∧ t.sec.runtime = o ∧ t.get (R.SEC_CMD_STAT_BUSY m) = 0 ∧
      t.get (R.SEC_CMD_STAT_STATUS m) = St.ok ∧ t.swc = s.swc ∧ t.lcx = s.lcx)))

/-- R322 to R333: a change is proposed against a fresh nonce, gains a first token, is approved when its record with the second is
committed, is withdrawn before it is scheduled, is confirmed by the far end where it needs it, and expires. -/
def Obligations.ChangeApproval : Prop :=
  ∀ (m d : Nat) (s : State), let x := s.winBytes m (cLen d)
    (MailboxTakes 8 m d s → ∃ n < 2 ^ 64, MailDone (.pnonce m d) m s St.ok (bytesLe 8 n) (fun t => t.sec.nonces = (n :: s.sec.nonces).take 16 ∧
      { t with sec := s.sec, freeCtr := s.freeCtr } = s)) ∧
    (MailboxTakes 9 m d s → let c : ChangeProp := { state := 1, bytes := slice x 0 128, content := slice x 128 (subjectLen (byteAt x 6)) }
      if s.changeVerdict c ≠ St.ok then exec (.secPropose m d) s = .next (settle (secDone m (s.changeVerdict c) [] s))
      else ∃ k < 16, (s.slotAt k).live = false ∧ MailDone (.secPropose m d) m s St.ok (k :: Config.sha256 c.bytes) (fun t =>
        t.slotAt k = c ∧ (∀ j, j ≠ k → t.slotAt j = s.slotAt j) ∧ t.sec.nonces = s.sec.nonces.erase (leAt c.bytes 16 8) ∧ { t with sec := s.sec } = s)) ∧
    (MailboxTakes 10 m d s →
      let k := (List.range 16).find? (fun k => ((s.slotAt k).state == 1 || (s.slotAt k).state == 2) && Config.sha256 (s.slotAt k).bytes == slice x 16 32)
      if s.approveVerdict x k ≠ St.ok then exec (.approve m d) s = .next (settle (secDone m (s.approveVerdict x k) [] s))
      else ∃ j < 16, k = some j ∧
        if (s.slotAt j).tokens = [] then exec (.approve m d) s = .next (settle (secDone m St.ok [j, 2]
          (s.modSlot j (fun c => { c with state := 2, tokens := [(leAt x 8 8, byteAt x 6)] }))))
        else Settles (.approve m d) s (fun t => t.get (R.SEC_CMD_STAT_BUSY m) = 1 ∧
          t.sec.stores = s.sec.stores ++ [.second m j (leAt x 8 8) (byteAt x 6)] ∧ t.slotAt j = s.slotAt j)) ∧
    (MailboxTakes 11 m d s → let k := cArg d % 16
      (1 ≤ (s.slotAt k).state → (s.slotAt k).state ≤ 4 → MailDone (.withdraw m d) m s St.ok [] (fun t => (t.slotAt k).state = 7 ∧
        t.sec.stores = s.sec.stores ++ [.plain] ∧ { t with sec := s.sec } = s)) ∧
      ((s.slotAt k).state = 0 ∨ 6 ≤ (s.slotAt k).state → exec (.withdraw m d) s = .next (settle (secDone m St.stale [] s)))) ∧
    (MailboxTakes 12 m d s →
      (s.get R.SEC_STATE_LIFECYCLE ≠ 1 → exec (.enrol m d) s = .next (settle (secDone m St.approvalMissing [] s))) ∧
      (s.get R.SEC_STATE_LIFECYCLE = 1 → s.enrolOk (slice x 0 1024) = false → exec (.enrol m d) s = .next (settle (secDone m St.conflict [] s))) ∧
      (s.get R.SEC_STATE_LIFECYCLE = 1 → s.enrolOk (slice x 0 1024) = true → MailDone (.enrol m d) m s St.ok [] (fun t => t.sec.enrol = slice x 0 1024 ∧
        t.sec.stores = s.sec.stores ++ [.plain] ∧ { t with sec := s.sec } = s))) ∧
    (MailboxTakes 13 m d s → let key := (List.range 4).any (fun i => bitAt (s.get R.SEC_OTP_CUST_SET) i == 1 && bitAt (s.get R.SEC_OTP_CUST_REVOKE) i == 0)
      ((twoRoles s.sec.enrol && key) = true → exec (.lock m d) s = .next (settle (secDone m St.ok [] (s.set R.SEC_STATE_LIFECYCLE 3)))) ∧
      ((twoRoles s.sec.enrol && key) = false → exec (.lock m d) s = .next (settle (secDone m St.conflict [] s)))) ∧
    (∀ failAt f time, s.sec.stores = [] → exec (.approvalRecordCommit failAt f time) s = .next (settle s)) ∧
    (∀ failAt f time r, s.sec.stores = .plain :: r → exec (.approvalRecordCommit failAt f time) s =
      .next (settle ((recStore 0x22 s.apprPayload failAt time s).modSec (fun y => { y with stores := r })))) ∧
    (∀ failAt f time r j id role, s.sec.stores = .second m j id role :: r → hasMailbox m = true →
      ((s.slotAt j).state ≠ 2 → exec (.approvalRecordCommit failAt f time) s =
        .next (settle (secDone m St.stale [] (s.modSec (fun y => { y with stores := r }))))) ∧
      ((s.slotAt j).state = 2 → s.recStatus 0x22 4 failAt ≠ St.ok → Settles (.approvalRecordCommit failAt f time) s (fun t =>
        t.get (R.SEC_CMD_STAT_STATUS m) = s.recStatus 0x22 4 failAt ∧ t.get (R.SEC_CMD_STAT_BUSY m) = 0 ∧ t.slotAt j = s.slotAt j ∧
        t.sec.stores = r ∧ t.sec.enrol = s.sec.enrol ∧ t.swc = s.swc)) ∧
      ((s.slotAt j).state = 2 → (s.slotAt j).subject = 3 → s.recStatus 0x22 4 failAt = St.ok → Settles (.approvalRecordCommit failAt f time) s (fun t =>
        t.get (R.SEC_CMD_STAT_STATUS m) = St.ok ∧ t.get (R.SEC_CMD_STAT_BUSY m) = 0 ∧ (t.slotAt j).state = 6 ∧ t.sec.enrol = (s.slotAt j).content ∧
        t.get (stickyBit Ev.SEC_PROP_APPROVED) = 1 ∧ t.get (stickyBit Ev.SEC_PROP_DONE) = 1))) ∧
    (∀ k < 16, (s.lingState = 3 → exec (.apprConfSend k) s = .next (s.modSec (fun y => { y with held := y.held ++ [(0, 0, [k])] }))) ∧
      (s.lingState ≠ 3 → (s.slotAt k).state ≠ 3 ∨ (s.slotAt k).link = false → exec (.apprConfSend k) s = .next s) ∧
      (s.lingState ≠ 3 → (s.slotAt k).state = 3 → (s.slotAt k).link = true → exec (.apprConfSend k) s = .next (coreSend (subjectPort (s.slotAt k).subject) 0x28
        (k :: (s.slotAt k).linkHash ++ bytesBe 6 (s.slotAt k).target ++ bytesBe 8 (leAt (s.slotAt k).bytes 16 8)) s)) ∧
      ((s.slotAt k).state = 3 → (s.slotAt k).link = true → Settles (.proposalDeadline k) s (fun t => (t.slotAt k).state = 8 ∧
        t.get (stickyBit Ev.SEC_PROP_EXPIRED) = 1 ∧ { t with regs := s.regs, pmc := s.pmc, hdg := s.hdg, sec := s.sec } = s)) ∧
      ((s.slotAt k).state ≠ 3 ∨ (s.slotAt k).link = false → exec (.proposalDeadline k) s = .next (settle s))) ∧
    (∀ p b, s.hasPort p = true →
      (s.lingState = 3 → exec (.apprConfReceive p b) s = .next (s.modSec (fun y => { y with held := y.held ++ [(p, 0x28, b)] })) ∧
        exec (.apprNakReceive p b) s = .next (s.modSec (fun y => { y with held := y.held ++ [(p, 0x2A, b)] })) ∧
        exec (.apprAckReceive p b) s = .next (settle (s.modSec (fun y => { y with held := y.held ++ [(p, 0x29, b)] })))) ∧
      (s.coreRuns 6 = false → s.lingState ≠ 3 → exec (.apprConfReceive p b) s = .next s ∧ exec (.apprNakReceive p b) s = .next s ∧
        exec (.apprAckReceive p b) s = .next (settle s)) ∧
      (s.coreRuns 6 = true → s.lingState ≠ 3 →
        exec (.apprNakReceive p b) s = .next ((takeMsg p 0x2A b s).raise Ev.SEC_CONF_NAK) ∧
        ((∀ k < 16, (s.slotAt k).state ≠ 3 ∨ (s.slotAt k).linkHash ≠ slice b 1 32) → exec (.apprAckReceive p b) s = .next (settle (takeMsg p 0x29 b s))) ∧
        (let waits := fun k => (s.slotAt k).state = 3 ∧ (s.slotAt k).link = true ∧ subjectPort (s.slotAt k).subject = p ∧ (s.slotAt k).linkHash = slice b 1 32
          ∀ k < 16, waits k → (∀ j < k, ¬ waits j) → exec (.apprAckReceive p b) s =
            .next (settle (propSchedule k ((takeMsg p 0x29 b s).modSlot k (fun c => { c with state := 4 }))))) ∧
        ((∀ k < 16, (s.slotAt k).linkHash ≠ slice b 1 32) → exec (.apprConfReceive p b) s =
          .next (coreSend p 0x2A ([byteAt b 0, St.approvalMissing] ++ slice b 1 32) (takeMsg p 0x28 b s))) ∧
        (∀ k < 16, (s.slotAt k).state = 3 → (s.slotAt k).link = true → (s.slotAt k).subject = 1 + p → (s.slotAt k).linkHash = slice b 1 32 →
          (s.slotAt k).target = beAt b 33 6 → exec (.apprConfReceive p b) s = .next (coreSend p 0x29 (byteAt b 0 :: slice b 1 32) (takeMsg p 0x28 b s)))))

/-- R341, R342, R348 to R350, R361: a slot load is begun, judged and shown, or refused while one is under way; management regions are
activated and regions reset only where the slot serves them, with the content of the slot in force after it; a scheduled activation
takes its content when its staging ends. -/
def Obligations.ImageCommands : Prop :=
  (∀ (k : Nat) (s : State),
    (s.isOn R.IMG_CMD_STAT_BUSY = true → exec (.imageLoad k) s = .next (s.answer St.busy [])) ∧
    (s.isOn R.IMG_CMD_STAT_BUSY = false → 6 ≤ k → exec (.imageLoad k) s = .next ((imgEnd St.decerr 0 s).answer St.ok [])) ∧
    (s.isOn R.IMG_CMD_STAT_BUSY = false → k < 6 → Answers (.imageLoad k) s (fun t => t.resp = ⟨St.ok, []⟩ ∧ t.img.load = some k ∧
      t.get (R.IMG_SLOT_STAT_STATE k) = 1 ∧ t.get R.IMG_CMD_STAT_BUSY = 1 ∧ { t with regs := s.regs, img := s.img, resp := s.resp } = s))) ∧
  (∀ (pages : List (List Nat)) (time : Nat) (s : State),
    (s.img.load = none → exec (.imageLoadDone pages time) s = .next s) ∧
    (∀ k < 6, s.img.load = some k → s.get (R.IMG_SLOT_STAT_STATE k) = 1 → let x := readBox (0x10 + k) time pages s; let i := imageOf s.partNumber x.1
      if (s.imageVerdict i x.2.1).1 = St.ok then Answers (.imageLoadDone pages time) s (fun t => t.get (R.IMG_SLOT_STAT_STATE k) = 2 ∧
        t.get (R.IMG_SLOT_STAT_SVN k) = i.svn % 2 ^ 8 ∧ t.image k = some i ∧ t.get R.IMG_CMD_STAT_BUSY = 0 ∧ t.get R.IMG_CMD_STAT_STATUS = St.ok ∧
        t.get (stickyBit Ev.IMG_LOAD_DONE) = 1 ∧ t.img.load = none ∧ { t with regs := s.regs, pmc := s.pmc, hdg := s.hdg, img := s.img, flc := s.flc } = s)
      else Answers (.imageLoadDone pages time) s (fun t => t.get (R.IMG_SLOT_STAT_STATE k) = 3 ∧
        t.get R.IMG_CMD_STAT_STATUS = (s.imageVerdict i x.2.1).1 % 2 ^ 8 ∧ t.get R.IMG_CMD_STAT_BUSY = 0 ∧ t.get (stickyBit Ev.IMG_LOAD_FAIL) = 1 ∧
        { t with regs := s.regs, pmc := s.pmc, hdg := s.hdg, img := s.img, flc := s.flc } = s)) ∧
    (∀ k < 6, s.img.load = some k → s.get (R.IMG_SLOT_STAT_STATE k) ≠ 1 → Answers (.imageLoadDone pages time) s (fun t =>
      t.get R.IMG_CMD_STAT_STATUS = St.aborted ∧ t.get (stickyBit Ev.IMG_LOAD_FAIL) = 1 ∧ t.image k = s.image k))) ∧
  (∀ (r k : Nat) (s : State),
    (s.isOn R.IMG_CMD_STAT_BUSY = true → exec (.activate r k) s = .next ((settle (s.raise Ev.IMG_ACT_FAIL)).answer St.busy []) ∧
      exec (.regionReset r) s = .next ((settle (s.raise Ev.IMG_ACT_FAIL)).answer St.busy [])) ∧
    (s.isOn R.IMG_CMD_STAT_BUSY = false →
      (6 ≤ k → exec (.activate r k) s = .next ((settle (actEnd St.decerr s)).answer St.ok [])) ∧
      (k < 6 → (r ≠ 6 ∧ r ≠ 8) ∨ s.slotServes k r = false → exec (.activate r k) s = .next ((settle (actEnd St.conflict s)).answer St.ok [])) ∧
      (∀ i, k < 6 → r = 6 ∨ r = 8 → s.slotServes k r = true → s.image k = some i → SettlesWith (.activate r k) s St.ok (fun t =>
        getAt [] t.img.inforce r = imgRegion i r ∧ t.get (R.IMG_INFORCE_SLOT r) = k ∧ t.get R.IMG_CMD_STAT_STATUS = St.ok ∧
        t.get R.IMG_CMD_STAT_BUSY = 0 ∧ t.get (stickyBit Ev.IMG_ACT_DONE) = 1)) ∧
      (9 ≤ r ∨ r = 2 ∧ s.part = .lyk4801 → exec (.regionReset r) s = .next ((settle (actEnd St.decerr s)).answer St.ok [])) ∧
      (r = 0 ∨ r = 8 ∨ 1 ≤ r ∧ r ≤ 7 ∧ (r ≠ 2 ∨ s.part ≠ .lyk4801) ∧ getAt [] s.img.inforce r = [] → exec (.regionReset r) s = .next ((settle (actEnd St.conflict s)).answer St.ok [])) ∧
      (1 ≤ r → r ≤ 7 → r ≠ 2 ∨ s.part ≠ .lyk4801 → getAt [] s.img.inforce r ≠ [] → SettlesWith (.regionReset r) s St.ok (fun t =>
        (r ≠ 5 → getAt [] t.img.inforce r = getAt [] s.img.inforce r) ∧ (r = 7 → t.hdg.samp = [] ∧ t.hdg.hev = []) ∧ t.get R.IMG_CMD_STAT_STATUS = St.ok ∧
        t.get R.IMG_CMD_STAT_BUSY = 0 ∧ t.get (stickyBit Ev.IMG_ACT_DONE) = 1)))) ∧
  (∀ (r : FlashResult) (s : State),
    (s.swc.jobs.find? (fun j => j.phase == 1) = none → exec (.regionStagingDone r) s = .next (settle s)) ∧
    (∀ j, s.swc.jobs.find? (fun j => j.phase == 1) = some j → (readSections j.slot r j.sects s).1 = St.ok → Settles (.regionStagingDone r) s (fun t =>
      ∃ x ∈ t.swc.jobs, x.bank = j.bank ∧ x.handle = j.handle ∧ x.phase = 2 ∧ x.sects = j.sects)) ∧
    (∀ j a, s.swc.jobs.find? (fun j => j.phase == 1) = some j → (readSections j.slot r j.sects s).1 ≠ St.ok → s.findAct j.bank j.handle = some a → dKind a.desc = 3 →
      Settles (.regionStagingDone r) s (fun t => t.findAct j.bank j.handle = none ∧ t.get (stickyBit Ev.IMG_ACT_FAIL) = 1)))

/-- R355 to R359, R362, R468: sequencers start at INITIAL, stop, latch codes and timers, take their first transition that holds, and
record samples and host events, which the reads take in order. -/
def Obligations.Sequencers : Prop :=
  (∀ (mask : Nat) (s : State), s.hdg.seqs.length = 16 → Answers (.sequencerRun mask) s (fun t => t.resp = ⟨St.ok, []⟩ ∧ t.get R.HDG_RUN_RUN = mask % 2 ^ 16 ∧
    (∀ n < 16, (bitAt mask n = 0 → (t.seq n).run = 0) ∧ (bitAt mask n = 1 → (s.seq n).run = 1 → (t.seq n).run = 1 ∧ (t.seq n).state = (s.seq n).state) ∧
      (bitAt mask n = 1 → (s.seq n).run ≠ 1 → (t.seq n).state = bits (s.tabWord (seqTab n) false 0) 57 48 ∧
        (t.seq n).run = if (t.seq n).state < s.seqCount n then 1 else 2)) ∧
    { t with regs := s.regs, pmc := s.pmc, hdg := s.hdg, resp := s.resp } = s)) ∧
  (∀ (n c : Nat) (s : State), n < 16 → c < 256 → exec (.hdgPost n c) s = .next ((s.modSeq n (fun q =>
    if q.run = 1 && !q.codes.contains c then { q with codes := q.codes ++ [c] } else q)).answer St.ok [])) ∧
  (∀ (n i : Nat) (s : State), n < 16 → i < 8 → s.hdg.seqs.length = 16 → (s.seq n).timers.length = 8 →
    ((s.seq n).run = 1 → ((s.seq n).timers.getD i {}).running = true → Answers (.sequencerTimerExpiry n i) s (fun t =>
      ((t.seq n).timers.getD i {}).expired = true ∧ ((t.seq n).timers.getD i {}).running = false ∧ (t.seq n).state = (s.seq n).state ∧
      (∀ m, m ≠ n → t.seq m = s.seq m) ∧ { t with hdg := s.hdg } = s)) ∧
    ((s.seq n).run ≠ 1 ∨ ((s.seq n).timers.getD i {}).running = false → exec (.sequencerTimerExpiry n i) s = .next s)) ∧
  (∀ (n : Nat) (s : State), n < 16 → s.hdg.seqs.length = 16 →
    ((s.seq n).run ≠ 1 ∨ s.inShutdown = true → exec (.sequencerRound n) s = .next (settle s)) ∧
    ((s.seq n).run = 1 → s.inShutdown = false → (s.seq n).due = [] →
      (∀ i < 16, bitAt (smTrans (s.activeWords (seqTab n)) (s.seq n).state i) 127 = 0) → exec (.sequencerRound n) s = .next (settle s)) ∧
    (∀ w, w = smTrans (s.activeWords (seqTab n)) (s.seq n).state 0 → (s.seq n).run = 1 → s.inShutdown = false → (s.seq n).due = [] → bitAt w 127 = 1 → bits w 31 30 = 0 → bits w 63 60 = 0 → bitAt w 59 = 0 → bits w 99 96 = 0 →
      (∀ i < 16, i ≠ 0 → bitAt (smTrans (s.activeWords (seqTab n)) (s.seq n).state i) 127 = 0) →
      Settles (.sequencerRound n) s (fun t => (t.seq n).state = bits w 125 116 ∧ (t.seq n).run = 1 ∧ (t.seq n).codes = [] ∧ (t.seq n).evs = [] ∧
        (∀ m, m ≠ n → t.seq m = s.seq m) ∧ { t with hdg := s.hdg } = s))) ∧
  (∀ s : State,
    exec .hostEventPop s = .next ({ s with hdg := { s.hdg with hev := s.hdg.hev.tail } }.answer St.ok [(s.hdg.hev.headD (0, 0)).2]) ∧
    exec .samplePop s = .next ({ s with hdg := { s.hdg with samp := s.hdg.samp.tail } }.answer St.ok [4096 * (s.hdg.samp.headD (0, 0)).1 + (s.hdg.samp.headD (0, 0)).2]) ∧
    (s.presetDue = false → exec .presetOverflow s = .next s) ∧
    (∀ n < 16, s.presetDue = true → s.get R.HDG_SAMP_CTRL_SEQ_MASK = 2 ^ n → (s.seq n).run ≠ 1 →
      Answers .presetOverflow s (fun t => (s.get R.HDG_SAMP_CTRL_COUNTER ∉ [Ev.PMC_PRESET, Ev.PMC_OVERFLOW, Ev.HDG_SAMPLE, Ev.HDG_SAMP_LOST] →
          t.pmc.presetCnt = 0) ∧ t.get (stickyBit Ev.PMC_PRESET) = 1 ∧
        (s.hdg.samp.length < 16 → t.hdg.samp = s.hdg.samp ++ [(n, (s.seq n).state)] ∧ t.get (stickyBit Ev.HDG_SAMPLE) = 1) ∧
        (16 ≤ s.hdg.samp.length → t.hdg.samp = s.hdg.samp ∧ t.get (stickyBit Ev.HDG_SAMP_LOST) = 1) ∧
        { t with regs := s.regs, pmc := s.pmc, hdg := s.hdg } = s)))

/-- R379 to R387: doorbells and heads move within the ring, enabling a ring empties it, the command of the next ring is fetched or
refused, a waiting completion is written where the host has read one, the link takes the rings with it, and the watchdog, the kick and
the two-wire slave. -/
def Obligations.HostRings : Prop :=
  (∀ (r t : Nat) (s : State), r < 16 → let held := (s.sqTail r + 256 - s.sqHead r) % 256
    let more := (t % 256 + 256 - s.sqTail r) % 256
    (s.sqOn r = true → held + more ≤ 255 → exec (.sqDoorbell r t) s =
      .next ({ s with hif := { s.hif with tails := s.hif.tails.set r (t % 256) } }.answer St.ok [])) ∧
    (s.sqOn r = false ∨ 255 < held + more → exec (.sqDoorbell r t) s = .next ((s.raise Ev.HIF_DB_ERR).answer St.ok [])) ∧
    (s.hif.tails.length = 16 → Answers (.sqEnable r 1) s (fun t => t.sqOn r = true ∧ t.sqHead r = 0 ∧ t.sqTail r = 0 ∧
      (∀ i, i ≠ r → t.sqTail i = s.sqTail i) ∧ RegsBut [R.HIF_SQ_CTRL_EN r, R.HIF_SQ_CTRL_HEAD r] s t ∧
      { t with regs := s.regs, hif := s.hif, resp := s.resp } = s)) ∧
    exec (.sqEnable r 0) s = .next ((s.set (R.HIF_SQ_CTRL_EN r) 0).answer St.ok [])) ∧
  (∀ (q h : Nat) (s : State), q < 4 →
    exec (.cqHeadWrite q h) s = .next ({ s with hif := { s.hif with
      heads := s.hif.heads.set q (h % 1024),
      unread := s.hif.unread.set q (s.hif.unread.getD q 0 - (h % 1024 + 1024 - s.hif.heads.getD q 0) % 1024) } }.answer St.ok []) ∧
    exec (.cqEnable q 0) s = .next ((s.set (R.HIF_CQ_CTRL_EN q) 0).answer St.ok []) ∧
    Answers (.cqEnable q 1) s (fun t => t.isOn (R.HIF_CQ_CTRL_EN q) = true ∧ t.get (R.HIF_CQ_CTRL_TAIL q) = 0 ∧ t.get (R.HIF_CQ_CTRL_PHASE q) = 1 ∧
      t.hif.heads = s.hif.heads.set q 0 ∧ t.hif.unread = s.hif.unread.set q 0 ∧ { t with regs := s.regs, hif := s.hif, resp := s.resp } = s) ∧
    (s.hif.waits.find? (fun w => w.cq == q) = none ∨ s.cqRoom q = false → exec (.completionWrite q) s = .next s) ∧
    (∀ c, s.hif.waits.find? (fun w => w.cq == q) = some c → s.cqRoom q = true → Answers (.completionWrite q) s (fun t =>
      getAt 0 t.hif.ring (1024 * q + s.get (R.HIF_CQ_CTRL_TAIL q)) = c.entry (s.get (R.HIF_CQ_CTRL_PHASE q)) ∧
      t.get (R.HIF_CQ_CTRL_TAIL q) = (s.get (R.HIF_CQ_CTRL_TAIL q) + 1) % 1024 ∧ t.hif.waits = s.hif.waits.erase c ∧
      (s.get (R.HIF_CQ_CTRL_TAIL q) ≠ 1023 → t.get (R.HIF_CQ_CTRL_PHASE q) = s.get (R.HIF_CQ_CTRL_PHASE q)) ∧
      (s.get (R.HIF_CQ_CTRL_TAIL q) = 1023 → t.get (R.HIF_CQ_CTRL_PHASE q) = 1 - s.get (R.HIF_CQ_CTRL_PHASE q)) ∧
      { t with regs := s.regs, hif := s.hif } = s))) ∧
  (∀ (b : List Nat) (s : State),
    (s.gorse = none ∨ 1024 ≤ s.hif.cmds.length ∨ s.nextRing = none → exec (.commandFetch b) s = .next s) ∧
    (∀ r, s.gorse.isSome = true → s.hif.cmds.length < 1024 → s.nextRing = some r → let c := hostCmdOf r ((s.sqHead r + 1) % 256) b
      s.fetchVerdict c = St.ok → Answers (.commandFetch b) s (fun t => t.hif.cmds = s.hif.cmds ++ [c] ∧ t.sqHead r = (s.sqHead r + 1) % 256 ∧
        t.hif.ring = s.hif.ring ∧ RegsBut [R.HIF_SQ_CTRL_HEAD r] s t ∧ { t with regs := s.regs, hif := s.hif } = s))) ∧
  (∀ (w v l : Nat) (s : State), w < 8 → v < 8 → l < 64 →
    Answers (.pcieLinkDown l) s (fun t => t.hif.cmds = [] ∧ t.hif.waits = [] ∧ (∀ r < 16, t.sqOn r = false) ∧ (∀ q < 4, t.isOn (R.HIF_CQ_CTRL_EN q) = false) ∧
      t.get R.HIF_LINK_UP = 0 ∧ t.get R.HIF_LINK_LTSSM = l ∧ t.get (stickyBit Ev.HIF_LINK_DOWN) = 1 ∧ t.swc.acts.length = s.swc.acts.length ∧
      t.hif.ring = s.hif.ring) ∧
    Answers (.pcieLinkUp w v l) s (fun t => t.get R.HIF_LINK_UP = 1 ∧ t.get R.HIF_LINK_WIDTH = w ∧ t.get R.HIF_LINK_SPEED = v ∧ t.get R.HIF_LINK_LTSSM = l ∧
      RegsBut [R.HIF_LINK_UP, R.HIF_LINK_WIDTH, R.HIF_LINK_SPEED, R.HIF_LINK_LTSSM] s t ∧ { t with regs := s.regs } = s)) ∧
  (∀ (b : List Nat) (n : Nat) (s : State),
    (s.get R.HIF_WDOG_PERIOD = 0 → exec .hostWatchdogExpiry s = .next s) ∧
    (s.get R.HIF_WDOG_PERIOD ≠ 0 → Answers .hostWatchdogExpiry s (fun t => t.get (stickyBit Ev.HIF_WDOG) = 1 ∧
      { t with regs := s.regs, pmc := s.pmc, hdg := s.hdg } = s)) ∧
    exec .watchdogKick s = .next (s.answer St.ok []) ∧
    exec (.i2cRead n) s = .next ({ s with hif := { s.hif with ptr := (s.hif.ptr + n) % 256 } }.answer St.ok
      ((List.range n).map (fun i => s.i2cByte ((s.hif.ptr + i) % 256)))) ∧
    exec (.i2cWrite (n :: b)) s = .next ({ s with hif := { s.hif with ptr := n % 256 } }.answer St.ok (1 :: List.replicate b.length 0)))

/-- R381 to R383: a command of the rings starts in fetch order, does its work at once or hands it on, and ends with an entry in its
completion ring that frees its tag. -/
def Obligations.RingCommands : Prop :=
  ∀ (tag : Nat) (b : List Nat) (s : State),
    let s1 := s.modHif (fun h => { h with cmds := h.cmds.map (fun x => if x.tag = tag then { x with started := true } else x) })
    (∀ x ∈ [(0, Instr.nop tag), (1, .calInsert tag), (2, .calRemove tag), (3, .tableWrite tag b), (4, .tableRead tag), (9, .snapshotRead tag),
      (10, .gccSend tag b), (11, .gccRecv tag b), (12, .secCmd tag b)], s.startable x.1 tag = none → exec x.2 s = .next (settle s)) ∧
    (∀ x ∈ [(5, Instr.flashRead tag), (6, .flashWrite tag b), (7, .flashErase tag), (8, .logRead tag)], s.startable x.1 tag = none → exec x.2 s = .next s) ∧
    (∀ c q, s.startable 0 tag = some c → c.done = false → (∀ x ∈ s.hif.cmds, x.tag = tag → x = c) → s.get (R.HIF_SQ_CTRL_CQ c.sq) = q →
      s.cqRoom q = true → (∀ w ∈ s.hif.waits, w.cq ≠ q) → Settles (.nop tag) s (fun t => t.resp = ⟨St.ok, []⟩ ∧ (∀ x ∈ t.hif.cmds, x.tag ≠ tag) ∧
        getAt 0 t.hif.ring (1024 * q + s.get (R.HIF_CQ_CTRL_TAIL q)) =
          tag + 2 ^ 15 * s.get (R.HIF_CQ_CTRL_PHASE q) + 2 ^ 24 * c.sq + 2 ^ 32 * c.sqHead ∧
        t.get (R.HIF_CQ_CTRL_TAIL q) = (s.get (R.HIF_CQ_CTRL_TAIL q) + 1) % 1024 ∧ { t with regs := s.regs, hif := s.hif, resp := s.resp } = s)) ∧
    (∀ c, s.startable 1 tag = some c → let v := s1.insertVerdict 6 (c.arg 16 16) false
      (v ≠ St.ok → exec (.calInsert tag) s = .next (settle ((hostFinish tag v 0 0 (refusalEvent v s1)).answer v [0]))) ∧
      (v = St.ok → bitAt c.flags 1 = 1 → Settles (.calInsert tag) s (fun t => t.swc.acts.length = s.swc.acts.length + 1 ∧
        t.hif.cmds = s1.hif.cmds ∧ t.hif.ring = s.hif.ring ∧ ∃ h, t.resp = ⟨St.ok, [h]⟩ ∧ (t.findAct (bankOf 6) h).isSome = true)) ∧
      (v = St.ok → bitAt c.flags 1 = 0 → Settles (.calInsert tag) s (fun t => ∃ (h : Nat) (u : State), t = (hostFinish tag St.ok 0 h u).answer St.ok [h] ∧
        u.swc.acts.length = s.swc.acts.length + 1 ∧ (u.findAct (bankOf 6) h).isSome = true ∧ u.hif = s1.hif))) ∧
    (∀ c, s.startable 2 tag = some c → let r := removeAct 6 (c.arg 16 2) s1
      exec (.calRemove tag) s = .next (settle ((hostFinish tag r.1 0 0 r.2).answer r.1 []))) ∧
    (∀ c, s.startable 3 tag = some c → s.coreRuns 4 = true → s.coreRuns 5 = false →
      let r := tableWriteRun 6 (c.arg 16 4) ((List.range c.len).map (fun i => leAt b (16 * i) 16)) s1
      exec (.tableWrite tag b) s = .next (settle ((hostFinish tag r.1 0 0 r.2).answer r.1 []))) ∧
    (∀ c, s.startable 4 tag = some c → s.coreRuns 4 = false → s.coreRuns 5 = true → let r := tableReadRun 7 (c.arg 16 4) c.len s1
      exec (.tableRead tag) s = .next (settle ((hostFinish tag r.1 c.len 0 r.2.2).answer r.1 r.2.1)) ∧ r.2.1.length = c.len) ∧
    (∀ c, s.startable 9 tag = some c → exec (.snapshotRead tag) s =
      .next (settle ((hostFinish tag St.ok c.len 0 s1).answer St.ok ((List.range (2 * c.len)).map (fun i => getAt 0 s.pmc.shd i))))) ∧
    (∀ c, s.startable 10 tag = some c →
      (∀ k, s.gccChannel c = some k → Settles (.gccSend tag b) s (fun t => getAt [] t.hif.gcc k = b.take (16 * c.len) ∧ t.resp = ⟨St.ok, []⟩)) ∧
      (s.gccChannel c = none → exec (.gccSend tag b) s = .next (settle ((hostFinish tag St.decerr 0 0 s1).answer St.decerr [])))) ∧
    (∀ c, s.startable 11 tag = some c →
      ((s.gccChannel c).isSome = true → exec (.gccRecv tag b) s =
        .next (settle ((hostFinish tag St.ok (ceilDiv (b.take (16 * c.len)).length 16) 0 s1).answer St.ok (b.take (16 * c.len))))) ∧
      (s.gccChannel c = none → exec (.gccRecv tag b) s = .next (settle ((hostFinish tag St.decerr 0 0 s1).answer St.decerr [])))) ∧
    (∀ c, s.startable 12 tag = some c → s.coreRuns 4 = true → s.coreRuns 5 = false →
      (s.isOn (R.SEC_CMD_STAT_BUSY 6) = true → exec (.secCmd tag b) s = .next (settle (hostFinish tag St.busy 0 0 s1))) ∧
      (s.isOn (R.SEC_CMD_STAT_BUSY 6) = false → Settles (.secCmd tag b) s (fun t => ∃ u : State, t = (secCommand (cOp (c.arg 16 16)) 6 (c.arg 16 16) none u).2 ∧
        u.sec.win = (winWrite 6 0 (b.take (16 * c.len)) s).sec.win ∧ { u with sec := s.sec, hif := s.hif } = s))) ∧
    (∀ c, s.startable 5 tag = some c → exec (.flashRead tag) s = .next (flashSubmit
      { kind := 1, part := byteAt c.args 0, index := leAt c.args 4 4, count := ceilDiv (16 * c.len) 4096, who := .ring tag } s1)) ∧
    (∀ c, s.startable 6 tag = some c → exec (.flashWrite tag b) s = .next (flashSubmit
      { kind := 2, part := byteAt c.args 0, index := leAt c.args 4 4, data := b.take (16 * c.len), who := .ring tag } s1)) ∧
    (∀ c, s.startable 7 tag = some c → exec (.flashErase tag) s = .next (flashSubmit
      { kind := 3, part := byteAt c.args 0, index := leAt c.args 4 4, who := .ring tag } s1)) ∧
    (∀ c, s.startable 8 tag = some c → let l := (s.logRecs.filter (fun r => decide (leAt c.args 0 4 ≤ r.1))).take (c.len / 4)
      exec (.logRead tag) s = .next (hostFinish tag St.ok (4 * l.length) (l.headD (0, [])).1 (s1.answer St.ok (l.flatMap (·.2)))))

/-- R390 to R393, R400 to R404, R408: the register path of the flash store: BUSY while a command runs, DECERR without the partition, an
operation given to its idle chip enable, and what its end leaves: the page read, programmed, the block erased. -/
def Obligations.FlashOperations : Prop :=
  (∀ s : State, s.isOn R.FLC_CMD_STAT_BUSY = true → ∀ c ∈ [Instr.flcRead, .flcWrite, .flcErase, .retire, .scrubNow], exec c s = .next (s.answer St.busy [])) ∧
  (∀ s : State, s.isOn R.FLC_CMD_STAT_BUSY = false → let part := s.get R.FLC_ADDR_PART
    let i := s.get R.FLC_ADDR_INDEX
    (s.partition part = none → ∀ c ∈ [Instr.flcRead, .flcWrite, .flcErase], Answers c s (fun t => t.resp = ⟨St.ok, []⟩ ∧
      t.get R.FLC_CMD_STAT_STATUS = St.decerr ∧ t.get R.FLC_CMD_STAT_BUSY = 0 ∧ RegsBut [R.FLC_CMD_STAT_BUSY, R.FLC_CMD_STAT_STATUS] s t ∧
      { t with regs := s.regs, resp := s.resp } = s)) ∧
    (∀ x, s.partition part = some x → s.flc.queue = [] → s.flc.busy = [] →
      (i < x.logical * s.flcPages → Answers .flcRead s (fun t => t.resp = ⟨St.ok, []⟩ ∧ t.get R.FLC_CMD_STAT_BUSY = 1 ∧ (∃ ce < 2, look ce t.flc.busy =
        some { kind := 1, part := part, index := i, who := .regs }) ∧ t.flc.queue = [] ∧ { t with regs := s.regs, flc := s.flc, resp := s.resp } = s)) ∧
      (∀ b, i < x.logical * s.flcPages → ownStore part = false → part ≠ 0x30 → s.mappedTo part (i / s.flcPages) = some b →
        s.extent (s.flashBlock b) ≤ i % s.flcPages → s.writeWindow = true → Answers .flcWrite s (fun t => t.resp = ⟨St.ok, []⟩ ∧
          t.get R.FLC_CMD_STAT_BUSY = 1 ∧ (∃ op : FlashOp, look (s.flcCe b) t.flc.busy = some op ∧ op.kind = 2 ∧ op.part = part ∧ op.index = i ∧
            op.who = .regs ∧ op.data.length = 4096) ∧ t.flc.blocks = s.flc.blocks ∧ t.flc.map = s.flc.map)) ∧
      (∀ b, i < x.logical → ownStore part = false → part ≠ 0x30 → s.mappedTo part i = some b → s.writeWindow = true → Answers .flcErase s (fun t =>
        t.resp = ⟨St.ok, []⟩ ∧ t.get R.FLC_CMD_STAT_BUSY = 1 ∧ look (s.flcCe b) t.flc.busy = some { kind := 3, part := part, index := i, who := .regs } ∧
        t.flc.blocks = s.flc.blocks ∧ t.flc.map = s.flc.map)) ∧
      (∀ b, i < x.logical → ownStore part = false → part ≠ 0x30 → s.mappedTo part i = some b → s.writeWindow = false → Answers .flcErase s (fun t =>
        t.get R.FLC_CMD_STAT_BUSY = 0 ∧ t.get R.FLC_CMD_STAT_STATUS = St.tempInhibit ∧ t.get (stickyBit Ev.FLC_TEMP_INHIBIT) = 1 ∧ t.flc = s.flc)))) ∧
  (∀ (ce : Nat) (r : FlashResult) (s : State), ce < 2 →
    (look ce s.flc.busy = none → exec (.flashOpDone ce r) s = .next s) ∧
    (∀ op b x, look ce s.flc.busy = some op → op.who = .regs → s.flc.queue = [] → s.partition op.part = some x →
      (op.kind = 2 → r.failed = false → s.mappedTo op.part (op.index / s.flcPages) = some b → Answers (.flashOpDone ce r) s (fun t =>
        (look (op.index % s.flcPages) (t.flashBlock b).pages).map (·.data) = some (fullPage op.data) ∧ t.get R.FLC_CMD_STAT_STATUS = St.ok ∧ t.get R.FLC_CMD_STAT_BUSY = 0 ∧
        t.flc.map = s.flc.map ∧ { t with regs := s.regs, flc := s.flc } = s)) ∧
      (op.kind = 2 → r.failed = true → Answers (.flashOpDone ce r) s (fun t => t.get R.FLC_CMD_STAT_STATUS = St.uncorr ∧
        t.get (stickyBit Ev.FLC_PROG_FAIL) = 1 ∧ t.flc.blocks = s.flc.blocks)) ∧
      (op.kind = 3 → r.failed = false → s.mappedTo op.part op.index = some b → Answers (.flashOpDone ce r) s (fun t =>
        t.mappedTo op.part op.index = none ∧ (t.flashBlock b).pages = [] ∧ t.get R.FLC_CMD_STAT_STATUS = St.ok ∧ t.get R.FLC_CMD_STAT_BUSY = 0 ∧
        { t with regs := s.regs, flc := s.flc } = s)) ∧
      (op.kind = 1 → op.count = 1 → s.mappedTo op.part (op.index / s.flcPages) = some b → Answers (.flashOpDone ce r) s (fun t =>
        t.get R.FLC_CMD_STAT_BUSY = 0 ∧ t.flc.map = s.flc.map ∧ t.flc.blocks = s.flc.blocks ∧
        match s.readOne b (op.index % s.flcPages) (r.pages.headD []) with
        | .good _ n d => t.get R.FLC_CMD_STAT_STATUS = St.ok ∧ t.get R.FLC_CMD_STAT_BLANK = 0 ∧ t.get R.FLC_CMD_STAT_BITS = n % 128 ∧
            ∀ w < 1024, getAt 0 t.flc.win w = leAt d (4 * w) 4
        | .blank => t.get R.FLC_CMD_STAT_STATUS = St.ok ∧ t.get R.FLC_CMD_STAT_BLANK = 1 ∧ t.get R.FLC_CMD_STAT_BITS = 0 ∧
            (∀ w < 1024, getAt 0 t.flc.win w = 2 ^ 32 - 1)
        | .bad _ => t.get R.FLC_CMD_STAT_STATUS = St.uncorr ∧ t.get (stickyBit Ev.FLC_UNCORR) = 1 ∧ (∀ w < 1024, getAt 0 t.flc.win w = 0)))) ∧
    (∀ op, look ce s.flc.busy = some op → op.who = .regs → s.flc.queue = [] → op.kind = 5 → Answers (.flashOpDone ce r) s (fun t =>
      op.index ∈ t.flc.bad ∧ (t.flashBlock op.index).good = (r.failed && (s.flashBlock op.index).good) ∧
      (t.flashBlock op.index).pages = (s.flashBlock op.index).pages ∧ t.get R.FLC_CMD_STAT_STATUS = St.ok ∧ t.get R.FLC_CMD_STAT_BUSY = 0 ∧
      t.flc.map = s.flc.map)))

/-- R390, R395, R398, R402 to R407: the mount judges the device, a block is copied to a free one of its range and erased, one without
content retires, a scrub of an empty store is done at once, and the waiting log records are programmed as one page. -/
def Obligations.FlashUpkeep : Prop :=
  (∀ (x : FlashScan) (s : State),
    (s.get R.FLC_STATE_STATE ≠ 0 → exec (.flashMount x) s = .next s) ∧
    (s.get R.FLC_STATE_STATE = 0 → scanFits x = false → exec (.flashMount x) s = .next (s.set R.FLC_STATE_STATE 4)) ∧
    (s.get R.FLC_STATE_STATE = 0 → scanFits x = true → Answers (.flashMount x) s (fun t => (t.get R.FLC_STATE_STATE = 3 ∨ t.get R.FLC_STATE_STATE = 5) ∧
      (t.get R.FLC_STATE_STATE = 3 ↔ t.storeFits = true) ∧ t.get R.FLC_GEOM_BLOCKS = x.blocks ∧ t.get R.FLC_GEOM_CES = x.ces ∧ t.get R.FLC_GEOM_PPB = x.ppb ∧
      t.get R.FLC_CFG_T = min 112 ((x.spare - 32) / 16 * 8) ∧ t.get (stickyBit Ev.FLC_MOUNT_DONE) = 1 ∧
      (t.get R.FLC_STATE_STATE = 5 → t.sec = s.sec) ∧
      { t with regs := s.regs, pmc := s.pmc, hdg := s.hdg, flc := s.flc, sec := s.sec } = s))) ∧
  (∀ (b k nb : Nat) (l : List Nat) (x : Partition) (s : State), ∀ r : FlashResult, ∀ c ∈ [Instr.relocation r, .relocationRetry r],
    (s.flc.moves = [] → exec c s = .next s) ∧
    (s.flc.moves = [(b, false)] → s.flc.queue = [] → s.flc.busy = [] → s.holderOf b = some k → s.partOf b = some x → s.freeBlocks x = nb :: l →
      (s.writeWindow = false → exec c s = .next (s.raise Ev.FLC_TEMP_INHIBIT)) ∧
      (s.writeWindow = true → r.failed = false → Answers c s (fun t => t.mappedTo (k / 2 ^ 20) (k % 2 ^ 20) = some nb ∧ (t.flashBlock b).pages = [] ∧
        (t.flashBlock nb).pages = copyPages (s.get R.FLC_CFG_T) (s.extent (s.flashBlock b)) (s.flashBlock b) ∧ t.flc.moves = [] ∧
        { t with regs := s.regs, pmc := s.pmc, hdg := s.hdg, flc := s.flc } = s)))) ∧
  (∀ s : State, let i := s.get R.FLC_ADDR_INDEX
    (∀ k x, s.isOn R.FLC_CMD_STAT_BUSY = false → s.holderOf i = some k → s.partOf i = some x →
      (s.freeBlocks x = [] → exec .retire s = .next ((s.set R.FLC_CMD_STAT_STATUS St.full).answer St.ok [])) ∧
      (s.freeBlocks x ≠ [] → s.flc.moves = [] → Answers .retire s (fun t => t.flc.moves = [(i, true)] ∧ t.get R.FLC_CMD_STAT_BUSY = 1 ∧
        RegsBut [R.FLC_CMD_STAT_BUSY] s t ∧ { t with regs := s.regs, flc := s.flc, resp := s.resp } = s))) ∧
    (s.isOn R.FLC_CMD_STAT_BUSY = false → s.partOf i = none → Answers .retire s (fun t => t.get R.FLC_CMD_STAT_STATUS = St.decerr ∧
      t.get R.FLC_CMD_STAT_BUSY = 0 ∧ { t with regs := s.regs, resp := s.resp } = s)) ∧
    (s.isOn R.FLC_CMD_STAT_BUSY = false → s.get R.FLC_STATE_STATE ≠ 3 → exec .scrubNow s = .next ((s.set R.FLC_CMD_STAT_STATUS St.decerr).answer St.ok [])) ∧
    (s.get R.FLC_SCRUB_HOURS = 0 ∨ s.isOn R.FLC_SCRUB_BUSY = true ∨ s.get R.FLC_STATE_STATE ≠ 3 → exec .flashScrubStart s = .next s) ∧
    (s.isOn R.FLC_SCRUB_BUSY = false → s.get R.FLC_STATE_STATE = 3 → s.flc.map = [] →
      (s.get R.FLC_SCRUB_HOURS ≠ 0 → Answers .flashScrubStart s (fun t => t.get R.FLC_SCRUB_BUSY = 0 ∧ t.get R.FLC_SCRUB_DONE = 100 ∧
        t.get (stickyBit Ev.FLC_SCRUB_DONE) = 1 ∧ { t with regs := s.regs, pmc := s.pmc, hdg := s.hdg, flc := s.flc } = s)) ∧
      (s.isOn R.FLC_CMD_STAT_BUSY = false → Answers .scrubNow s (fun t => t.get R.FLC_CMD_STAT_STATUS = St.ok ∧ t.get R.FLC_SCRUB_DONE = 100 ∧
        t.get (stickyBit Ev.FLC_SCRUB_DONE) = 1)))) ∧
  (∀ (fails time : Nat) (s : State),
    (s.partition 0x30 = none ∨ s.flc.buf = [] → exec (.logFlush fails time) s = .next s) ∧
    (∀ x, s.partition 0x30 = some x → s.flc.buf ≠ [] → s.writeWindow = false → exec (.logFlush fails time) s = .next (s.raise Ev.FLC_TEMP_INHIBIT)) ∧
    (∀ x b, s.partition 0x30 = some x → s.flc.buf ≠ [] → s.writeWindow = true → s.flc.logAt % s.flcPages ≠ 0 → s.flc.logAt / s.flcPages < x.logical →
      s.mappedTo 0x30 (s.flc.logAt / s.flcPages) = some b → Answers (.logFlush 0 time) s (fun t => t.flc.buf = [] ∧
        t.flc.logAt = (s.flc.logAt + 1) % (s.flcPages * x.logical) ∧
        (look (s.flc.logAt % s.flcPages) (t.flashBlock b).pages).map (·.data) = some (fullPage (s.flc.buf.flatMap LogRec.bytes)) ∧ { t with flc := s.flc } = s)))

/-- R413, R414, R416: a measurement of a usable reference with activity is shown, starts, keeps or breaks the count of its
qualification or disqualification, and sets DRIFT; a reference that is not usable or is in LOS is not measured. R413 to R415, R425:
loss of activity disqualifies at once and makes the offset invalid, its return starts the count anew, and the end of QUAL_TIME
qualifies or disqualifies by the count that runs. -/
def Obligations.References : Prop :=
  (∀ (i : Nat) (x : Int) (s : State), i < 14 →
    (s.refUsable i = false ∨ s.isOn (R.CLK_REF_STAT_LOS i) = true → exec (.refMonitorUpdate i x) s = .next s) ∧
    (s.refUsable i = true → s.isOn (R.CLK_REF_STAT_LOS i) = false → -8388608 ≤ x → x ≤ 8388607 →
      Answers (.refMonitorUpdate i x) s (fun t =>
        let far := s.get R.CLK_THR_DISQ_THR < x.natAbs ∧ ∀ m, s.refMedian i = some m → s.get R.CLK_THR_DISQ_THR < (x - m).natAbs
        let near := x.natAbs < s.get R.CLK_THR_QUAL_THR ∨ ∃ m, s.refMedian i = some m ∧ (x - m).natAbs < s.get R.CLK_THR_QUAL_THR
        t.refOffset i = x ∧ t.get (R.CLK_REF_STAT_VALID i) = 1 ∧ t.get R.CLK_OSC_ACTIVE = 1 ∧
        (∀ j < 14, t.refQualified j = s.refQualified j) ∧
        (s.refQualified i = true → (far → getAt 0 t.clk.runs i = 2) ∧ (¬ far → getAt 0 t.clk.runs i = 0)) ∧
        (s.refQualified i = false → (near → getAt 0 t.clk.runs i = 1) ∧ (¬ near → getAt 0 t.clk.runs i = 0)) ∧
        (t.isOn (R.CLK_REF_STAT_DRIFT i) = true ↔ s.refQualified i = true ∧ s.get R.CLK_THR_DISQ_THR < 2 * x.natAbs) ∧
        t.clk.dps = s.clk.dps ∧ { t with regs := s.regs, pmc := s.pmc, hdg := s.hdg, clk := s.clk } = s))) ∧
  (∀ (i : Nat) (s : State), i < 14 →
    (s.refKind i = 0 → exec (.refLos i) s = .next s) ∧
    (s.refKind i ≠ 0 → Answers (.refLos i) s (fun t => t.get (R.CLK_REF_STAT_LOS i) = 1 ∧ t.get (R.CLK_REF_STAT_VALID i) = 0 ∧
      t.refQualified i = false ∧ t.get (R.CLK_REF_STAT_DRIFT i) = 0 ∧ getAt 0 t.clk.runs i = 0 ∧
      (s.refQualified i = true → ∀ n < 3, s.refPrio n i ≠ 0 → t.get (stickyBit (Ev.CLK_DPn_EV (5 * n + 3))) = 1) ∧
      (s.refQualified i = false → RegsBut [R.CLK_REF_STAT_LOS i, R.CLK_REF_STAT_VALID i, R.CLK_REF_STAT_DRIFT i] s t ∧
        { t with regs := s.regs, clk := s.clk } = s))) ∧
    (s.isOn (R.CLK_REF_STAT_LOS i) = true → s.refUsable i = true → Answers (.refActivityReturn i) s (fun t =>
      t.get (R.CLK_REF_STAT_LOS i) = 0 ∧ getAt 0 t.clk.runs i = 1 ∧ (∀ j, j ≠ i → getAt 0 t.clk.runs j = getAt 0 s.clk.runs j) ∧
      RegsBut [R.CLK_REF_STAT_LOS i] s t ∧ { t with regs := s.regs, clk := s.clk } = s)) ∧
    (s.isOn (R.CLK_REF_STAT_LOS i) = false ∨ s.refUsable i = false → exec (.refActivityReturn i) s = .next s) ∧
    (getAt 0 s.clk.runs i = 1 → s.isOn (R.CLK_REF_STAT_LOS i) = false → Answers (.refQualTimerExpiry i) s (fun t =>
      t.refQualified i = true ∧ getAt 0 t.clk.runs i = 0 ∧ ∀ j < 14, j ≠ i → t.refQualified j = s.refQualified j)) ∧
    (getAt 0 s.clk.runs i = 2 → Answers (.refQualTimerExpiry i) s (fun t => t.refQualified i = false ∧ getAt 0 t.clk.runs i = 0 ∧
      (s.refQualified i = true → ∀ n < 3, s.refPrio n i ≠ 0 → t.get (stickyBit (Ev.CLK_DPn_EV (5 * n + 3))) = 1))) ∧
    (getAt 0 s.clk.runs i = 0 → exec (.refQualTimerExpiry i) s = .next s))

/-- R418, R419, R422: what a DPLL does of itself. A switch completes on its target with EV_CLK_REF_SWITCHED; wait-to-restore ends in a
switch where its reference is still eligible and preferred; lock is taken in ACQUIRE and lost in LOCKED. R421 to R424: the history
takes the clamped mean of a LOCKED second and an empty entry of any other; MODE open fixes the DCO at the value that the last write of
DCO_HI formed, and a later one changes it at once; on leaving open without a reference the DPLL holds over, or is FREE. -/
def Obligations.Dplls : Prop :=
  (∀ (n : Nat) (s : State), n < 3 → s.clk.dps.length = 3 →
    ((s.dp n).target = none → exec (.refSwitchDone n) s = .next s) ∧
    (∀ r, (s.dp n).target = some r → (s.dp n).due = none → r < 16 → Answers (.refSwitchDone n) s (fun t => (t.dp n).sel = some r ∧ (t.dp n).target = none ∧
      t.get (R.CLK_DP_STAT_SEL_REF n) = r ∧ t.get (R.CLK_DP_STAT_SWITCHING n) = 0 ∧ t.get (stickyBit (Ev.CLK_DPn_EV (5 * n + 1))) = 1 ∧
      t.dpStateOf n = s.dpStateOf n ∧ { t with regs := s.regs, pmc := s.pmc, hdg := s.hdg, clk := s.clk } = s)) ∧
    (s.isOn (R.CLK_DP_STAT_WTR_RUN n) = false → exec (.wtrExpiry n) s = .next s) ∧
    (∀ c, s.isOn (R.CLK_DP_STAT_WTR_RUN n) = true → (s.dp n).target = none → (s.dp n).sel = some c →
      Answers (.wtrExpiry n) s (fun t => let r := s.get (R.CLK_DP_STAT_WTR_REF n)
        t.get (R.CLK_DP_STAT_WTR_RUN n) = 0 ∧ t.get (R.CLK_DP_STAT_WTR_LEFT n) = 0 ∧ (t.dp n).sel = some c ∧
        (s.eligible n r = true → s.prefers n r c = true → (t.dp n).target = some r ∧ t.get (R.CLK_DP_STAT_SWITCHING n) = 1) ∧
        (s.eligible n r = false ∨ s.prefers n r c = false → t.clk = s.clk) ∧ { t with regs := s.regs, clk := s.clk } = s)) ∧
    (s.isOn (R.CLK_DP_STAT_WTR_RUN n) = true → (s.dp n).target ≠ none → s.eligible n (s.get (R.CLK_DP_STAT_WTR_REF n)) = true →
      Answers (.wtrExpiry n) s (fun t => (t.dp n).due = some (s.get (R.CLK_DP_STAT_WTR_REF n)) ∧ (t.dp n).target = (s.dp n).target)) ∧
    (s.dpOn n = true → s.dpStateOf n = 1 → (s.dp n).sel ≠ none → exec (.dpllLock n) s = .next (s.set (R.CLK_DP_STAT_STATE n) 2)) ∧
    (s.dpOn n = false ∨ s.dpStateOf n ≠ 1 ∨ (s.dp n).sel = none → exec (.dpllLock n) s = .next s) ∧
    (s.dpOn n = true → s.dpStateOf n = 2 → Answers (.dpllLockLoss n) s (fun t => t.dpStateOf n = 1 ∧
      t.get (stickyBit (Ev.CLK_DPn_EV (5 * n))) = 1 ∧ { t with regs := s.regs, pmc := s.pmc, hdg := s.hdg } = s)) ∧
    (s.dpOn n = false ∨ s.dpStateOf n ≠ 2 → exec (.dpllLockLoss n) s = .next s)) ∧
  (∀ (n : Nat) (s : State), n < 3 → s.clk.dps.length = 3 →
    let freq := fun (t : State) => signed 40 (t.get (R.CLK_DP_FREQ_LO_VALUE_L n) + 2 ^ 32 * t.get (R.CLK_DP_FREQ_HI_VALUE_H n))
    (∀ mean phase, s.dpOn n = false → exec (.historyRecord n mean phase) s = .next s) ∧
    (∀ mean phase, s.dpOn n = true → Answers (.historyRecord n mean phase) s (fun t =>
      (s.dpStateOf n = 2 → (s.dp n).target = none → (t.dp n).hist = (some (clampDco mean) :: (s.dp n).hist).take 2048 ∧ freq t = clampDco mean) ∧
      (s.dpStateOf n ≠ 2 ∨ (s.dp n).target ≠ none → (t.dp n).hist = (none :: (s.dp n).hist).take 2048) ∧
      (t.get (R.CLK_DP_STAT_HIST_VALID n) = 1 ↔ s.get (R.CLK_DP_HIST_CFG_HIST_LEN n) ≤ 4 * (t.histWindow n).length) ∧
      (t.dp n).sel = (s.dp n).sel ∧ (t.dp n).target = (s.dp n).target ∧ t.dpStateOf n = s.dpStateOf n ∧
      { t with regs := s.regs, clk := s.clk } = s)) ∧
    (∀ mode, 3 ≤ mode → exec (.dpllModeWrite n mode) s = .next (s.answer St.ok [])) ∧
    (s.dpOn n = true → s.dpStateOf n ≠ 4 → Answers (.dpllModeWrite n 2) s (fun t => t.resp = ⟨St.ok, []⟩ ∧ t.dpMode n = 2 ∧ t.dpStateOf n = 4 ∧
      freq t = clampDco (s.dp n).dco ∧ { t with regs := s.regs, resp := s.resp } = s)) ∧
    (∀ mode < 2, s.dpOn n = true → s.dpStateOf n = 4 → (s.set (R.CLK_DP_CTRL_MODE n) mode).bestRef n = none →
      Answers (.dpllModeWrite n mode) s (fun t => t.dpMode n = mode ∧ (t.dp n).sel = none ∧ (t.dp n).target = none ∧
        (s.histValid n = true → t.dpStateOf n = 3 ∧ t.get (stickyBit (Ev.CLK_DPn_EV (5 * n + 2))) = 1) ∧
        (s.histValid n = false → t.dpStateOf n = 0 ∧ freq t = 0))) ∧
    (∀ mode < 2, ∀ b, s.dpOn n = true → s.dpStateOf n = 4 → (s.dp n).sel = none → (s.set (R.CLK_DP_CTRL_MODE n) mode).bestRef n = some b →
      Answers (.dpllModeWrite n mode) s (fun t => t.dpMode n = mode ∧ t.dpStateOf n = 1 ∧ (t.dp n).sel = some b ∧ (t.dp n).target = none)) ∧
    (∀ hi < 256, n ≠ 2 ∨ s.part = .lyk4802 → Answers (.dcoWrite n hi) s (fun t => t.resp = ⟨St.ok, []⟩ ∧ t.get (R.CLK_DP_DCO_HI_DCO_H n) = hi ∧
      t.dp n = { s.dp n with dco := signed 40 (s.get (R.CLK_DP_DCO_LO_DCO_L n) + 2 ^ 32 * hi) } ∧ (∀ m, m ≠ n → t.dp m = s.dp m) ∧
      (s.dpStateOf n = 4 → freq t = clampDco (t.dp n).dco) ∧
      (s.dpStateOf n ≠ 4 → RegsBut [R.CLK_DP_DCO_HI_DCO_H n] s t) ∧ { t with regs := s.regs, clk := s.clk, resp := s.resp } = s)))

/-- R433, R434: ARM of a slot is refused to others, outside the tags of the slot, while it is not IDLE and while the link is not UP or
loops; the wait of a slot ends with the response of its tag, or with TIMEOUT; a late response is counted, and one in a loopback
delivered with LOOPED. R429 to R432, R434, R436, R439: a frame with a code violation or that fails its checks is counted; one that
loops, an ALERT and a PEER frame are queued, and one in a far-end loopback also leaves again; a HELLO is answered, any other request
answered DECERR, a frame of a reserved type dropped; TIME and HELLO leave. -/
def Obligations.StileFrames : Prop :=
  (∀ (n j : Nat) (s : State), n < 8 → j < 2 → let tag := s.slotByteAt n j 1
    let mine := fun m => (j = 1 ∧ 128 ≤ tag) ∨ (j = 0 ∧ 2 ≤ m ∧ m ≤ 5 ∧ tag < 128)
    (∀ m, ¬ mine m → exec (.stileArm m n j) s = .next (s.answer St.denied [])) ∧
    (∀ m, mine m → s.slotState n j ≠ 0 → exec (.stileArm m n j) s = .next (s.answer St.busy [])) ∧
    (∀ m, mine m → s.slotState n j = 0 → s.get (R.STL_LANE_STAT_LINK n) ≠ 2 ∨ s.get (R.STL_LANE_CTRL_LOOP n) ≠ 0 ∨ s.isOn (R.STL_LANE_CTRL_TX_EN n) = false →
      exec (.stileArm m n j) s = .next (s.answer St.conflict [])) ∧
    (∀ m, mine m → s.slotState n j = 0 → s.get (R.STL_LANE_STAT_LINK n) = 2 → s.get (R.STL_LANE_CTRL_LOOP n) = 0 → s.isOn (R.STL_LANE_CTRL_TX_EN n) = true →
      exec (.stileArm m n j) s = .next ((s.set (R.STL_TXS_STATE n j) 1).answer St.ok [])) ∧
    (s.slotState n 0 ≠ 1 → s.slotState n 1 ≠ 1 →
      (s.slotState n j ≠ 3 → exec (.stileRspTimeout n j) s = .next s) ∧
      (s.slotState n j = 3 → Answers (.stileRspTimeout n j) s (fun t => t.slotState n j = 0 ∧ t.get (R.STL_TXS_STATUS n j) = St.timeout ∧
        t.get (R.STL_DROP_TIMEOUT n) = min 65535 (s.get (R.STL_DROP_TIMEOUT n) + 1) ∧ t.get (stickyBit Ev.STL_RSP_TO) = 1 ∧
        t.slotState n (1 - j) = s.slotState n (1 - j) ∧ { t with regs := s.regs, pmc := s.pmc, hdg := s.hdg } = s)) ∧
      ∀ (time : Nat) (b : List Nat),
        (s.stlSync n = false → exec (.stileResponse n time b) s = .next s) ∧
        (s.stlSync n = true → getAt 0 s.stl.loops n ≠ 0 → s.stl.rxq.length < 16 → Answers (.stileResponse n time b) s (fun t =>
          t.stl.rxq = s.stl.rxq ++ [⟨n, true, time, b⟩] ∧ { t with stl := s.stl } = s)) ∧
        (s.stlSync n = true → getAt 0 s.stl.loops n = 0 → s.slotFor n (b.getD 1 0) = some j → Answers (.stileResponse n time b) s (fun t => t.slotState n j = 0 ∧
          t.get (R.STL_TXS_STATUS n j) = b.getD 2 0 % 256 ∧ t.slotState n (1 - j) = s.slotState n (1 - j) ∧
          (j = 0 → getAt [] t.stl.taken n = b ∧ t.stl.rxq = s.stl.rxq) ∧ 
          (j = 1 → s.stl.rxq.length < 16 → t.stl.rxq = s.stl.rxq ++ [⟨n, false, time, b⟩]))) ∧
        (s.stlSync n = true → getAt 0 s.stl.loops n = 0 → s.slotFor n (b.getD 1 0) = none → b.getD 0 0 ≠ 0x81 → exec (.stileResponse n time b) s =
          .next (s.addSat (R.STL_DROP_LATE n) 1)) ∧
        (s.stlSync n = true → getAt 0 s.stl.loops n = 0 → s.slotFor n (b.getD 1 0) = none → b.getD 0 0 = 0x81 → s.get (R.STL_LANE_STAT_LINK n) = 1 → b.getD 2 0 = St.ok →
          Answers (.stileResponse n time b) s (fun t => t.get (R.STL_LANE_STAT_LINK n) = 2 ∧ t.get (stickyBit Ev.STL_LINK_UP) = 1 ∧
            t.get (R.STL_LANE_STAT_PEER_ROLE n) = b.getD 4 0 % 8 ∧ t.get (R.STL_LANE_STAT_ID_L n) = beAt b 12 2 % 65536 ∧
            { t with regs := s.regs, pmc := s.pmc, hdg := s.hdg } = s)))) ∧
  (∀ (n : Nat) (s : State), n < 8 → s.slotState n 0 ≠ 1 → s.slotState n 1 ≠ 1 →
    (∀ time bad b, s.stlSync n = false → exec (.stileFrameReceive n time bad b) s = .next s) ∧
    (s.stlSync n = true → ∀ (time : Nat) (b : List Nat),
      (exec (.stileFrameReceive n time true b) s = .next ((s.addSat (R.STL_ERR_CODE n) 1).raise Ev.STL_CODE_ERR)) ∧
      (stlFrameOk b = false → exec (.stileFrameReceive n time false b) s = .next ((s.addSat (R.STL_ERR_CRC n) 1).raise Ev.STL_CRC_ERR)) ∧
      (stlFrameOk b = true → s.stl.rxq.length < 16 → getAt 0 s.stl.loops n ≠ 0 → Answers (.stileFrameReceive n time false b) s (fun t =>
        t.stl.rxq = s.stl.rxq ++ [⟨n, true, time, b⟩] ∧ (getAt 0 s.stl.loops n = 3 → getAt [] t.stl.sent n = stlFrame b) ∧
        (getAt 0 s.stl.loops n ≠ 3 → t.stl.sent = s.stl.sent) ∧ { t with stl := s.stl } = s)) ∧
      (stlFrameOk b = true → s.stl.rxq.length < 16 → getAt 0 s.stl.loops n = 0 → b.getD 0 0 = 0x38 → exec (.stileFrameReceive n time false b) s =
        .next (s.modStl (fun l => { l with rxq := l.rxq ++ [⟨n, false, time, b⟩] }))) ∧
      (stlFrameOk b = true → s.stl.rxq.length < 16 → getAt 0 s.stl.loops n = 0 → b.getD 0 0 = 0x40 → exec (.stileFrameReceive n time false b) s =
        .next ((s.modStl (fun l => { l with rxq := l.rxq ++ [⟨n, false, time, b⟩] })).raise Ev.STL_ALERT)) ∧
      (stlFrameOk b = true → s.stl.rxq.length = 16 → getAt 0 s.stl.loops n = 0 → b.getD 0 0 = 0x38 → exec (.stileFrameReceive n time false b) s =
        .next (s.raise Ev.STL_RXQ_FULL)) ∧
      (stlFrameOk b = true → getAt 0 s.stl.loops n = 0 → b.getD 0 0 ∈ [0x10, 0x11, 0x12, 0x13, 0x14, 0x20, 0x21] →
        exec (.stileFrameReceive n time false b) s = .next (stlSend n [b.getD 0 0 + 128, b.getD 1 0, St.decerr, 0] s)) ∧
      (stlFrameOk b = true → getAt 0 s.stl.loops n = 0 → b.getD 0 0 ∉ [0x01, 0x10, 0x11, 0x12, 0x13, 0x14, 0x20, 0x21, 0x38, 0x40] →
        b.getD 0 0 < 128 → exec (.stileFrameReceive n time false b) s = .next s) ∧
      (b.getD 3 0 % 256 ≤ 56 → getAt 0 s.stl.loops n = 0 → Answers (.stileHelloReceive n time b) s (fun t =>
        getAt [] t.stl.sent n = stlFrame ([0x81, b.getD 1 0, St.ok, 10] ++ s.stlHello n) ∧ { t with stl := s.stl } = s))) ∧
    (s.get (R.STL_LANE_STAT_TX_STATE n) = 3 → getAt 0 s.stl.loops n = 0 → s.get (R.STL_LANE_STAT_LINK n) ≠ 2 → Answers (.stileHelloSend n) s (fun t =>
      t.get (R.STL_LANE_STAT_LINK n) = 1 ∧ (∃ tag, getAt [] t.stl.sent n = stlFrame ([0x01, tag, 0, 10] ++ s.stlHello n)) ∧
      { t with regs := s.regs, stl := s.stl, freeCtr := s.freeCtr } = s)) ∧
    (s.get (R.STL_LANE_STAT_TX_STATE n) ≠ 3 ∨ getAt 0 s.stl.loops n ≠ 0 ∨ s.get (R.STL_LANE_STAT_LINK n) = 2 → exec (.stileHelloSend n) s = .next s) ∧
    (∀ now, s.get R.STL_CFG_TIME_PERIOD = 0 → exec (.timeSend now) s = .next s) ∧
    (∀ now, s.get R.STL_CFG_TIME_PERIOD ≠ 0 → (∀ k < 8, ∀ j < 2, s.slotState k j ≠ 1) → Answers (.timeSend now) s (fun t =>
      (s.get (R.STL_LANE_STAT_LINK n) = 2 → ∃ tag, getAt [] t.stl.sent n = stlFrame ([0x30, tag, 0, 8] ++ bytesBe 8 now)) ∧
      (s.get (R.STL_LANE_STAT_LINK n) ≠ 2 → getAt [] t.stl.sent n = getAt [] s.stl.sent n) ∧ { t with stl := s.stl, freeCtr := s.freeCtr } = s)) ∧
    exec .stileRxqPop s = .next ((s.modStl (fun l => { l with rxq := l.rxq.tail })).answer St.ok []))

/-- R435, R436, R440: SYNC makes an IDLE transmitter ACTIVE, its loss brings the link down with the slots ABORTED and a scan ended;
what a sleep notice and a wake signal leave. R436, R438 to R441, R451: the enables of a lane with their power and its refusals, its
self-test, its sleep, its loopback and its eye scan. -/
def Obligations.StileLanes : Prop :=
  (∀ (n : Nat) (s : State), n < 8 →
    (s.get (R.STL_LANE_STAT_RX_STATE n) ≠ 1 → exec (.stileSyncAcquire n) s = .next s) ∧
    (s.get (R.STL_LANE_STAT_RX_STATE n) = 1 → Answers (.stileSyncAcquire n) s (fun t => t.get (R.STL_LANE_STAT_RX_STATE n) = 2 ∧
      t.get (R.STL_LANE_STAT_FAR_SLEEP n) = 0 ∧ t.get (R.STL_LANE_STAT_SD n) = 1 ∧
      (s.get (R.STL_LANE_STAT_TX_STATE n) = 2 → t.get (R.STL_LANE_STAT_TX_STATE n) = 3 ∧
        (getAt 0 s.stl.loops n = 0 → s.get (R.STL_LANE_STAT_LINK n) ≠ 2 → t.get (R.STL_LANE_STAT_LINK n) = 1)) ∧
      (s.get (R.STL_LANE_STAT_TX_STATE n) ≠ 2 → t.get (R.STL_LANE_STAT_TX_STATE n) = s.get (R.STL_LANE_STAT_TX_STATE n) ∧
        t.get (R.STL_LANE_STAT_LINK n) = s.get (R.STL_LANE_STAT_LINK n)) ∧ { t with regs := s.regs, stl := s.stl, freeCtr := s.freeCtr } = s)) ∧
    (∀ sd, s.stlSync n = false → exec (.stileSyncLoss n sd) s = .next s) ∧
    (∀ sd, s.stlSync n = true → Answers (.stileSyncLoss n sd) s (fun t => t.get (R.STL_LANE_STAT_RX_STATE n) = 1 ∧ t.get (R.STL_LANE_STAT_LINK n) = 0 ∧
      t.get (R.STL_LANE_STAT_SD n) = sd.toNat ∧ t.get (R.STL_LANE_STAT_TX_STATE n) =
        (if s.get (R.STL_LANE_STAT_TX_STATE n) = 3 then 2 else s.get (R.STL_LANE_STAT_TX_STATE n)) ∧
      (∀ j < 2, t.slotState n j = 0 ∧ (s.slotState n j ≠ 0 → t.get (R.STL_TXS_STATUS n j) = St.aborted)) ∧
      (s.isOn (R.STL_EYE_CTRL_BUSY n) = true → t.get (R.STL_EYE_CTRL_BUSY n) = 0 ∧ t.get (R.STL_EYE_ERR_ERR n) = 2 ^ 32 - 1) ∧
      (s.isOn (R.STL_LANE_STAT_FAR_SLEEP n) = false → t.get (stickyBit Ev.STL_LINK_DOWN) = 1) ∧
      (s.isOn (R.STL_LANE_STAT_FAR_SLEEP n) = true → t.pmc = s.pmc ∧ t.get (stickyBit Ev.STL_LINK_DOWN) = s.get (stickyBit Ev.STL_LINK_DOWN)) ∧
      { t with regs := s.regs, pmc := s.pmc, hdg := s.hdg } = s)) ∧
    (s.stlSync n = true → exec (.stileSleepNotice n) s = .next (s.set (R.STL_LANE_STAT_FAR_SLEEP n) 1)) ∧
    (s.stlSync n = false → exec (.stileSleepNotice n) s = .next s) ∧
    (s.get (R.STL_LANE_STAT_RX_STATE n) = 0 → s.isOn (R.STL_LANE_CTRL_WAKE_SD n) = true → exec (.stileWake n) s =
      .next ((s.set (R.STL_LANE_STAT_SD n) 1).raise Ev.STL_WAKE)) ∧
    (s.get (R.STL_LANE_STAT_RX_STATE n) ≠ 0 ∨ s.isOn (R.STL_LANE_CTRL_WAKE_SD n) = false → exec (.stileWake n) s =
      .next (s.set (R.STL_LANE_STAT_SD n) 1))) ∧
  (∀ (n : Nat) (s : State), n < 8 →
    (∀ x ∈ [(R.STL_LANE_CTRL_TX_EN n, R.STL_LANE_STAT_TX_STATE n, 224 + 2 * n, Instr.stileTxEnable n, Instr.stileTxSleep n),
        (R.STL_LANE_CTRL_RX_EN n, R.STL_LANE_STAT_RX_STATE n, 225 + 2 * n, .stileRxEnable n, .stileRxSleep n)],
      (s.isOn x.1 = true → exec x.2.2.2.1 s = .next (s.answer St.ok [])) ∧
      (s.isOn x.1 = false → s.get R.THM_SD_STAT_STATE = 1 → exec x.2.2.2.1 s = .next (s.answer St.conflict [])) ∧
      (s.isOn x.1 = false → s.get R.THM_SD_STAT_STATE ≠ 1 → s.mayPower x.2.2.1 = false → exec x.2.2.2.1 s =
        .next ((s.raise Ev.PWR_DENIED).answer St.conflict [])) ∧
      (s.isOn x.1 = false → s.get R.THM_SD_STAT_STATE ≠ 1 → s.mayPower x.2.2.1 = true → Answers x.2.2.2.1 s (fun t => t.resp = ⟨St.ok, []⟩ ∧
        t.get x.1 = 1 ∧ t.get x.2.1 = 1 ∧ (s.domainOn x.2.2.1 = true ∨ x.2.2.1 ∈ t.pwr.going ∨ x.2.2.1 ∈ t.pwr.waiting) ∧
        RegsBut [x.1, x.2.1] s t ∧ { t with regs := s.regs, pwr := s.pwr, resp := s.resp } = s)) ∧
      (s.isOn x.1 = false → exec x.2.2.2.2 s = .next (s.answer St.ok [])) ∧
      (s.isOn x.1 = true → Answers x.2.2.2.2 s (fun t => t.resp = ⟨St.ok, []⟩ ∧ t.get x.1 = 0 ∧ t.get x.2.1 = 0 ∧ t.domainOn x.2.2.1 = false ∧
        x.2.2.1 ∉ t.pwr.going ∧ x.2.2.1 ∉ t.pwr.waiting ∧ { t with regs := s.regs, pmc := s.pmc, hdg := s.hdg, pwr := s.pwr, resp := s.resp } = s))) ∧
    (s.isOn (R.STL_LANE_CTRL_TX_EN n) = true → Answers (.stileTxSleep n) s (fun t => t.get (R.STL_LANE_STAT_LINK n) = 0 ∧
      ∀ j < 2, s.slotState n j = 1 → t.slotState n j = 0 ∧ t.get (R.STL_TXS_STATUS n j) = St.aborted)) ∧
    (∀ bad, s.get (R.STL_LANE_STAT_TX_STATE n) ≠ 1 → exec (.stileSelftestDone n bad) s = .next s) ∧
    (s.get (R.STL_LANE_STAT_TX_STATE n) = 1 → exec (.stileSelftestDone n true) s =
      .next ((s.set (R.STL_LANE_STAT_TX_STATE n) 4).raise Ev.STL_SELFTEST_FAIL)) ∧
    (s.get (R.STL_LANE_STAT_TX_STATE n) = 1 → Answers (.stileSelftestDone n false) s (fun t => t.get (R.STL_LANE_STAT_TX_STATE n) =
      (if s.stlSync n then 3 else 2) ∧ { t with regs := s.regs, stl := s.stl, freeCtr := s.freeCtr } = s)) ∧
    (s.get (R.STL_LANE_CTRL_LOOP n) ≠ 0 → s.slotState n 0 ≠ 1 → s.slotState n 1 ≠ 1 → Answers (.loopChange n) s (fun t =>
      t.get (R.STL_LANE_STAT_LINK n) = 0 ∧ getAt 0 t.stl.loops n = s.get (R.STL_LANE_CTRL_LOOP n) ∧ RegsBut [R.STL_LANE_STAT_LINK n] s t ∧
      { t with regs := s.regs, stl := s.stl } = s)) ∧
    (s.get (R.STL_LANE_CTRL_LOOP n) = 0 → s.slotState n 0 ≠ 1 → s.slotState n 1 ≠ 1 → Answers (.loopChange n) s (fun t =>
      getAt 0 t.stl.loops n = 0 ∧ (s.get (R.STL_LANE_STAT_TX_STATE n) = 3 → s.get (R.STL_LANE_STAT_LINK n) ≠ 2 → t.get (R.STL_LANE_STAT_LINK n) = 1) ∧
      RegsBut [R.STL_LANE_STAT_LINK n] s t)) ∧
    (s.stlSync n = true → exec (.eyeScanStart n) s = .next ((s.set (R.STL_EYE_CTRL_BUSY n) 1).answer St.ok [])) ∧
    (s.stlSync n = false → Answers (.eyeScanStart n) s (fun t => t.resp = ⟨St.ok, []⟩ ∧ t.get (R.STL_EYE_CTRL_BUSY n) = 0 ∧
      t.get (R.STL_EYE_ERR_ERR n) = 2 ^ 32 - 1)) ∧
    (∀ err, s.isOn (R.STL_EYE_CTRL_BUSY n) = true → Answers (.eyeScanDone n err) s (fun t => t.get (R.STL_EYE_CTRL_BUSY n) = 0 ∧
      t.get (R.STL_EYE_ERR_ERR n) = min err (2 ^ 32 - 1) ∧ RegsBut [R.STL_EYE_CTRL_BUSY n, R.STL_EYE_ERR_ERR n] s t ∧ { t with regs := s.regs } = s)) ∧
    (∀ err, s.isOn (R.STL_EYE_CTRL_BUSY n) = false → exec (.eyeScanDone n err) s = .next s))

/-- R347, R384, R465, R501: POR, RESET_N and SRST leave every register at its reset value but the standby domain, the counts of OTP and
boots and what KEEP_LINK and the rails keep, and every block idle; the flash with its records stays but for a store that is cut; the
hayrick, table RAM and calendar memory read zero; a bad OTP leaves Ling in its error state. R451, R453, R454, R458, R501: RESET_N and
SRST in SHUTDOWN leave the device there with every DAC muted; without a boot image Ling waits in recovery; the loss of VDD_STBY clears
the shutdown record alone; RESUME is judged in order and, accepted, acts as SRST. -/
def Obligations.ResetsAndResume : Prop :=
  (∀ (b : Boot) (s : State), b.otpBad = true → b.test = false →
    ∀ x ∈ [(Instr.por b, true), (.resetN b, false), (.srst b, false)], (x.2 = false → s.inShutdown = false) → Answers x.1 s (fun t =>
      let kept := fun a => a = 0x20024 ∨ (0x20060 ≤ a ∧ a < 0x20080) ∨ a = 0x8000C ∨ a = 0x80008
      t.lingState = 4 ∧ t.inShutdown = false ∧
      (∀ g : Fld, ¬ kept (g.key / 32) → g.key / 32 ≠ 0x1006C → g.key / 32 ≠ 0x5000C → t.get g = g.rst) ∧
      (∀ g : Fld, 0x20060 ≤ g.key / 32 → g.key / 32 < 0x20080 → t.get g = s.get g) ∧ t.get R.THM_SD_STAT_PEND = s.get R.THM_SD_STAT_PEND ∧
      (∀ g : Fld, g.key / 32 = 0x1006C → t.get g = if x.2 then g.rst else s.get g) ∧
      (∀ g : Fld, g.key / 32 = 0x5000C → t.get g = if x.1 = .srst b ∧ s.isOn R.HIF_CTRL_KEEP_LINK = true then s.get g else g.rst) ∧
      t.port0 = State.reset.port0 ∧ t.port1 = State.reset.port1 ∧ t.swc = State.reset.swc ∧ t.fec = State.reset.fec ∧ t.cli = State.reset.cli ∧
      t.lcx = State.reset.lcx ∧ t.mce = State.reset.mce ∧ t.clk = State.reset.clk ∧ t.stl = State.reset.stl ∧ t.pmc = State.reset.pmc ∧
      t.fmn = State.reset.fmn ∧ t.thm = State.reset.thm ∧ t.hdg = State.reset.hdg ∧ t.units = State.reset.units ∧ t.pwr = State.reset.pwr ∧
      t.latches = [] ∧ t.jnl = State.reset.jnl ∧
      ((s.jnl.op ≠ 1 ∨ b.jnl = 0) → (s.sec.att = [] ∨ b.lms = 0) → (s.sec.stores = [] ∨ b.appr = 0) → t.flc.blocks = s.flc.blocks ∧
        t.sec.kept = if s.get R.FLC_STATE_STATE = 3 then (s.newestSlot 0x22).map (·.2.payload) else s.sec.kept) ∧
      t.sec.ktk = (if x.2 then [] else s.sec.ktk) ∧ (x.2 = true → t.sram = [] ∧ t.sramChk = []) ∧
      (x.2 = false → ∀ k, getAt 0 t.sram k = if k / 2 ^ 22 ∈ [0, 1, 11] then 0 else getAt 0 s.sram k) ∧ t.part = s.part ∧ t.pending = s.pending)) ∧
  ((∀ (b : Boot) (s : State), s.inShutdown = true → ∀ c ∈ [Instr.resetN b, .srst b], Answers c s (fun t => t.inShutdown = true ∧ t.lingState = 0 ∧
    (∀ p < 2, s.hasPort p = true → t.get (R.CNV_DAC_CTRL_HW_THERM p) = 1 ∧ t.get (R.CNV_DAC_CTRL_HW_MUTE p) = 1) ∧
    (s.jnl.op ≠ 1 → s.sec.att = [] → s.sec.stores = [] → t.flc.blocks = s.flc.blocks) ∧
    t.pwr = State.reset.pwr ∧ (∀ d < 248, t.domainOn d = false))) ∧
  (∀ (b : Boot) (s : State), b.otpBad = false → b.test = false → b.boots = [] → s.get R.FLC_STATE_STATE ≠ 3 → Answers (.por b) s (fun t => t.lingState = 2 ∧ t.inShutdown = false ∧
    t.get (stickyBit Ev.SEC_RECOVERY) = 1)) ∧
  (∀ (b : Boot) (s : State), b.test = true → Answers (.por b) s (fun t => t.lingState = 0 ∧ ∀ d < 248, t.domainOn d = false)) ∧
  (∀ s : State, Answers .vddStbyLoss s (fun t => (∀ g : Fld, 0x20060 ≤ g.key / 32 → g.key / 32 < 0x20080 → t.get g = g.rst) ∧
    t.get R.THM_SD_STAT_PEND = 0 ∧ t.get R.THM_SD_STAT_COUNT = 0 ∧ t.inShutdown = false ∧ t.hif.ptr = 0 ∧ RegsOutside 0x20024 0x20080 s t ∧
    (∀ g : Fld, 0x20028 ≤ g.key / 32 → g.key / 32 < 0x20060 → t.get g = s.get g) ∧ { t with regs := s.regs, hif := s.hif } = s)) ∧
  (∀ (force : Bool) (b : Boot) (s : State), let no := fun v => exec (.resume force b) s = .next ((s.set R.THM_SD_STAT_RESUME_ST v).answer v [])
    (s.inShutdown = false → no St.conflict) ∧
    (s.inShutdown = true → s.isOn R.THM_SD_STAT_PEND = true → no St.tempInhibit) ∧
    (s.inShutdown = true → s.isOn R.THM_SD_STAT_PEND = false → 900 ≤ s.tj ∨ force = true → no St.busy) ∧
    (s.inShutdown = true → s.isOn R.THM_SD_STAT_PEND = false → (∃ r < 10, (r < 2 ∨ 6 ≤ r ∨ bitAt s.img.struct.ports (r % 2) = 1) ∧
      bitAt (s.get R.PWR_RAIL_IN_RANGE) r = 0) → no St.busy) ∧
    (s.inShutdown = true → s.isOn R.THM_SD_STAT_PEND = false → s.tj < 900 → force = false → (∀ r < 10, bitAt (s.get R.PWR_RAIL_IN_RANGE) r = 1) →
      b.otpBad = true → Answers (.resume force b) s (fun t => t.resp = ⟨St.ok, []⟩ ∧ t.inShutdown = false ∧ t.get R.THM_SD_STAT_RESUME_ST = St.ok ∧
        t.lingState = 4 ∧ t.swc = State.reset.swc ∧ t.pmc = State.reset.pmc ∧
        (s.jnl.op ≠ 1 → s.sec.att = [] → s.sec.stores = [] → t.flc.blocks = s.flc.blocks)))))

/-- R443 to R449, R451: a sample shows the readings, updates the marks, then judges Tj over the sensors that count, the throttle level
with its hysteresis, and the trip at 115.0 degrees. -/
def Obligations.ThermalSample : Prop :=
  ∀ (temps : List Int) (opens now : Nat) (s : State), Settles (.thmSample temps opens now) s (fun t => let u := takeReadings temps opens s
    (∀ x < 112, s.sensorOn x = true → -2048 ≤ temps.getD x 0 → temps.getD x 0 ≤ 2047 → t.temp x = temps.getD x 0) ∧
    (∀ x < 116, s.sensorOn x = false → t.temp x = 0) ∧
    (∀ x < 112, s.sensorOn x = true → let marked := s.isOn (R.THM_SENSOR_SUSPECT x)
      (u.deviates x = none ∨ u.deviates x = some marked → t.isOn (R.THM_SENSOR_SUSPECT x) = marked ∧ getAt 0 t.thm.runs x = 0) ∧
      (u.deviates x = some !marked → getAt 0 s.thm.runs x < 15 → t.isOn (R.THM_SENSOR_SUSPECT x) = marked ∧ getAt 0 t.thm.runs x = getAt 0 s.thm.runs x + 1) ∧
      (u.deviates x = some !marked → 15 ≤ getAt 0 s.thm.runs x → t.isOn (R.THM_SENSOR_SUSPECT x) = !marked ∧ getAt 0 t.thm.runs x = 0 ∧
        t.get (stickyBit (if marked then Ev.THM_SENSOR_OK else Ev.THM_SUSPECT)) = 1)) ∧
    t.get R.THM_SUSPECT_CNT_COUNT = ((List.range 112).filter (fun x => t.isOn (R.THM_SENSOR_SUSPECT x))).length ∧
    (∀ x < 96, t.isOn (R.THM_SENSOR_IGNORED x) = true ↔ 24 < ((List.range 96).filter (fun y => t.isOn (R.THM_SENSOR_SUSPECT y))).length) ∧
    (∀ x < 112, s.sensorOn x = true → t.suspect x = false → t.temp x ≤ t.tj) ∧
    ((∃ x < 112, s.sensorOn x = true ∧ t.suspect x = false) → t.get R.THM_STATE_SENSOR < 112 ∧ s.sensorOn (t.get R.THM_STATE_SENSOR) = true ∧
      t.suspect (t.get R.THM_STATE_SENSOR) = false ∧ t.temp (t.get R.THM_STATE_SENSOR) = t.tj) ∧
    ((∀ x < 112, s.sensorOn x = true → t.suspect x = true) → t.tj = s.tj) ∧
    (s.inShutdown = true → t.get R.THM_LEVEL_LEVEL = s.get R.THM_LEVEL_LEVEL) ∧
    (s.inShutdown = false → s.get R.THM_LEVEL_LEVEL < 256 → t.get R.THM_LEVEL_LEVEL =
      max (s.throttleLevel t.tj) (min (s.get R.THM_LEVEL_LEVEL) (s.throttleLevel (t.tj + 5 * s.get R.THM_CFG_HYST)))) ∧
    (∀ T : Int, let a : Int := 10 * s.get R.THM_CFG_START
      let b : Int := 10 * s.get R.THM_CFG_FULL
      let l := s.throttleLevel T
      (T ≤ a → l = 0) ∧ (a < T → b ≤ T → l = 255) ∧
      (a < T → T < b → 2 * (b - a) * l ≤ 510 * (T - a) + (b - a) ∧ 510 * (T - a) + (b - a) < 2 * (b - a) * (l + 1))) ∧ State.reset.get R.THM_CFG_HYST = 4 ∧
    (s.inShutdown = false → s.get R.THM_LEVEL_LEVEL = 0 → 0 < s.throttleLevel t.tj → t.get (stickyBit Ev.THM_THROTTLE) = 1) ∧
    (s.isOn R.THM_STATE_WARN = false → 10 * (s.get R.THM_CFG_WARN : Int) ≤ t.tj → t.isOn R.THM_STATE_WARN = true ∧ t.get (stickyBit Ev.THM_WARN) = 1) ∧
    (t.tj < 10 * (s.get R.THM_CFG_WARN : Int) - 10 → t.isOn R.THM_STATE_WARN = false) ∧
    (t.inShutdown = true ↔ s.inShutdown = true ∨ 1150 ≤ t.tj))

/-- R451, R452, R459: each cause of a trip mutes every DAC, retains the record with its cause, turns every domain off and stops every
sequencer; in SHUTDOWN, without the key, and with every rail in its window nothing trips. -/
def Obligations.ShutdownTrips : Prop :=
  ∀ (now : Nat) (s : State),
    (∀ key, key ≠ 0x5D ∨ s.inShutdown = true → exec (.shutdownForce key now) s = .next ((settle s).answer St.ok [])) ∧
    (∀ rails, (∀ r < 10, (r < 2 ∨ 6 ≤ r ∨ bitAt s.img.struct.ports (r % 2) = 1) → bitAt rails r = 1) → exec (.railFault rails now) s = .next (settle (s.set R.PWR_RAIL_IN_RANGE rails))) ∧
    (s.inShutdown = false → s.get R.THM_STATE_SENSOR < 256 → s.get R.THM_LEVEL_LEVEL < 256 → s.get R.THM_SUSPECT_CNT_COUNT < 256 →
      let tripped := fun (cause : Nat) (t : State) => t.inShutdown = true ∧ t.get R.THM_SD_STAT_PEND = 1 ∧
        t.get R.THM_SD_STAT_COUNT = min 65535 (s.get R.THM_SD_STAT_COUNT + 1) ∧
        t.sdBytes = bytesLe 8 now ++ bytesLe 2 (toField 16 s.tj) ++ [s.get R.THM_STATE_SENSOR, cause, s.get R.THM_LEVEL_LEVEL, s.get R.THM_SUSPECT_CNT_COUNT] ++
          bytesLe 2 (toField 16 (s.temp 115)) ++ bytesLe 4 (t.get R.THM_SD_STAT_COUNT) ++ zeros 12 ∧
        (∀ p < 2, s.hasPort p = true → t.isOn (R.CNV_DAC_CTRL_HW_THERM p) = true) ∧ (∀ d < 256, t.domainOn d = false) ∧
        (∀ n < 16, (t.seq n).run = 0) ∧ (∀ g < 16, t.get (grpField false g) = 2) ∧ (∀ n < 64, t.get (R.CLI_LANE_STAT_TX_STATE n) = 0) ∧ t.flc = s.flc
      SettlesWith (.shutdownForce 0x5D now) s St.ok (tripped 2) ∧
      (∀ rails r, r < 10 → (r < 2 ∨ 6 ≤ r ∨ bitAt s.img.struct.ports (r % 2) = 1) → bitAt rails r = 0 → Settles (.railFault rails now) s (fun t => tripped 3 t ∧
        t.get R.PWR_RAIL_IN_RANGE = rails % 2 ^ 10 ∧ t.get (stickyBit Ev.PWR_RAIL_FAULT) = 1)))

/-- R453, R456, R460: the retained record is programmed where the log is mounted and TD3 is in the window; a domain comes on and the
next waiting one begins; VDD_CORE is stepped by at most 5 mV towards its target until four transfers fail. -/
def Obligations.RecordPowerSupply : Prop :=
  (∀ (fails time : Nat) (s : State), ∀ c ∈ [Instr.sdRecordCommit fails time, .sdRecordRetry fails time],
    (s.isOn R.THM_SD_STAT_PEND = false ∨ s.partition 0x30 = none → exec c s = .next s) ∧
    (∀ x, s.isOn R.THM_SD_STAT_PEND = true → s.partition 0x30 = some x → s.writeWindow = false → exec c s = .next (s.raise Ev.FLC_TEMP_INHIBIT)) ∧
    (∀ x b, s.isOn R.THM_SD_STAT_PEND = true → s.partition 0x30 = some x → s.writeWindow = true → fails = 0 → s.flc.buf = [] →
      s.flc.logAt % s.flcPages ≠ 0 → s.flc.logAt / s.flcPages < x.logical → s.mappedTo 0x30 (s.flc.logAt / s.flcPages) = some b →
      Answers c s (fun t => t.get R.THM_SD_STAT_PEND = 0 ∧ t.get (stickyBit Ev.THM_SD_COMMIT) = 1 ∧ t.flc.buf = [] ∧
        t.flc.logAt = (s.flc.logAt + 1) % (s.flcPages * x.logical) ∧ t.sdBytes = s.sdBytes ∧
        { t with regs := s.regs, pmc := s.pmc, hdg := s.hdg, flc := s.flc } = s))) ∧
  (∀ (d : Nat) (s : State), d < 248 → (d ∉ s.pwr.going → exec (.domainPowerUpDone d) s = .next (settle s)) ∧
    (d ∈ s.pwr.going → Settles (.domainPowerUpDone d) s (fun t => t.domainOn d = true ∧
      (∀ e < 248, e ≠ d → t.domainOn e = s.domainOn e) ∧ (s.pwr.waiting = [] → t.pwr = ⟨s.pwr.going.filter (· ≠ d), []⟩) ∧
      (∀ w l, s.pwr.waiting = w :: l → s.pwr.going.length = 4 → s.pwr.going.Nodup → d ∉ w :: l → t.pwr = ⟨s.pwr.going.filter (· ≠ d) ++ [w], l⟩)))) ∧
  (∀ (fails : Nat) (s : State), let at? := if s.get R.PWR_AVS_ACTUAL = 0 then 750 else s.get R.PWR_AVS_ACTUAL
    (s.isOn R.PWR_AVS_CTRL_EN = false ∨ s.thm.avsOff = true → exec (.avsStep fails) s = .next s) ∧
    (s.isOn R.PWR_AVS_CTRL_EN = true → s.thm.avsOff = false → 4 ≤ fails → Answers (.avsStep fails) s (fun t => t.thm.avsOff = true ∧
      t.get (stickyBit Ev.PWR_AVS_FAIL) = 1 ∧ t.get R.PWR_AVS_ACTUAL = s.get R.PWR_AVS_ACTUAL)) ∧
    (s.isOn R.PWR_AVS_CTRL_EN = true → s.thm.avsOff = false → fails < 4 → at? ≤ 1023 → Answers (.avsStep fails) s (fun t =>
      let v := t.get R.PWR_AVS_ACTUAL
      680 ≤ s.avsTarget ∧ s.avsTarget ≤ 780 ∧ (at? ≤ s.avsTarget → v = min s.avsTarget (at? + 5)) ∧ (s.avsTarget < at? → v = max s.avsTarget (at? - 5)) ∧
      RegsBut [R.PWR_AVS_ACTUAL] s t ∧ { t with regs := s.regs } = s)))

/-- R464, R465: at the end of a tick each level counter whose event occurred in it, or whose condition held as it began or holds now,
adds one; a counter that wraps sets its overflow bit; every other counter stays. -/
def Obligations.LevelCounters : Prop :=
  ∀ s : State, sparseWf 0 s.regs = true → Answers .counterLevelTick s (fun t =>
    (∀ i < 6144, i ≠ Ev.PMC_OVERFLOW → let due := s.get (modeBit i) = 1 ∧ (i ∈ s.pmc.tick ∨ i ∈ s.pmc.held ∨ s.condition i = true)
      (due → getAt 0 t.pmc.cnt i = (getAt 0 s.pmc.cnt i + 1) % 2 ^ 48) ∧ (¬ due → getAt 0 t.pmc.cnt i = getAt 0 s.pmc.cnt i) ∧
      (due → getAt 0 s.pmc.cnt i = 2 ^ 48 - 1 → t.get (ovfBit i) = 1 ∧ t.get (stickyBit Ev.PMC_OVERFLOW) = 1)) ∧
    (∀ i < 6144, i ∈ t.pmc.held ↔ s.get (modeBit i) = 1 ∧ s.condition i = true) ∧
    (∀ i ∈ t.pmc.tick, i = Ev.PMC_OVERFLOW) ∧ t.pmc.shd = s.pmc.shd ∧ t.pmc.period = s.pmc.period ∧
    { t with regs := s.regs, pmc := s.pmc, hdg := s.hdg } = s)

/-- R470 to R472, R475 to R478: a chain without input ignores it; one that runs without decimation or DC removal gives an output for
each input, the filtered sum saturated, in the next ring entry, marked while it is unsettled. The input is a frame value, or at the
swath rate the mean of 256, which a received swath gives from its frame 0 on. R455, R456, R471, R478: a write of FMN_CTRL sets the
fields of a chain; its enable asks for power, which PWR_MAP may refuse, and resets the chain, whose first outputs are then unsettled;
with the receiver OFF it stalls. -/
def Obligations.FieldMonitor : Prop :=
  (∀ (c : Nat) (x : Int) (s : State), c < 16 → s.fmn.chains.length = 16 → let p := s.get (R.FMN_SRC_PORT c)
    (s.isOn (R.FMN_CTRL_EN c) = false ∨ s.domainOn (240 + c / 4) = false ∨ s.get (R.FMN_SRC_SRC c) = 0 ∨ s.rxState p = 0 →
      exec (.fmnInput c x) s = .next s) ∧
    (s.isOn (R.FMN_CTRL_EN c) = true → s.domainOn (240 + c / 4) = true → s.get (R.FMN_SRC_SRC c) ≠ 0 → s.rxState p ≠ 0 →
      s.isOn (R.FMN_STAT_STALLED c) = false → (s.chain c).timing = s.fmnTiming c →
      let value : Int := if s.get (R.FMN_SRC_SRC c) = 2 then tapShare (s.subTaps p (s.get (R.FMN_SRC_SEL c))) (s.get (R.FMN_SRC_TAP c))
        else if s.get (R.FMN_SRC_SRC c) = 4 then 256 * (s.cd (R.RXD_CD_APPLIED_CD p) + x) else 256 * x
      let q := if s.fmnValid c then some value else none
      let l := (s.chain c).frames
      (s.isOn (R.FMN_CTRL_RATE c) = true → l = [] → s.fmnTiming c = 1 → (s.pdPos (rxPd p)).frame ≠ 0 → exec (.fmnInput c x) s = .next s) ∧
      (s.isOn (R.FMN_CTRL_RATE c) = true → l.length < 255 → (l ≠ [] ∨ s.fmnTiming c = 2 ∨ (s.pdPos (rxPd p)).frame = 0) →
        exec (.fmnInput c x) s = .next (s.modChain c (fun y => { y with frames := q :: l }))) ∧
      (s.isOn (R.FMN_CTRL_RATE c) = false ∨ l.length = 255 → s.get (R.FMN_CTRL_DC_MODE c) = 0 → s.get (R.FMN_CTRL_HB c) = 0 →
      s.get (R.FMN_CTRL_DM1 c) = 0 → s.get (R.FMN_CTRL_N c) ≤ 255 → s.get (R.FMN_STAT_WIDX c) < 1024 → 0 < s.get (R.FMN_STAT_SETTLE_LEFT c) →
      s.get (R.FMN_STAT_SETTLE_LEFT c) < 256 → s.get (R.FMN_COUNT_LO_COUNT_L c) < 2 ^ 32 → Answers (.fmnInput c x) s (fun t =>
        let n := s.get (R.FMN_CTRL_N c)
        let v := (if s.isOn (R.FMN_CTRL_RATE c) then swathMean (q :: l) else q).getD (((s.chain c).last).getD 0)
        let w := v :: (s.chain c).fir.map (·.v)
        let sum := ((List.range n).map (fun k => s.fmnCoef c n k * w.getD k 0)).sum / 131072
        let e := getAt 0 t.fmn.ring (1024 * c + s.get (R.FMN_STAT_WIDX c))
        e % 2 ^ 32 = toField 32 (clampInt (-2147483647) 2147483647 sum) ∧ bitAt e 32 = 1 ∧
        bitAt e 34 = (decide (sum < -2147483647 ∨ 2147483647 < sum)).toNat ∧ bits e 63 40 = s.get (R.FMN_COUNT_LO_COUNT_L c) % 2 ^ 24 ∧
        t.get (R.FMN_STAT_WIDX c) = (s.get (R.FMN_STAT_WIDX c) + 1) % 1024 ∧
        t.get (R.FMN_STAT_SETTLE_LEFT c) = s.get (R.FMN_STAT_SETTLE_LEFT c) - 1 ∧
        t.get (R.FMN_COUNT_LO_COUNT_L c) = (s.get (R.FMN_COUNT_LO_COUNT_L c) + 1) % 2 ^ 32 ∧
        (∀ k, k ≠ c → t.chain k = s.chain k) ∧ { t with regs := s.regs, pmc := s.pmc, hdg := s.hdg, fmn := s.fmn } = s)))) ∧
  (∀ (c n d h : Nat) (s : State), c < 16 → s.fmn.chains.length = 16 → 1 ≤ n → n < 256 → d < 256 → h < 4 → s.get (R.FMN_CTRL_EN c) = 0 →
    s.get (R.FMN_CTRL_N c) < 256 → s.accessVerdict M.host (0x400100 + 64 * c) = St.ok → 
    let data := fun en => 2 ^ 24 * n + 2 ^ 16 * d + 16 * h + en
    let took := fun (t : State) => t.get (R.FMN_CTRL_N c) = n ∧ t.get (R.FMN_CTRL_DM1 c) = d ∧ t.get (R.FMN_CTRL_HB c) = h
    SettlesWith (.fmnCtrlWrite c 15 (data 0)) s St.ok (fun t => took t ∧ t.get (R.FMN_CTRL_EN c) = 0 ∧ t.pwr = s.pwr) ∧
    (s.get R.THM_SD_STAT_STATE = 1 → SettlesWith (.fmnCtrlWrite c 15 (data 1)) s St.conflict (fun t => took t ∧ t.get (R.FMN_CTRL_EN c) = 0 ∧ t.pwr = s.pwr)) ∧
    (s.get R.THM_SD_STAT_STATE ≠ 1 → s.mayPower (240 + c / 4) = false → SettlesWith (.fmnCtrlWrite c 15 (data 1)) s St.conflict (fun t => took t ∧
      t.get (R.FMN_CTRL_EN c) = 0 ∧ t.pwr = s.pwr ∧ t.get (stickyBit Ev.PWR_DENIED) = 1)) ∧
    (s.get R.THM_SD_STAT_STATE ≠ 1 → s.mayPower (240 + c / 4) = true → SettlesWith (.fmnCtrlWrite c 15 (data 1)) s St.ok (fun t => took t ∧
      t.get (R.FMN_CTRL_EN c) = 1 ∧ (t.domainOn (240 + c / 4) = true ∨ 240 + c / 4 ∈ t.pwr.going ∨ 240 + c / 4 ∈ t.pwr.waiting) ∧ t.chain c = {} ∧
      t.get (R.FMN_COUNT_LO_COUNT_L c) = 0 ∧ t.get (R.FMN_COUNT_HI_COUNT_H c) = 0 ∧ t.get (R.FMN_DCEST_EST c) = 0 ∧
      t.get (R.FMN_STAT_SETTLE_LEFT c) = ceilDiv (30 * (2 ^ h - 1) + (n - 1) * 2 ^ h) (2 * 2 ^ h * (d + 1)) + 1 ∧
      (s.rxState (s.get (R.FMN_SRC_PORT c)) = 0 → t.get (R.FMN_STAT_STALLED c) = 1) ∧ (∀ k, k ≠ c → t.chain k = s.chain k))))
end

