-- ==== Sys2Proof/Laws/Sparse.lean ====
section
/-! SUPPORT. Laws of the addressed stores: what a write leaves at every key, and that writes keep the canonical form. -/
namespace Sys2Proof.Machine

/-! ### Sparse data -/

theorem risingFrom_mono {α : Type} {a b : Nat} (h : a ≤ b) : ∀ {m : Sparse α}, risingFrom b m = true → risingFrom a m = true
  | [], _ => rfl
  | (k, _) :: r, hm => by
    simp only [risingFrom, Bool.and_eq_true, decide_eq_true_eq] at hm ⊢
    exact ⟨Nat.le_trans h hm.1, hm.2⟩

theorem risingFrom_filter {α : Type} (f : Nat × α → Bool) : ∀ {m : Sparse α} {a : Nat}, risingFrom a m = true → risingFrom a (m.filter f) = true
  | [], _, _ => rfl
  | (k, v) :: r, a, hm => by
    simp only [risingFrom, Bool.and_eq_true, decide_eq_true_eq] at hm
    by_cases hf : f (k, v)
    · simp only [List.filter, hf, risingFrom, Bool.and_eq_true, decide_eq_true_eq]
      exact ⟨hm.1, risingFrom_filter f hm.2⟩
    · simp only [List.filter, hf]
      exact risingFrom_mono (Nat.le_succ_of_le hm.1) (risingFrom_filter f hm.2)

theorem risingFrom_putKey {α : Type} (k : Nat) (v : α) : ∀ {m : Sparse α} {a : Nat}, a ≤ k → risingFrom a m = true → risingFrom a (putKey k v m) = true
  | [], a, h, _ => by simp [putKey, risingFrom, h]
  | (j, w) :: r, a, h, hm => by
    simp only [risingFrom, Bool.and_eq_true, decide_eq_true_eq] at hm
    simp only [putKey]
    split
    · next e => subst e; simp [risingFrom, hm]
    · split
      · next hlt =>
        simp only [risingFrom, Bool.and_eq_true, decide_eq_true_eq]
        exact ⟨h, by omega, hm.2⟩
      · simp only [risingFrom, Bool.and_eq_true, decide_eq_true_eq]
        exact ⟨hm.1, risingFrom_putKey k v (by omega) hm.2⟩

theorem putKey_all {α : Type} (k : Nat) (v : α) (p : Nat × α → Bool) (hp : p (k, v) = true) :
    ∀ {m : Sparse α}, m.all p = true → (putKey k v m).all p = true
  | [], _ => by simp [putKey, hp]
  | (j, w) :: r, hm => by
    simp only [List.all_cons, Bool.and_eq_true] at hm
    simp only [putKey]
    split
    · simp [hp, hm.2]
    · split
      · simp [hp, hm.1, hm.2]
      · simp only [List.all_cons, Bool.and_eq_true]
        exact ⟨hm.1, putKey_all k v p hp hm.2⟩

/-- A write keeps the canonical form. -/
theorem setAt_wf {α : Type} [DecidableEq α] {d : α} {m : Sparse α} (k : Nat) (v : α) (h : sparseWf d m = true) : sparseWf d (setAt d m k v) = true := by
  simp only [sparseWf, Bool.and_eq_true] at h ⊢
  unfold setAt
  split
  · refine ⟨risingFrom_filter _ h.1, ?_⟩
    rw [List.all_eq_true] at h ⊢
    intro x hx
    exact h.2 x (List.mem_filter.mp hx).1
  · next hv => exact ⟨risingFrom_putKey k v (Nat.zero_le _) h.1, putKey_all k v _ (by simpa using hv) h.2⟩

theorem modAt_wf {α : Type} [DecidableEq α] {d : α} {m : Sparse α} (k : Nat) (f : α → α) (h : sparseWf d m = true) : sparseWf d (modAt d m k f) = true :=
  setAt_wf _ _ h

/-- A store of which some keys are kept keeps the canonical form. -/
theorem keepKeys_wf {α : Type} [DecidableEq α] {d : α} {m : Sparse α} (f : Nat → Bool) (h : sparseWf d m = true) : sparseWf d (keepKeys f m) = true := by
  simp only [sparseWf, Bool.and_eq_true] at h ⊢
  refine ⟨risingFrom_filter _ h.1, ?_⟩
  rw [List.all_eq_true] at h ⊢
  intro x hx
  exact h.2 x (List.mem_filter.mp hx).1

theorem look_putKey_same {α : Type} (k : Nat) (v : α) : ∀ m : Sparse α, look k (putKey k v m) = some v
  | [] => by simp [putKey, look]
  | (j, w) :: r => by
    simp only [putKey]
    split
    · simp [look]
    · split
      · simp [look]
      · next h _ => simp [look, h, look_putKey_same k v r]

theorem look_putKey_other {α : Type} {k j : Nat} (v : α) (h : j ≠ k) : ∀ m : Sparse α, look j (putKey k v m) = look j m
  | [] => by simp [putKey, look, Ne.symm h]
  | (i, w) :: r => by
    simp only [putKey]
    split
    · next e => subst e; simp [look, Ne.symm h]
    · split
      · simp [look, Ne.symm h]
      · simp [look, look_putKey_other v h r]

theorem look_dropKey_same {α : Type} (k : Nat) : ∀ m : Sparse α, look k (dropKey k m) = none
  | [] => rfl
  | (j, w) :: r => by
    by_cases e : j = k
    · simpa [dropKey, List.filter_cons, e] using look_dropKey_same k r
    · have := look_dropKey_same k r
      simp only [dropKey] at this
      simp [dropKey, e, look, this]

theorem look_dropKey_other {α : Type} {k j : Nat} (h : j ≠ k) : ∀ m : Sparse α, look j (dropKey k m) = look j m
  | [] => rfl
  | (i, w) :: r => by
    have ih := look_dropKey_other (α := α) h r
    simp only [dropKey] at ih
    by_cases e : i = k
    · simp [dropKey, e, look, Ne.symm h, ih]
    · simp [dropKey, e, look, ih]

/-- What a write leaves at a key. -/
theorem getAt_setAt {α : Type} [DecidableEq α] (d : α) (m : Sparse α) (k j : Nat) (v : α) :
    getAt d (setAt d m k v) j = if j = k then v else getAt d m j := by
  unfold getAt setAt
  by_cases e : j = k
  · subst e
    by_cases hv : v = d
    · simp [hv, look_dropKey_same]
    · simp [hv, look_putKey_same]
  · by_cases hv : v = d
    · simp [hv, e, look_dropKey_other e]
    · simp [hv, e, look_putKey_other v e]

/-- Contents of a store of which some keys are kept. -/
theorem getAt_keepKeys {α : Type} (d : α) (f : Nat → Bool) (j : Nat) : ∀ m : Sparse α, getAt d (keepKeys f m) j = if f j then getAt d m j else d
  | [] => by simp [keepKeys, getAt, look]
  | (i, w) :: r => by
    have ih := getAt_keepKeys d f j r
    simp only [keepKeys, getAt] at ih ⊢
    by_cases hf : f i
    · by_cases e : i = j
      · subst e; simp [List.filter, hf, look]
      · simp [List.filter, hf, look, e, ih]
    · by_cases e : i = j
      · subst e; simp [List.filter, hf] at ih ⊢; exact ih
      · simp [List.filter, hf, look, e, ih]

end Sys2Proof.Machine
end

