-- ==== Sys2Proof/Laws/Keeps.lean ====
section
/-! SUPPORT. What no command does: a state keeps its queue, its part, and the canonical form of its addressed stores. The relation,
and how it passes through the forms in which operations are written. -/
namespace Sys2Proof.Machine

/-! ### The relation -/

/-- `t` has the queue and the part of `s`, and is canonical where `s` is. -/
structure Keeps (s t : State) : Prop where
  queue : t.pending = s.pending
  part  : t.part = s.part
  canon : s.canon = true → t.canon = true

namespace Keeps

theorem refl (s : State) : Keeps s s := ⟨rfl, rfl, id⟩

theorem trans {s t u : State} (h : Keeps s t) (g : Keeps t u) : Keeps s u :=
  ⟨g.queue.trans h.queue, g.part.trans h.part, fun x => g.canon (h.canon x)⟩

/-- A change of parts other than queue, part and stores. -/
theorem parts {z u : State} {port0 port1 jnl pwr img fec swc cli lcx mce clk sec stl pmc fmn hif flc thm hdg units fab resp freeCtr} :
    Keeps z (State.mk u.part u.regs u.latches port0 port1 jnl u.sram u.sramChk u.ecc pwr img fec swc cli lcx mce clk sec stl pmc fmn
      hif flc thm hdg units fab resp freeCtr u.pending) ↔ Keeps z u :=
  ⟨fun h => ⟨h.queue, h.part, h.canon⟩, fun h => ⟨h.queue, h.part, h.canon⟩⟩

/-- A change of the stores that keeps each canonical. -/
theorem stores {z u t : State} (h : Keeps z u) (hq : t.pending = u.pending) (hp : t.part = u.part)
    (h1 : sparseWf 0 u.regs = true → sparseWf 0 t.regs = true) (h2 : sparseWf 0 u.latches = true → sparseWf 0 t.latches = true)
    (h3 : sparseWf 0 u.sram = true → sparseWf 0 t.sram = true) (h4 : sparseWf 0 u.sramChk = true → sparseWf 0 t.sramChk = true)
    (h5 : sparseWf 0 u.ecc = true → sparseWf 0 t.ecc = true) : Keeps z t := by
  refine ⟨hq.trans h.queue, hp.trans h.part, fun x => ?_⟩
  have y := h.canon x
  simp only [State.canon, Bool.and_eq_true] at y ⊢
  exact ⟨⟨⟨⟨h1 y.1.1.1.1, h2 y.1.1.1.2⟩, h3 y.1.1.2⟩, h4 y.1.2⟩, h5 y.2⟩

theorem ite {z a b : State} {c : Prop} [Decidable c] (h : c → Keeps z a) (g : ¬c → Keeps z b) : Keeps z (if c then a else b) := by
  split
  · exact h ‹_›
  · exact g ‹_›

theorem ite_prop {α : Type} {P : α → Prop} {a b : α} {c : Prop} [Decidable c] (h : c → P a) (g : ¬c → P b) : P (if c then a else b) := by
  split
  · exact h ‹_›
  · exact g ‹_›

theorem ite_snd {α : Type} {z : State} {a b : α × State} {c : Prop} [Decidable c] (h : c → Keeps z a.2) (g : ¬c → Keeps z b.2) : Keeps z (if c then a else b).2 := by
  split
  · exact h ‹_›
  · exact g ‹_›

theorem ite_snd2 {α β : Type} {z : State} {a b : α × β × State} {c : Prop} [Decidable c] (h : c → Keeps z a.2.2) (g : ¬c → Keeps z b.2.2) : Keeps z (if c then a else b).2.2 := by
  split
  · exact h ‹_›
  · exact g ‹_›

theorem foldl {β : Type} {z : State} {f : State → β → State} (hf : ∀ u b, Keeps z u → Keeps z (f u b)) : ∀ {l : List β} {u : State}, Keeps z u → Keeps z (l.foldl f u)
  | [], _, h => h
  | _ :: l, _, h => foldl hf (l := l) (hf _ _ h)

theorem foldl_snd {α β : Type} {z : State} {f : α × State → β → α × State} (hf : ∀ u b, Keeps z u.2 → Keeps z (f u b).2) :
    ∀ {l : List β} {u : α × State}, Keeps z u.2 → Keeps z (l.foldl f u).2
  | [], _, h => h
  | _ :: l, _, h => foldl_snd hf (l := l) (hf _ _ h)

theorem foldl_snd2 {α γ β : Type} {z : State} {f : α × γ × State → β → α × γ × State} (hf : ∀ u b, Keeps z u.2.2 → Keeps z (f u b).2.2) :
    ∀ {l : List β} {u : α × γ × State}, Keeps z u.2.2 → Keeps z (l.foldl f u).2.2
  | [], _, h => h
  | _ :: l, _, h => foldl_snd2 hf (l := l) (hf _ _ h)

theorem ofPair {α : Type} {z u : State} {a : α} {p : α × State} (e : p = (a, u)) (h : Keeps z p.2) : Keeps z u := by subst e; exact h

theorem ofTriple {α β : Type} {z u : State} {a : α} {b : β} {p : α × β × State} (e : p = (a, b, u)) (h : Keeps z p.2.2) : Keeps z u := by
  subst e; exact h

theorem iter {z : State} {n : Nat} {f : Nat → State → State} {s : State} (hf : ∀ i u, Keeps z u → Keeps z (f i u)) (h : Keeps z s) : Keeps z (Machine.iter n f s) :=
  foldl (fun u b hu => hf b u hu) h

end Keeps

/-! ### The operations over State -/

theorem State.set_keeps {z s : State} {f : Fld} {v : Nat} (h : Keeps z s) : Keeps z (s.set f v) :=
  Keeps.stores h rfl rfl (fun x => setAt_wf _ _ x) id id id id

theorem State.clearRegs_keeps {z s : State} {lo hi : Nat} (h : Keeps z s) : Keeps z (s.clearRegs lo hi) :=
  Keeps.stores h rfl rfl (fun x => keepKeys_wf (fun k => decide (k < 32 * lo) || decide (32 * hi ≤ k)) x) id id id id

theorem State.modPort_keeps {z s : State} {p : Nat} {f : PortState → PortState} (h : Keeps z s) : Keeps z (s.modPort p f) := by
  unfold State.modPort
  split <;> exact ⟨h.queue, h.part, h.canon⟩

end Sys2Proof.Machine
end

