-- ==== Sys2Proof/Laws/KeepsOps.lean ====
section
/-! SUPPORT. Every operation on a state keeps its queue, its part and its canonical form: ports, counters, power, memories, tables, fabric, signals, calendar. -/
set_option linter.unusedVariables false
set_option linter.unusedSimpArgs false
namespace Sys2Proof.Machine

theorem State.setI_keeps {z : State} {s : State} {f : Fld} {x : Int} (h0 : Keeps z s) :
    Keeps z ((State.setI s f x)) := by
  unfold State.setI
  repeat' (first | with_reducible assumption | with_reducible apply State.set_keeps)

theorem State.addSat_keeps {z : State} {s : State} {f : Fld} {n : Nat} (h0 : Keeps z s) :
    Keeps z ((State.addSat s f n)) := by
  unfold State.addSat
  repeat' (first | with_reducible assumption | with_reducible apply State.set_keeps)

theorem State.answer_keeps {z : State} {s : State} {status : Nat} {data : List Nat} (h0 : Keeps z s) :
    Keeps z ((State.answer s status data)) := by
  unfold State.answer
  repeat' (first | with_reducible assumption | simp (zeta := false) only [Keeps.parts])

theorem State.draw_keeps {z : State} {s : State} {n : Nat} (h0 : Keeps z s) :
    Keeps z ((State.draw s n).2) := by
  unfold State.draw
  repeat' (first | with_reducible assumption | simp (zeta := false) only [Keeps.parts])

theorem latchEvent_keeps {z : State} {i : Nat} {s : State} (h0 : Keeps z s) :
    Keeps z ((latchEvent i s)) := by
  unfold latchEvent
  repeat' (first | with_reducible assumption | simp (zeta := false) only [Keeps.parts])

theorem presetCount_keeps {z : State} {i n : Nat} {s : State} (h0 : Keeps z s) :
    Keeps z ((presetCount i n s)) := by
  unfold presetCount
  repeat' (first | with_reducible assumption | (with_reducible apply Keeps.ite <;> intro _) | simp (zeta := false) only [Keeps.parts])

theorem addCount_keeps {z : State} {i n : Nat} {s : State} (h0 : Keeps z s) :
    Keeps z ((addCount i n s)) := by
  unfold addCount
  repeat' (first | with_reducible assumption | with_reducible apply State.set_keeps | with_reducible apply latchEvent_keeps | with_reducible apply presetCount_keeps | (with_reducible apply Keeps.ite <;> intro _) | simp (zeta := false) only [Keeps.parts])

theorem countUp_keeps {z : State} {i n : Nat} {s : State} (h0 : Keeps z s) :
    Keeps z ((countUp i n s)) := by
  unfold countUp
  repeat' (first | with_reducible assumption | with_reducible apply addCount_keeps | with_reducible apply State.set_keeps | (with_reducible apply Keeps.ite <;> intro _) | simp (zeta := false) only [Keeps.parts])

theorem countEvent_keeps {z : State} {i n : Nat} {s : State} (h0 : Keeps z s) :
    Keeps z ((countEvent i n s)) := by
  unfold countEvent
  repeat' (first | with_reducible assumption | with_reducible apply countUp_keeps | (with_reducible apply Keeps.ite <;> intro _) | simp (zeta := false) only [Keeps.parts])

theorem State.raise_keeps {z : State} {s : State} {i : Nat} (h0 : Keeps z s) :
    Keeps z ((State.raise s i)) := by
  unfold State.raise
  repeat' (first | with_reducible assumption | with_reducible apply countEvent_keeps | with_reducible apply State.set_keeps)

theorem State.raiseIf_keeps {z : State} {s : State} {c : Bool} {i : Nat} (h0 : Keeps z s) :
    Keeps z ((State.raiseIf s c i)) := by
  unfold State.raiseIf
  repeat' (first | with_reducible assumption | with_reducible apply State.raise_keeps | (with_reducible apply Keeps.ite <;> intro _))

theorem State.raiseClient_keeps {z : State} {s : State} {i own : Nat} (h0 : Keeps z s) :
    Keeps z ((State.raiseClient s i own)) := by
  unfold State.raiseClient
  repeat' (first | with_reducible assumption | with_reducible apply countEvent_keeps | with_reducible apply State.raise_keeps)

theorem State.setDomain_keeps {z : State} {s : State} {d : Nat} {on : Bool} (h0 : Keeps z s) :
    Keeps z ((State.setDomain s d on)) := by
  unfold State.setDomain
  repeat' (first | with_reducible assumption | with_reducible apply State.set_keeps | (with_reducible apply Keeps.ite <;> intro _))

theorem powerUp_keeps {z : State} {d : Nat} {s : State} (h0 : Keeps z s) :
    Keeps z ((powerUp d s).2) := by
  unfold powerUp
  repeat' (first | with_reducible assumption | with_reducible apply State.raise_keeps | (with_reducible apply Keeps.ite_snd <;> intro _) | simp (zeta := false) only [Keeps.parts])

theorem powerNext_keeps {z : State} {d : Nat} {s : State} (h0 : Keeps z s) :
    Keeps z ((powerNext d s)) := by
  unfold powerNext
  repeat' (first | with_reducible assumption | (intro u; first | (refine (fun (hu : ∀ a, Keeps z (u a)) => ?_) ?_; clear_value u; rotate_left; subst u; rotate_left) | (refine (fun (hu : Keeps z u) => ?_) ?_; clear_value u; rotate_left; subst u; rotate_left) | (refine (fun (hu : Keeps z u.2) => ?_) ?_; clear_value u; rotate_left; subst u; rotate_left) | (refine (fun (hu : Keeps z u.2.2) => ?_) ?_; clear_value u; rotate_left; subst u; rotate_left) | (refine (fun (hu : ∀ v, Keeps z v → Keeps z (u v)) => ?_) ?_; clear_value u; rotate_left; subst u; rotate_left) | (refine (fun (hu : ∀ v, Keeps z v → Keeps z (u v).2) => ?_) ?_; clear_value u; rotate_left; subst u; rotate_left) | (refine (fun (hu : ∀ a v, Keeps z v → Keeps z (u a v)) => ?_) ?_; clear_value u; rotate_left; subst u; rotate_left) | clear_value u) | simp (zeta := false) only [Keeps.parts] | lift_lets)

theorem powerDown_keeps {z : State} {d : Nat} {s : State} (h0 : Keeps z s) :
    Keeps z ((powerDown d s)) := by
  unfold powerDown
  repeat' (first | with_reducible assumption | with_reducible apply powerNext_keeps | with_reducible apply State.setDomain_keeps)

theorem State.sramPut_keeps {z s : State} {k v : Nat} (h : Keeps z s) : Keeps z (s.sramPut k v) := by
  unfold State.sramPut
  generalize v % 2 ^ 128 + 1 = x
  exact Keeps.stores h rfl rfl id id (fun y => setAt_wf k x y) (fun y => setAt_wf k 0 y) id

theorem State.sramPutRaw_keeps {z s : State} {k v c : Nat} (h : Keeps z s) : Keeps z (s.sramPutRaw k v c) := by
  unfold State.sramPutRaw
  refine Keeps.ite (fun _ => State.sramPut_keeps h) (fun _ => ?_)
  exact Keeps.stores (State.sramPut_keeps h) rfl rfl id id id (fun x => setAt_wf k (c + 1) x) id

theorem sramClear_keeps {z s : State} {inst : Nat} (h : Keeps z s) : Keeps z (sramClear inst s) :=
  Keeps.stores h rfl rfl id id (fun x => keepKeys_wf (fun k => decide (k < sramKey inst 0) || decide (sramKey (inst + 1) 0 ≤ k)) x)
    (fun x => keepKeys_wf (fun k => decide (k < sramKey inst 0) || decide (sramKey (inst + 1) 0 ≤ k)) x) id

theorem eccCount_keeps {z s : State} {k : Nat} {ue : Bool} (h : Keeps z s) : Keeps z (eccCount k ue s) := by
  unfold eccCount
  have h1 : Keeps z { s with ecc := modAt 0 s.ecc (4 * (k / 2 ^ 22) + ue.toNat) (satAdd (2 ^ 32 - 1) 1) } :=
    Keeps.stores h rfl rfl id id id id (fun x => modAt_wf _ _ x)
  refine Keeps.ite (fun _ => ?_) (fun _ => State.raise_keeps h1)
  exact State.raise_keeps (Keeps.stores h1 rfl rfl id id id id (fun x => setAt_wf _ _ x))

theorem sramRead_keeps {z : State} {k : Nat} {s : State} (h0 : Keeps z s) :
    Keeps z ((sramRead k s).2.2) := by
  unfold sramRead
  repeat' (first | with_reducible assumption | with_reducible apply eccCount_keeps | with_reducible apply State.sramPut_keeps | (with_reducible apply Keeps.ite_snd2 <;> intro _) | lift_lets | split)

theorem sramWrite_keeps {z : State} {k be v : Nat} {s : State} (h0 : Keeps z s) :
    Keeps z ((sramWrite k be v s).2) := by
  unfold sramWrite
  repeat' (first | with_reducible assumption | with_reducible apply State.sramPut_keeps | with_reducible apply sramRead_keeps | (with_reducible apply Keeps.ite_snd <;> intro _))

theorem State.setBankWord_keeps {z : State} {s : State} {e : TblEnt} {b w v : Nat} (h0 : Keeps z s) :
    Keeps z ((State.setBankWord s e b w v)) := by
  unfold State.setBankWord
  repeat' (first | with_reducible assumption | with_reducible apply State.sramPut_keeps)

theorem State.setBankWords_keeps {z : State} {t b : Nat} : ∀ {l : List Nat} {s : State} {w : Nat}, Keeps z s → Keeps z (s.setBankWords t b w l)
  | [], _, _, h => h
  | _ :: _, s, w, h => by
    unfold State.setBankWords
    split
    · exact State.setBankWords_keeps (State.setBankWord_keeps h)
    · exact h

theorem State.makeActive_keeps {z : State} {s : State} {t b : Nat} {rx : Bool} (h0 : Keeps z s) :
    Keeps z ((State.makeActive s t b rx)) := by
  unfold State.makeActive
  repeat' (first | with_reducible assumption | (intro u; first | (refine (fun (hu : ∀ a, Keeps z (u a)) => ?_) ?_; clear_value u; rotate_left; subst u; rotate_left) | (refine (fun (hu : Keeps z u) => ?_) ?_; clear_value u; rotate_left; subst u; rotate_left) | (refine (fun (hu : Keeps z u.2) => ?_) ?_; clear_value u; rotate_left; subst u; rotate_left) | (refine (fun (hu : Keeps z u.2.2) => ?_) ?_; clear_value u; rotate_left; subst u; rotate_left) | (refine (fun (hu : ∀ v, Keeps z v → Keeps z (u v)) => ?_) ?_; clear_value u; rotate_left; subst u; rotate_left) | (refine (fun (hu : ∀ v, Keeps z v → Keeps z (u v).2) => ?_) ?_; clear_value u; rotate_left; subst u; rotate_left) | (refine (fun (hu : ∀ a v, Keeps z v → Keeps z (u a v)) => ?_) ?_; clear_value u; rotate_left; subst u; rotate_left) | clear_value u) | (with_reducible apply Keeps.ite <;> intro _) | simp (zeta := false) only [Keeps.parts] | lift_lets | split)

theorem fabRespond_keeps {z : State} {m a status : Nat} {s : State} (h0 : Keeps z s) :
    Keeps z ((fabRespond m a status s)) := by
  unfold fabRespond
  repeat' (first | with_reducible assumption | with_reducible apply State.addSat_keeps | with_reducible apply State.set_keeps | with_reducible apply State.raise_keeps | (with_reducible apply Keeps.ite <;> intro _))

theorem State.modFab_keeps {z : State} {s : State} {f : FabState → FabState} (h0 : Keeps z s) :
    Keeps z ((State.modFab s f)) := by
  unfold State.modFab
  repeat' (first | with_reducible assumption | simp (zeta := false) only [Keeps.parts])

theorem beatEnd_keeps {z : State} {m : Nat} {write : Bool} {a n st : Nat} {s : State} (h0 : Keeps z s) :
    Keeps z ((beatEnd m write a n st s).2.2) := by
  unfold beatEnd
  repeat' (first | with_reducible assumption | with_reducible apply State.modFab_keeps)

theorem masterAbort_keeps {z : State} {m : Nat} {s : State} (h0 : Keeps z s) :
    Keeps z ((masterAbort m s)) := by
  unfold masterAbort
  repeat' (first | with_reducible assumption | with_reducible apply State.modFab_keeps)

theorem blockAbort_keeps {z : State} {lo hi : Nat} {s : State} (h0 : Keeps z s) :
    Keeps z ((blockAbort lo hi s)) := by
  unfold blockAbort
  repeat' (first | with_reducible assumption | with_reducible apply State.modFab_keeps | with_reducible apply fabRespond_keeps | (with_reducible apply Keeps.foldl; intro _ _ _) | (with_reducible apply Keeps.ite <;> intro _))

theorem bufCheck_keeps {z : State} {a n : Nat} {s : State} (h0 : Keeps z s) :
    Keeps z ((bufCheck a n s).2) := by
  unfold bufCheck
  repeat' (first | with_reducible assumption | with_reducible apply sramRead_keeps | (with_reducible apply Keeps.foldl_snd; intro _ _ _) | lift_lets | split)

theorem bufWrite_keeps {z : State} : ∀ {l : List Nat} {a : Nat} {s : State}, Keeps z s → Keeps z (bufWrite a l s)
  | [], _, _, h => h
  | _ :: _, a, s, h => by
    unfold bufWrite
    refine bufWrite_keeps ?_
    split
    · exact Keeps.ite (fun _ => sramWrite_keeps h) (fun _ => h)
    · exact h

theorem State.modSwc_keeps {z : State} {s : State} {f : SwcState → SwcState} (h0 : Keeps z s) :
    Keeps z ((State.modSwc s f)) := by
  unfold State.modSwc
  repeat' (first | with_reducible assumption | simp (zeta := false) only [Keeps.parts])

theorem State.modPd_keeps {z : State} {s : State} {d : Nat} {f : PdPos → PdPos} (h0 : Keeps z s) :
    Keeps z ((State.modPd s d f)) := by
  unfold State.modPd
  repeat' (first | with_reducible assumption | with_reducible apply State.modSwc_keeps)

theorem State.newHandle_keeps {z : State} {s : State} {bank : Nat} (h0 : Keeps z s) :
    Keeps z ((State.newHandle s bank).2) := by
  unfold State.newHandle
  repeat' (first | with_reducible assumption | with_reducible apply State.draw_keeps | simp (zeta := false) only [Keeps.parts] | split)

theorem resultEvents_keeps {z : State} {status : Nat} {s : State} (h0 : Keeps z s) :
    Keeps z ((resultEvents status s)) := by
  unfold resultEvents
  repeat' (first | with_reducible assumption | with_reducible apply State.raise_keeps | (with_reducible apply Keeps.ite <;> intro _))

theorem hdgResult_keeps {z : State} {a : Act} {n status : Nat} {s : State} (h0 : Keeps z s) :
    Keeps z ((hdgResult a n status s)) := by
  unfold hdgResult
  repeat' (first | with_reducible assumption | with_reducible apply State.set_keeps | with_reducible apply State.raise_keeps | (with_reducible apply Keeps.ite <;> intro _))

theorem pushResult_keeps {z : State} {r : Res} {s : State} (h0 : Keeps z s) :
    Keeps z ((pushResult r s)) := by
  unfold pushResult
  repeat' (first | with_reducible assumption | with_reducible apply State.raise_keeps | with_reducible apply State.modSwc_keeps | (with_reducible apply Keeps.ite <;> intro _))

theorem complete_keeps {z : State} {a : Act} {status late : Nat} {s : State} (h0 : Keeps z s) :
    Keeps z ((complete a status late s)) := by
  unfold complete
  repeat' (first | with_reducible assumption | with_reducible apply State.modSwc_keeps | with_reducible apply hdgResult_keeps | with_reducible apply State.draw_keeps | with_reducible apply pushResult_keeps | with_reducible apply resultEvents_keeps | with_reducible apply State.raise_keeps | (with_reducible apply Keeps.ite <;> intro _) | simp (zeta := false) only [Keeps.parts] | split)

theorem completeAll_keeps {z : State} {f : Act → Bool} {status : Nat} {s : State} (h0 : Keeps z s) :
    Keeps z ((completeAll f status s)) := by
  unfold completeAll
  repeat' (first | with_reducible assumption | with_reducible apply complete_keeps | (with_reducible apply Keeps.foldl; intro _ _ _))

theorem removeAct_keeps {z : State} {bank handle : Nat} {s : State} (h0 : Keeps z s) :
    Keeps z ((removeAct bank handle s).2) := by
  unfold removeAct
  repeat' (first | with_reducible assumption | with_reducible apply complete_keeps | (with_reducible apply Keeps.ite_snd <;> intro _) | split)

theorem posStops_keeps {z : State} {d : Nat} {s : State} (h0 : Keeps z s) :
    Keeps z ((posStops d s)) := by
  unfold posStops
  repeat' (first | with_reducible assumption | with_reducible apply completeAll_keeps | with_reducible apply State.modSwc_keeps)

theorem staleBelow_keeps {z : State} {d n : Nat} {s : State} (h0 : Keeps z s) :
    Keeps z ((staleBelow d n s)) := by
  unfold staleBelow
  repeat' (first | with_reducible assumption | with_reducible apply completeAll_keeps)

theorem storeAct_keeps {z : State} {m desc : Nat} {owner : Owner} {s : State} (h0 : Keeps z s) :
    Keeps z ((storeAct m desc owner s).2) := by
  unfold storeAct
  repeat' (first | with_reducible assumption | with_reducible apply State.newHandle_keeps | with_reducible apply State.modSwc_keeps | with_reducible apply State.sramPut_keeps | with_reducible apply State.set_keeps | (with_reducible apply Keeps.ite <;> intro _))

theorem descRead_keeps {z : State} {a : Act} {bad : Bool} {s : State} (h0 : Keeps z s) :
    Keeps z ((descRead a bad s).2) := by
  unfold descRead
  repeat' (first | with_reducible assumption | with_reducible apply eccCount_keeps | with_reducible apply sramRead_keeps | (with_reducible apply Keeps.ite_snd <;> intro _))

theorem descFollow_keeps {z : State} {k : Nat} {s : State} (h0 : Keeps z s) :
    Keeps z ((descFollow k s)) := by
  unfold descFollow
  repeat' (first | with_reducible assumption | with_reducible apply State.modSwc_keeps | (with_reducible apply Keeps.ite <;> intro _))

end Sys2Proof.Machine
end

