-- ==== Sys2Proof/Laws/KeepsLine.lean ====
section
/-! SUPPORT. Every operation on a state keeps its queue, its part and its canonical form: converters, calibration, receiver, transmitter, ciphers, clients, codewords. -/
set_option linter.unusedVariables false
set_option linter.unusedSimpArgs false
namespace Sys2Proof.Machine

theorem State.modCnv_keeps {z : State} {s : State} {p : Nat} {f : CnvState → CnvState} (h0 : Keeps z s) :
    Keeps z ((State.modCnv s p f)) := by
  unfold State.modCnv
  repeat' (first | with_reducible assumption | with_reducible apply State.modPort_keeps)

theorem dieLoad_keeps {z : State} {p : Nat} {l : List Nat} {s : State} (h0 : Keeps z s) :
    Keeps z ((dieLoad p l s)) := by
  unfold dieLoad
  repeat' (first | with_reducible assumption | with_reducible apply State.modCnv_keeps)

theorem dieReapply_keeps {z : State} {p i : Nat} {s : State} (h0 : Keeps z s) :
    Keeps z ((dieReapply p i s)) := by
  unfold dieReapply
  repeat' (first | with_reducible assumption | with_reducible apply dieLoad_keeps | with_reducible apply State.modCnv_keeps)

theorem agcEnter_keeps {z : State} {p st : Nat} {s : State} (h0 : Keeps z s) :
    Keeps z ((agcEnter p st s)) := by
  unfold agcEnter
  repeat' (first | with_reducible assumption | with_reducible apply State.set_keeps | with_reducible apply State.modCnv_keeps | (with_reducible apply Keeps.iter; intro _ _ _) | (with_reducible apply Keeps.ite <;> intro _))

theorem refastStart_keeps {z : State} {p : Nat} {s : State} (h0 : Keeps z s) :
    Keeps z ((refastStart p s)) := by
  unfold refastStart
  repeat' (first | with_reducible assumption | with_reducible apply State.modCnv_keeps)

theorem refastOff_keeps {z : State} {p : Nat} {s : State} (h0 : Keeps z s) :
    Keeps z ((refastOff p s)) := by
  unfold refastOff
  repeat' (first | with_reducible assumption | with_reducible apply State.modCnv_keeps | (with_reducible apply Keeps.ite <;> intro _))

theorem agcJudge_keeps {z : State} {p : Nat} {s : State} (h0 : Keeps z s) :
    Keeps z ((agcJudge p s)) := by
  unfold agcJudge
  repeat' (first | with_reducible assumption | with_reducible apply agcEnter_keeps | with_reducible apply refastStart_keeps | (with_reducible apply Keeps.ite <;> intro _))

theorem agcSettle_keeps {z : State} {p : Nat} {s : State} (h0 : Keeps z s) :
    Keeps z ((agcSettle p s)) := by
  unfold agcSettle
  repeat' (first | with_reducible assumption | with_reducible apply agcJudge_keeps)

theorem agcFreeze_keeps {z : State} {p : Nat} {sedge frame : Bool} {s : State} (h0 : Keeps z s) :
    Keeps z ((agcFreeze p sedge frame s)) := by
  unfold agcFreeze
  repeat' (first | with_reducible assumption | with_reducible apply agcEnter_keeps | with_reducible apply State.set_keeps | with_reducible apply State.raise_keeps | (with_reducible apply Keeps.ite <;> intro _))

theorem agcFaDeclared_keeps {z : State} {p : Nat} {s : State} (h0 : Keeps z s) :
    Keeps z ((agcFaDeclared p s)) := by
  unfold agcFaDeclared
  repeat' (first | with_reducible assumption | with_reducible apply agcSettle_keeps | with_reducible apply agcFreeze_keeps | with_reducible apply State.modCnv_keeps)

theorem agcPreamble_keeps {z : State} {p : Nat} {joint : Bool} {s : State} (h0 : Keeps z s) :
    Keeps z ((agcPreamble p joint s)) := by
  unfold agcPreamble
  repeat' (first | with_reducible assumption | with_reducible apply State.set_keeps | with_reducible apply agcFreeze_keeps | with_reducible apply State.modCnv_keeps | (with_reducible apply Keeps.ite <;> intro _))

theorem agcFaLost_keeps {z : State} {p : Nat} {s : State} (h0 : Keeps z s) :
    Keeps z ((agcFaLost p s)) := by
  unfold agcFaLost
  repeat' (first | with_reducible assumption | with_reducible apply refastStart_keeps | with_reducible apply agcSettle_keeps | (with_reducible apply Keeps.ite <;> intro _))

theorem agcRefast_keeps {z : State} {p : Nat} {s : State} (h0 : Keeps z s) :
    Keeps z ((agcRefast p s)) := by
  unfold agcRefast
  repeat' (first | with_reducible assumption | with_reducible apply agcEnter_keeps | with_reducible apply State.raise_keeps | (with_reducible apply Keeps.ite <;> intro _))

theorem dcMode_keeps {z : State} {p : Nat} {s : State} (h0 : Keeps z s) :
    Keeps z ((dcMode p s)) := by
  unfold dcMode
  repeat' (first | with_reducible assumption | with_reducible apply State.set_keeps | (with_reducible apply Keeps.iter; intro _ _ _) | (with_reducible apply Keeps.ite <;> intro _))

theorem laneMeasure_keeps {z : State} {p l : Nat} {m : LaneMeasure} {s : State} (h0 : Keeps z s) :
    Keeps z ((laneMeasure p l m s)) := by
  unfold laneMeasure
  repeat' (first | with_reducible assumption | with_reducible apply State.set_keeps | with_reducible apply State.raiseIf_keeps)

theorem dcUpdate_keeps {z : State} {p j : Nat} {e : Int} {s : State} (h0 : Keeps z s) :
    Keeps z ((dcUpdate p j e s)) := by
  unfold dcUpdate
  repeat' (first | with_reducible assumption | with_reducible apply State.setI_keeps | with_reducible apply State.set_keeps)

theorem frameMeasure_keeps {z : State} {p : Nat} {m : LaneMeasure} {s : State} (h0 : Keeps z s) :
    Keeps z ((frameMeasure p m s)) := by
  unfold frameMeasure
  repeat' (first | with_reducible assumption | with_reducible apply laneMeasure_keeps | with_reducible apply State.set_keeps | with_reducible apply dcUpdate_keeps | with_reducible apply State.raiseIf_keeps | (with_reducible apply Keeps.iter; intro _ _ _) | (with_reducible apply Keeps.ite <;> intro _))

theorem hwMute_keeps {z : State} {p : Nat} {cause : Fld} {s : State} (h0 : Keeps z s) :
    Keeps z ((hwMute p cause s)) := by
  unfold hwMute
  repeat' (first | with_reducible assumption | with_reducible apply State.set_keeps | with_reducible apply State.raise_keeps | (with_reducible apply Keeps.ite <;> intro _))

theorem hwUnmute_keeps {z : State} {p : Nat} {cause : Fld} {s : State} (h0 : Keeps z s) :
    Keeps z ((hwUnmute p cause s)) := by
  unfold hwUnmute
  repeat' (first | with_reducible assumption | with_reducible apply State.set_keeps)

theorem sideband_keeps {z : State} {p k fails : Nat} {s : State} (h0 : Keeps z s) :
    Keeps z ((sideband p k fails s)) := by
  unfold sideband
  repeat' (first | with_reducible assumption | with_reducible apply State.modCnv_keeps | with_reducible apply State.raise_keeps | with_reducible apply dieLoad_keeps | (with_reducible apply Keeps.ite <;> intro _))

theorem cnvUnlock_keeps {z : State} {p : Nat} {syn lo : Bool} {s : State} (h0 : Keeps z s) :
    Keeps z ((cnvUnlock p syn lo s)) := by
  unfold cnvUnlock
  repeat' (first | with_reducible assumption | with_reducible apply State.raiseIf_keeps | with_reducible apply State.set_keeps | with_reducible apply hwMute_keeps | with_reducible apply State.modCnv_keeps | with_reducible apply State.raise_keeps | (with_reducible apply Keeps.ite <;> intro _))

theorem muteOff_keeps {z : State} {p : Nat} {s : State} (h0 : Keeps z s) :
    Keeps z ((muteOff p s)) := by
  unfold muteOff
  repeat' (first | with_reducible assumption | with_reducible apply hwUnmute_keeps | with_reducible apply State.modCnv_keeps | (with_reducible apply Keeps.ite <;> intro _))

theorem State.modCal_keeps {z : State} {s : State} {p : Nat} {f : CalState → CalState} (h0 : Keeps z s) :
    Keeps z ((State.modCal s p f)) := by
  unfold State.modCal
  repeat' (first | with_reducible assumption | with_reducible apply State.modPort_keeps)

theorem setLive_keeps {z : State} {p k w : Nat} {s : State} (h0 : Keeps z s) :
    Keeps z ((setLive p k w s)) := by
  unfold setLive
  repeat' (first | with_reducible assumption | with_reducible apply State.modCal_keeps)

theorem spareTrim_keeps {z : State} {p i : Nat} {s : State} (h0 : Keeps z s) :
    Keeps z ((spareTrim p i s)) := by
  unfold spareTrim
  repeat' (first | with_reducible assumption | with_reducible apply State.draw_keeps | with_reducible apply setLive_keeps)

theorem spareConsume_keeps {z : State} {p i sl : Nat} {s : State} (h0 : Keeps z s) :
    Keeps z ((spareConsume p i sl s)) := by
  unfold spareConsume
  repeat' (first | with_reducible assumption | with_reducible apply State.set_keeps)

theorem spareLost_keeps {z : State} {p i : Nat} {s : State} (h0 : Keeps z s) :
    Keeps z ((spareLost p i s)) := by
  unfold spareLost
  repeat' (first | with_reducible assumption | with_reducible apply State.set_keeps)

theorem sliceFail_keeps {z : State} {p i sl : Nat} {s : State} (h0 : Keeps z s) :
    Keeps z ((sliceFail p i sl s)) := by
  unfold sliceFail
  repeat' (first | with_reducible assumption | with_reducible apply setLive_keeps | with_reducible apply State.raise_keeps | with_reducible apply spareLost_keeps | with_reducible apply spareConsume_keeps | with_reducible apply spareTrim_keeps | with_reducible apply State.set_keeps | (with_reducible apply Keeps.ite <;> intro _))

theorem calSlice_keeps {z : State} {p i sl : Nat} {tries : List Trial} {s : State} (h0 : Keeps z s) :
    Keeps z ((calSlice p i sl tries s)) := by
  unfold calSlice
  repeat' (first | with_reducible assumption | (intro u; first | (refine (fun (hu : ∀ a, Keeps z (u a)) => ?_) ?_; clear_value u; rotate_left; subst u; rotate_left) | (refine (fun (hu : Keeps z u) => ?_) ?_; clear_value u; rotate_left; subst u; rotate_left) | (refine (fun (hu : Keeps z u.2) => ?_) ?_; clear_value u; rotate_left; subst u; rotate_left) | (refine (fun (hu : Keeps z u.2.2) => ?_) ?_; clear_value u; rotate_left; subst u; rotate_left) | (refine (fun (hu : ∀ v, Keeps z v → Keeps z (u v)) => ?_) ?_; clear_value u; rotate_left; subst u; rotate_left) | (refine (fun (hu : ∀ v, Keeps z v → Keeps z (u v).2) => ?_) ?_; clear_value u; rotate_left; subst u; rotate_left) | (refine (fun (hu : ∀ a v, Keeps z v → Keeps z (u a v)) => ?_) ?_; clear_value u; rotate_left; subst u; rotate_left) | clear_value u) | with_reducible apply setLive_keeps | with_reducible apply sliceFail_keeps | lift_lets | split)

theorem markCal_keeps {z : State} {p i : Nat} {s : State} (h0 : Keeps z s) :
    Keeps z ((markCal p i s)) := by
  unfold markCal
  repeat' (first | with_reducible assumption | with_reducible apply setLive_keeps | (with_reducible apply Keeps.iter; intro _ _ _) | (with_reducible apply Keeps.ite <;> intro _))

theorem takeTLast_keeps {z : State} {p i : Nat} {s : State} (h0 : Keeps z s) :
    Keeps z ((takeTLast p i s)) := by
  unfold takeTLast
  repeat' (first | with_reducible assumption | (intro u; first | (refine (fun (hu : ∀ a, Keeps z (u a)) => ?_) ?_; clear_value u; rotate_left; subst u; rotate_left) | (refine (fun (hu : Keeps z u) => ?_) ?_; clear_value u; rotate_left; subst u; rotate_left) | (refine (fun (hu : Keeps z u.2) => ?_) ?_; clear_value u; rotate_left; subst u; rotate_left) | (refine (fun (hu : Keeps z u.2.2) => ?_) ?_; clear_value u; rotate_left; subst u; rotate_left) | (refine (fun (hu : ∀ v, Keeps z v → Keeps z (u v)) => ?_) ?_; clear_value u; rotate_left; subst u; rotate_left) | (refine (fun (hu : ∀ v, Keeps z v → Keeps z (u v).2) => ?_) ?_; clear_value u; rotate_left; subst u; rotate_left) | (refine (fun (hu : ∀ a v, Keeps z v → Keeps z (u a v)) => ?_) ?_; clear_value u; rotate_left; subst u; rotate_left) | clear_value u) | with_reducible apply State.set_keeps | with_reducible apply State.setI_keeps | lift_lets | split)

theorem queueBand_keeps {z : State} {p i : Nat} {s : State} (h0 : Keeps z s) :
    Keeps z ((queueBand p i s)) := by
  unfold queueBand
  repeat' (first | with_reducible assumption | with_reducible apply State.raise_keeps | with_reducible apply State.set_keeps | (with_reducible apply Keeps.ite <;> intro _))

theorem calTempTrigger_keeps {z : State} {p : Nat} {s : State} (h0 : Keeps z s) :
    Keeps z ((calTempTrigger p s)) := by
  unfold calTempTrigger
  repeat' (first | with_reducible assumption | with_reducible apply State.set_keeps | with_reducible apply queueBand_keeps | (with_reducible apply Keeps.iter; intro _ _ _) | (with_reducible apply Keeps.ite <;> intro _) | lift_lets | split)

theorem calAccept_keeps {z : State} {p cmd : Nat} {s : State} {go : State → State} (h0 : Keeps z s) (h1 : ∀ u, Keeps z u → Keeps z (go u)) :
    Keeps z ((calAccept p cmd s go)) := by
  unfold calAccept
  repeat' (first | with_reducible assumption | with_reducible apply h1 | with_reducible apply State.set_keeps | (with_reducible apply Keeps.ite <;> intro _))

theorem sweepStop_keeps {z : State} {p : Nat} {s : State} (h0 : Keeps z s) :
    Keeps z ((sweepStop p s)) := by
  unfold sweepStop
  repeat' (first | with_reducible assumption | with_reducible apply State.set_keeps | with_reducible apply State.modCal_keeps | (with_reducible apply Keeps.ite <;> intro _))

theorem calForeground_keeps {z : State} {p : Nat} {s : State} (h0 : Keeps z s) :
    Keeps z ((calForeground p s)) := by
  unfold calForeground
  repeat' (first | with_reducible assumption | intro _ _ | with_reducible apply calAccept_keeps | with_reducible apply sweepStop_keeps | with_reducible apply State.set_keeps)

theorem applyBand_keeps {z : State} {p i : Nat} {s : State} (h0 : Keeps z s) :
    Keeps z ((applyBand p i s)) := by
  unfold applyBand
  repeat' (first | with_reducible assumption | with_reducible apply setLive_keeps | with_reducible apply spareLost_keeps | with_reducible apply spareConsume_keeps | with_reducible apply spareTrim_keeps | with_reducible apply State.set_keeps | with_reducible apply State.raise_keeps | (with_reducible apply Keeps.iter; intro _ _ _) | (with_reducible apply Keeps.ite <;> intro _))

theorem calRestore_keeps {z : State} {p : Nat} {s : State} (h0 : Keeps z s) :
    Keeps z ((calRestore p s)) := by
  unfold calRestore
  repeat' (first | with_reducible assumption | intro _ _ | with_reducible apply calAccept_keeps | with_reducible apply State.modCal_keeps | with_reducible apply State.set_keeps | with_reducible apply dieLoad_keeps | with_reducible apply applyBand_keeps | (with_reducible apply Keeps.iter; intro _ _ _))

theorem calSnapshot_keeps {z : State} {p : Nat} {s : State} (h0 : Keeps z s) :
    Keeps z ((calSnapshot p s)) := by
  unfold calSnapshot
  repeat' (first | with_reducible assumption | intro _ _ | with_reducible apply calAccept_keeps | with_reducible apply State.modCal_keeps)

theorem calCommand_keeps {z : State} {p cmd : Nat} {s : State} (h0 : Keeps z s) :
    Keeps z ((calCommand p cmd s)) := by
  unfold calCommand
  repeat' (first | with_reducible assumption | with_reducible apply calForeground_keeps | with_reducible apply calRestore_keeps | with_reducible apply calSnapshot_keeps | (with_reducible apply Keeps.ite <;> intro _))

theorem calEnd_keeps {z : State} {p st : Nat} {s : State} (h0 : Keeps z s) :
    Keeps z ((calEnd p st s)) := by
  unfold calEnd
  repeat' (first | with_reducible assumption | with_reducible apply State.set_keeps)

theorem calBand_keeps {z : State} {p i : Nat} {trials : List SliceTrial} {words : List (Nat × Nat × Nat)} {s : State} (h0 : Keeps z s) :
    Keeps z ((calBand p i trials words s)) := by
  unfold calBand
  repeat' (first | with_reducible assumption | with_reducible apply calSlice_keeps | with_reducible apply markCal_keeps | with_reducible apply setLive_keeps | with_reducible apply dieReapply_keeps | with_reducible apply takeTLast_keeps | (with_reducible apply Keeps.foldl; intro _ _ _))

theorem calForegroundDone_keeps {z : State} {p : Nat} {trials : List SliceTrial} {words : List (Nat × Nat × Nat)} {failed : Bool} {s : State} (h0 : Keeps z s) :
    Keeps z ((calForegroundDone p trials words failed s)) := by
  unfold calForegroundDone
  repeat' (first | with_reducible assumption | with_reducible apply calEnd_keeps | with_reducible apply State.set_keeps | with_reducible apply State.raise_keeps | with_reducible apply calBand_keeps | (with_reducible apply Keeps.iter; intro _ _ _) | (with_reducible apply Keeps.ite <;> intro _))

theorem calRestoreDone_keeps {z : State} {p : Nat} {checks redo : List SliceTrial} {words : List (Nat × Nat × Nat)} {s : State} (h0 : Keeps z s) :
    Keeps z ((calRestoreDone p checks redo words s)) := by
  unfold calRestoreDone
  repeat' (first | with_reducible assumption | with_reducible apply calBand_keeps | with_reducible apply State.raise_keeps | with_reducible apply calEnd_keeps | with_reducible apply State.set_keeps | with_reducible apply queueBand_keeps | (with_reducible apply Keeps.iter; intro _ _ _) | (with_reducible apply Keeps.ite <;> intro _))

theorem calSnapshotDone_keeps {z : State} {p : Nat} {s : State} (h0 : Keeps z s) :
    Keeps z ((calSnapshotDone p s)) := by
  unfold calSnapshotDone
  repeat' (first | with_reducible assumption | with_reducible apply calEnd_keeps | with_reducible apply State.modCal_keeps | (with_reducible apply Keeps.ite <;> intro _))

theorem sweepBegin_keeps {z : State} {p : Nat} {s : State} (h0 : Keeps z s) :
    Keeps z ((sweepBegin p s)) := by
  unfold sweepBegin
  repeat' (first | with_reducible assumption | with_reducible apply State.set_keeps | with_reducible apply State.raise_keeps | with_reducible apply State.modCal_keeps | (with_reducible apply Keeps.ite <;> intro _) | lift_lets | split)

theorem sweepStep_keeps {z : State} {p : Nat} {tries : List Trial} {s : State} (h0 : Keeps z s) :
    Keeps z ((sweepStep p tries s)) := by
  unfold sweepStep
  repeat' (first | with_reducible assumption | with_reducible apply calSlice_keeps | with_reducible apply sweepStop_keeps | with_reducible apply spareTrim_keeps | with_reducible apply State.set_keeps | with_reducible apply State.modCal_keeps | (with_reducible apply Keeps.ite <;> intro _))

theorem sweepFinish_keeps {z : State} {p : Nat} {words : List (Nat × Nat)} {s : State} (h0 : Keeps z s) :
    Keeps z ((sweepFinish p words s)) := by
  unfold sweepFinish
  repeat' (first | with_reducible assumption | with_reducible apply setLive_keeps | with_reducible apply sweepStop_keeps | with_reducible apply dieReapply_keeps | with_reducible apply takeTLast_keeps | (with_reducible apply Keeps.foldl; intro _ _ _) | (with_reducible apply Keeps.ite <;> intro _))

theorem calPeriod_keeps {z : State} {p i : Nat} {s : State} (h0 : Keeps z s) :
    Keeps z ((calPeriod p i s)) := by
  unfold calPeriod
  repeat' (first | with_reducible assumption | with_reducible apply queueBand_keeps | (with_reducible apply Keeps.ite <;> intro _))

theorem calApply_keeps {z : State} {p : Nat} {adc dac : Bool} {s : State} (h0 : Keeps z s) :
    Keeps z ((calApply p adc dac s)) := by
  unfold calApply
  repeat' (first | with_reducible assumption | with_reducible apply queueBand_keeps | with_reducible apply sweepStop_keeps | with_reducible apply State.raise_keeps | with_reducible apply applyBand_keeps | (with_reducible apply Keeps.iter; intro _ _ _) | (with_reducible apply Keeps.ite <;> intro _))

theorem jnlCommand_keeps {z : State} {cmd : Nat} {s : State} (h0 : Keeps z s) :
    Keeps z ((jnlCommand cmd s).2) := by
  unfold jnlCommand
  repeat' (first | with_reducible assumption | with_reducible apply State.set_keeps | (with_reducible apply Keeps.ite_snd <;> intro _) | simp (zeta := false) only [Keeps.parts])

theorem State.modRxd_keeps {z : State} {s : State} {p : Nat} {f : RxdState → RxdState} (h0 : Keeps z s) :
    Keeps z ((State.modRxd s p f)) := by
  unfold State.modRxd
  repeat' (first | with_reducible assumption | with_reducible apply State.modPort_keeps)

theorem State.modTxd_keeps {z : State} {s : State} {p : Nat} {f : TxdState → TxdState} (h0 : Keeps z s) :
    Keeps z ((State.modTxd s p f)) := by
  unfold State.modTxd
  repeat' (first | with_reducible assumption | with_reducible apply State.modPort_keeps)

theorem State.modLfr_keeps {z : State} {s : State} {p : Nat} {f : LfrState → LfrState} (h0 : Keeps z s) :
    Keeps z ((State.modLfr s p f)) := by
  unfold State.modLfr
  repeat' (first | with_reducible assumption | with_reducible apply State.modPort_keeps)

theorem State.modSgp_keeps {z : State} {s : State} {p : Nat} {f : SgpState → SgpState} (h0 : Keeps z s) :
    Keeps z ((State.modSgp s p f)) := by
  unfold State.modSgp
  repeat' (first | with_reducible assumption | with_reducible apply State.modPort_keeps)

theorem State.modLcx_keeps {z : State} {s : State} {f : LcxState → LcxState} (h0 : Keeps z s) :
    Keeps z ((State.modLcx s f)) := by
  unfold State.modLcx
  repeat' (first | with_reducible assumption | simp (zeta := false) only [Keeps.parts])

theorem setDefect_keeps {z : State} {p e n : Nat} {on : Bool} {s : State} (h0 : Keeps z s) :
    Keeps z ((setDefect p e n on s)) := by
  unfold setDefect
  repeat' (first | with_reducible assumption | with_reducible apply State.modLfr_keeps | with_reducible apply State.raise_keeps | (with_reducible apply Keeps.ite <;> intro _))

theorem squelchOn_keeps {z : State} {s : State} (h0 : Keeps z s) :
    Keeps z ((squelchOn s)) := by
  unfold squelchOn
  repeat' (first | with_reducible assumption | with_reducible apply State.set_keeps | (with_reducible apply Keeps.ite <;> intro _))

theorem cipherLost_keeps {z : State} {p : Nat} {s : State} (h0 : Keeps z s) :
    Keeps z ((cipherLost p s)) := by
  unfold cipherLost
  repeat' (first | with_reducible assumption | with_reducible apply State.modLcx_keeps | (with_reducible apply Keeps.iter; intro _ _ _))

theorem tagsClear_keeps {z : State} {p : Nat} {s : State} (h0 : Keeps z s) :
    Keeps z ((tagsClear p s)) := by
  unfold tagsClear
  repeat' (first | with_reducible assumption | with_reducible apply State.modLcx_keeps | (with_reducible apply Keeps.iter; intro _ _ _))

theorem saDrop_keeps {z : State} {p : Nat} {s : State} (h0 : Keeps z s) :
    Keeps z ((saDrop p s)) := by
  unfold saDrop
  repeat' (first | with_reducible assumption | with_reducible apply State.modLfr_keeps | with_reducible apply State.set_keeps | with_reducible apply State.raise_keeps | with_reducible apply posStops_keeps | with_reducible apply cipherLost_keeps | with_reducible apply State.modPd_keeps | (with_reducible apply Keeps.ite <;> intro _))

theorem slipEmpty_keeps {z : State} {p : Nat} {s : State} (h0 : Keeps z s) :
    Keeps z ((slipEmpty p s)) := by
  unfold slipEmpty
  repeat' (first | with_reducible assumption | with_reducible apply State.modLfr_keeps)

theorem cwDrop_keeps {z : State} {p : Nat} {s : State} (h0 : Keeps z s) :
    Keeps z ((cwDrop p s)) := by
  unfold cwDrop
  repeat' (first | with_reducible assumption | with_reducible apply State.modRxd_keeps)

theorem faClear_keeps {z : State} {p : Nat} {s : State} (h0 : Keeps z s) :
    Keeps z ((faClear p s)) := by
  unfold faClear
  repeat' (first | with_reducible assumption | with_reducible apply State.set_keeps | with_reducible apply State.modLfr_keeps | with_reducible apply cwDrop_keeps | with_reducible apply State.modRxd_keeps | with_reducible apply slipEmpty_keeps | with_reducible apply setDefect_keeps | with_reducible apply squelchOn_keeps | with_reducible apply agcFaLost_keeps | with_reducible apply saDrop_keeps | (with_reducible apply Keeps.ite <;> intro _))

theorem candClear_keeps {z : State} {p : Nat} {s : State} (h0 : Keeps z s) :
    Keeps z ((candClear p s)) := by
  unfold candClear
  repeat' (first | with_reducible assumption | with_reducible apply State.set_keeps | (with_reducible apply Keeps.iter; intro _ _ _))

theorem rxLatency_keeps {z : State} {p : Nat} {s : State} (h0 : Keeps z s) :
    Keeps z ((rxLatency p s)) := by
  unfold rxLatency
  repeat' (first | with_reducible assumption | with_reducible apply State.draw_keeps | with_reducible apply State.set_keeps | (with_reducible apply Keeps.ite <;> intro _))

theorem rxTaps_keeps {z : State} {p : Nat} {s : State} (h0 : Keeps z s) :
    Keeps z ((rxTaps p s)) := by
  unfold rxTaps
  repeat' (first | with_reducible assumption | with_reducible apply State.set_keeps | with_reducible apply rxLatency_keeps | with_reducible apply State.modRxd_keeps | with_reducible apply State.raiseIf_keeps | (with_reducible apply Keeps.ite <;> intro _))

theorem rxNlc_keeps {z : State} {p : Nat} {s : State} (h0 : Keeps z s) :
    Keeps z ((rxNlc p s)) := by
  unfold rxNlc
  repeat' (first | with_reducible assumption | with_reducible apply State.setI_keeps | with_reducible apply State.set_keeps | lift_lets | split)

theorem fecCap_keeps {z : State} {p : Nat} {s : State} (h0 : Keeps z s) :
    Keeps z ((fecCap p s)) := by
  unfold fecCap
  repeat' (first | with_reducible assumption | with_reducible apply State.set_keeps)

theorem rxFrameStep_keeps {z : State} {p : Nat} {s : State} (h0 : Keeps z s) :
    Keeps z ((rxFrameStep p s)) := by
  unfold rxFrameStep
  repeat' (first | with_reducible assumption | with_reducible apply fecCap_keeps | with_reducible apply rxNlc_keeps | with_reducible apply rxTaps_keeps)

theorem throttleApply_keeps {z : State} {p : Nat} {s : State} (h0 : Keeps z s) :
    Keeps z ((throttleApply p s)) := by
  unfold throttleApply
  repeat' (first | with_reducible assumption | with_reducible apply rxFrameStep_keeps | with_reducible apply State.modRxd_keeps)

theorem corrRestart_keeps {z : State} {p : Nat} {s : State} (h0 : Keeps z s) :
    Keeps z ((corrRestart p s)) := by
  unfold corrRestart
  repeat' (first | with_reducible assumption | with_reducible apply State.set_keeps | (with_reducible apply Keeps.iter; intro _ _ _) | (with_reducible apply Keeps.ite <;> intro _))

theorem phyFollow_keeps {z : State} {s : State} (h0 : Keeps z s) :
    Keeps z ((phyFollow s)) := by
  unfold phyFollow
  repeat' (first | with_reducible assumption | with_reducible apply powerDown_keeps | with_reducible apply powerUp_keeps | (with_reducible apply Keeps.ite <;> intro _))

theorem phyWrite_keeps {z : State} {f : Fld} {old : State} {new : State} (h0 : Keeps z old) (h1 : Keeps z new) :
    Keeps z ((phyWrite f old new).2) := by
  unfold phyWrite
  repeat' (first | with_reducible assumption | with_reducible apply powerUp_keeps | with_reducible apply State.set_keeps | with_reducible apply phyFollow_keeps | (with_reducible apply Keeps.ite_snd <;> intro _))

theorem corrFollow_keeps {z : State} {p : Nat} {s : State} (h0 : Keeps z s) :
    Keeps z ((corrFollow p s)) := by
  unfold corrFollow
  repeat' (first | with_reducible assumption | with_reducible apply State.set_keeps | with_reducible apply State.modSgp_keeps | (with_reducible apply Keeps.iter; intro _ _ _) | (with_reducible apply Keeps.ite <;> intro _))

theorem setCd_keeps {z : State} {p : Nat} {x : Int} {s : State} (h0 : Keeps z s) :
    Keeps z ((setCd p x s)) := by
  unfold setCd
  repeat' (first | with_reducible assumption | with_reducible apply State.setI_keeps | with_reducible apply State.modRxd_keeps | with_reducible apply rxLatency_keeps | (with_reducible apply Keeps.ite <;> intro _))

theorem applyCd_keeps {z : State} {p : Nat} {x : Int} {s : State} (h0 : Keeps z s) :
    Keeps z ((applyCd p x s)) := by
  unfold applyCd
  repeat' (first | with_reducible assumption | with_reducible apply setCd_keeps | with_reducible apply State.modRxd_keeps)

theorem acqStart_keeps {z : State} {p : Nat} {s : State} (h0 : Keeps z s) :
    Keeps z ((acqStart p s)) := by
  unfold acqStart
  repeat' (first | with_reducible assumption | with_reducible apply State.modRxd_keeps)

theorem eqStart_keeps {z : State} {p : Nat} {s : State} (h0 : Keeps z s) :
    Keeps z ((eqStart p s)) := by
  unfold eqStart
  repeat' (first | with_reducible assumption | with_reducible apply State.modRxd_keeps)

theorem rxEnter_keeps {z : State} {p st : Nat} {s : State} (h0 : Keeps z s) :
    Keeps z ((rxEnter p st s)) := by
  unfold rxEnter
  repeat' (first | with_reducible assumption | with_reducible apply State.set_keeps | with_reducible apply acqStart_keeps | with_reducible apply eqStart_keeps | with_reducible apply candClear_keeps | with_reducible apply faClear_keeps | with_reducible apply corrRestart_keeps | (with_reducible apply Keeps.ite <;> intro _))

theorem rxBeacon_keeps {z : State} {p : Nat} {s : State} (h0 : Keeps z s) :
    Keeps z ((rxBeacon p s)) := by
  unfold rxBeacon
  repeat' (first | with_reducible assumption | with_reducible apply rxEnter_keeps | with_reducible apply State.set_keeps | with_reducible apply State.modRxd_keeps)

theorem rxFail_keeps {z : State} {p : Nat} {s : State} (h0 : Keeps z s) :
    Keeps z ((rxFail p s)) := by
  unfold rxFail
  repeat' (first | with_reducible assumption | with_reducible apply State.raise_keeps | with_reducible apply State.addSat_keeps | with_reducible apply State.set_keeps | with_reducible apply State.modRxd_keeps | with_reducible apply rxBeacon_keeps | (with_reducible apply Keeps.ite <;> intro _))

theorem rxFreq_keeps {z : State} {p : Nat} {s : State} (h0 : Keeps z s) :
    Keeps z ((rxFreq p s)) := by
  unfold rxFreq
  repeat' (first | with_reducible assumption | with_reducible apply State.set_keeps | with_reducible apply rxEnter_keeps)

theorem rxJudge_keeps {z : State} {p : Nat} {s : State} (h0 : Keeps z s) :
    Keeps z ((rxJudge p s)) := by
  unfold rxJudge
  repeat' (first | with_reducible assumption | with_reducible apply State.set_keeps | with_reducible apply rxFreq_keeps | (with_reducible apply Keeps.ite <;> intro _))

theorem State.modChain_keeps {z : State} {s : State} {c : Nat} {f : FmnChain → FmnChain} (h0 : Keeps z s) :
    Keeps z ((State.modChain s c f)) := by
  unfold State.modChain
  repeat' (first | with_reducible assumption | simp (zeta := false) only [Keeps.parts])

theorem fmnReset_keeps {z : State} {c : Nat} {s : State} (h0 : Keeps z s) :
    Keeps z ((fmnReset c s)) := by
  unfold fmnReset
  repeat' (first | with_reducible assumption | with_reducible apply State.modChain_keeps | with_reducible apply State.set_keeps)

theorem fmnResume_keeps {z : State} {p : Nat} {s : State} (h0 : Keeps z s) :
    Keeps z ((fmnResume p s)) := by
  unfold fmnResume
  repeat' (first | with_reducible assumption | with_reducible apply fmnReset_keeps | with_reducible apply State.set_keeps | (with_reducible apply Keeps.iter; intro _ _ _) | (with_reducible apply Keeps.ite <;> intro _))

theorem rxEnable_keeps {z : State} {p : Nat} {s : State} (h0 : Keeps z s) :
    Keeps z ((rxEnable p s)) := by
  unfold rxEnable
  repeat' (first | with_reducible assumption | with_reducible apply State.set_keeps | with_reducible apply State.modRxd_keeps | with_reducible apply setDefect_keeps | with_reducible apply fmnResume_keeps | with_reducible apply agcSettle_keeps | with_reducible apply corrFollow_keeps | with_reducible apply rxBeacon_keeps | (with_reducible apply Keeps.ite <;> intro _))

theorem negDrop_keeps {z : State} {p : Nat} {s : State} (h0 : Keeps z s) :
    Keeps z ((negDrop p s)) := by
  unfold negDrop
  repeat' (first | with_reducible assumption | with_reducible apply State.set_keeps | with_reducible apply State.raiseIf_keeps)

theorem fmnStall_keeps {z : State} {p : Nat} {s : State} (h0 : Keeps z s) :
    Keeps z ((fmnStall p s)) := by
  unfold fmnStall
  repeat' (first | with_reducible assumption | with_reducible apply State.set_keeps | with_reducible apply State.raise_keeps | (with_reducible apply Keeps.iter; intro _ _ _) | (with_reducible apply Keeps.ite <;> intro _))

theorem rxDisable_keeps {z : State} {p : Nat} {s : State} (h0 : Keeps z s) :
    Keeps z ((rxDisable p s)) := by
  unfold rxDisable
  repeat' (first | with_reducible assumption | with_reducible apply State.set_keeps | with_reducible apply rxEnter_keeps | with_reducible apply State.modRxd_keeps | with_reducible apply fmnStall_keeps | with_reducible apply agcSettle_keeps | with_reducible apply negDrop_keeps | with_reducible apply corrFollow_keeps | (with_reducible apply Keeps.ite <;> intro _))

theorem losDeclare_keeps {z : State} {p : Nat} {s : State} (h0 : Keeps z s) :
    Keeps z ((losDeclare p s)) := by
  unfold losDeclare
  repeat' (first | with_reducible assumption | with_reducible apply State.modRxd_keeps | with_reducible apply State.raise_keeps | with_reducible apply rxBeacon_keeps | with_reducible apply rxFail_keeps | (with_reducible apply Keeps.ite <;> intro _))

theorem losClear_keeps {z : State} {p : Nat} {s : State} (h0 : Keeps z s) :
    Keeps z ((losClear p s)) := by
  unfold losClear
  repeat' (first | with_reducible assumption | with_reducible apply rxJudge_keeps | with_reducible apply State.modRxd_keeps)

theorem losJudge_keeps {z : State} {p : Nat} {s : State} (h0 : Keeps z s) :
    Keeps z ((losJudge p s)) := by
  unfold losJudge
  repeat' (first | with_reducible assumption | with_reducible apply State.modRxd_keeps | with_reducible apply losDeclare_keeps | with_reducible apply losClear_keeps | (with_reducible apply Keeps.ite <;> intro _))

theorem payloadSeen_keeps {z : State} {p : Nat} {present : Bool} {s : State} (h0 : Keeps z s) :
    Keeps z ((payloadSeen p present s)) := by
  unfold payloadSeen
  repeat' (first | with_reducible assumption | with_reducible apply rxJudge_keeps | with_reducible apply State.modRxd_keeps | (with_reducible apply Keeps.ite <;> intro _))

theorem rxPreamble_keeps {z : State} {p : Nat} {s : State} (h0 : Keeps z s) :
    Keeps z ((rxPreamble p s)) := by
  unfold rxPreamble
  repeat' (first | with_reducible assumption | with_reducible apply rxJudge_keeps | with_reducible apply State.set_keeps | (with_reducible apply Keeps.ite <;> intro _))

theorem warmCd_keeps {z : State} {p : Nat} {s : State} (h0 : Keeps z s) :
    Keeps z ((warmCd p s)) := by
  unfold warmCd
  repeat' (first | with_reducible assumption | with_reducible apply State.set_keeps | with_reducible apply applyCd_keeps | (with_reducible apply Keeps.ite <;> intro _))

theorem scanFail_keeps {z : State} {p : Nat} {s : State} (h0 : Keeps z s) :
    Keeps z ((scanFail p s)) := by
  unfold scanFail
  repeat' (first | with_reducible assumption | with_reducible apply rxFail_keeps | with_reducible apply State.raise_keeps)

theorem freqDone_keeps {z : State} {p : Nat} {fo : Int} {s : State} (h0 : Keeps z s) :
    Keeps z ((freqDone p fo s)) := by
  unfold freqDone
  repeat' (first | with_reducible assumption | with_reducible apply State.setI_keeps | with_reducible apply State.set_keeps | with_reducible apply rxEnter_keeps | with_reducible apply warmCd_keeps | with_reducible apply scanFail_keeps | (with_reducible apply Keeps.ite <;> intro _))

theorem scanEnd_keeps {z : State} {p : Nat} {coarse fine : List Nat} {s : State} (h0 : Keeps z s) :
    Keeps z ((scanEnd p coarse fine s)) := by
  unfold scanEnd
  repeat' (first | with_reducible assumption | with_reducible apply scanFail_keeps | with_reducible apply rxEnter_keeps | with_reducible apply applyCd_keeps | (with_reducible apply Keeps.ite <;> intro _))

theorem eqDone_keeps {z : State} {p : Nat} {s : State} (h0 : Keeps z s) :
    Keeps z ((eqDone p s)) := by
  unfold eqDone
  repeat' (first | with_reducible assumption | with_reducible apply rxEnter_keeps | (with_reducible apply Keeps.ite <;> intro _))

theorem acqExpiry_keeps {z : State} {p : Nat} {s : State} (h0 : Keeps z s) :
    Keeps z ((acqExpiry p s)) := by
  unfold acqExpiry
  repeat' (first | with_reducible assumption | with_reducible apply rxFail_keeps | (with_reducible apply Keeps.ite <;> intro _))

theorem rxFaDeclared_keeps {z : State} {p : Nat} {s : State} (h0 : Keeps z s) :
    Keeps z ((rxFaDeclared p s)) := by
  unfold rxFaDeclared
  repeat' (first | with_reducible assumption | with_reducible apply rxEnter_keeps | (with_reducible apply Keeps.ite <;> intro _))

theorem rxFaLost_keeps {z : State} {p : Nat} {s : State} (h0 : Keeps z s) :
    Keeps z ((rxFaLost p s)) := by
  unfold rxFaLost
  repeat' (first | with_reducible assumption | with_reducible apply rxEnter_keeps | with_reducible apply State.raise_keeps | (with_reducible apply Keeps.ite <;> intro _))

theorem fecLock_keeps {z : State} {p : Nat} {s : State} (h0 : Keeps z s) :
    Keeps z ((fecLock p s)) := by
  unfold fecLock
  repeat' (first | with_reducible assumption | with_reducible apply rxEnter_keeps | with_reducible apply State.modRxd_keeps | with_reducible apply rxLatency_keeps | with_reducible apply State.set_keeps | with_reducible apply State.raise_keeps | (with_reducible apply Keeps.ite <;> intro _))

theorem fecUnlock_keeps {z : State} {p : Nat} {s : State} (h0 : Keeps z s) :
    Keeps z ((fecUnlock p s)) := by
  unfold fecUnlock
  repeat' (first | with_reducible assumption | with_reducible apply rxEnter_keeps | with_reducible apply State.modRxd_keeps | with_reducible apply State.raise_keeps | (with_reducible apply Keeps.ite <;> intro _))

theorem fecJudge_keeps {z : State} {p : Nat} {s : State} (h0 : Keeps z s) :
    Keeps z ((fecJudge p s)) := by
  unfold fecJudge
  repeat' (first | with_reducible assumption | with_reducible apply State.modRxd_keeps | with_reducible apply fecLock_keeps | with_reducible apply fecUnlock_keeps | (with_reducible apply Keeps.ite <;> intro _))

theorem foUpdate_keeps {z : State} {p : Nat} {fo : Int} {s : State} (h0 : Keeps z s) :
    Keeps z ((foUpdate p fo s)) := by
  unfold foUpdate
  repeat' (first | with_reducible assumption | with_reducible apply State.setI_keeps | with_reducible apply rxBeacon_keeps | with_reducible apply State.raise_keeps | (with_reducible apply Keeps.ite <;> intro _))

theorem cdTrack_keeps {z : State} {p : Nat} {step : Int} {s : State} (h0 : Keeps z s) :
    Keeps z ((cdTrack p step s)) := by
  unfold cdTrack
  repeat' (first | with_reducible assumption | with_reducible apply setCd_keeps | (with_reducible apply Keeps.ite <;> intro _))

theorem rxRungTaken_keeps {z : State} {p : Nat} {old : Rung} {baud : Nat} {s : State} (h0 : Keeps z s) :
    Keeps z ((rxRungTaken p old baud s)) := by
  unfold rxRungTaken
  repeat' (first | with_reducible assumption | with_reducible apply corrRestart_keeps | with_reducible apply saDrop_keeps | with_reducible apply rxEnter_keeps | with_reducible apply State.set_keeps | with_reducible apply State.modRxd_keeps | (with_reducible apply Keeps.ite <;> intro _))

theorem rxRateChange_keeps {z : State} {p i : Nat} {s : State} (h0 : Keeps z s) :
    Keeps z ((rxRateChange p i s)) := by
  unfold rxRateChange
  repeat' (first | with_reducible assumption | with_reducible apply rxRungTaken_keeps | with_reducible apply State.set_keeps)

theorem estHead_keeps {z : State} {p swath v : Nat} {sa act : Bool} {s : State} (h0 : Keeps z s) :
    Keeps z ((estHead p swath v sa act s)) := by
  unfold estHead
  repeat' (first | with_reducible assumption | with_reducible apply State.set_keeps)

theorem estLanes_keeps {z : State} {p v subs : Nat} {e : Estimates} {s : State} (h0 : Keeps z s) :
    Keeps z ((estLanes p v subs e s)) := by
  unfold estLanes
  repeat' (first | with_reducible assumption | with_reducible apply State.setI_keeps | with_reducible apply State.set_keeps | (with_reducible apply Keeps.iter; intro _ _ _) | (with_reducible apply Keeps.ite <;> intro _))

theorem estLine_keeps {z : State} {p v nl osnr : Nat} {e : Estimates} {s : State} (h0 : Keeps z s) :
    Keeps z ((estLine p v nl osnr e s)) := by
  unfold estLine
  repeat' (first | with_reducible assumption | with_reducible apply State.setI_keeps | with_reducible apply State.set_keeps | (with_reducible apply Keeps.ite <;> intro _))

theorem estBer_keeps {z : State} {p v : Nat} {x : RxdState} {s : State} (h0 : Keeps z s) :
    Keeps z ((estBer p v x s)) := by
  unfold estBer
  repeat' (first | with_reducible assumption | with_reducible apply State.set_keeps | with_reducible apply State.modRxd_keeps | (with_reducible apply Keeps.ite <;> intro _))

theorem estDemap_keeps {z : State} {p : Nat} {e : Estimates} {s : State} (h0 : Keeps z s) :
    Keeps z ((estDemap p e s)) := by
  unfold estDemap
  repeat' (first | with_reducible assumption | with_reducible apply State.modRxd_keeps)

theorem estIqc_keeps {z : State} {p : Nat} {l : List (Int × Int × Int)} {s : State} (h0 : Keeps z s) :
    Keeps z ((estIqc p l s)) := by
  unfold estIqc
  repeat' (first | with_reducible assumption | with_reducible apply State.setI_keeps | (with_reducible apply Keeps.iter; intro _ _ _))

theorem estLatch_keeps {z : State} {p : Nat} {e : Estimates} {s : State} (h0 : Keeps z s) :
    Keeps z ((estLatch p e s)) := by
  unfold estLatch
  repeat' (first | with_reducible assumption | with_reducible apply estLanes_keeps | with_reducible apply estHead_keeps | with_reducible apply estLine_keeps | with_reducible apply estDemap_keeps | with_reducible apply estBer_keeps | with_reducible apply estIqc_keeps | with_reducible apply State.raise_keeps | (with_reducible apply Keeps.ite <;> intro _))

theorem txqShow_keeps {z : State} {p : Nat} {s : State} (h0 : Keeps z s) :
    Keeps z ((txqShow p s)) := by
  unfold txqShow
  repeat' (first | with_reducible assumption | with_reducible apply State.set_keeps)

theorem armBuf_keeps {z : State} {p b : Nat} {s : State} (h0 : Keeps z s) :
    Keeps z ((armBuf p b s).2) := by
  unfold armBuf
  repeat' (first | with_reducible assumption | with_reducible apply State.raise_keeps | with_reducible apply txqShow_keeps | with_reducible apply State.set_keeps | with_reducible apply State.modSgp_keeps | (with_reducible apply Keeps.ite_snd <;> intro _))

theorem setTxType_keeps {z : State} {p b t : Nat} {s : State} (h0 : Keeps z s) :
    Keeps z ((setTxType p b t s)) := by
  unfold setTxType
  repeat' (first | with_reducible assumption | with_reducible apply State.set_keeps | (with_reducible apply Keeps.ite <;> intro _))

theorem loadBuf_keeps {z : State} {p b : Nat} {m : CoreMsg} {s : State} (h0 : Keeps z s) :
    Keeps z ((loadBuf p b m s)) := by
  unfold loadBuf
  repeat' (first | with_reducible assumption | with_reducible apply State.modSgp_keeps | with_reducible apply setTxType_keeps | with_reducible apply State.set_keeps)

theorem corePump_keeps {z : State} {p : Nat} : ∀ {n : Nat} {s : State}, Keeps z s → Keeps z (corePump p n s)
  | 0, _, h => h
  | n + 1, s, h => by
    unfold corePump
    split
    · exact corePump_keeps (armBuf_keeps (loadBuf_keeps (State.modSgp_keeps h)))
    · exact h

theorem coreSend_keeps {z : State} {p t : Nat} {body : List Nat} {s : State} (h0 : Keeps z s) :
    Keeps z ((coreSend p t body s)) := by
  unfold coreSend
  repeat' (first | with_reducible assumption | with_reducible apply corePump_keeps | with_reducible apply State.modSgp_keeps | (with_reducible apply Keeps.ite <;> intro _))

theorem State.modSess_keeps {z : State} {s : State} {n : Nat} {f : Session → Session} (h0 : Keeps z s) :
    Keeps z ((State.modSess s n f)) := by
  unfold State.modSess
  repeat' (first | with_reducible assumption | simp (zeta := false) only [Keeps.parts])

theorem packetStart_keeps {z : State} {p gap : Nat} {s : State} (h0 : Keeps z s) :
    Keeps z ((packetStart p gap s)) := by
  unfold packetStart
  repeat' (first | with_reducible assumption | with_reducible apply txqShow_keeps | with_reducible apply State.modSgp_keeps | with_reducible apply State.set_keeps | with_reducible apply State.raise_keeps | with_reducible apply State.modSess_keeps | (with_reducible apply Keeps.ite <;> intro _) | lift_lets | split)

theorem txDone_keeps {z : State} {p : Nat} {s : State} (h0 : Keeps z s) :
    Keeps z ((txDone p s)) := by
  unfold txDone
  repeat' (first | with_reducible assumption | (intro u; first | (refine (fun (hu : ∀ a, Keeps z (u a)) => ?_) ?_; clear_value u; rotate_left; subst u; rotate_left) | (refine (fun (hu : Keeps z u) => ?_) ?_; clear_value u; rotate_left; subst u; rotate_left) | (refine (fun (hu : Keeps z u.2) => ?_) ?_; clear_value u; rotate_left; subst u; rotate_left) | (refine (fun (hu : Keeps z u.2.2) => ?_) ?_; clear_value u; rotate_left; subst u; rotate_left) | (refine (fun (hu : ∀ v, Keeps z v → Keeps z (u v)) => ?_) ?_; clear_value u; rotate_left; subst u; rotate_left) | (refine (fun (hu : ∀ v, Keeps z v → Keeps z (u v).2) => ?_) ?_; clear_value u; rotate_left; subst u; rotate_left) | (refine (fun (hu : ∀ a v, Keeps z v → Keeps z (u a v)) => ?_) ?_; clear_value u; rotate_left; subst u; rotate_left) | clear_value u) | with_reducible apply State.modSgp_keeps | with_reducible apply State.set_keeps | with_reducible apply State.raise_keeps | with_reducible apply corePump_keeps | lift_lets | split)

theorem corrCount_keeps {z : State} {p k i n : Nat} {s : State} (h0 : Keeps z s) :
    Keeps z ((corrCount p k i n s)) := by
  unfold corrCount
  repeat' (first | with_reducible assumption | with_reducible apply State.addSat_keeps)

theorem State.modCorr_keeps {z : State} {s : State} {p k : Nat} {f : CorrPkt → CorrPkt} (h0 : Keeps z s) :
    Keeps z ((State.modCorr s p k f)) := by
  unfold State.modCorr
  repeat' (first | with_reducible assumption | with_reducible apply State.modSgp_keeps)

theorem corrSync_keeps {z : State} {p k m : Nat} {rel fo : Int} {s : State} (h0 : Keeps z s) :
    Keeps z ((corrSync p k m rel fo s)) := by
  unfold corrSync
  repeat' (first | with_reducible assumption | with_reducible apply State.set_keeps | with_reducible apply State.modCorr_keeps | with_reducible apply State.setI_keeps | (with_reducible apply Keeps.ite <;> intro _))

theorem preamble_keeps {z : State} {p k m run : Nat} {rel fo : Int} {joint : Bool} {s : State} (h0 : Keeps z s) :
    Keeps z ((preamble p k m run rel fo joint s)) := by
  unfold preamble
  repeat' (first | with_reducible assumption | with_reducible apply corrSync_keeps | with_reducible apply rxPreamble_keeps | with_reducible apply agcPreamble_keeps | with_reducible apply State.raise_keeps | with_reducible apply corrCount_keeps | with_reducible apply State.set_keeps | (with_reducible apply Keeps.ite <;> intro _))

theorem delimiter_keeps {z : State} {p k : Nat} {s : State} (h0 : Keeps z s) :
    Keeps z ((delimiter p k s)) := by
  unfold delimiter
  repeat' (first | with_reducible assumption | with_reducible apply State.set_keeps | with_reducible apply State.modCorr_keeps | (with_reducible apply Keeps.ite <;> intro _))

theorem delimTimeout_keeps {z : State} {p k : Nat} {s : State} (h0 : Keeps z s) :
    Keeps z ((delimTimeout p k s)) := by
  unfold delimTimeout
  repeat' (first | with_reducible assumption | with_reducible apply corrCount_keeps | with_reducible apply State.set_keeps | (with_reducible apply Keeps.ite <;> intro _))

theorem headerDecode_keeps {z : State} {p k h : Nat} {s : State} (h0 : Keeps z s) :
    Keeps z ((headerDecode p k h s)) := by
  unfold headerDecode
  repeat' (first | with_reducible assumption | with_reducible apply corrCount_keeps | with_reducible apply State.set_keeps | with_reducible apply State.raise_keeps | with_reducible apply State.modCorr_keeps | (with_reducible apply Keeps.ite <;> intro _))

theorem seqGap_keeps {z : State} {p k seq : Nat} {s : State} (h0 : Keeps z s) :
    Keeps z ((seqGap p k seq s)) := by
  unfold seqGap
  repeat' (first | with_reducible assumption | with_reducible apply State.modSgp_keeps | with_reducible apply corrCount_keeps | with_reducible apply State.raise_keeps | (with_reducible apply Keeps.ite <;> intro _))

theorem undelivered_keeps {z : State} {p k : Nat} {s : State} (h0 : Keeps z s) :
    Keeps z ((undelivered p k s)) := by
  unfold undelivered
  repeat' (first | with_reducible assumption | with_reducible apply corrCount_keeps)

theorem route_keeps {z : State} {p k : Nat} {c : CorrPkt} {msg : List Nat} {s : State} (h0 : Keeps z s) :
    Keeps z ((route p k c msg s)) := by
  unfold route
  repeat' (first | with_reducible assumption | with_reducible apply corrCount_keeps | with_reducible apply State.raise_keeps | with_reducible apply State.modSgp_keeps | with_reducible apply undelivered_keeps | (with_reducible apply Keeps.ite <;> intro _))

theorem deliverPkt_keeps {z : State} {p k : Nat} {c : CorrPkt} {body : List Nat} {s : State} (h0 : Keeps z s) :
    Keeps z ((deliverPkt p k c body s)) := by
  unfold deliverPkt
  repeat' (first | with_reducible assumption | with_reducible apply corrCount_keeps | with_reducible apply State.raise_keeps | with_reducible apply State.modSess_keeps | with_reducible apply route_keeps | (with_reducible apply Keeps.ite <;> intro _))

theorem bodyDecode_keeps {z : State} {p k : Nat} {body : List Nat} {crc : Nat} {s : State} (h0 : Keeps z s) :
    Keeps z ((bodyDecode p k body crc s)) := by
  unfold bodyDecode
  repeat' (first | with_reducible assumption | with_reducible apply State.set_keeps | with_reducible apply corrCount_keeps | with_reducible apply State.raise_keeps | with_reducible apply deliverPkt_keeps | with_reducible apply seqGap_keeps | (with_reducible apply Keeps.ite <;> intro _))

theorem takeMsg_keeps {z : State} {p t : Nat} {body : List Nat} {s : State} (h0 : Keeps z s) :
    Keeps z ((takeMsg p t body s)) := by
  unfold takeMsg
  repeat' (first | with_reducible assumption | with_reducible apply State.modSgp_keeps)

theorem rxqPop_keeps {z : State} {p : Nat} {s : State} (h0 : Keeps z s) :
    Keeps z ((rxqPop p s)) := by
  unfold rxqPop
  repeat' (first | with_reducible assumption | with_reducible apply State.modSgp_keeps)

theorem corrWrite_keeps {z : State} {p k : Nat} {en code thr : Option Nat} {s : State} (h0 : Keeps z s) :
    Keeps z ((corrWrite p k en code thr s)) := by
  unfold corrWrite
  repeat' (first | with_reducible assumption | with_reducible apply State.set_keeps)

theorem helloSend_keeps {z : State} {p : Nat} {s : State} (h0 : Keeps z s) :
    Keeps z ((helloSend p s)) := by
  unfold helloSend
  repeat' (first | with_reducible assumption | with_reducible apply coreSend_keeps | (with_reducible apply Keeps.ite <;> intro _))

theorem negJudge_keeps {z : State} {p : Nat} {s : State} (h0 : Keeps z s) :
    Keeps z ((negJudge p s)) := by
  unfold negJudge
  repeat' (first | with_reducible assumption | with_reducible apply State.set_keeps | with_reducible apply State.raiseIf_keeps)

theorem helloReceive_keeps {z : State} {p : Nat} {b : List Nat} {s : State} (h0 : Keeps z s) :
    Keeps z ((helloReceive p b s)) := by
  unfold helloReceive
  repeat' (first | with_reducible assumption | with_reducible apply takeMsg_keeps | with_reducible apply State.modSgp_keeps | with_reducible apply State.set_keeps | with_reducible apply negJudge_keeps | (with_reducible apply Keeps.ite <;> intro _))

theorem peerTimeout_keeps {z : State} {p : Nat} {s : State} (h0 : Keeps z s) :
    Keeps z ((peerTimeout p s)) := by
  unfold peerTimeout
  repeat' (first | with_reducible assumption | with_reducible apply negDrop_keeps | (with_reducible apply Keeps.ite <;> intro _))

theorem senseSend_keeps {z : State} {p c kind rate : Nat} {s : State} (h0 : Keeps z s) :
    Keeps z ((senseSend p c kind rate s)) := by
  unfold senseSend
  repeat' (first | with_reducible assumption | with_reducible apply coreSend_keeps | with_reducible apply State.modSgp_keeps | (with_reducible apply Keeps.ite <;> intro _))

theorem judgeAdj_keeps {z : State} {p d : Nat} {s : State} (h0 : Keeps z s) :
    Keeps z ((judgeAdj p d s)) := by
  unfold judgeAdj
  repeat' (first | with_reducible assumption | with_reducible apply State.set_keeps | with_reducible apply State.raiseIf_keeps | (with_reducible apply Keeps.ite <;> intro _))

theorem txLatency_keeps {z : State} {p : Nat} {s : State} (h0 : Keeps z s) :
    Keeps z ((txLatency p s)) := by
  unfold txLatency
  repeat' (first | with_reducible assumption | with_reducible apply State.draw_keeps | with_reducible apply State.set_keeps)

theorem txDelays_keeps {z : State} {p : Nat} {s : State} (h0 : Keeps z s) :
    Keeps z ((txDelays p s)) := by
  unfold txDelays
  repeat' (first | with_reducible assumption | with_reducible apply State.modTxd_keeps)

theorem setShare_keeps {z : State} {p : Nat} {c : Int} {s : State} (h0 : Keeps z s) :
    Keeps z ((setShare p c s)) := by
  unfold setShare
  repeat' (first | with_reducible assumption | with_reducible apply txDelays_keeps | with_reducible apply State.setI_keeps | with_reducible apply txLatency_keeps | (with_reducible apply Keeps.ite <;> intro _))

theorem applyShare_keeps {z : State} {p : Nat} {x : Int} {s : State} (h0 : Keeps z s) :
    Keeps z ((applyShare p x s)) := by
  unfold applyShare
  repeat' (first | with_reducible assumption | with_reducible apply setShare_keeps | with_reducible apply State.modTxd_keeps | with_reducible apply State.raiseIf_keeps)

theorem shareFollow_keeps {z : State} {p : Nat} {s : State} (h0 : Keeps z s) :
    Keeps z ((shareFollow p s)) := by
  unfold shareFollow
  repeat' (first | with_reducible assumption | with_reducible apply applyShare_keeps | with_reducible apply setShare_keeps | (with_reducible apply Keeps.ite <;> intro _))

theorem sharePending_keeps {z : State} {p : Nat} {s : State} (h0 : Keeps z s) :
    Keeps z ((sharePending p s)) := by
  unfold sharePending
  repeat' (first | with_reducible assumption | with_reducible apply applyShare_keeps | with_reducible apply State.modTxd_keeps | split)

theorem shareWrite_keeps {z : State} {p : Nat} {x : Int} {boundary : Bool} {s : State} (h0 : Keeps z s) :
    Keeps z ((shareWrite p x boundary s)) := by
  unfold shareWrite
  repeat' (first | with_reducible assumption | with_reducible apply applyShare_keeps | with_reducible apply State.modTxd_keeps | (with_reducible apply Keeps.ite <;> intro _))

theorem txPayload_keeps {z : State} {p : Nat} {s : State} (h0 : Keeps z s) :
    Keeps z ((txPayload p s)) := by
  unfold txPayload
  repeat' (first | with_reducible assumption | with_reducible apply State.set_keeps | with_reducible apply tagsClear_keeps | with_reducible apply State.modTxd_keeps | with_reducible apply State.modPd_keeps | with_reducible apply staleBelow_keeps | with_reducible apply judgeAdj_keeps | with_reducible apply txLatency_keeps | with_reducible apply applyShare_keeps)

theorem txModeWrite_keeps {z : State} {p mode : Nat} {s : State} (h0 : Keeps z s) :
    Keeps z ((txModeWrite p mode s).2) := by
  unfold txModeWrite
  repeat' (first | with_reducible assumption | with_reducible apply State.set_keeps | with_reducible apply txPayload_keeps | (with_reducible apply Keeps.ite_snd <;> intro _))

theorem txStop_keeps {z : State} {p : Nat} {s : State} (h0 : Keeps z s) :
    Keeps z ((txStop p s)) := by
  unfold txStop
  repeat' (first | with_reducible assumption | with_reducible apply State.set_keeps | with_reducible apply State.modPd_keeps | with_reducible apply posStops_keeps | (with_reducible apply Keeps.ite <;> intro _))

theorem txOff_keeps {z : State} {p : Nat} {s : State} (h0 : Keeps z s) :
    Keeps z ((txOff p s)) := by
  unfold txOff
  repeat' (first | with_reducible assumption | with_reducible apply State.set_keeps | with_reducible apply State.modPd_keeps)

theorem txRungTaken_keeps {z : State} {p : Nat} {old : Rung} {s : State} (h0 : Keeps z s) :
    Keeps z ((txRungTaken p old s)) := by
  unfold txRungTaken
  repeat' (first | with_reducible assumption | with_reducible apply State.modTxd_keeps | with_reducible apply shareFollow_keeps | with_reducible apply txLatency_keeps | (with_reducible apply Keeps.ite <;> intro _))

theorem txRateChange_keeps {z : State} {p i : Nat} {s : State} (h0 : Keeps z s) :
    Keeps z ((txRateChange p i s)) := by
  unfold txRateChange
  repeat' (first | with_reducible assumption | with_reducible apply txRungTaken_keeps | with_reducible apply State.set_keeps)

theorem rateChange_keeps {z : State} {p d i : Nat} {s : State} (h0 : Keeps z s) :
    Keeps z ((rateChange p d i s)) := by
  unfold rateChange
  repeat' (first | with_reducible assumption | with_reducible apply txRateChange_keeps | with_reducible apply rxRateChange_keeps | (with_reducible apply Keeps.ite <;> intro _))

theorem clipCount_keeps {z : State} {p l n : Nat} {s : State} (h0 : Keeps z s) :
    Keeps z ((clipCount p l n s)) := by
  unfold clipCount
  repeat' (first | with_reducible assumption | with_reducible apply countEvent_keeps | with_reducible apply State.addSat_keeps | with_reducible apply State.set_keeps | (with_reducible apply Keeps.ite <;> intro _))

theorem State.modCtx_keeps {z : State} {s : State} {p d c : Nat} {f : CipherCtx → CipherCtx} (h0 : Keeps z s) :
    Keeps z ((State.modCtx s p d c f)) := by
  unfold State.modCtx
  repeat' (first | with_reducible assumption | with_reducible apply State.modLcx_keeps)

theorem retireKey_keeps {z : State} {k : KeySlot} {s : State} (h0 : Keeps z s) :
    Keeps z ((retireKey k s)) := by
  unfold retireKey
  repeat' (first | with_reducible assumption | with_reducible apply State.modLcx_keeps)

theorem installKey_keeps {z : State} {p d c k key salt : Nat} {s : State} (h0 : Keeps z s) :
    Keeps z ((installKey p d c k key salt s).2) := by
  unfold installKey
  repeat' (first | with_reducible assumption | with_reducible apply retireKey_keeps | with_reducible apply State.modCtx_keeps | (with_reducible apply Keeps.ite <;> intro _) | (with_reducible apply Keeps.ite_snd <;> intro _))

theorem eraseKey_keeps {z : State} {p d c k : Nat} {s : State} (h0 : Keeps z s) :
    Keeps z ((eraseKey p d c k s).2) := by
  unfold eraseKey
  repeat' (first | with_reducible assumption | with_reducible apply retireKey_keeps | with_reducible apply State.modCtx_keeps | (with_reducible apply Keeps.ite <;> intro _) | (with_reducible apply Keeps.ite_snd <;> intro _))

theorem drawSalt_keeps {z : State} {key : Nat} {s : State} (h0 : Keeps z s) :
    Keeps z ((drawSalt key s).2) := by
  unfold drawSalt
  repeat' (first | with_reducible assumption | (intro u; first | (refine (fun (hu : ∀ a, Keeps z (u a)) => ?_) ?_; clear_value u; rotate_left; subst u; rotate_left) | (refine (fun (hu : Keeps z u) => ?_) ?_; clear_value u; rotate_left; subst u; rotate_left) | (refine (fun (hu : Keeps z u.2) => ?_) ?_; clear_value u; rotate_left; subst u; rotate_left) | (refine (fun (hu : Keeps z u.2.2) => ?_) ?_; clear_value u; rotate_left; subst u; rotate_left) | (refine (fun (hu : ∀ v, Keeps z v → Keeps z (u v)) => ?_) ?_; clear_value u; rotate_left; subst u; rotate_left) | (refine (fun (hu : ∀ v, Keeps z v → Keeps z (u v).2) => ?_) ?_; clear_value u; rotate_left; subst u; rotate_left) | (refine (fun (hu : ∀ a v, Keeps z v → Keeps z (u a v)) => ?_) ?_; clear_value u; rotate_left; subst u; rotate_left) | clear_value u) | with_reducible apply State.draw_keeps | simp (zeta := false) only [Keeps.parts] | lift_lets | split)

theorem keySwitch_keeps {z : State} {p d c k : Nat} {s : State} (h0 : Keeps z s) :
    Keeps z ((keySwitch p d c k s).2) := by
  unfold keySwitch
  repeat' (first | with_reducible assumption | with_reducible apply State.modCtx_keeps | (with_reducible apply Keeps.ite_snd <;> intro _))

theorem epochCompare_keeps {z : State} {p epoch : Nat} {s : State} (h0 : Keeps z s) :
    Keeps z ((epochCompare p epoch s)) := by
  unfold epochCompare
  repeat' (first | with_reducible assumption | with_reducible apply State.modLfr_keeps | with_reducible apply State.raiseIf_keeps | with_reducible apply State.modCtx_keeps | (with_reducible apply Keeps.iter; intro _ _ _) | (with_reducible apply Keeps.ite <;> intro _))

theorem nullSection_keeps {z : State} {p c len : Nat} {s : State} (h0 : Keeps z s) :
    Keeps z ((nullSection p c len s)) := by
  unfold nullSection
  repeat' (first | with_reducible assumption | with_reducible apply State.modCtx_keeps)

theorem quarantine_keeps {z : State} {p c : Nat} {s : State} (h0 : Keeps z s) :
    Keeps z ((quarantine p c s)) := by
  unfold quarantine
  repeat' (first | with_reducible assumption | with_reducible apply State.modCtx_keeps)

theorem cipherTx_keeps {z : State} {p c n : Nat} {plain : List Nat} {s : State} (h0 : Keeps z s) :
    Keeps z ((cipherTx p c n plain s)) := by
  unfold cipherTx
  repeat' (first | with_reducible assumption | with_reducible apply State.modCtx_keeps | with_reducible apply nullSection_keeps | with_reducible apply quarantine_keeps | with_reducible apply State.raise_keeps | with_reducible apply State.raiseIf_keeps | (with_reducible apply Keeps.ite <;> intro _))

theorem sectionTake_keeps {z : State} {p c : Nat} {b : List Nat} {s : State} (h0 : Keeps z s) :
    Keeps z ((sectionTake p c b s).2) := by
  unfold sectionTake
  repeat' (first | with_reducible assumption | with_reducible apply State.modLcx_keeps | (with_reducible apply Keeps.ite_snd <;> intro _))

theorem cipherSectionTx_keeps {z : State} {p : Nat} {plain : List (Nat × List Nat)} {s : State} (h0 : Keeps z s) :
    Keeps z ((cipherSectionTx p plain s)) := by
  unfold cipherSectionTx
  repeat' (first | with_reducible assumption | with_reducible apply sectionTake_keeps | with_reducible apply cipherTx_keeps | with_reducible apply State.modCtx_keeps | (with_reducible apply Keeps.iter; intro _ _ _) | (with_reducible apply Keeps.ite <;> intro _))

theorem cipherRxBoundary_keeps {z : State} {p : Nat} {s : State} (h0 : Keeps z s) :
    Keeps z ((cipherRxBoundary p s)) := by
  unfold cipherRxBoundary
  repeat' (first | with_reducible assumption | with_reducible apply keySwitch_keeps | with_reducible apply State.modCtx_keeps | (with_reducible apply Keeps.iter; intro _ _ _) | (with_reducible apply Keeps.ite <;> intro _) | lift_lets | split)

theorem cipherRx_keeps {z : State} {p c : Nat} {cipher : List Nat} {nul : Bool} {s : State} (h0 : Keeps z s) :
    Keeps z ((cipherRx p c cipher nul s)) := by
  unfold cipherRx
  repeat' (first | with_reducible assumption | (intro u; first | (refine (fun (hu : ∀ a, Keeps z (u a)) => ?_) ?_; clear_value u; rotate_left; subst u; rotate_left) | (refine (fun (hu : Keeps z u) => ?_) ?_; clear_value u; rotate_left; subst u; rotate_left) | (refine (fun (hu : Keeps z u.2) => ?_) ?_; clear_value u; rotate_left; subst u; rotate_left) | (refine (fun (hu : Keeps z u.2.2) => ?_) ?_; clear_value u; rotate_left; subst u; rotate_left) | (refine (fun (hu : ∀ v, Keeps z v → Keeps z (u v)) => ?_) ?_; clear_value u; rotate_left; subst u; rotate_left) | (refine (fun (hu : ∀ v, Keeps z v → Keeps z (u v).2) => ?_) ?_; clear_value u; rotate_left; subst u; rotate_left) | (refine (fun (hu : ∀ a v, Keeps z v → Keeps z (u a v)) => ?_) ?_; clear_value u; rotate_left; subst u; rotate_left) | clear_value u) | with_reducible apply State.modCtx_keeps | with_reducible apply State.raise_keeps | with_reducible apply State.modLfr_keeps | (with_reducible apply Keeps.ite <;> intro _) | simp (zeta := false) only [Keeps.parts] | lift_lets | split)

theorem cipherOnward_keeps {z : State} {p c n : Nat} {s : State} (h0 : Keeps z s) :
    Keeps z ((cipherOnward p c n s)) := by
  unfold cipherOnward
  repeat' (first | with_reducible assumption | with_reducible apply State.modLcx_keeps | (with_reducible apply Keeps.ite <;> intro _))

theorem grpEvent_keeps {z : State} {g i e : Nat} {s : State} (h0 : Keeps z s) :
    Keeps z ((grpEvent g i e s)) := by
  unfold grpEvent
  repeat' (first | with_reducible assumption | with_reducible apply State.raiseClient_keeps)

theorem laneEvent_keeps {z : State} {n i e : Nat} {s : State} (h0 : Keeps z s) :
    Keeps z ((laneEvent n i e s)) := by
  unfold laneEvent
  repeat' (first | with_reducible assumption | with_reducible apply State.raiseClient_keeps)

theorem replaceIn_keeps {z : State} {ends : Bool} {g : Nat} {s : State} (h0 : Keeps z s) :
    Keeps z ((replaceIn ends g s)) := by
  unfold replaceIn
  repeat' (first | with_reducible assumption | with_reducible apply State.set_keeps | with_reducible apply grpEvent_keeps | (with_reducible apply Keeps.ite <;> intro _))

theorem replaceInEnd_keeps {z : State} {h : Nat} {s : State} (h0 : Keeps z s) :
    Keeps z ((replaceInEnd h s)) := by
  unfold replaceInEnd
  repeat' (first | with_reducible assumption | with_reducible apply replaceIn_keeps | (with_reducible apply Keeps.iter; intro _ _ _) | (with_reducible apply Keeps.ite <;> intro _))

theorem grpEnter_keeps {z : State} {g st : Nat} {s : State} (h0 : Keeps z s) :
    Keeps z ((grpEnter g st s)) := by
  unfold grpEnter
  repeat' (first | with_reducible assumption | with_reducible apply State.set_keeps | with_reducible apply grpEvent_keeps | (with_reducible apply Keeps.ite <;> intro _))

theorem grpJudge_keeps {z : State} {g : Nat} {s : State} (h0 : Keeps z s) :
    Keeps z ((grpJudge g s)) := by
  unfold grpJudge
  repeat' (first | with_reducible assumption | with_reducible apply grpEnter_keeps | with_reducible apply replaceIn_keeps | (with_reducible apply Keeps.ite <;> intro _))

theorem grpJudgeAll_keeps {z : State} {s : State} (h0 : Keeps z s) :
    Keeps z ((grpJudgeAll s)) := by
  unfold grpJudgeAll
  repeat' (first | with_reducible assumption | with_reducible apply grpJudge_keeps | (with_reducible apply Keeps.iter; intro _ _ _))

theorem grpRedefine_keeps {z : State} {old : List Nat} {s : State} (h0 : Keeps z s) :
    Keeps z ((grpRedefine old s)) := by
  unfold grpRedefine
  repeat' (first | with_reducible assumption | with_reducible apply grpJudgeAll_keeps | with_reducible apply grpEnter_keeps | (with_reducible apply Keeps.iter; intro _ _ _) | (with_reducible apply Keeps.ite <;> intro _))

theorem laneGroups_keeps {z : State} {n : Nat} {s : State} (h0 : Keeps z s) :
    Keeps z ((laneGroups n s)) := by
  unfold laneGroups
  repeat' (first | with_reducible assumption | with_reducible apply grpJudge_keeps | (with_reducible apply Keeps.iter; intro _ _ _) | (with_reducible apply Keeps.ite <;> intro _))

theorem setLane_keeps {z : State} {n d st : Nat} {s : State} (h0 : Keeps z s) :
    Keeps z ((setLane n d st s)) := by
  unfold setLane
  repeat' (first | with_reducible assumption | with_reducible apply State.set_keeps | with_reducible apply laneGroups_keeps | (with_reducible apply Keeps.ite <;> intro _) | simp (zeta := false) only [Keeps.parts])

theorem laneEnable_keeps {z : State} {n d v : Nat} {s : State} (h0 : Keeps z s) :
    Keeps z ((laneEnable n d v s).2) := by
  unfold laneEnable
  repeat' (first | with_reducible assumption | with_reducible apply powerDown_keeps | with_reducible apply State.set_keeps | with_reducible apply setLane_keeps | with_reducible apply powerUp_keeps | (with_reducible apply Keeps.ite <;> intro _) | (with_reducible apply Keeps.ite_snd <;> intro _))

theorem laneLock_keeps {z : State} {n d : Nat} {s : State} (h0 : Keeps z s) :
    Keeps z ((laneLock n d s)) := by
  unfold laneLock
  repeat' (first | with_reducible assumption | with_reducible apply State.set_keeps | with_reducible apply setLane_keeps | (with_reducible apply Keeps.ite <;> intro _))

theorem laneWakeTimeout_keeps {z : State} {n d : Nat} {s : State} (h0 : Keeps z s) :
    Keeps z ((laneWakeTimeout n d s)) := by
  unfold laneWakeTimeout
  repeat' (first | with_reducible assumption | with_reducible apply laneEvent_keeps | with_reducible apply setLane_keeps | (with_reducible apply Keeps.ite <;> intro _))

theorem laneTestDone_keeps {z : State} {n d : Nat} {bad : Bool} {s : State} (h0 : Keeps z s) :
    Keeps z ((laneTestDone n d bad s)) := by
  unfold laneTestDone
  repeat' (first | with_reducible assumption | with_reducible apply laneEvent_keeps | with_reducible apply setLane_keeps | (with_reducible apply Keeps.ite <;> intro _) | simp (zeta := false) only [Keeps.parts])

theorem laneJoin_keeps {z : State} {n d : Nat} {s : State} (h0 : Keeps z s) :
    Keeps z ((laneJoin n d s)) := by
  unfold laneJoin
  repeat' (first | with_reducible assumption | with_reducible apply setLane_keeps | (with_reducible apply Keeps.ite <;> intro _))

theorem laneLos_keeps {z : State} {n : Nat} {los : Bool} {s : State} (h0 : Keeps z s) :
    Keeps z ((laneLos n los s)) := by
  unfold laneLos
  repeat' (first | with_reducible assumption | with_reducible apply State.set_keeps | with_reducible apply laneEvent_keeps | with_reducible apply setLane_keeps | (with_reducible apply Keeps.ite <;> intro _))

theorem groupUp_keeps {z : State} {g spread : Nat} {wrong : List Nat} {s : State} (h0 : Keeps z s) :
    Keeps z ((groupUp g spread wrong s)) := by
  unfold groupUp
  repeat' (first | with_reducible assumption | with_reducible apply State.set_keeps | with_reducible apply grpEvent_keeps | with_reducible apply replaceIn_keeps | with_reducible apply grpEnter_keeps | (with_reducible apply Keeps.ite <;> intro _))

theorem groupLockLoss_keeps {z : State} {g k : Nat} {s : State} (h0 : Keeps z s) :
    Keeps z ((groupLockLoss g k s)) := by
  unfold groupLockLoss
  repeat' (first | with_reducible assumption | with_reducible apply replaceIn_keeps | with_reducible apply grpEnter_keeps | with_reducible apply State.set_keeps | (with_reducible apply Keeps.ite <;> intro _))

theorem hiSer_keeps {z : State} {g : Nat} {on : Bool} {s : State} (h0 : Keeps z s) :
    Keeps z ((hiSer g on s)) := by
  unfold hiSer
  repeat' (first | with_reducible assumption | with_reducible apply grpEvent_keeps | with_reducible apply State.set_keeps | (with_reducible apply Keeps.ite <;> intro _))

theorem addPair_keeps {z : State} {lo hi : Fld} {n : Nat} {s : State} (h0 : Keeps z s) :
    Keeps z ((addPair lo hi n s)) := by
  unfold addPair
  repeat' (first | with_reducible assumption | with_reducible apply State.set_keeps)

theorem prbsTake_keeps {z : State} {m : PrbsMeasure} {s : State} (h0 : Keeps z s) :
    Keeps z ((prbsTake m s)) := by
  unfold prbsTake
  repeat' (first | with_reducible assumption | with_reducible apply State.set_keeps | with_reducible apply State.addSat_keeps | (with_reducible apply Keeps.ite <;> intro _))

theorem flexoTake_keeps {z : State} {m : GroupMeasure} {s : State} (h0 : Keeps z s) :
    Keeps z ((flexoTake m s)) := by
  unfold flexoTake
  repeat' (first | with_reducible assumption | with_reducible apply replaceIn_keeps | with_reducible apply grpEvent_keeps | (with_reducible apply Keeps.ite <;> intro _) | simp (zeta := false) only [Keeps.parts])

theorem skewTake_keeps {z : State} {g skew : Nat} {s : State} (h0 : Keeps z s) :
    Keeps z ((skewTake g skew s)) := by
  unfold skewTake
  repeat' (first | with_reducible assumption | with_reducible apply State.set_keeps | with_reducible apply grpEvent_keeps | with_reducible apply replaceIn_keeps | with_reducible apply grpEnter_keeps | (with_reducible apply Keeps.ite <;> intro _))

theorem groupTake_keeps {z : State} {m : GroupMeasure} {s : State} (h0 : Keeps z s) :
    Keeps z ((groupTake m s)) := by
  unfold groupTake
  repeat' (first | with_reducible assumption | with_reducible apply addPair_keeps | with_reducible apply State.addSat_keeps | with_reducible apply State.set_keeps | with_reducible apply flexoTake_keeps | with_reducible apply skewTake_keeps | (with_reducible apply Keeps.ite <;> intro _))

theorem State.modFec_keeps {z : State} {s : State} {f : FecState → FecState} (h0 : Keeps z s) :
    Keeps z ((State.modFec s f)) := by
  unfold State.modFec
  repeat' (first | with_reducible assumption | simp (zeta := false) only [Keeps.parts])

theorem setDirect_keeps {z : State} {l : Bool} {v : Nat} {s : State} (h0 : Keeps z s) :
    Keeps z ((setDirect l v s)) := by
  unfold setDirect
  repeat' (first | with_reducible assumption | with_reducible apply State.modLcx_keeps | with_reducible apply State.modFec_keeps | (with_reducible apply Keeps.ite <;> intro _))

theorem fecShow_keeps {z : State} {s : State} (h0 : Keeps z s) :
    Keeps z ((fecShow s)) := by
  unfold fecShow
  repeat' (first | with_reducible assumption | with_reducible apply State.set_keeps | (with_reducible apply Keeps.ite <;> intro _))

theorem dispatch_keeps {z : State} : ∀ {n : Nat} {s : State}, Keeps z s → Keeps z (dispatch n s)
  | 0, _, h => h
  | n + 1, s, h => by
    unfold dispatch
    extract_lets busy el poor el2
    split
    · exact dispatch_keeps (State.modFec_keeps h)
    · exact h

theorem fecRun_keeps {z : State} {s : State} (h0 : Keeps z s) :
    Keeps z ((fecRun s)) := by
  unfold fecRun
  repeat' (first | with_reducible assumption | with_reducible apply fecShow_keeps | with_reducible apply dispatch_keeps)

theorem satPair_keeps {z : State} {lo hi : Fld} {n : Nat} {s : State} (h0 : Keeps z s) :
    Keeps z ((satPair lo hi n s)) := by
  unfold satPair
  repeat' (first | with_reducible assumption | with_reducible apply State.set_keeps)

theorem fecCount_keeps {z : State} {p k n : Nat} {s : State} (h0 : Keeps z s) :
    Keeps z ((fecCount p k n s)) := by
  unfold fecCount
  repeat' (first | with_reducible assumption | with_reducible apply satPair_keeps | (with_reducible apply Keeps.ite <;> intro _))

theorem iterHist_keeps {z : State} {p i : Nat} {s : State} (h0 : Keeps z s) :
    Keeps z ((iterHist p i s)) := by
  unfold iterHist
  repeat' (first | with_reducible assumption | with_reducible apply satPair_keeps)

theorem marginHist_keeps {z : State} {p b : Nat} {s : State} (h0 : Keeps z s) :
    Keeps z ((marginHist p b s)) := by
  unfold marginHist
  repeat' (first | with_reducible assumption | with_reducible apply satPair_keeps)

theorem statClear_keeps {z : State} {p : Nat} {s : State} (h0 : Keeps z s) :
    Keeps z ((statClear p s)) := by
  unfold statClear
  repeat' (first | with_reducible assumption | with_reducible apply State.clearRegs_keeps)

theorem segHead_keeps {z : State} {p : Nat} {s : State} (h0 : Keeps z s) :
    Keeps z ((segHead p s)) := by
  unfold segHead
  repeat' (first | with_reducible assumption | (intro u; first | (refine (fun (hu : ∀ a, Keeps z (u a)) => ?_) ?_; clear_value u; rotate_left; subst u; rotate_left) | (refine (fun (hu : Keeps z u) => ?_) ?_; clear_value u; rotate_left; subst u; rotate_left) | (refine (fun (hu : Keeps z u.2) => ?_) ?_; clear_value u; rotate_left; subst u; rotate_left) | (refine (fun (hu : Keeps z u.2.2) => ?_) ?_; clear_value u; rotate_left; subst u; rotate_left) | (refine (fun (hu : ∀ v, Keeps z v → Keeps z (u v)) => ?_) ?_; clear_value u; rotate_left; subst u; rotate_left) | (refine (fun (hu : ∀ v, Keeps z v → Keeps z (u v).2) => ?_) ?_; clear_value u; rotate_left; subst u; rotate_left) | (refine (fun (hu : ∀ a v, Keeps z v → Keeps z (u a v)) => ?_) ?_; clear_value u; rotate_left; subst u; rotate_left) | clear_value u) | with_reducible apply fecShow_keeps | with_reducible apply State.modRxd_keeps | with_reducible apply State.raise_keeps | (with_reducible apply Keeps.ite <;> intro _) | lift_lets | split)

theorem memUncorr_keeps {z : State} {slot : Nat} {bad : List Nat} {s : State} (h0 : Keeps z s) :
    Keeps z ((memUncorr slot bad s)) := by
  unfold memUncorr
  repeat' (first | with_reducible assumption | with_reducible apply eccCount_keeps | with_reducible apply countEvent_keeps | with_reducible apply State.set_keeps | (with_reducible apply Keeps.foldl; intro _ _ _) | (with_reducible apply Keeps.ite <;> intro _))

theorem cwArrive_keeps {z : State} {x : RxCodeword} {s : State} (h : Keeps z s) : Keeps z (cwArrive x s) := by
  rw [cwArrive]
  dsimp only
  split
  · exact h
  · refine Keeps.ite (fun _ => h) (fun _ => fecRun_keeps (segHead_keeps (memUncorr_keeps (State.modFec_keeps (State.modRxd_keeps ?_)))))
    refine Keeps.ite (fun _ => Keeps.ite_snd (fun _ => State.draw_keeps h) (fun _ => h)) (fun _ => Keeps.iter (fun _ _ hu => ?_)
      (Keeps.ite_snd (fun _ => State.draw_keeps h) (fun _ => h)))
    split
    · exact State.sramPut_keeps hu
    · exact hu

theorem State.modCw_keeps {z : State} {s : State} {id : Nat} {f : Codeword → Codeword} (h0 : Keeps z s) :
    Keeps z ((State.modCw s id f)) := by
  unfold State.modCw
  repeat' (first | with_reducible assumption | with_reducible apply State.modFec_keeps)

theorem iterEnd_keeps {z : State} {id now word : Nat} {bad : List Nat} {s : State} (h0 : Keeps z s) :
    Keeps z ((iterEnd id now word bad s)) := by
  unfold iterEnd
  repeat' (first | with_reducible assumption | with_reducible apply fecRun_keeps | with_reducible apply memUncorr_keeps | with_reducible apply State.modCw_keeps | split)

theorem cwDeadline_keeps {z : State} {id : Nat} {s : State} (h0 : Keeps z s) :
    Keeps z ((cwDeadline id s)) := by
  unfold cwDeadline
  repeat' (first | with_reducible assumption | with_reducible apply fecRun_keeps | with_reducible apply State.modCw_keeps)

theorem addPart_keeps {z : State} {p : Nat} {x : PayPart} {s : State} (h0 : Keeps z s) :
    Keeps z ((addPart p x s)) := by
  unfold addPart
  repeat' (first | with_reducible assumption | with_reducible apply State.modRxd_keeps)

theorem partFill_keeps {z : State} {p j : Nat} {l : List Nat} {err : Bool} {s : State} (h0 : Keeps z s) :
    Keeps z ((partFill p j l err s)) := by
  unfold partFill
  repeat' (first | with_reducible assumption | with_reducible apply State.modRxd_keeps)

theorem blocksDrop_keeps {z : State} {p : Nat} {s : State} (h0 : Keeps z s) :
    Keeps z ((blocksDrop p s)) := by
  unfold blocksDrop
  repeat' (first | with_reducible assumption | with_reducible apply State.modFec_keeps | with_reducible apply State.modRxd_keeps)

theorem blockTake_keeps {z : State} {c : Codeword} {s : State} {tag : CwTag} {a : Nat} (h0 : Keeps z s) :
    Keeps z ((blockTake c s tag a)) := by
  unfold blockTake
  repeat' (first | with_reducible assumption | with_reducible apply addPart_keeps | with_reducible apply partFill_keeps | with_reducible apply State.modFec_keeps | with_reducible apply State.raiseIf_keeps | (with_reducible apply Keeps.ite <;> intro _))

theorem ampTake_keeps {z : State} {c : Codeword} {x : State × List Nat} {it : Nat × CwTag × Nat} (h : Keeps z x.1) :
    Keeps z (ampTake c x it).1 := by
  have h1 : Keeps z (blockTake c (match it.2.1.frame with | some k => addPart c.port (.frame k) x.1 | none => x.1) it.2.1 it.2.2) := by
    split
    · exact blockTake_keeps (addPart_keeps h)
    · exact blockTake_keeps h
  unfold ampTake
  dsimp only
  split
  · exact h1
  · exact addPart_keeps h1

theorem cwRelease_keeps {z : State} {p : Nat} {s : State} (h : Keeps z s) : Keeps z (cwRelease p s) := by
  unfold cwRelease
  split
  · exact h
  · next c _ =>
    have amps : ∀ (l : List (Nat × CwTag × Nat)) (x : State × List Nat), Keeps z x.1 → Keeps z (l.foldl (ampTake c) x).1 := by
      intro l
      induction l with
      | nil => intro x hx; exact hx
      | cons a l ih => intro x hx; exact ih _ (ampTake_keeps hx)
    refine fecRun_keeps (amps _ _ ?_)
    refine Keeps.ite (fun _ => blocksDrop_keeps ?_) (fun _ => ?_)
    all_goals
      refine State.modFec_keeps (Keeps.ite (fun _ => State.modRxd_keeps ?_) (fun _ => ?_))
      all_goals
        refine State.raiseIf_keeps (State.modRxd_keeps (State.raiseIf_keeps (Keeps.ite (fun _ => marginHist_keeps ?_) (fun _ => ?_))))
        all_goals
          exact iterHist_keeps (fecCount_keeps (fecCount_keeps (fecCount_keeps (fecCount_keeps (fecCount_keeps (fecCount_keeps
            (fecCount_keeps (State.modFec_keeps h))))))))

theorem fecDiscard_keeps {z : State} {p : Nat} {s : State} (h0 : Keeps z s) :
    Keeps z ((fecDiscard p s)) := by
  unfold fecDiscard
  repeat' (first | with_reducible assumption | with_reducible apply State.modRxd_keeps | with_reducible apply fecRun_keeps | with_reducible apply blocksDrop_keeps | with_reducible apply State.modFec_keeps)

theorem grpFallow_keeps {z : State} {l : Bool} {g : Nat} {s : State} (h0 : Keeps z s) :
    Keeps z ((grpFallow l g s).2) := by
  unfold grpFallow
  repeat' (first | with_reducible assumption | with_reducible apply State.set_keeps | with_reducible apply powerDown_keeps | with_reducible apply State.raise_keeps | (with_reducible apply Keeps.ite_snd <;> intro _))

theorem grpReturn_keeps {z : State} {l : Bool} {g : Nat} {s : State} (h0 : Keeps z s) :
    Keeps z ((grpReturn l g s).2) := by
  unfold grpReturn
  repeat' (first | with_reducible assumption | with_reducible apply powerUp_keeps | with_reducible apply State.set_keeps | (with_reducible apply Keeps.ite_snd <;> intro _))

theorem grpDrained_keeps {z : State} {l : Bool} {g : Nat} {s : State} (h0 : Keeps z s) :
    Keeps z ((grpDrained l g s)) := by
  unfold grpDrained
  repeat' (first | with_reducible assumption | with_reducible apply powerDown_keeps | with_reducible apply State.set_keeps | with_reducible apply State.raise_keeps | (with_reducible apply Keeps.ite <;> intro _))

theorem grpFail_keeps {z : State} {l : Bool} {g : Nat} {s : State} (h0 : Keeps z s) :
    Keeps z ((grpFail l g s)) := by
  unfold grpFail
  repeat' (first | with_reducible assumption | with_reducible apply State.set_keeps | with_reducible apply State.raise_keeps)

theorem grpSelftest_keeps {z : State} {l : Bool} {g : Nat} {ok : Bool} {s : State} (h0 : Keeps z s) :
    Keeps z ((grpSelftest l g ok s)) := by
  unfold grpSelftest
  repeat' (first | with_reducible assumption | with_reducible apply setDirect_keeps | with_reducible apply grpFail_keeps | with_reducible apply fecRun_keeps | with_reducible apply State.set_keeps | with_reducible apply State.modFec_keeps | (with_reducible apply Keeps.ite <;> intro _))

theorem grpCompare_keeps {z : State} {g : Nat} {same : Bool} {s : State} (h0 : Keeps z s) :
    Keeps z ((grpCompare g same s)) := by
  unfold grpCompare
  repeat' (first | with_reducible assumption | with_reducible apply State.modFec_keeps | with_reducible apply grpFail_keeps | (with_reducible apply Keeps.ite <;> intro _))

theorem grpShadowDone_keeps {z : State} {l : Bool} {g : Nat} {ok : Bool} {s : State} (h0 : Keeps z s) :
    Keeps z ((grpShadowDone l g ok s)) := by
  unfold grpShadowDone
  repeat' (first | with_reducible assumption | with_reducible apply grpFail_keeps | with_reducible apply State.set_keeps | with_reducible apply State.raise_keeps | (with_reducible apply Keeps.ite <;> intro _))

theorem grpJoin_keeps {z : State} {l : Bool} {mask : Nat} {s : State} (h0 : Keeps z s) :
    Keeps z ((grpJoin l mask s)) := by
  unfold grpJoin
  repeat' (first | with_reducible assumption | with_reducible apply fecRun_keeps | with_reducible apply State.set_keeps | (with_reducible apply Keeps.iter; intro _ _ _) | (with_reducible apply Keeps.ite <;> intro _))

theorem joinWrite_keeps {z : State} {l : Bool} {d mask : Nat} {boundary : Bool} {s : State} (h0 : Keeps z s) :
    Keeps z ((joinWrite l d mask boundary s)) := by
  unfold joinWrite
  repeat' (first | with_reducible assumption | with_reducible apply grpJoin_keeps | with_reducible apply State.modLcx_keeps | with_reducible apply State.modFec_keeps | (with_reducible apply Keeps.ite <;> intro _))

theorem joinPending_keeps {z : State} {d : Nat} {s : State} (h0 : Keeps z s) :
    Keeps z ((joinPending d s)) := by
  unfold joinPending
  repeat' (first | with_reducible assumption | with_reducible apply State.modFec_keeps | with_reducible apply grpJoin_keeps | with_reducible apply State.modLcx_keeps | (with_reducible apply Keeps.ite <;> intro _))

theorem grpApply_keeps {z : State} {l : Bool} {mask : Nat} {s : State} (h0 : Keeps z s) :
    Keeps z ((grpApply l mask s)) := by
  unfold grpApply
  repeat' (first | with_reducible assumption | with_reducible apply setDirect_keeps | with_reducible apply powerDown_keeps | with_reducible apply State.set_keeps | with_reducible apply powerUp_keeps | with_reducible apply fecShow_keeps | with_reducible apply State.modFec_keeps | (with_reducible apply Keeps.iter; intro _ _ _) | (with_reducible apply Keeps.ite <;> intro _))

theorem grpCommand_keeps {z : State} {l : Bool} {cmd g : Nat} {s : State} (h0 : Keeps z s) :
    Keeps z ((grpCommand l cmd g s).2) := by
  unfold grpCommand
  repeat' (first | with_reducible assumption | with_reducible apply grpFallow_keeps | with_reducible apply grpReturn_keeps | with_reducible apply State.set_keeps | (with_reducible apply Keeps.ite_snd <;> intro _))

end Sys2Proof.Machine
end

