-- ==== Sys2Proof/Laws/KeepsService.lean ====
section
/-! SUPPORT. Every operation on a state keeps its queue, its part and its canonical form: demapper, OTN, messages, frames, table rules, operands, inserts, adaptation, clock, Stile. -/
set_option linter.unusedVariables false
set_option linter.unusedSimpArgs false
namespace Sys2Proof.Machine

theorem rxFront_keeps {z : State} {p : Nat} {adc : List (List Int)} {s : State} (h0 : Keeps z s) :
    Keeps z ((rxFront p adc s)) := by
  unfold rxFront
  repeat' (first | with_reducible assumption | with_reducible apply State.modRxd_keeps)

theorem eqAdapt_keeps {z : State} {p mu : Nat} {x : RxFrame} {errs : List (List Cx × List Cx)} {s : State} (h0 : Keeps z s) :
    Keeps z ((eqAdapt p mu x errs s)) := by
  unfold eqAdapt
  repeat' (first | with_reducible assumption | with_reducible apply State.modRxd_keeps | (with_reducible apply Keeps.ite <;> intro _))

theorem rxField_keeps {z : State} {p : Nat} {x : RxFrame} {s : State} (h0 : Keeps z s) :
    Keeps z ((rxField p x s).2) := by
  unfold rxField
  repeat' (first | with_reducible assumption | with_reducible apply rxFront_keeps | with_reducible apply eqAdapt_keeps | with_reducible apply State.modRxd_keeps | (with_reducible apply Keeps.ite_snd <;> intro _))

theorem eqSingular_keeps {z : State} {p j : Nat} {s : State} (h0 : Keeps z s) :
    Keeps z ((eqSingular p j s)) := by
  unfold eqSingular
  repeat' (first | with_reducible assumption | with_reducible apply State.modRxd_keeps | with_reducible apply State.raise_keeps | (with_reducible apply Keeps.ite <;> intro _))

theorem cycleSlip_keeps {z : State} {p j n k : Nat} {s : State} (h0 : Keeps z s) :
    Keeps z ((cycleSlip p j n k s)) := by
  unfold cycleSlip
  repeat' (first | with_reducible assumption | with_reducible apply State.modRxd_keeps | with_reducible apply State.raise_keeps | (with_reducible apply Keeps.ite <;> intro _))

theorem cwCut_keeps {z : State} {p : Nat} {s : State} (h0 : Keeps z s) :
    Keeps z ((cwCut p s)) := by
  unfold cwCut
  repeat' (first | with_reducible assumption | with_reducible apply fecCount_keeps | with_reducible apply State.modRxd_keeps | (with_reducible apply Keeps.ite <;> intro _) | split)

theorem frameDemap_keeps {z : State} {p : Nat} {syms : List (List Cx × List Cx)} {restart : Bool} {s : State} (h0 : Keeps z s) :
    Keeps z ((frameDemap p syms restart s)) := by
  unfold frameDemap
  repeat' (first | with_reducible assumption | with_reducible apply cwDrop_keeps | with_reducible apply State.modRxd_keeps | with_reducible apply segHead_keeps | with_reducible apply cwCut_keeps | (with_reducible apply Keeps.ite <;> intro _))

theorem otnDefect_keeps {z : State} {p : Nat} {m : OtnMeasure} {s : State} {d : Nat × Bool} (h0 : Keeps z s) :
    Keeps z ((otnDefect p m s d)) := by
  unfold otnDefect
  repeat' (first | with_reducible assumption | with_reducible apply State.modLfr_keeps | with_reducible apply setDefect_keeps | (with_reducible apply Keeps.ite <;> intro _))

theorem ttiJudge_keeps {z : State} {p : Nat} {m : OtnMeasure} {s : State} (h0 : Keeps z s) :
    Keeps z ((ttiJudge p m s)) := by
  unfold ttiJudge
  repeat' (first | with_reducible assumption | with_reducible apply setDefect_keeps | (with_reducible apply Keeps.ite <;> intro _))

theorem degJudge_keeps {z : State} {p e n : Nat} {s : State} (h0 : Keeps z s) :
    Keeps z ((degJudge p e n s)) := by
  unfold degJudge
  repeat' (first | with_reducible assumption | with_reducible apply State.modLfr_keeps | with_reducible apply setDefect_keeps | (with_reducible apply Keeps.ite <;> intro _))

theorem otnTake_keeps {z : State} {p : Nat} {m : OtnMeasure} {s : State} (h0 : Keeps z s) :
    Keeps z ((otnTake p m s)) := by
  unfold otnTake
  repeat' (first | with_reducible assumption | (intro u; first | (refine (fun (hu : ∀ a, Keeps z (u a)) => ?_) ?_; clear_value u; rotate_left; subst u; rotate_left) | (refine (fun (hu : Keeps z u) => ?_) ?_; clear_value u; rotate_left; subst u; rotate_left) | (refine (fun (hu : Keeps z u.2) => ?_) ?_; clear_value u; rotate_left; subst u; rotate_left) | (refine (fun (hu : Keeps z u.2.2) => ?_) ?_; clear_value u; rotate_left; subst u; rotate_left) | (refine (fun (hu : ∀ v, Keeps z v → Keeps z (u v)) => ?_) ?_; clear_value u; rotate_left; subst u; rotate_left) | (refine (fun (hu : ∀ v, Keeps z v → Keeps z (u v).2) => ?_) ?_; clear_value u; rotate_left; subst u; rotate_left) | (refine (fun (hu : ∀ a v, Keeps z v → Keeps z (u a v)) => ?_) ?_; clear_value u; rotate_left; subst u; rotate_left) | clear_value u) | with_reducible apply otnDefect_keeps | with_reducible apply State.modLfr_keeps | with_reducible apply ttiJudge_keeps | with_reducible apply degJudge_keeps | (with_reducible apply Keeps.foldl; intro _ _ _) | (with_reducible apply Keeps.ite <;> intro _) | lift_lets | split)

theorem tribFollow_keeps {z : State} {ends : Bool} {p t : Nat} {s : State} (h0 : Keeps z s) :
    Keeps z ((tribFollow ends p t s)) := by
  unfold tribFollow
  repeat' (first | with_reducible assumption | (with_reducible apply Keeps.ite <;> intro _) | simp (zeta := false) only [Keeps.parts])

theorem replaceOut_keeps {z : State} {ends : Option Nat} {g : Nat} {s : State} (h0 : Keeps z s) :
    Keeps z ((replaceOut ends g s)) := by
  unfold replaceOut
  repeat' (first | with_reducible assumption | with_reducible apply State.set_keeps | with_reducible apply tribFollow_keeps | with_reducible apply grpEvent_keeps | (with_reducible apply Keeps.foldl; intro _ _ _) | (with_reducible apply Keeps.ite <;> intro _))

theorem replaceOutAll_keeps {z : State} {ends : Option Nat} {s : State} (h0 : Keeps z s) :
    Keeps z ((replaceOutAll ends s)) := by
  unfold replaceOutAll
  repeat' (first | with_reducible assumption | with_reducible apply replaceOut_keeps | (with_reducible apply Keeps.iter; intro _ _ _) | (with_reducible apply Keeps.ite <;> intro _))

theorem csfTake_keeps {z : State} {p : Nat} {l : List (Nat × Bool)} {s : State} (h0 : Keeps z s) :
    Keeps z ((csfTake p l s)) := by
  unfold csfTake
  repeat' (first | with_reducible assumption | (intro u; first | (refine (fun (hu : ∀ a, Keeps z (u a)) => ?_) ?_; clear_value u; rotate_left; subst u; rotate_left) | (refine (fun (hu : Keeps z u) => ?_) ?_; clear_value u; rotate_left; subst u; rotate_left) | (refine (fun (hu : Keeps z u.2) => ?_) ?_; clear_value u; rotate_left; subst u; rotate_left) | (refine (fun (hu : Keeps z u.2.2) => ?_) ?_; clear_value u; rotate_left; subst u; rotate_left) | (refine (fun (hu : ∀ v, Keeps z v → Keeps z (u v)) => ?_) ?_; clear_value u; rotate_left; subst u; rotate_left) | (refine (fun (hu : ∀ v, Keeps z v → Keeps z (u v).2) => ?_) ?_; clear_value u; rotate_left; subst u; rotate_left) | (refine (fun (hu : ∀ a v, Keeps z v → Keeps z (u a v)) => ?_) ?_; clear_value u; rotate_left; subst u; rotate_left) | clear_value u) | (with_reducible apply Keeps.foldl; intro _ _ _) | simp (zeta := false) only [Keeps.parts] | lift_lets)

theorem tribsCut_keeps {z : State} {h : Nat} {old : State} {s : State} (h0 : Keeps z old) (h1 : Keeps z s) :
    Keeps z ((tribsCut h old s)) := by
  unfold tribsCut
  repeat' (first | with_reducible assumption | (intro u; first | (refine (fun (hu : ∀ a, Keeps z (u a)) => ?_) ?_; clear_value u; rotate_left; subst u; rotate_left) | (refine (fun (hu : Keeps z u) => ?_) ?_; clear_value u; rotate_left; subst u; rotate_left) | (refine (fun (hu : Keeps z u.2) => ?_) ?_; clear_value u; rotate_left; subst u; rotate_left) | (refine (fun (hu : Keeps z u.2.2) => ?_) ?_; clear_value u; rotate_left; subst u; rotate_left) | (refine (fun (hu : ∀ v, Keeps z v → Keeps z (u v)) => ?_) ?_; clear_value u; rotate_left; subst u; rotate_left) | (refine (fun (hu : ∀ v, Keeps z v → Keeps z (u v).2) => ?_) ?_; clear_value u; rotate_left; subst u; rotate_left) | (refine (fun (hu : ∀ a v, Keeps z v → Keeps z (u a v)) => ?_) ?_; clear_value u; rotate_left; subst u; rotate_left) | clear_value u) | (with_reducible apply Keeps.iter; intro _ _ _) | (with_reducible apply Keeps.ite <;> intro _) | simp (zeta := false) only [Keeps.parts] | lift_lets)

theorem allotGive_keeps {z : State} {p k : Nat} {b : List Nat} {bad : Bool} {s : State} (h0 : Keeps z s) :
    Keeps z ((allotGive p k b bad s)) := by
  unfold allotGive
  repeat' (first | with_reducible assumption | with_reducible apply State.modLfr_keeps | split)

theorem allotsLost_keeps {z : State} {p k : Nat} {s : State} (h0 : Keeps z s) :
    Keeps z ((allotsLost p k s)) := by
  unfold allotsLost
  repeat' (first | with_reducible assumption | with_reducible apply allotGive_keeps | (with_reducible apply Keeps.foldl; intro _ _ _))

theorem otuArrive_keeps {z : State} {p : Nat} {new : List Nat} {s : State} (h0 : Keeps z s) :
    Keeps z ((otuArrive p new s)) := by
  unfold otuArrive
  repeat' (first | with_reducible assumption | with_reducible apply State.modTxd_keeps | with_reducible apply State.raiseIf_keeps)

theorem otuSend_keeps {z : State} {p : Nat} {f : OtuFrame} {s : State} (h0 : Keeps z s) :
    Keeps z ((otuSend p f s)) := by
  unfold otuSend
  repeat' (first | with_reducible assumption | with_reducible apply otuArrive_keeps | with_reducible apply State.modLfr_keeps)

theorem beiClear_keeps {z : State} {p : Nat} {s : State} (h0 : Keeps z s) :
    Keeps z ((beiClear p s)) := by
  unfold beiClear
  repeat' (first | with_reducible assumption | with_reducible apply State.modLfr_keeps)

theorem clientOdu_keeps {z : State} {h : Nat} {c : ClientSig} {s : State} (h0 : Keeps z s) :
    Keeps z ((clientOdu h c s).2) := by
  unfold clientOdu
  repeat' (first | with_reducible assumption | with_reducible apply countEvent_keeps | with_reducible apply State.set_keeps | (with_reducible apply Keeps.ite <;> intro _) | (with_reducible apply Keeps.ite_snd <;> intro _) | simp (zeta := false) only [Keeps.parts])

theorem clientOdus_keeps {z : State} {h : Nat} {l : List ClientSig} {s : State} (h0 : Keeps z s) :
    Keeps z ((clientOdus h l s).2) := by
  unfold clientOdus
  repeat' (first | with_reducible assumption | with_reducible apply clientOdu_keeps | (with_reducible apply Keeps.foldl_snd; intro _ _ _))

theorem shareKeep_keeps {z : State} {p : Nat} {f : OtuFrame} {s : State} (h0 : Keeps z s) :
    Keeps z ((shareKeep p f s)) := by
  unfold shareKeep
  repeat' (first | with_reducible assumption | with_reducible apply State.modLfr_keeps)

theorem deliver_keeps {z : State} {h : Nat} {f : OtuFrame} {bad : Bool} {s : State} (h0 : Keeps z s) :
    Keeps z ((deliver h f bad s)) := by
  unfold deliver
  repeat' (first | with_reducible assumption | (intro u; first | (refine (fun (hu : ∀ a, Keeps z (u a)) => ?_) ?_; clear_value u; rotate_left; subst u; rotate_left) | (refine (fun (hu : Keeps z u) => ?_) ?_; clear_value u; rotate_left; subst u; rotate_left) | (refine (fun (hu : Keeps z u.2) => ?_) ?_; clear_value u; rotate_left; subst u; rotate_left) | (refine (fun (hu : Keeps z u.2.2) => ?_) ?_; clear_value u; rotate_left; subst u; rotate_left) | (refine (fun (hu : ∀ v, Keeps z v → Keeps z (u v)) => ?_) ?_; clear_value u; rotate_left; subst u; rotate_left) | (refine (fun (hu : ∀ v, Keeps z v → Keeps z (u v).2) => ?_) ?_; clear_value u; rotate_left; subst u; rotate_left) | (refine (fun (hu : ∀ a v, Keeps z v → Keeps z (u a v)) => ?_) ?_; clear_value u; rotate_left; subst u; rotate_left) | clear_value u) | (with_reducible apply Keeps.iter; intro _ _ _) | (with_reducible apply Keeps.ite <;> intro _) | simp (zeta := false) only [Keeps.parts] | lift_lets)

theorem otuOnward_keeps {z : State} {q : Nat} {f : OtuFrame} {s : State} (h0 : Keeps z s) :
    Keeps z ((otuOnward q f s)) := by
  unfold otuOnward
  repeat' (first | with_reducible assumption | with_reducible apply otuSend_keeps | with_reducible apply beiClear_keeps | with_reducible apply State.modLfr_keeps | (with_reducible apply Keeps.ite <;> intro _))

theorem otuSink_keeps {z : State} {p : Nat} {bad : Bool} {f : OtuFrame} {s : State} (h0 : Keeps z s) :
    Keeps z ((otuSink p bad f s)) := by
  unfold otuSink
  repeat' (first | with_reducible assumption | (intro u; first | (refine (fun (hu : ∀ a, Keeps z (u a)) => ?_) ?_; clear_value u; rotate_left; subst u; rotate_left) | (refine (fun (hu : Keeps z u) => ?_) ?_; clear_value u; rotate_left; subst u; rotate_left) | (refine (fun (hu : Keeps z u.2) => ?_) ?_; clear_value u; rotate_left; subst u; rotate_left) | (refine (fun (hu : Keeps z u.2.2) => ?_) ?_; clear_value u; rotate_left; subst u; rotate_left) | (refine (fun (hu : ∀ v, Keeps z v → Keeps z (u v)) => ?_) ?_; clear_value u; rotate_left; subst u; rotate_left) | (refine (fun (hu : ∀ v, Keeps z v → Keeps z (u v).2) => ?_) ?_; clear_value u; rotate_left; subst u; rotate_left) | (refine (fun (hu : ∀ a v, Keeps z v → Keeps z (u a v)) => ?_) ?_; clear_value u; rotate_left; subst u; rotate_left) | clear_value u) | with_reducible apply State.modLfr_keeps | with_reducible apply otuOnward_keeps | with_reducible apply deliver_keeps | with_reducible apply shareKeep_keeps | (with_reducible apply Keeps.ite <;> intro _) | lift_lets | split)

theorem otuFrames_keeps {z : State} {p : Nat} {s : State} (h0 : Keeps z s) :
    Keeps z ((otuFrames p s)) := by
  unfold otuFrames
  repeat' (first | with_reducible assumption | with_reducible apply State.modLfr_keeps | with_reducible apply otuSink_keeps | (with_reducible apply Keeps.foldl; intro _ _ _))

theorem payDrain_keeps {z : State} {p : Nat} : ∀ {n : Nat} {s : State}, Keeps z s → Keeps z (payDrain p n s)
  | 0, _, h => h
  | n + 1, s, h => by
    unfold payDrain
    split
    · exact h
    · split
      · exact payDrain_keeps (allotGive_keeps (allotsLost_keeps (State.modRxd_keeps h)))
      · exact h
    · exact payDrain_keeps (State.modRxd_keeps h)

theorem payFollow_keeps {z : State} {p : Nat} {s : State} (h0 : Keeps z s) :
    Keeps z ((payFollow p s)) := by
  unfold payFollow
  repeat' (first | with_reducible assumption | with_reducible apply payDrain_keeps | with_reducible apply otuFrames_keeps | (with_reducible apply Keeps.ite <;> intro _))

theorem otuBuild_keeps {z : State} {h n : Nat} {l : List ClientSig} {s : State} (h0 : Keeps z s) :
    Keeps z ((otuBuild h n l s).2) := by
  unfold otuBuild
  repeat' (first | with_reducible assumption | with_reducible apply clientOdus_keeps)

theorem otuBegin_keeps {z : State} {p : Nat} {s : State} {l : List ClientSig} (h0 : Keeps z s) :
    Keeps z ((otuBegin p s l)) := by
  unfold otuBegin
  repeat' (first | with_reducible assumption | with_reducible apply clientOdus_keeps | with_reducible apply State.modLfr_keeps | with_reducible apply otuBuild_keeps | with_reducible apply otuSend_keeps | with_reducible apply beiClear_keeps | (with_reducible apply Keeps.ite <;> intro _))

theorem State.modMce_keeps {z : State} {s : State} {f : MceState → MceState} (h0 : Keeps z s) :
    Keeps z ((State.modMce s f)) := by
  unfold State.modMce
  repeat' (first | with_reducible assumption | simp (zeta := false) only [Keeps.parts])

theorem mceSchedule_keeps {z : State} {s : State} (h0 : Keeps z s) :
    Keeps z ((mceSchedule s)) := by
  unfold mceSchedule
  repeat' (first | with_reducible assumption | with_reducible apply State.modMce_keeps | (with_reducible apply Keeps.ite <;> intro _) | lift_lets | split)

theorem mceSubmit_keeps {z : State} {m d : Nat} {s : State} (h0 : Keeps z s) :
    Keeps z ((mceSubmit m d s).2.2) := by
  unfold mceSubmit
  repeat' (first | with_reducible assumption | with_reducible apply State.set_keeps | with_reducible apply State.draw_keeps | with_reducible apply mceSchedule_keeps | with_reducible apply State.modMce_keeps | (with_reducible apply Keeps.ite_snd2 <;> intro _))

theorem jobAdvance_keeps {z : State} {j : Job} {blocks : Nat} {ext : List Nat} {s : State} (h0 : Keeps z s) :
    Keeps z ((jobAdvance j blocks ext s).2) := by
  unfold jobAdvance
  repeat' (first | with_reducible assumption | with_reducible apply bufWrite_keeps | (with_reducible apply Keeps.ite_snd <;> intro _))

theorem mceSuspend_keeps {z : State} {blocks : Nat} {ext : List Nat} {s : State} (h0 : Keeps z s) :
    Keeps z ((mceSuspend blocks ext s)) := by
  unfold mceSuspend
  repeat' (first | with_reducible assumption | with_reducible apply jobAdvance_keeps | with_reducible apply State.modMce_keeps | with_reducible apply State.raise_keeps | (with_reducible apply Keeps.ite <;> intro _) | split)

theorem mceCut_keeps {z : State} {bank : Nat} {ext : List Nat} {s : State} (h0 : Keeps z s) :
    Keeps z ((mceCut bank ext s)) := by
  unfold mceCut
  repeat' (first | with_reducible assumption | with_reducible apply State.draw_keeps | with_reducible apply jobAdvance_keeps | (with_reducible apply Keeps.ite <;> intro _) | lift_lets | split)

theorem jobAccess_keeps {z : State} {j : Job} {s : State} (h0 : Keeps z s) :
    Keeps z ((jobAccess j s).2) := by
  unfold jobAccess
  repeat' (first | with_reducible assumption | with_reducible apply bufCheck_keeps | (with_reducible apply Keeps.ite_snd <;> intro _))

theorem jobEnd_keeps {z : State} {j : Job} {status : Nat} {s : State} (h0 : Keeps z s) :
    Keeps z ((jobEnd j status s)) := by
  unfold jobEnd
  repeat' (first | with_reducible assumption | with_reducible apply State.modMce_keeps)

theorem mceComplete_keeps {z : State} {ext : List Nat} {cut : Bool} {s : State} (h0 : Keeps z s) :
    Keeps z ((mceComplete ext cut s)) := by
  unfold mceComplete
  repeat' (first | with_reducible assumption | with_reducible apply jobAccess_keeps | with_reducible apply fabRespond_keeps | with_reducible apply mceCut_keeps | with_reducible apply bufWrite_keeps | with_reducible apply State.modSess_keeps | with_reducible apply State.raiseIf_keeps | with_reducible apply mceSchedule_keeps | with_reducible apply jobEnd_keeps | with_reducible apply State.raise_keeps | with_reducible apply State.answer_keeps | (with_reducible apply Keeps.ite <;> intro _) | split)

theorem mceAbort_keeps {z : State} {bank : Nat} {s : State} (h0 : Keeps z s) :
    Keeps z ((mceAbort bank s)) := by
  unfold mceAbort
  repeat' (first | with_reducible assumption | with_reducible apply mceCut_keeps | with_reducible apply State.modMce_keeps | with_reducible apply mceSchedule_keeps)

theorem mcePop_keeps {z : State} {m : Nat} {s : State} (h0 : Keeps z s) :
    Keeps z ((mcePop m s).2) := by
  unfold mcePop
  repeat' (first | with_reducible assumption | with_reducible apply State.modMce_keeps | split)

theorem sessLoad_keeps {z : State} {n key salt : Nat} {s : State} (h0 : Keeps z s) :
    Keeps z ((sessLoad n key salt s).2) := by
  unfold sessLoad
  repeat' (first | with_reducible assumption | with_reducible apply State.modSess_keeps | (with_reducible apply Keeps.ite_snd <;> intro _))

theorem sessErase_keeps {z : State} {n : Nat} {s : State} (h0 : Keeps z s) :
    Keeps z ((sessErase n s).2) := by
  unfold sessErase
  repeat' (first | with_reducible assumption | with_reducible apply State.modSess_keeps | (with_reducible apply Keeps.ite_snd <;> intro _))

theorem keyLoadWrite_keeps {z : State} {load erase : Bool} {s : State} (h0 : Keeps z s) :
    Keeps z ((keyLoadWrite load erase s).2) := by
  unfold keyLoadWrite
  repeat' (first | with_reducible assumption | with_reducible apply sessLoad_keeps | with_reducible apply State.set_keeps | with_reducible apply sessErase_keeps | (with_reducible apply Keeps.iter; intro _ _ _) | (with_reducible apply Keeps.ite_snd <;> intro _))

theorem slipWrite_keeps {z : State} {p : Nat} {e : Option (List Nat)} {joint : Bool} {s : State} (h0 : Keeps z s) :
    Keeps z ((slipWrite p e joint s)) := by
  unfold slipWrite
  repeat' (first | with_reducible assumption | with_reducible apply State.addSat_keeps | with_reducible apply State.raise_keeps | with_reducible apply State.modLfr_keeps | (with_reducible apply Keeps.ite <;> intro _))

theorem slipRead_keeps {z : State} {p : Nat} {s : State} (h0 : Keeps z s) :
    Keeps z ((slipRead p s).2) := by
  unfold slipRead
  repeat' (first | with_reducible assumption | with_reducible apply State.modLfr_keeps | with_reducible apply State.addSat_keeps | with_reducible apply State.raise_keeps | (with_reducible apply Keeps.ite_snd <;> intro _) | lift_lets | split)

theorem txAdvance_keeps {z : State} {p : Nat} {s : State} (h0 : Keeps z s) :
    Keeps z ((txAdvance p s)) := by
  unfold txAdvance
  repeat' (first | with_reducible assumption | with_reducible apply State.modPd_keeps)

theorem mapReady_keeps {z : State} {p : Nat} {s : State} (h0 : Keeps z s) :
    Keeps z ((mapReady p s)) := by
  unfold mapReady
  repeat' (first | with_reducible assumption | (intro u; first | (refine (fun (hu : ∀ a, Keeps z (u a)) => ?_) ?_; clear_value u; rotate_left; subst u; rotate_left) | (refine (fun (hu : Keeps z u) => ?_) ?_; clear_value u; rotate_left; subst u; rotate_left) | (refine (fun (hu : Keeps z u.2) => ?_) ?_; clear_value u; rotate_left; subst u; rotate_left) | (refine (fun (hu : Keeps z u.2.2) => ?_) ?_; clear_value u; rotate_left; subst u; rotate_left) | (refine (fun (hu : ∀ v, Keeps z v → Keeps z (u v)) => ?_) ?_; clear_value u; rotate_left; subst u; rotate_left) | (refine (fun (hu : ∀ v, Keeps z v → Keeps z (u v).2) => ?_) ?_; clear_value u; rotate_left; subst u; rotate_left) | (refine (fun (hu : ∀ a v, Keeps z v → Keeps z (u a v)) => ?_) ?_; clear_value u; rotate_left; subst u; rotate_left) | clear_value u) | with_reducible apply State.modTxd_keeps | (with_reducible apply Keeps.ite <;> intro _) | lift_lets | split)

theorem sedgeOverlay_keeps {z : State} {p : Nat} {s : State} (h0 : Keeps z s) :
    Keeps z ((sedgeOverlay p s)) := by
  unfold sedgeOverlay
  repeat' (first | with_reducible assumption | (intro u; first | (refine (fun (hu : ∀ a, Keeps z (u a)) => ?_) ?_; clear_value u; rotate_left; subst u; rotate_left) | (refine (fun (hu : Keeps z u) => ?_) ?_; clear_value u; rotate_left; subst u; rotate_left) | (refine (fun (hu : Keeps z u.2) => ?_) ?_; clear_value u; rotate_left; subst u; rotate_left) | (refine (fun (hu : Keeps z u.2.2) => ?_) ?_; clear_value u; rotate_left; subst u; rotate_left) | (refine (fun (hu : ∀ v, Keeps z v → Keeps z (u v)) => ?_) ?_; clear_value u; rotate_left; subst u; rotate_left) | (refine (fun (hu : ∀ v, Keeps z v → Keeps z (u v).2) => ?_) ?_; clear_value u; rotate_left; subst u; rotate_left) | (refine (fun (hu : ∀ a v, Keeps z v → Keeps z (u a v)) => ?_) ?_; clear_value u; rotate_left; subst u; rotate_left) | clear_value u) | with_reducible apply State.modTxd_keeps | with_reducible apply State.modSgp_keeps | lift_lets | split)

theorem predistort_keeps {z : State} {p : Nat} {lanes : List (List Int)} {s : State} (h0 : Keeps z s) :
    Keeps z ((predistort p lanes s)) := by
  unfold predistort
  repeat' (first | with_reducible assumption | with_reducible apply State.modTxd_keeps | with_reducible apply clipCount_keeps | (with_reducible apply Keeps.iter; intro _ _ _))

theorem frameSend_keeps {z : State} {p : Nat} {user : List Nat} {clients : List (List ClientSig)} {s : State} (h0 : Keeps z s) :
    Keeps z ((frameSend p user clients s)) := by
  unfold frameSend
  repeat' (first | with_reducible assumption | with_reducible apply txAdvance_keeps | with_reducible apply joinPending_keeps | with_reducible apply sharePending_keeps | with_reducible apply State.modLfr_keeps | with_reducible apply otuBegin_keeps | with_reducible apply squelchOn_keeps | with_reducible apply replaceInEnd_keeps | with_reducible apply slipRead_keeps | with_reducible apply sedgeOverlay_keeps | with_reducible apply mapReady_keeps | with_reducible apply State.modTxd_keeps | (with_reducible apply Keeps.foldl; intro _ _ _) | (with_reducible apply Keeps.ite <;> intro _) | (with_reducible apply Keeps.ite_snd <;> intro _))

theorem candShow_keeps {z : State} {p : Nat} {s : State} (h0 : Keeps z s) :
    Keeps z ((candShow p s)) := by
  unfold candShow
  repeat' (first | with_reducible assumption | with_reducible apply State.set_keeps)

theorem searchHit_keeps {z : State} {p pos : Nat} {header : List Nat} {s : State} (h0 : Keeps z s) :
    Keeps z ((searchHit p pos header s)) := by
  unfold searchHit
  repeat' (first | with_reducible assumption | with_reducible apply State.addSat_keeps | with_reducible apply candShow_keeps | with_reducible apply State.set_keeps | (with_reducible apply Keeps.ite <;> intro _) | lift_lets | split)

theorem faDeclare_keeps {z : State} {p mf : Nat} {s : State} (h0 : Keeps z s) :
    Keeps z ((faDeclare p mf s)) := by
  unfold faDeclare
  repeat' (first | with_reducible assumption | with_reducible apply candClear_keeps | with_reducible apply State.set_keeps | with_reducible apply State.raise_keeps | with_reducible apply State.draw_keeps | with_reducible apply State.modRxd_keeps | with_reducible apply State.modLfr_keeps | with_reducible apply agcFaDeclared_keeps | with_reducible apply rxFaDeclared_keeps | with_reducible apply setDefect_keeps)

theorem candExamine_keeps {z : State} {p k : Nat} {header : List Nat} {s : State} (h0 : Keeps z s) :
    Keeps z ((candExamine p k header s)) := by
  unfold candExamine
  repeat' (first | with_reducible assumption | (intro u; first | (refine (fun (hu : ∀ a, Keeps z (u a)) => ?_) ?_; clear_value u; rotate_left; subst u; rotate_left) | (refine (fun (hu : Keeps z u) => ?_) ?_; clear_value u; rotate_left; subst u; rotate_left) | (refine (fun (hu : Keeps z u.2) => ?_) ?_; clear_value u; rotate_left; subst u; rotate_left) | (refine (fun (hu : Keeps z u.2.2) => ?_) ?_; clear_value u; rotate_left; subst u; rotate_left) | (refine (fun (hu : ∀ v, Keeps z v → Keeps z (u v)) => ?_) ?_; clear_value u; rotate_left; subst u; rotate_left) | (refine (fun (hu : ∀ v, Keeps z v → Keeps z (u v).2) => ?_) ?_; clear_value u; rotate_left; subst u; rotate_left) | (refine (fun (hu : ∀ a v, Keeps z v → Keeps z (u a v)) => ?_) ?_; clear_value u; rotate_left; subst u; rotate_left) | clear_value u) | with_reducible apply State.set_keeps | with_reducible apply candShow_keeps | with_reducible apply State.addSat_keeps | with_reducible apply State.raise_keeps | with_reducible apply faDeclare_keeps | (with_reducible apply Keeps.ite <;> intro _) | lift_lets | split)

theorem faLost_keeps {z : State} {p : Nat} {s : State} (h0 : Keeps z s) :
    Keeps z ((faLost p s)) := by
  unfold faLost
  repeat' (first | with_reducible assumption | with_reducible apply rxFaLost_keeps | with_reducible apply faClear_keeps | with_reducible apply State.raise_keeps | (with_reducible apply Keeps.ite <;> intro _))

theorem saDeclare_keeps {z : State} {p a : Nat} {s : State} (h0 : Keeps z s) :
    Keeps z ((saDeclare p a s)) := by
  unfold saDeclare
  repeat' (first | with_reducible assumption | with_reducible apply State.set_keeps | with_reducible apply State.raise_keeps | with_reducible apply State.modPd_keeps | with_reducible apply State.modLfr_keeps | with_reducible apply staleBelow_keeps)

theorem swathTrack_keeps {z : State} {p mf : Nat} {swn : Option Nat} {bad : Bool} {s : State} (h0 : Keeps z s) :
    Keeps z ((swathTrack p mf swn bad s)) := by
  unfold swathTrack
  repeat' (first | with_reducible assumption | with_reducible apply State.modLfr_keeps | with_reducible apply saDeclare_keeps | (with_reducible apply Keeps.ite <;> intro _) | simp (zeta := false) only [Keeps.parts] | split)

theorem judgePos_keeps {z : State} {p mf : Nat} {c : Control} {s : State} (h0 : Keeps z s) :
    Keeps z ((judgePos p mf c s).2.2) := by
  unfold judgePos
  repeat' (first | with_reducible assumption | with_reducible apply State.modLfr_keeps | with_reducible apply saDrop_keeps | (with_reducible apply Keeps.ite_snd2 <;> intro _))

theorem judgeRung_keeps {z : State} {p rung : Nat} {s : State} (h0 : Keeps z s) :
    Keeps z ((judgeRung p rung s)) := by
  unfold judgeRung
  repeat' (first | with_reducible assumption | with_reducible apply State.modLfr_keeps | with_reducible apply State.set_keeps | with_reducible apply State.raise_keeps | (with_reducible apply Keeps.ite <;> intro _))

theorem judgeCwp_keeps {z : State} {p cwp : Nat} {s : State} (h0 : Keeps z s) :
    Keeps z ((judgeCwp p cwp s)) := by
  unfold judgeCwp
  repeat' (first | with_reducible assumption | with_reducible apply cwDrop_keeps | with_reducible apply State.modRxd_keeps | with_reducible apply State.modLfr_keeps | with_reducible apply State.raise_keeps | (with_reducible apply Keeps.ite <;> intro _))

theorem judgeJc_keeps {z : State} {p : Nat} {c : Option Control} {s : State} (h0 : Keeps z s) :
    Keeps z ((judgeJc p c s)) := by
  unfold judgeJc
  repeat' (first | with_reducible assumption | with_reducible apply State.set_keeps | with_reducible apply State.modLfr_keeps | with_reducible apply State.modRxd_keeps | with_reducible apply State.raiseIf_keeps)

theorem acceptFlags_keeps {z : State} {p d0 d1 : Nat} {s : State} (h0 : Keeps z s) :
    Keeps z ((acceptFlags p d0 d1 s)) := by
  unfold acceptFlags
  repeat' (first | with_reducible assumption | (intro u; first | (refine (fun (hu : ∀ a, Keeps z (u a)) => ?_) ?_; clear_value u; rotate_left; subst u; rotate_left) | (refine (fun (hu : Keeps z u) => ?_) ?_; clear_value u; rotate_left; subst u; rotate_left) | (refine (fun (hu : Keeps z u.2) => ?_) ?_; clear_value u; rotate_left; subst u; rotate_left) | (refine (fun (hu : Keeps z u.2.2) => ?_) ?_; clear_value u; rotate_left; subst u; rotate_left) | (refine (fun (hu : ∀ v, Keeps z v → Keeps z (u v)) => ?_) ?_; clear_value u; rotate_left; subst u; rotate_left) | (refine (fun (hu : ∀ v, Keeps z v → Keeps z (u v).2) => ?_) ?_; clear_value u; rotate_left; subst u; rotate_left) | (refine (fun (hu : ∀ a v, Keeps z v → Keeps z (u a v)) => ?_) ?_; clear_value u; rotate_left; subst u; rotate_left) | clear_value u) | with_reducible apply State.set_keeps | with_reducible apply State.raiseIf_keeps | with_reducible apply State.modLfr_keeps | (with_reducible apply Keeps.ite <;> intro _) | lift_lets | split)

theorem judgeAdjId_keeps {z : State} {p id : Nat} {s : State} (h0 : Keeps z s) :
    Keeps z ((judgeAdjId p id s)) := by
  unfold judgeAdjId
  repeat' (first | with_reducible assumption | with_reducible apply State.modLfr_keeps | with_reducible apply State.set_keeps | with_reducible apply State.raiseIf_keeps | (with_reducible apply Keeps.ite <;> intro _))

theorem adjSwap_keeps {z : State} {p : Nat} {s : State} (h0 : Keeps z s) :
    Keeps z ((adjSwap p s)) := by
  unfold adjSwap
  repeat' (first | with_reducible assumption | with_reducible apply State.makeActive_keeps | with_reducible apply judgeAdj_keeps | with_reducible apply State.modLfr_keeps | with_reducible apply State.raise_keeps | (with_reducible apply Keeps.ite <;> intro _))

theorem thcReceive_keeps {z : State} {p : Nat} {valid : Bool} {b : List Nat} {s : State} (h0 : Keeps z s) :
    Keeps z ((thcReceive p valid b s)) := by
  unfold thcReceive
  repeat' (first | with_reducible assumption | with_reducible apply State.modLfr_keeps | with_reducible apply State.set_keeps | with_reducible apply State.raise_keeps | (with_reducible apply Keeps.iter; intro _ _ _) | (with_reducible apply Keeps.ite <;> intro _))

theorem userReceive_keeps {z : State} {p : Nat} {b : List Nat} {s : State} (h0 : Keeps z s) :
    Keeps z ((userReceive p b s)) := by
  unfold userReceive
  repeat' (first | with_reducible assumption | with_reducible apply State.modLfr_keeps | with_reducible apply State.set_keeps | (with_reducible apply Keeps.iter; intro _ _ _) | (with_reducible apply Keeps.ite <;> intro _))

theorem judgeBond_keeps {z : State} {p : Nat} {d : List Nat} {s : State} (h0 : Keeps z s) :
    Keeps z ((judgeBond p d s)) := by
  unfold judgeBond
  repeat' (first | with_reducible assumption | with_reducible apply State.set_keeps | with_reducible apply State.modLfr_keeps | with_reducible apply State.raiseIf_keeps | with_reducible apply squelchOn_keeps | (with_reducible apply Keeps.ite <;> intro _))

theorem protectedArea_keeps {z : State} {p mf : Nat} {area : List Nat} {joint : Bool} {s : State} (h0 : Keeps z s) :
    Keeps z ((protectedArea p mf area joint s)) := by
  unfold protectedArea
  repeat' (first | with_reducible assumption | (intro u; first | (refine (fun (hu : ∀ a, Keeps z (u a)) => ?_) ?_; clear_value u; rotate_left; subst u; rotate_left) | (refine (fun (hu : Keeps z u) => ?_) ?_; clear_value u; rotate_left; subst u; rotate_left) | (refine (fun (hu : Keeps z u.2) => ?_) ?_; clear_value u; rotate_left; subst u; rotate_left) | (refine (fun (hu : Keeps z u.2.2) => ?_) ?_; clear_value u; rotate_left; subst u; rotate_left) | (refine (fun (hu : ∀ v, Keeps z v → Keeps z (u v)) => ?_) ?_; clear_value u; rotate_left; subst u; rotate_left) | (refine (fun (hu : ∀ v, Keeps z v → Keeps z (u v).2) => ?_) ?_; clear_value u; rotate_left; subst u; rotate_left) | (refine (fun (hu : ∀ a v, Keeps z v → Keeps z (u a v)) => ?_) ?_; clear_value u; rotate_left; subst u; rotate_left) | clear_value u) | with_reducible apply State.modLfr_keeps | with_reducible apply State.addSat_keeps | with_reducible apply State.raise_keeps | with_reducible apply slipWrite_keeps | with_reducible apply acceptFlags_keeps | with_reducible apply judgeBond_keeps | with_reducible apply judgeAdjId_keeps | with_reducible apply userReceive_keeps | with_reducible apply thcReceive_keeps | (with_reducible apply Keeps.iter; intro _ _ _) | (with_reducible apply Keeps.ite <;> intro _) | lift_lets | split)

theorem frameTake_keeps {z : State} {p : Nat} {x : RxFrame} {syms : List (List Cx × List Cx)} {s : State} (h0 : Keeps z s) :
    Keeps z ((frameTake p x syms s)) := by
  unfold frameTake
  repeat' (first | with_reducible assumption | with_reducible apply State.modPd_keeps | with_reducible apply State.set_keeps | with_reducible apply State.addSat_keeps | with_reducible apply State.raise_keeps | with_reducible apply judgePos_keeps | with_reducible apply cipherRxBoundary_keeps | with_reducible apply epochCompare_keeps | with_reducible apply judgeCwp_keeps | with_reducible apply judgeRung_keeps | with_reducible apply judgeJc_keeps | with_reducible apply frameDemap_keeps | with_reducible apply protectedArea_keeps | with_reducible apply otnTake_keeps | with_reducible apply csfTake_keeps | with_reducible apply joinPending_keeps | with_reducible apply cdTrack_keeps | with_reducible apply swathTrack_keeps | (with_reducible apply Keeps.foldl; intro _ _ _) | (with_reducible apply Keeps.ite <;> intro _) | lift_lets | split)

theorem frameReceive_keeps {z : State} {p : Nat} {x : RxFrame} {s : State} (h0 : Keeps z s) :
    Keeps z ((frameReceive p x s)) := by
  unfold frameReceive
  repeat' (first | with_reducible assumption | with_reducible apply losJudge_keeps | with_reducible apply rxFrameStep_keeps | with_reducible apply frameMeasure_keeps | with_reducible apply rxField_keeps | with_reducible apply fecJudge_keeps | with_reducible apply squelchOn_keeps | with_reducible apply frameTake_keeps | with_reducible apply State.modLfr_keeps | with_reducible apply replaceOutAll_keeps | with_reducible apply faLost_keeps | (with_reducible apply Keeps.ite <;> intro _))

theorem skewMeasure_keeps {z : State} {m : Option Int} {s : State} (h0 : Keeps z s) :
    Keeps z ((skewMeasure m s)) := by
  unfold skewMeasure
  repeat' (first | with_reducible assumption | with_reducible apply State.set_keeps | with_reducible apply State.setI_keeps | with_reducible apply State.modLfr_keeps | with_reducible apply State.raiseIf_keeps | with_reducible apply squelchOn_keeps | (with_reducible apply Keeps.ite <;> intro _) | simp (zeta := false) only [Keeps.parts] | split)

theorem refusalEvent_keeps {z : State} {v : Nat} {s : State} (h0 : Keeps z s) :
    Keeps z ((refusalEvent v s)) := by
  unfold refusalEvent
  repeat' (first | with_reducible assumption | with_reducible apply State.raise_keeps | (with_reducible apply Keeps.ite <;> intro _))

theorem stageNext_keeps {z : State} {s : State} (h0 : Keeps z s) :
    Keeps z ((stageNext s)) := by
  unfold stageNext
  repeat' (first | with_reducible assumption | with_reducible apply State.modSwc_keeps | (with_reducible apply Keeps.ite <;> intro _) | lift_lets | split)

theorem insertAction_keeps {z : State} {m desc : Nat} {owner : Owner} {approved : Bool} {s : State} (h0 : Keeps z s) :
    Keeps z ((insertAction m desc owner approved s).2.2) := by
  unfold insertAction
  repeat' (first | with_reducible assumption | with_reducible apply refusalEvent_keeps | with_reducible apply storeAct_keeps | with_reducible apply stageNext_keeps | with_reducible apply State.modSwc_keeps | (with_reducible apply Keeps.ite <;> intro _) | (with_reducible apply Keeps.ite_snd2 <;> intro _))

theorem State.modProp_keeps {z : State} {s : State} {p d : Nat} {f : Proposal → Proposal} (h0 : Keeps z s) :
    Keeps z ((State.modProp s p d f)) := by
  unfold State.modProp
  repeat' (first | with_reducible assumption | with_reducible apply State.modTxd_keeps)

theorem showProp_keeps {z : State} {p d state role id status : Nat} {s : State} (h0 : Keeps z s) :
    Keeps z ((showProp p d state role id status s)) := by
  unfold showProp
  repeat' (first | with_reducible assumption | with_reducible apply State.set_keeps)

theorem endProp_keeps {z : State} {p d state status : Nat} {s : State} (h0 : Keeps z s) :
    Keeps z ((endProp p d state status s)) := by
  unfold endProp
  repeat' (first | with_reducible assumption | with_reducible apply State.set_keeps | with_reducible apply State.modProp_keeps | with_reducible apply State.raise_keeps | (with_reducible apply Keeps.ite <;> intro _))

theorem dropPropAct_keeps {z : State} {p d : Nat} {s : State} (h0 : Keeps z s) :
    Keeps z ((dropPropAct p d s)) := by
  unfold dropPropAct
  repeat' (first | with_reducible assumption | with_reducible apply removeAct_keeps | with_reducible apply State.modProp_keeps | split)

theorem sendPropose_keeps {z : State} {p d : Nat} {rung : Bool} {id target : Nat} {content : List Nat} {brk : Bool} {s : State} (h0 : Keeps z s) :
    Keeps z ((sendPropose p d rung id target content brk s)) := by
  unfold sendPropose
  repeat' (first | with_reducible assumption | with_reducible apply showProp_keeps | with_reducible apply State.modProp_keeps | with_reducible apply coreSend_keeps)

theorem propGo_keeps {z : State} {p d : Nat} {rung : Bool} {id i : Nat} {s : State} (h0 : Keeps z s) :
    Keeps z ((propGo p d rung id i s).2) := by
  unfold propGo
  repeat' (first | with_reducible assumption | with_reducible apply sendPropose_keeps | (with_reducible apply Keeps.ite_snd <;> intro _))

theorem propAbort_keeps {z : State} {p d status : Nat} {s : State} (h0 : Keeps z s) :
    Keeps z ((propAbort p d status s)) := by
  unfold propAbort
  repeat' (first | with_reducible assumption | with_reducible apply coreSend_keeps | with_reducible apply endProp_keeps | with_reducible apply dropPropAct_keeps | (with_reducible apply Keeps.ite <;> intro _))

theorem drawBackoff_keeps {z : State} {s : State} (h0 : Keeps z s) :
    Keeps z ((drawBackoff s)) := by
  unfold drawBackoff
  repeat' (first | with_reducible assumption | with_reducible apply State.draw_keeps)

theorem proposeTake_keeps {z : State} {p : Nat} {b : List Nat} {s : State} (h0 : Keeps z s) :
    Keeps z ((proposeTake p b s)) := by
  unfold proposeTake
  repeat' (first | with_reducible assumption | with_reducible apply takeMsg_keeps | with_reducible apply endProp_keeps | with_reducible apply dropPropAct_keeps | with_reducible apply coreSend_keeps | with_reducible apply State.raise_keeps | with_reducible apply drawBackoff_keeps | with_reducible apply State.modProp_keeps | with_reducible apply State.setBankWords_keeps | with_reducible apply insertAction_keeps | with_reducible apply showProp_keeps | (with_reducible apply Keeps.ite <;> intro _) | (with_reducible apply Keeps.ite_snd2 <;> intro _))

theorem acceptTake_keeps {z : State} {p : Nat} {b : List Nat} {s : State} (h0 : Keeps z s) :
    Keeps z ((acceptTake p b s)) := by
  unfold acceptTake
  repeat' (first | with_reducible assumption | with_reducible apply takeMsg_keeps | with_reducible apply propAbort_keeps | with_reducible apply insertAction_keeps | with_reducible apply State.set_keeps | with_reducible apply State.modProp_keeps | with_reducible apply coreSend_keeps | (with_reducible apply Keeps.ite <;> intro _))

theorem rejectTake_keeps {z : State} {p : Nat} {b : List Nat} {s : State} (h0 : Keeps z s) :
    Keeps z ((rejectTake p b s)) := by
  unfold rejectTake
  repeat' (first | with_reducible assumption | with_reducible apply takeMsg_keeps | with_reducible apply endProp_keeps | (with_reducible apply Keeps.ite <;> intro _))

theorem commitTake_keeps {z : State} {p : Nat} {b : List Nat} {s : State} (h0 : Keeps z s) :
    Keeps z ((commitTake p b s)) := by
  unfold commitTake
  repeat' (first | with_reducible assumption | with_reducible apply takeMsg_keeps | with_reducible apply State.set_keeps | (with_reducible apply Keeps.ite <;> intro _))

theorem abortTake_keeps {z : State} {p : Nat} {b : List Nat} {s : State} (h0 : Keeps z s) :
    Keeps z ((abortTake p b s)) := by
  unfold abortTake
  repeat' (first | with_reducible assumption | (intro u; first | (refine (fun (hu : ∀ a, Keeps z (u a)) => ?_) ?_; clear_value u; rotate_left; subst u; rotate_left) | (refine (fun (hu : Keeps z u) => ?_) ?_; clear_value u; rotate_left; subst u; rotate_left) | (refine (fun (hu : Keeps z u.2) => ?_) ?_; clear_value u; rotate_left; subst u; rotate_left) | (refine (fun (hu : Keeps z u.2.2) => ?_) ?_; clear_value u; rotate_left; subst u; rotate_left) | (refine (fun (hu : ∀ v, Keeps z v → Keeps z (u v)) => ?_) ?_; clear_value u; rotate_left; subst u; rotate_left) | (refine (fun (hu : ∀ v, Keeps z v → Keeps z (u v).2) => ?_) ?_; clear_value u; rotate_left; subst u; rotate_left) | (refine (fun (hu : ∀ a v, Keeps z v → Keeps z (u a v)) => ?_) ?_; clear_value u; rotate_left; subst u; rotate_left) | clear_value u) | with_reducible apply takeMsg_keeps | with_reducible apply endProp_keeps | with_reducible apply removeAct_keeps | (with_reducible apply Keeps.ite <;> intro _) | lift_lets | split)

theorem propTimeout_keeps {z : State} {p d : Nat} {s : State} (h0 : Keeps z s) :
    Keeps z ((propTimeout p d s)) := by
  unfold propTimeout
  repeat' (first | with_reducible assumption | with_reducible apply propAbort_keeps | (with_reducible apply Keeps.ite <;> intro _))

theorem propEnded_keeps {z : State} {p d status : Nat} {s : State} (h0 : Keeps z s) :
    Keeps z ((propEnded p d status s)) := by
  unfold propEnded
  repeat' (first | with_reducible assumption | with_reducible apply endProp_keeps | (with_reducible apply Keeps.ite <;> intro _))

theorem policyRun_keeps {z : State} {p d : Nat} {gmi : List Nat} {snr : List Int} {s : State} (h0 : Keeps z s) :
    Keeps z ((policyRun p d gmi snr s)) := by
  unfold policyRun
  repeat' (first | with_reducible assumption | with_reducible apply State.draw_keeps | with_reducible apply State.setBankWords_keeps | with_reducible apply sendPropose_keeps | (with_reducible apply Keeps.ite <;> intro _))

theorem afterLatch_keeps {z : State} {p : Nat} {s : State} (h0 : Keeps z s) :
    Keeps z ((afterLatch p s)) := by
  unfold afterLatch
  repeat' (first | with_reducible assumption | with_reducible apply coreSend_keeps | with_reducible apply policyRun_keeps | (with_reducible apply Keeps.ite <;> intro _))

theorem reportTake_keeps {z : State} {p : Nat} {b : List Nat} {s : State} (h0 : Keeps z s) :
    Keeps z ((reportTake p b s)) := by
  unfold reportTake
  repeat' (first | with_reducible assumption | with_reducible apply takeMsg_keeps | with_reducible apply State.set_keeps | with_reducible apply State.raise_keeps | with_reducible apply State.modTxd_keeps | with_reducible apply policyRun_keeps | (with_reducible apply Keeps.iter; intro _ _ _) | (with_reducible apply Keeps.ite <;> intro _))

theorem reportMissed_keeps {z : State} {p : Nat} {s : State} (h0 : Keeps z s) :
    Keeps z ((reportMissed p s)) := by
  unfold reportMissed
  repeat' (first | with_reducible assumption | with_reducible apply State.raise_keeps | with_reducible apply State.modTxd_keeps | (with_reducible apply Keeps.ite <;> intro _))

theorem State.modEx_keeps {z : State} {s : State} {p c : Nat} {f : KeyEx → KeyEx} (h0 : Keeps z s) :
    Keeps z ((State.modEx s p c f)) := by
  unfold State.modEx
  repeat' (first | with_reducible assumption | with_reducible apply State.modLcx_keeps)

theorem showKey_keeps {z : State} {p c state id status : Nat} {s : State} (h0 : Keeps z s) :
    Keeps z ((showKey p c state id status s)) := by
  unfold showKey
  repeat' (first | with_reducible assumption | with_reducible apply State.set_keeps)

theorem removeAll_keeps {z : State} {l : List (Nat × Nat)} {s : State} (h0 : Keeps z s) :
    Keeps z ((removeAll l s)) := by
  unfold removeAll
  repeat' (first | with_reducible assumption | with_reducible apply removeAct_keeps | (with_reducible apply Keeps.foldl; intro _ _ _))

theorem insertSwitch_keeps {z : State} {p d c slot target : Nat} {s : State} (h0 : Keeps z s) :
    Keeps z ((insertSwitch p d c slot target s).2.2) := by
  unfold insertSwitch
  repeat' (first | with_reducible assumption | with_reducible apply insertAction_keeps)

theorem switchOne_keeps {z : State} {a : Nat × Nat × State} (h : Keeps z a.2.2) : Keeps z (switchOne a).2.2 := h

theorem switchBoth_keeps {z : State} {k : Nat} {b : Nat × Nat × State} (h : Keeps z b.2.2) : Keeps z (switchBoth k b).2.2 := by
  unfold switchBoth
  exact Keeps.ite_snd2 (fun _ => h) (fun _ => removeAct_keeps h)

theorem insertSwitches_keeps {z : State} {p d c slot target : Nat} {both : Bool} {s : State} (h0 : Keeps z s) :
    Keeps z ((insertSwitches p d c slot target both s).2.2) := by
  rw [insertSwitches]
  exact Keeps.ite_snd2 (fun _ => switchOne_keeps (insertSwitch_keeps h0)) (fun _ => switchBoth_keeps (insertSwitch_keeps (insertSwitch_keeps h0)))

theorem endKey_keeps {z : State} {p c state status : Nat} {s : State} (h0 : Keeps z s) :
    Keeps z ((endKey p c state status s)) := by
  unfold endKey
  repeat' (first | with_reducible assumption | with_reducible apply showKey_keeps | with_reducible apply State.modEx_keeps | with_reducible apply State.raise_keeps | with_reducible apply removeAll_keeps | (with_reducible apply Keeps.ite <;> intro _))

theorem keyStart_keeps {z : State} {p c id slot target : Nat} {both : Bool} {s : State} (h0 : Keeps z s) :
    Keeps z ((keyStart p c id slot target both s).2) := by
  unfold keyStart
  repeat' (first | with_reducible assumption | with_reducible apply insertSwitches_keeps | with_reducible apply State.modEx_keeps | with_reducible apply showKey_keeps | with_reducible apply State.raise_keeps | with_reducible apply coreSend_keeps | (with_reducible apply Keeps.ite_snd <;> intro _))

theorem keyHeld_keeps {z : State} {p c id slot target : Nat} {both : Bool} {s : State} (h0 : Keeps z s) :
    Keeps z ((keyHeld p c id slot target both s)) := by
  unfold keyHeld
  repeat' (first | with_reducible assumption | with_reducible apply showKey_keeps | with_reducible apply State.modEx_keeps)

theorem keyBegin_keeps {z : State} {p c id slot target : Nat} {both : Bool} {s : State} (h0 : Keeps z s) :
    Keeps z ((keyBegin p c id slot target both s).2) := by
  unfold keyBegin
  repeat' (first | with_reducible assumption | with_reducible apply keyHeld_keeps | with_reducible apply keyStart_keeps | (with_reducible apply Keeps.ite_snd <;> intro _))

theorem keyResume_keeps {z : State} {s : State} (h0 : Keeps z s) :
    Keeps z ((keyResume s)) := by
  unfold keyResume
  repeat' (first | with_reducible assumption | with_reducible apply keyStart_keeps | (with_reducible apply Keeps.iter; intro _ _ _) | (with_reducible apply Keeps.ite <;> intro _))

theorem keyGo_keeps {z : State} {p c id slot : Nat} {both : Bool} {s : State} (h0 : Keeps z s) :
    Keeps z ((keyGo p c id slot both s).2) := by
  unfold keyGo
  repeat' (first | with_reducible assumption | with_reducible apply keyBegin_keeps | (with_reducible apply Keeps.ite_snd <;> intro _))

theorem keyPropTake_keeps {z : State} {p : Nat} {b : List Nat} {s : State} (h0 : Keeps z s) :
    Keeps z ((keyPropTake p b s)) := by
  unfold keyPropTake
  repeat' (first | with_reducible assumption | with_reducible apply takeMsg_keeps | with_reducible apply endKey_keeps | with_reducible apply coreSend_keeps | with_reducible apply State.raise_keeps | with_reducible apply drawBackoff_keeps | with_reducible apply State.modEx_keeps | with_reducible apply insertSwitches_keeps | (with_reducible apply Keeps.ite <;> intro _) | (with_reducible apply Keeps.ite_snd2 <;> intro _))

theorem keyAckTake_keeps {z : State} {p : Nat} {b : List Nat} {s : State} (h0 : Keeps z s) :
    Keeps z ((keyAckTake p b s)) := by
  unfold keyAckTake
  repeat' (first | with_reducible assumption | with_reducible apply takeMsg_keeps | with_reducible apply endKey_keeps | (with_reducible apply Keeps.ite <;> intro _))

theorem keyNakTake_keeps {z : State} {p : Nat} {b : List Nat} {s : State} (h0 : Keeps z s) :
    Keeps z ((keyNakTake p b s)) := by
  unfold keyNakTake
  repeat' (first | with_reducible assumption | with_reducible apply takeMsg_keeps | with_reducible apply endKey_keeps | (with_reducible apply Keeps.ite <;> intro _))

theorem keyTimeoutEnd_keeps {z : State} {p c : Nat} {s : State} (h0 : Keeps z s) :
    Keeps z ((keyTimeoutEnd p c s)) := by
  unfold keyTimeoutEnd
  repeat' (first | with_reducible assumption | with_reducible apply endKey_keeps | (with_reducible apply Keeps.ite <;> intro _))

theorem backoffEnd_keeps {z : State} {p : Nat} {key : Bool} {i : Nat} {s : State} (h0 : Keeps z s) :
    Keeps z ((backoffEnd p key i s)) := by
  unfold backoffEnd
  repeat' (first | with_reducible assumption | with_reducible apply keyBegin_keeps | with_reducible apply State.modProp_keeps | with_reducible apply State.setBankWords_keeps | with_reducible apply sendPropose_keeps | (with_reducible apply Keeps.ite <;> intro _))

theorem holdEnd_keeps {z : State} {p : Nat} {key : Bool} {i : Nat} {s : State} (h0 : Keeps z s) :
    Keeps z ((holdEnd p key i s)) := by
  unfold holdEnd
  repeat' (first | with_reducible assumption | with_reducible apply State.modEx_keeps | with_reducible apply State.modProp_keeps | (with_reducible apply Keeps.ite <;> intro _))

theorem State.modClk_keeps {z : State} {s : State} {f : ClkState → ClkState} (h0 : Keeps z s) :
    Keeps z ((State.modClk s f)) := by
  unfold State.modClk
  repeat' (first | with_reducible assumption | simp (zeta := false) only [Keeps.parts])

theorem State.modDp_keeps {z : State} {s : State} {n : Nat} {f : Dpll → Dpll} (h0 : Keeps z s) :
    Keeps z ((State.modDp s n f)) := by
  unfold State.modDp
  repeat' (first | with_reducible assumption | with_reducible apply State.modClk_keeps)

theorem setRun_keeps {z : State} {i v : Nat} {s : State} (h0 : Keeps z s) :
    Keeps z ((setRun i v s)) := by
  unfold setRun
  repeat' (first | with_reducible assumption | with_reducible apply State.modClk_keeps)

theorem setFreq_keeps {z : State} {n : Nat} {x : Int} {s : State} (h0 : Keeps z s) :
    Keeps z ((setFreq n x s)) := by
  unfold setFreq
  repeat' (first | with_reducible assumption | with_reducible apply State.set_keeps)

theorem histShow_keeps {z : State} {n : Nat} {s : State} (h0 : Keeps z s) :
    Keeps z ((histShow n s)) := by
  unfold histShow
  repeat' (first | with_reducible assumption | with_reducible apply State.set_keeps)

theorem dpEvent_keeps {z : State} {n e : Nat} {s : State} (h0 : Keeps z s) :
    Keeps z ((dpEvent n e s)) := by
  unfold dpEvent
  repeat' (first | with_reducible assumption | with_reducible apply State.raise_keeps)

theorem dpState_keeps {z : State} {n st : Nat} {s : State} (h0 : Keeps z s) :
    Keeps z ((dpState n st s)) := by
  unfold dpState
  repeat' (first | with_reducible assumption | with_reducible apply State.set_keeps)

theorem setSel_keeps {z : State} {n : Nat} {r : Option Nat} {s : State} (h0 : Keeps z s) :
    Keeps z ((setSel n r s)) := by
  unfold setSel
  repeat' (first | with_reducible assumption | with_reducible apply State.modDp_keeps | with_reducible apply State.set_keeps)

theorem setTarget_keeps {z : State} {n : Nat} {r : Option Nat} {s : State} (h0 : Keeps z s) :
    Keeps z ((setTarget n r s)) := by
  unfold setTarget
  repeat' (first | with_reducible assumption | with_reducible apply State.modDp_keeps | with_reducible apply State.set_keeps)

theorem wtrOff_keeps {z : State} {n : Nat} {s : State} (h0 : Keeps z s) :
    Keeps z ((wtrOff n s)) := by
  unfold wtrOff
  repeat' (first | with_reducible assumption | with_reducible apply State.set_keeps)

theorem dpHold_keeps {z : State} {n : Nat} {s : State} (h0 : Keeps z s) :
    Keeps z ((dpHold n s)) := by
  unfold dpHold
  repeat' (first | with_reducible assumption | with_reducible apply State.set_keeps | with_reducible apply setFreq_keeps | with_reducible apply dpEvent_keeps | with_reducible apply dpState_keeps | (with_reducible apply Keeps.ite <;> intro _))

theorem dpOff_keeps {z : State} {n : Nat} {s : State} (h0 : Keeps z s) :
    Keeps z ((dpOff n s)) := by
  unfold dpOff
  repeat' (first | with_reducible assumption | with_reducible apply wtrOff_keeps | with_reducible apply setTarget_keeps | with_reducible apply setSel_keeps | with_reducible apply dpState_keeps | with_reducible apply histShow_keeps | with_reducible apply setFreq_keeps | with_reducible apply State.modDp_keeps)

theorem dpJudge_keeps {z : State} {n : Nat} {s : State} (h0 : Keeps z s) :
    Keeps z ((dpJudge n s)) := by
  unfold dpJudge
  repeat' (first | with_reducible assumption | (intro u; first | (refine (fun (hu : ∀ a, Keeps z (u a)) => ?_) ?_; clear_value u; rotate_left; subst u; rotate_left) | (refine (fun (hu : Keeps z u) => ?_) ?_; clear_value u; rotate_left; subst u; rotate_left) | (refine (fun (hu : Keeps z u.2) => ?_) ?_; clear_value u; rotate_left; subst u; rotate_left) | (refine (fun (hu : Keeps z u.2.2) => ?_) ?_; clear_value u; rotate_left; subst u; rotate_left) | (refine (fun (hu : ∀ v, Keeps z v → Keeps z (u v)) => ?_) ?_; clear_value u; rotate_left; subst u; rotate_left) | (refine (fun (hu : ∀ v, Keeps z v → Keeps z (u v).2) => ?_) ?_; clear_value u; rotate_left; subst u; rotate_left) | (refine (fun (hu : ∀ a v, Keeps z v → Keeps z (u a v)) => ?_) ?_; clear_value u; rotate_left; subst u; rotate_left) | clear_value u) | with_reducible apply dpOff_keeps | with_reducible apply wtrOff_keeps | with_reducible apply setTarget_keeps | with_reducible apply setFreq_keeps | with_reducible apply dpState_keeps | with_reducible apply setSel_keeps | with_reducible apply dpHold_keeps | with_reducible apply dpEvent_keeps | (with_reducible apply Keeps.ite <;> intro _) | lift_lets | split)

theorem dpJudgeAll_keeps {z : State} {s : State} (h0 : Keeps z s) :
    Keeps z ((dpJudgeAll s)) := by
  unfold dpJudgeAll
  repeat' (first | with_reducible assumption | with_reducible apply dpJudge_keeps | (with_reducible apply Keeps.iter; intro _ _ _))

theorem wtrStart_keeps {z : State} {n r : Nat} {s : State} (h0 : Keeps z s) :
    Keeps z ((wtrStart n r s)) := by
  unfold wtrStart
  repeat' (first | with_reducible assumption | (intro u; first | (refine (fun (hu : ∀ a, Keeps z (u a)) => ?_) ?_; clear_value u; rotate_left; subst u; rotate_left) | (refine (fun (hu : Keeps z u) => ?_) ?_; clear_value u; rotate_left; subst u; rotate_left) | (refine (fun (hu : Keeps z u.2) => ?_) ?_; clear_value u; rotate_left; subst u; rotate_left) | (refine (fun (hu : Keeps z u.2.2) => ?_) ?_; clear_value u; rotate_left; subst u; rotate_left) | (refine (fun (hu : ∀ v, Keeps z v → Keeps z (u v)) => ?_) ?_; clear_value u; rotate_left; subst u; rotate_left) | (refine (fun (hu : ∀ v, Keeps z v → Keeps z (u v).2) => ?_) ?_; clear_value u; rotate_left; subst u; rotate_left) | (refine (fun (hu : ∀ a v, Keeps z v → Keeps z (u a v)) => ?_) ?_; clear_value u; rotate_left; subst u; rotate_left) | clear_value u) | with_reducible apply wtrOff_keeps | with_reducible apply State.modDp_keeps | with_reducible apply setTarget_keeps | with_reducible apply State.set_keeps | (with_reducible apply Keeps.ite <;> intro _) | lift_lets | split)

theorem disqualify_keeps {z : State} {i : Nat} {s : State} (h0 : Keeps z s) :
    Keeps z ((disqualify i s)) := by
  unfold disqualify
  repeat' (first | with_reducible assumption | with_reducible apply setRun_keeps | with_reducible apply State.set_keeps | with_reducible apply dpJudgeAll_keeps | with_reducible apply dpEvent_keeps | (with_reducible apply Keeps.iter; intro _ _ _) | (with_reducible apply Keeps.ite <;> intro _))

theorem driftJudge_keeps {z : State} {i : Nat} {s : State} (h0 : Keeps z s) :
    Keeps z ((driftJudge i s)) := by
  unfold driftJudge
  repeat' (first | with_reducible assumption | with_reducible apply State.set_keeps | with_reducible apply dpEvent_keeps | (with_reducible apply Keeps.iter; intro _ _ _) | (with_reducible apply Keeps.ite <;> intro _))

theorem qualify_keeps {z : State} {i : Nat} {s : State} (h0 : Keeps z s) :
    Keeps z ((qualify i s)) := by
  unfold qualify
  repeat' (first | with_reducible assumption | with_reducible apply driftJudge_keeps | with_reducible apply setRun_keeps | with_reducible apply State.set_keeps | with_reducible apply dpJudgeAll_keeps | with_reducible apply wtrStart_keeps | (with_reducible apply Keeps.iter; intro _ _ _))

theorem refLos_keeps {z : State} {i : Nat} {s : State} (h0 : Keeps z s) :
    Keeps z ((refLos i s)) := by
  unfold refLos
  repeat' (first | with_reducible assumption | with_reducible apply disqualify_keeps | with_reducible apply State.set_keeps | (with_reducible apply Keeps.ite <;> intro _))

theorem refReturn_keeps {z : State} {i : Nat} {s : State} (h0 : Keeps z s) :
    Keeps z ((refReturn i s)) := by
  unfold refReturn
  repeat' (first | with_reducible assumption | with_reducible apply setRun_keeps | with_reducible apply State.set_keeps | (with_reducible apply Keeps.ite <;> intro _))

theorem oscJudge_keeps {z : State} {s : State} (h0 : Keeps z s) :
    Keeps z ((oscJudge s)) := by
  unfold oscJudge
  repeat' (first | with_reducible assumption | with_reducible apply State.set_keeps | with_reducible apply State.raise_keeps | (with_reducible apply Keeps.ite <;> intro _))

theorem refMeasure_keeps {z : State} {i : Nat} {x : Int} {s : State} (h0 : Keeps z s) :
    Keeps z ((refMeasure i x s)) := by
  unfold refMeasure
  repeat' (first | with_reducible assumption | with_reducible apply State.setI_keeps | with_reducible apply State.set_keeps | with_reducible apply setRun_keeps | with_reducible apply oscJudge_keeps | with_reducible apply driftJudge_keeps | (with_reducible apply Keeps.ite <;> intro _))

theorem qualExpiry_keeps {z : State} {i : Nat} {s : State} (h0 : Keeps z s) :
    Keeps z ((qualExpiry i s)) := by
  unfold qualExpiry
  repeat' (first | with_reducible assumption | with_reducible apply oscJudge_keeps | with_reducible apply qualify_keeps | with_reducible apply disqualify_keeps | (with_reducible apply Keeps.ite <;> intro _))

theorem clkFollow_keeps {z : State} {s : State} (h0 : Keeps z s) :
    Keeps z ((clkFollow s)) := by
  unfold clkFollow
  repeat' (first | with_reducible assumption | with_reducible apply refLos_keeps | (with_reducible apply Keeps.iter; intro _ _ _) | (with_reducible apply Keeps.ite <;> intro _))

theorem switchDone_keeps {z : State} {n : Nat} {s : State} (h0 : Keeps z s) :
    Keeps z ((switchDone n s)) := by
  unfold switchDone
  repeat' (first | with_reducible assumption | (intro u; first | (refine (fun (hu : ∀ a, Keeps z (u a)) => ?_) ?_; clear_value u; rotate_left; subst u; rotate_left) | (refine (fun (hu : Keeps z u) => ?_) ?_; clear_value u; rotate_left; subst u; rotate_left) | (refine (fun (hu : Keeps z u.2) => ?_) ?_; clear_value u; rotate_left; subst u; rotate_left) | (refine (fun (hu : Keeps z u.2.2) => ?_) ?_; clear_value u; rotate_left; subst u; rotate_left) | (refine (fun (hu : ∀ v, Keeps z v → Keeps z (u v)) => ?_) ?_; clear_value u; rotate_left; subst u; rotate_left) | (refine (fun (hu : ∀ v, Keeps z v → Keeps z (u v).2) => ?_) ?_; clear_value u; rotate_left; subst u; rotate_left) | (refine (fun (hu : ∀ a v, Keeps z v → Keeps z (u a v)) => ?_) ?_; clear_value u; rotate_left; subst u; rotate_left) | clear_value u) | with_reducible apply dpEvent_keeps | with_reducible apply setSel_keeps | with_reducible apply setTarget_keeps | (with_reducible apply Keeps.ite <;> intro _) | lift_lets | split)

theorem wtrEnd_keeps {z : State} {n : Nat} {s : State} (h0 : Keeps z s) :
    Keeps z ((wtrEnd n s)) := by
  unfold wtrEnd
  repeat' (first | with_reducible assumption | (intro u; first | (refine (fun (hu : ∀ a, Keeps z (u a)) => ?_) ?_; clear_value u; rotate_left; subst u; rotate_left) | (refine (fun (hu : Keeps z u) => ?_) ?_; clear_value u; rotate_left; subst u; rotate_left) | (refine (fun (hu : Keeps z u.2) => ?_) ?_; clear_value u; rotate_left; subst u; rotate_left) | (refine (fun (hu : Keeps z u.2.2) => ?_) ?_; clear_value u; rotate_left; subst u; rotate_left) | (refine (fun (hu : ∀ v, Keeps z v → Keeps z (u v)) => ?_) ?_; clear_value u; rotate_left; subst u; rotate_left) | (refine (fun (hu : ∀ v, Keeps z v → Keeps z (u v).2) => ?_) ?_; clear_value u; rotate_left; subst u; rotate_left) | (refine (fun (hu : ∀ a v, Keeps z v → Keeps z (u a v)) => ?_) ?_; clear_value u; rotate_left; subst u; rotate_left) | clear_value u) | with_reducible apply wtrOff_keeps | with_reducible apply State.modDp_keeps | with_reducible apply setTarget_keeps | (with_reducible apply Keeps.ite <;> intro _) | lift_lets | split)

theorem dpLocks_keeps {z : State} {n : Nat} {s : State} (h0 : Keeps z s) :
    Keeps z ((dpLocks n s)) := by
  unfold dpLocks
  repeat' (first | with_reducible assumption | with_reducible apply dpState_keeps | (with_reducible apply Keeps.ite <;> intro _))

theorem dpUnlocks_keeps {z : State} {n : Nat} {s : State} (h0 : Keeps z s) :
    Keeps z ((dpUnlocks n s)) := by
  unfold dpUnlocks
  repeat' (first | with_reducible assumption | with_reducible apply dpState_keeps | with_reducible apply dpEvent_keeps | (with_reducible apply Keeps.ite <;> intro _))

theorem histRecord_keeps {z : State} {n : Nat} {mean phase : Int} {s : State} (h0 : Keeps z s) :
    Keeps z ((histRecord n mean phase s)) := by
  unfold histRecord
  repeat' (first | with_reducible assumption | with_reducible apply setFreq_keeps | with_reducible apply State.setI_keeps | with_reducible apply State.modDp_keeps | with_reducible apply histShow_keeps | with_reducible apply State.set_keeps | (with_reducible apply Keeps.ite <;> intro _))

theorem dpModeSet_keeps {z : State} {n mode : Nat} {s : State} (h0 : Keeps z s) :
    Keeps z ((dpModeSet n mode s)) := by
  unfold dpModeSet
  repeat' (first | with_reducible assumption | (intro u; first | (refine (fun (hu : ∀ a, Keeps z (u a)) => ?_) ?_; clear_value u; rotate_left; subst u; rotate_left) | (refine (fun (hu : Keeps z u) => ?_) ?_; clear_value u; rotate_left; subst u; rotate_left) | (refine (fun (hu : Keeps z u.2) => ?_) ?_; clear_value u; rotate_left; subst u; rotate_left) | (refine (fun (hu : Keeps z u.2.2) => ?_) ?_; clear_value u; rotate_left; subst u; rotate_left) | (refine (fun (hu : ∀ v, Keeps z v → Keeps z (u v)) => ?_) ?_; clear_value u; rotate_left; subst u; rotate_left) | (refine (fun (hu : ∀ v, Keeps z v → Keeps z (u v).2) => ?_) ?_; clear_value u; rotate_left; subst u; rotate_left) | (refine (fun (hu : ∀ a v, Keeps z v → Keeps z (u a v)) => ?_) ?_; clear_value u; rotate_left; subst u; rotate_left) | clear_value u) | with_reducible apply State.set_keeps | with_reducible apply setFreq_keeps | with_reducible apply dpState_keeps | with_reducible apply wtrOff_keeps | with_reducible apply setTarget_keeps | with_reducible apply dpJudge_keeps | with_reducible apply setSel_keeps | with_reducible apply dpHold_keeps | (with_reducible apply Keeps.ite <;> intro _) | lift_lets | split)

theorem dcoSet_keeps {z : State} {n hi : Nat} {s : State} (h0 : Keeps z s) :
    Keeps z ((dcoSet n hi s)) := by
  unfold dcoSet
  repeat' (first | with_reducible assumption | with_reducible apply State.set_keeps | with_reducible apply State.modDp_keeps | with_reducible apply setFreq_keeps | (with_reducible apply Keeps.ite <;> intro _))

theorem dpStruct_keeps {z : State} {s : State} (h0 : Keeps z s) :
    Keeps z ((dpStruct s)) := by
  unfold dpStruct
  repeat' (first | with_reducible assumption | with_reducible apply State.set_keeps | (with_reducible apply Keeps.iter; intro _ _ _) | (with_reducible apply Keeps.ite <;> intro _))

theorem State.modStl_keeps {z : State} {s : State} {f : StlState → StlState} (h0 : Keeps z s) :
    Keeps z ((State.modStl s f)) := by
  unfold State.modStl
  repeat' (first | with_reducible assumption | simp (zeta := false) only [Keeps.parts])

theorem stlSend_keeps {z : State} {n : Nat} {b : List Nat} {s : State} (h0 : Keeps z s) :
    Keeps z ((stlSend n b s)) := by
  unfold stlSend
  repeat' (first | with_reducible assumption | with_reducible apply State.modStl_keeps)

theorem slotEnd_keeps {z : State} {n j status : Nat} {s : State} (h0 : Keeps z s) :
    Keeps z ((slotEnd n j status s)) := by
  unfold slotEnd
  repeat' (first | with_reducible assumption | with_reducible apply State.set_keeps)

theorem slotLeave_keeps {z : State} {n j : Nat} {s : State} (h0 : Keeps z s) :
    Keeps z ((slotLeave n j s)) := by
  unfold slotLeave
  repeat' (first | with_reducible assumption | with_reducible apply stlSend_keeps | with_reducible apply State.set_keeps | with_reducible apply slotEnd_keeps | (with_reducible apply Keeps.ite <;> intro _))

theorem stlDepart_keeps {z : State} {n : Nat} {s : State} (h0 : Keeps z s) :
    Keeps z ((stlDepart n s)) := by
  unfold stlDepart
  repeat' (first | with_reducible assumption | with_reducible apply slotLeave_keeps)

theorem stlArm_keeps {z : State} {m n j : Nat} {s : State} (h0 : Keeps z s) :
    Keeps z ((stlArm m n j s).2) := by
  unfold stlArm
  repeat' (first | with_reducible assumption | with_reducible apply State.set_keeps | (with_reducible apply Keeps.ite_snd <;> intro _))

theorem stlWindowWrite_keeps {z : State} {m n j w v : Nat} {s : State} (h0 : Keeps z s) :
    Keeps z ((stlWindowWrite m n j w v s).2) := by
  unfold stlWindowWrite
  repeat' (first | with_reducible assumption | with_reducible apply State.modStl_keeps | (with_reducible apply Keeps.ite_snd <;> intro _))

theorem stlQueue_keeps {z : State} {f : StileFrame} {s : State} (h0 : Keeps z s) :
    Keeps z ((stlQueue f s)) := by
  unfold stlQueue
  repeat' (first | with_reducible assumption | with_reducible apply State.raise_keeps | with_reducible apply State.modStl_keeps | (with_reducible apply Keeps.ite <;> intro _))

theorem stlPop_keeps {z : State} {s : State} (h0 : Keeps z s) :
    Keeps z ((stlPop s)) := by
  unfold stlPop
  repeat' (first | with_reducible assumption | with_reducible apply State.modStl_keeps)

theorem setLink_keeps {z : State} {n v : Nat} {s : State} (h0 : Keeps z s) :
    Keeps z ((setLink n v s)) := by
  unfold setLink
  repeat' (first | with_reducible assumption | with_reducible apply State.set_keeps)

theorem stlHello_keeps {z : State} {n : Nat} {s : State} (h0 : Keeps z s) :
    Keeps z ((stlHello n s)) := by
  unfold stlHello
  repeat' (first | with_reducible assumption | with_reducible apply State.draw_keeps | with_reducible apply setLink_keeps | with_reducible apply stlSend_keeps | (with_reducible apply Keeps.ite <;> intro _))

theorem stlActive_keeps {z : State} {n : Nat} {s : State} (h0 : Keeps z s) :
    Keeps z ((stlActive n s)) := by
  unfold stlActive
  repeat' (first | with_reducible assumption | with_reducible apply stlHello_keeps | with_reducible apply State.set_keeps | (with_reducible apply Keeps.ite <;> intro _))

theorem eyeEnd_keeps {z : State} {n err : Nat} {s : State} (h0 : Keeps z s) :
    Keeps z ((eyeEnd n err s)) := by
  unfold eyeEnd
  repeat' (first | with_reducible assumption | with_reducible apply State.set_keeps | (with_reducible apply Keeps.ite <;> intro _))

theorem slotAbort_keeps {z : State} {n j : Nat} {s : State} (h0 : Keeps z s) :
    Keeps z ((slotAbort n j s)) := by
  unfold slotAbort
  repeat' (first | with_reducible assumption | with_reducible apply slotEnd_keeps | (with_reducible apply Keeps.ite <;> intro _))

theorem syncLost_keeps {z : State} {n st : Nat} {s : State} (h0 : Keeps z s) :
    Keeps z ((syncLost n st s)) := by
  unfold syncLost
  repeat' (first | with_reducible assumption | with_reducible apply State.set_keeps | with_reducible apply setLink_keeps | with_reducible apply eyeEnd_keeps | with_reducible apply slotAbort_keeps | with_reducible apply State.raiseIf_keeps | (with_reducible apply Keeps.ite <;> intro _))

theorem stlTxOn_keeps {z : State} {n : Nat} {s : State} (h0 : Keeps z s) :
    Keeps z ((stlTxOn n s).2) := by
  unfold stlTxOn
  repeat' (first | with_reducible assumption | with_reducible apply powerUp_keeps | with_reducible apply State.set_keeps | (with_reducible apply Keeps.ite_snd <;> intro _))

theorem stlTxOff_keeps {z : State} {n : Nat} {s : State} (h0 : Keeps z s) :
    Keeps z ((stlTxOff n s)) := by
  unfold stlTxOff
  repeat' (first | with_reducible assumption | with_reducible apply slotEnd_keeps | with_reducible apply setLink_keeps | with_reducible apply powerDown_keeps | with_reducible apply State.set_keeps | (with_reducible apply Keeps.ite <;> intro _))

theorem stlRxOn_keeps {z : State} {n : Nat} {s : State} (h0 : Keeps z s) :
    Keeps z ((stlRxOn n s).2) := by
  unfold stlRxOn
  repeat' (first | with_reducible assumption | with_reducible apply powerUp_keeps | with_reducible apply State.set_keeps | (with_reducible apply Keeps.ite_snd <;> intro _))

theorem stlRxOff_keeps {z : State} {n : Nat} {s : State} (h0 : Keeps z s) :
    Keeps z ((stlRxOff n s)) := by
  unfold stlRxOff
  repeat' (first | with_reducible assumption | with_reducible apply powerDown_keeps | with_reducible apply syncLost_keeps | with_reducible apply State.set_keeps | (with_reducible apply Keeps.ite <;> intro _))

theorem helloAnswer_keeps {z : State} {n : Nat} {b : List Nat} {s : State} (h0 : Keeps z s) :
    Keeps z ((helloAnswer n b s)) := by
  unfold helloAnswer
  repeat' (first | with_reducible assumption | with_reducible apply stlSend_keeps)

theorem stlResponse_keeps {z : State} {n time : Nat} {b : List Nat} {s : State} (h0 : Keeps z s) :
    Keeps z ((stlResponse n time b s)) := by
  unfold stlResponse
  repeat' (first | with_reducible assumption | with_reducible apply slotEnd_keeps | with_reducible apply State.modStl_keeps | with_reducible apply stlQueue_keeps | with_reducible apply setLink_keeps | with_reducible apply State.set_keeps | with_reducible apply State.raise_keeps | with_reducible apply State.addSat_keeps | (with_reducible apply Keeps.ite <;> intro _) | split)

theorem stlLooped_keeps {z : State} {n time : Nat} {b : List Nat} {s : State} (h0 : Keeps z s) :
    Keeps z ((stlLooped n time b s)) := by
  unfold stlLooped
  repeat' (first | with_reducible assumption | with_reducible apply stlSend_keeps | with_reducible apply stlQueue_keeps | (with_reducible apply Keeps.ite <;> intro _))

theorem stlTake_keeps {z : State} {n time : Nat} {b : List Nat} {s : State} (h0 : Keeps z s) :
    Keeps z ((stlTake n time b s)) := by
  unfold stlTake
  repeat' (first | with_reducible assumption | with_reducible apply stlLooped_keeps | with_reducible apply helloAnswer_keeps | with_reducible apply stlSend_keeps | with_reducible apply stlQueue_keeps | with_reducible apply State.raise_keeps | with_reducible apply stlResponse_keeps | (with_reducible apply Keeps.ite <;> intro _))

theorem stlReceive_keeps {z : State} {n time : Nat} {bad : Bool} {b : List Nat} {s : State} (h0 : Keeps z s) :
    Keeps z ((stlReceive n time bad b s)) := by
  unfold stlReceive
  repeat' (first | with_reducible assumption | with_reducible apply stlDepart_keeps | with_reducible apply State.addSat_keeps | with_reducible apply State.raise_keeps | with_reducible apply stlTake_keeps | (with_reducible apply Keeps.ite <;> intro _))

theorem timeSend_keeps {z : State} {now : Nat} {s : State} (h0 : Keeps z s) :
    Keeps z ((timeSend now s)) := by
  unfold timeSend
  repeat' (first | with_reducible assumption | with_reducible apply stlDepart_keeps | with_reducible apply State.draw_keeps | with_reducible apply stlSend_keeps | (with_reducible apply Keeps.iter; intro _ _ _) | (with_reducible apply Keeps.ite <;> intro _))

theorem eyeStart_keeps {z : State} {n : Nat} {s : State} (h0 : Keeps z s) :
    Keeps z ((eyeStart n s)) := by
  unfold eyeStart
  repeat' (first | with_reducible assumption | with_reducible apply State.set_keeps | with_reducible apply eyeEnd_keeps | (with_reducible apply Keeps.ite <;> intro _))

end Sys2Proof.Machine
end

