-- ==== Sys2Proof/Laws/KeepsDevice.lean ====
section
/-! SUPPORT. Every operation on a state keeps its queue, its part and its canonical form: security, monitors, units, sequencers, flash, records, host, images, thermal. -/
set_option linter.unusedVariables false
set_option linter.unusedSimpArgs false
namespace Sys2Proof.Machine

theorem State.modSec_keeps {z : State} {s : State} {f : SecState → SecState} (h0 : Keeps z s) :
    Keeps z ((State.modSec s f)) := by
  unfold State.modSec
  repeat' (first | with_reducible assumption | simp (zeta := false) only [Keeps.parts])

theorem winWrite_keeps {z : State} {m : Nat} : ∀ {l : List Nat} {o : Nat} {s : State}, Keeps z s → Keeps z (winWrite m o l s)
  | [], _, _, h => h
  | _ :: _, _, _, h => by
    unfold winWrite
    exact winWrite_keeps (State.modSec_keeps h)

theorem secDone_keeps {z : State} {m status : Nat} {out : List Nat} {s : State} (h0 : Keeps z s) :
    Keeps z ((secDone m status out s)) := by
  unfold secDone
  repeat' (first | with_reducible assumption | with_reducible apply winWrite_keeps | with_reducible apply State.set_keeps | with_reducible apply State.raise_keeps | with_reducible apply State.answer_keeps)

theorem ktkLoad_keeps {z : State} {d : Nat} {x : List Nat} {s : State} (h0 : Keeps z s) :
    Keeps z ((ktkLoad d x s).2.2) := by
  unfold ktkLoad
  repeat' (first | with_reducible assumption | with_reducible apply State.modSec_keeps | (with_reducible apply Keeps.ite_snd2 <;> intro _) | simp (zeta := false) only [Keeps.parts] | split)

theorem keyGen_keeps {z : State} {d : Nat} {s : State} (h0 : Keeps z s) :
    Keeps z ((keyGen d s).2.2) := by
  unfold keyGen
  repeat' (first | with_reducible assumption | with_reducible apply State.draw_keeps | with_reducible apply drawSalt_keeps | with_reducible apply installKey_keeps | (with_reducible apply Keeps.ite_snd2 <;> intro _))

theorem keyInstall_keeps {z : State} {d : Nat} {x : List Nat} {s : State} (h0 : Keeps z s) :
    Keeps z ((keyInstall d x s).2.2) := by
  unfold keyInstall
  repeat' (first | with_reducible assumption | with_reducible apply drawSalt_keeps | with_reducible apply installKey_keeps | (with_reducible apply Keeps.ite_snd <;> intro _) | (with_reducible apply Keeps.ite_snd2 <;> intro _) | simp (zeta := false) only [Keeps.parts] | split)

theorem keyErase_keeps {z : State} {d : Nat} {s : State} (h0 : Keeps z s) :
    Keeps z ((keyErase d s).2.2) := by
  unfold keyErase
  repeat' (first | with_reducible assumption | with_reducible apply eraseKey_keeps | (with_reducible apply Keeps.ite_snd2 <;> intro _))

theorem sessIn_keeps {z : State} {d : Nat} {x : List Nat} {s : State} (h0 : Keeps z s) :
    Keeps z ((sessIn d x s).2.2) := by
  unfold sessIn
  repeat' (first | with_reducible assumption | (intro u; first | (refine (fun (hu : ∀ a, Keeps z (u a)) => ?_) ?_; clear_value u; rotate_left; subst u; rotate_left) | (refine (fun (hu : Keeps z u) => ?_) ?_; clear_value u; rotate_left; subst u; rotate_left) | (refine (fun (hu : Keeps z u.2) => ?_) ?_; clear_value u; rotate_left; subst u; rotate_left) | (refine (fun (hu : Keeps z u.2.2) => ?_) ?_; clear_value u; rotate_left; subst u; rotate_left) | (refine (fun (hu : ∀ v, Keeps z v → Keeps z (u v)) => ?_) ?_; clear_value u; rotate_left; subst u; rotate_left) | (refine (fun (hu : ∀ v, Keeps z v → Keeps z (u v).2) => ?_) ?_; clear_value u; rotate_left; subst u; rotate_left) | (refine (fun (hu : ∀ a v, Keeps z v → Keeps z (u a v)) => ?_) ?_; clear_value u; rotate_left; subst u; rotate_left) | clear_value u) | with_reducible apply sessLoad_keeps | with_reducible apply State.modSess_keeps | (with_reducible apply Keeps.ite <;> intro _) | simp (zeta := false) only [Keeps.parts] | lift_lets | split)

theorem sessOut_keeps {z : State} {d : Nat} {s : State} (h0 : Keeps z s) :
    Keeps z ((sessOut d s).2.2) := by
  unfold sessOut
  repeat' (first | with_reducible assumption | with_reducible apply sessErase_keeps)

theorem handleAnswer_keeps {z : State} {r : Nat × Nat × State} (h : Keeps z r.2.2) : Keeps z (handleAnswer r).2.2 := h

theorem epochInsert_keeps {z : State} {d : Nat} {x : List Nat} {s : State} (h0 : Keeps z s) : Keeps z ((epochInsert d x s).2.2) := by
  rw [epochInsert]
  exact Keeps.ite_snd2 (fun _ => h0) (fun _ => Keeps.ite_snd2 (fun _ => h0) (fun _ => handleAnswer_keeps (insertAction_keeps h0)))

theorem attSign_keeps {z : State} {nonce : List Nat} {s : State} (h0 : Keeps z s) :
    Keeps z ((attSign nonce s).2.2) := by
  unfold attSign
  repeat' (first | with_reducible assumption | with_reducible apply State.set_keeps)

theorem attRefuse_keeps {z : State} {v : Nat} {s : State} (h0 : Keeps z s) :
    Keeps z ((attRefuse v s).2.2) := by
  unfold attRefuse
  repeat' (first | with_reducible assumption | with_reducible apply State.raise_keeps)

theorem attest_keeps {z : State} {m : Nat} {x : List Nat} {s : State} (h : Keeps z s) :
    Keeps z (attest m x s).2 ∧ ∀ a, (attest m x s).1 = some a → Keeps z a.2.2 := by
  unfold attest
  extract_lets q
  split
  · exact ⟨h, fun a e => by cases e; exact attRefuse_keeps h⟩
  · split
    · exact ⟨h, fun a e => by cases e; exact attSign_keeps h⟩
    · exact ⟨State.raiseIf_keeps (State.modSec_keeps h), fun a e => by cases e⟩

theorem otpProgram_keeps {z : State} {fail : Bool} {s : State} (h0 : Keeps z s) :
    Keeps z ((otpProgram fail s)) := by
  unfold otpProgram
  repeat' (first | with_reducible assumption | with_reducible apply State.raise_keeps | with_reducible apply State.set_keeps | with_reducible apply State.modSec_keeps | (with_reducible apply Keeps.iter; intro _ _ _) | (with_reducible apply Keeps.ite <;> intro _))

theorem State.modSlot_keeps {z : State} {s : State} {k : Nat} {f : ChangeProp → ChangeProp} (h0 : Keeps z s) :
    Keeps z ((State.modSlot s k f)) := by
  unfold State.modSlot
  repeat' (first | with_reducible assumption | with_reducible apply State.modSec_keeps)

theorem recordStore_keeps {z : State} {x : SecStore} {s : State} (h0 : Keeps z s) :
    Keeps z ((recordStore x s)) := by
  unfold recordStore
  repeat' (first | with_reducible assumption | with_reducible apply State.modSec_keeps)

theorem propose_keeps {z : State} {x : List Nat} {s : State} (h0 : Keeps z s) :
    Keeps z ((propose x s).2.2) := by
  unfold propose
  repeat' (first | with_reducible assumption | (intro u; first | (refine (fun (hu : ∀ a, Keeps z (u a)) => ?_) ?_; clear_value u; rotate_left; subst u; rotate_left) | (refine (fun (hu : Keeps z u) => ?_) ?_; clear_value u; rotate_left; subst u; rotate_left) | (refine (fun (hu : Keeps z u.2) => ?_) ?_; clear_value u; rotate_left; subst u; rotate_left) | (refine (fun (hu : Keeps z u.2.2) => ?_) ?_; clear_value u; rotate_left; subst u; rotate_left) | (refine (fun (hu : ∀ v, Keeps z v → Keeps z (u v)) => ?_) ?_; clear_value u; rotate_left; subst u; rotate_left) | (refine (fun (hu : ∀ v, Keeps z v → Keeps z (u v).2) => ?_) ?_; clear_value u; rotate_left; subst u; rotate_left) | (refine (fun (hu : ∀ a v, Keeps z v → Keeps z (u a v)) => ?_) ?_; clear_value u; rotate_left; subst u; rotate_left) | clear_value u) | with_reducible apply State.modSec_keeps | with_reducible apply State.modSlot_keeps | (with_reducible apply Keeps.ite_snd2 <;> intro _) | simp (zeta := false) only [Keeps.parts] | lift_lets | split)

theorem pnonce_keeps {z : State} {s : State} (h0 : Keeps z s) :
    Keeps z ((pnonce s).2.2) := by
  unfold pnonce
  repeat' (first | with_reducible assumption | with_reducible apply State.draw_keeps | with_reducible apply State.modSec_keeps)

theorem propClose_keeps {z : State} {k state status : Nat} {s : State} (h0 : Keeps z s) :
    Keeps z ((propClose k state status s)) := by
  unfold propClose
  repeat' (first | with_reducible assumption | with_reducible apply recordStore_keeps | with_reducible apply State.modSlot_keeps | with_reducible apply State.raise_keeps | (with_reducible apply Keeps.ite <;> intro _))

theorem propRemove_keeps {z : State} {k : Nat} {s : State} (h0 : Keeps z s) :
    Keeps z ((propRemove k s)) := by
  unfold propRemove
  repeat' (first | with_reducible assumption | with_reducible apply removeAll_keeps | with_reducible apply State.modSlot_keeps)

theorem propInsert_keeps {z : State} {k desc : Nat} {s : State} (h0 : Keeps z s) :
    Keeps z ((propInsert k desc s).2) := by
  unfold propInsert
  repeat' (first | with_reducible assumption | with_reducible apply insertAction_keeps | with_reducible apply State.modSlot_keeps | (with_reducible apply Keeps.ite <;> intro _))

theorem propSecond_keeps {z : State} {k desc : Nat} {x : Nat × State} (h : Keeps z x.2) : Keeps z (propSecond k desc x).2 := by
  unfold propSecond
  exact Keeps.ite_snd (fun _ => h) (fun _ => propInsert_keeps h)

theorem propScheduled_keeps {z : State} {k : Nat} {r : Nat × State} (h : Keeps z r.2) : Keeps z (propScheduled k r) := by
  unfold propScheduled
  exact Keeps.ite (fun _ => State.modSlot_keeps h) (fun _ => propRemove_keeps (propClose_keeps h))

theorem propSwaps_keeps {z : State} {k p t target : Nat} {content : List Nat} {s : State} (h0 : Keeps z s) : Keeps z (propSwaps k p t target content s).2 := by
  rw [propSwaps]
  exact propSecond_keeps (propInsert_keeps (State.setBankWords_keeps h0))

theorem propInserts_keeps {z : State} {k : Nat} {c : ChangeProp} {s : State} (h0 : Keeps z s) : Keeps z (propInserts k c s).2 := by
  rw [propInserts]
  exact Keeps.ite_snd (fun _ => propInsert_keeps h0) (fun _ => propSwaps_keeps h0)

theorem propSchedule_keeps {z : State} {k : Nat} {s : State} (h0 : Keeps z s) : Keeps z (propSchedule k s) := by
  rw [propSchedule]
  exact propScheduled_keeps (propInserts_keeps h0)

theorem apprEnded_keeps {z : State} {k status : Nat} {s : State} (h0 : Keeps z s) :
    Keeps z ((apprEnded k status s)) := by
  unfold apprEnded
  repeat' (first | with_reducible assumption | with_reducible apply propClose_keeps | with_reducible apply State.modSlot_keeps | (with_reducible apply Keeps.ite <;> intro _))

theorem dropTokens_keeps {z : State} {s : State} (h0 : Keeps z s) :
    Keeps z ((dropTokens s)) := by
  unfold dropTokens
  repeat' (first | with_reducible assumption | with_reducible apply State.modSec_keeps)

theorem apprConf_keeps {z : State} {k : Nat} {s : State} (h0 : Keeps z s) :
    Keeps z ((apprConf k s)) := by
  unfold apprConf
  repeat' (first | with_reducible assumption | with_reducible apply coreSend_keeps | (with_reducible apply Keeps.ite <;> intro _))

theorem propApproved_keeps {z : State} {k : Nat} {otpFail : Bool} {s : State} (h0 : Keeps z s) :
    Keeps z ((propApproved k otpFail s)) := by
  unfold propApproved
  repeat' (first | with_reducible assumption | with_reducible apply State.modSlot_keeps | with_reducible apply State.raise_keeps | with_reducible apply propClose_keeps | with_reducible apply dropTokens_keeps | with_reducible apply State.modSec_keeps | with_reducible apply otpProgram_keeps | with_reducible apply apprConf_keeps | with_reducible apply propSchedule_keeps | (with_reducible apply Keeps.ite <;> intro _))

theorem approve_keeps {z : State} {m : Nat} {x : List Nat} {s : State} (h : Keeps z s) :
    Keeps z (approve m x s).2 ∧ ∀ a, (approve m x s).1 = some a → Keeps z a.2.2 := by
  unfold approve
  extract_lets k v k2 id
  split
  · exact ⟨h, fun a e => by simp only [Option.some.injEq] at e; exact e ▸ h⟩
  · split
    · exact ⟨h, fun a e => by simp only [Option.some.injEq] at e; exact e ▸ State.modSlot_keeps h⟩
    · exact ⟨recordStore_keeps h, fun a e => by simp at e⟩

theorem withdraw_keeps {z : State} {d : Nat} {s : State} (h0 : Keeps z s) :
    Keeps z ((withdraw d s).2.2) := by
  unfold withdraw
  repeat' (first | with_reducible assumption | with_reducible apply propClose_keeps | with_reducible apply propRemove_keeps | (with_reducible apply Keeps.ite_snd2 <;> intro _))

theorem enrol_keeps {z : State} {x : List Nat} {s : State} (h0 : Keeps z s) :
    Keeps z ((enrol x s).2.2) := by
  unfold enrol
  repeat' (first | with_reducible assumption | with_reducible apply recordStore_keeps | with_reducible apply dropTokens_keeps | with_reducible apply State.modSec_keeps | (with_reducible apply Keeps.ite_snd2 <;> intro _))

theorem lock_keeps {z : State} {s : State} (h0 : Keeps z s) :
    Keeps z ((lock s).2.2) := by
  unfold lock
  repeat' (first | with_reducible assumption | with_reducible apply State.set_keeps | (with_reducible apply Keeps.ite_snd2 <;> intro _))

theorem secInfo_keeps {z : State} {s : State} (h0 : Keeps z s) :
    Keeps z ((secInfo s).2.2) := by
  unfold secInfo
  repeat' (first | with_reducible assumption)

theorem rtSwap_keeps {z : State} {m d : Nat} {o : Option SignedObj} {s : State} (h : Keeps z s) :
    Keeps z (rtSwap m d o s).2 ∧ ∀ a, (rtSwap m d o s).1 = some a → Keeps z a.2.2 := by
  unfold rtSwap
  split
  · exact ⟨State.raise_keeps (State.modSec_keeps (State.set_keeps h)), fun a e => by simp at e⟩
  · exact ⟨h, fun a e => by simp only [Option.some.injEq] at e; exact e ▸ h⟩

theorem rtSwapDone_keeps {z : State} {s : State} (h0 : Keeps z s) :
    Keeps z ((rtSwapDone s)) := by
  unfold rtSwapDone
  repeat' (first | with_reducible assumption | with_reducible apply State.set_keeps | with_reducible apply State.modSec_keeps | with_reducible apply secDone_keeps | split)

theorem secRun_keeps {z : State} {op m d : Nat} {o : Option SignedObj} {x : List Nat} {s : State} (h : Keeps z s) :
    Keeps z (secRun op m d o x s).2 ∧ ∀ a, (secRun op m d o x s).1 = some a → Keeps z a.2.2 := by
  have pure : ∀ r : SecAns, Keeps z r.2.2 → Keeps z (some r, s).2 ∧ ∀ a, (some r, s).1 = some a → Keeps z a.2.2 := by
    intro r hr
    refine ⟨h, fun a e => ?_⟩
    simp only [Option.some.injEq] at e
    exact e ▸ hr
  unfold secRun
  refine Keeps.ite_prop (P := fun r : Option SecAns × State => Keeps z r.2 ∧ ∀ a, r.1 = some a → Keeps z a.2.2) (fun _ => pure _ (secInfo_keeps h)) (fun _ => ?_)
  refine Keeps.ite_prop (P := fun r : Option SecAns × State => Keeps z r.2 ∧ ∀ a, r.1 = some a → Keeps z a.2.2) (fun _ => pure _ (ktkLoad_keeps h)) (fun _ => ?_)
  refine Keeps.ite_prop (P := fun r : Option SecAns × State => Keeps z r.2 ∧ ∀ a, r.1 = some a → Keeps z a.2.2) (fun _ => pure _ (keyGen_keeps h)) (fun _ => ?_)
  refine Keeps.ite_prop (P := fun r : Option SecAns × State => Keeps z r.2 ∧ ∀ a, r.1 = some a → Keeps z a.2.2) (fun _ => pure _ (keyInstall_keeps h)) (fun _ => ?_)
  refine Keeps.ite_prop (P := fun r : Option SecAns × State => Keeps z r.2 ∧ ∀ a, r.1 = some a → Keeps z a.2.2) (fun _ => pure _ (keyErase_keeps h)) (fun _ => ?_)
  refine Keeps.ite_prop (P := fun r : Option SecAns × State => Keeps z r.2 ∧ ∀ a, r.1 = some a → Keeps z a.2.2) (fun _ => pure _ (sessIn_keeps h)) (fun _ => ?_)
  refine Keeps.ite_prop (P := fun r : Option SecAns × State => Keeps z r.2 ∧ ∀ a, r.1 = some a → Keeps z a.2.2) (fun _ => pure _ (sessOut_keeps h)) (fun _ => ?_)
  refine Keeps.ite_prop (P := fun r : Option SecAns × State => Keeps z r.2 ∧ ∀ a, r.1 = some a → Keeps z a.2.2) (fun _ => pure _ (pnonce_keeps h)) (fun _ => ?_)
  refine Keeps.ite_prop (P := fun r : Option SecAns × State => Keeps z r.2 ∧ ∀ a, r.1 = some a → Keeps z a.2.2) (fun _ => pure _ (propose_keeps h)) (fun _ => ?_)
  refine Keeps.ite_prop (P := fun r : Option SecAns × State => Keeps z r.2 ∧ ∀ a, r.1 = some a → Keeps z a.2.2) (fun _ => approve_keeps h) (fun _ => ?_)
  refine Keeps.ite_prop (P := fun r : Option SecAns × State => Keeps z r.2 ∧ ∀ a, r.1 = some a → Keeps z a.2.2) (fun _ => pure _ (withdraw_keeps h)) (fun _ => ?_)
  refine Keeps.ite_prop (P := fun r : Option SecAns × State => Keeps z r.2 ∧ ∀ a, r.1 = some a → Keeps z a.2.2) (fun _ => pure _ (enrol_keeps h)) (fun _ => ?_)
  refine Keeps.ite_prop (P := fun r : Option SecAns × State => Keeps z r.2 ∧ ∀ a, r.1 = some a → Keeps z a.2.2) (fun _ => pure _ (lock_keeps h)) (fun _ => ?_)
  refine Keeps.ite_prop (P := fun r : Option SecAns × State => Keeps z r.2 ∧ ∀ a, r.1 = some a → Keeps z a.2.2) (fun _ => attest_keeps h) (fun _ => ?_)
  refine Keeps.ite_prop (P := fun r : Option SecAns × State => Keeps z r.2 ∧ ∀ a, r.1 = some a → Keeps z a.2.2) (fun _ => pure _ h) (fun _ => ?_)
  refine Keeps.ite_prop (P := fun r : Option SecAns × State => Keeps z r.2 ∧ ∀ a, r.1 = some a → Keeps z a.2.2) (fun _ => pure _ (epochInsert_keeps h)) (fun _ => ?_)
  refine Keeps.ite_prop (P := fun r : Option SecAns × State => Keeps z r.2 ∧ ∀ a, r.1 = some a → Keeps z a.2.2) (fun _ => rtSwap_keeps h) (fun _ => ?_)
  exact pure _ h

theorem secCommand_keeps {z : State} {op m d : Nat} {o : Option SignedObj} {s : State} (h : Keeps z s) : Keeps z ((secCommand op m d o s).2) := by
  unfold secCommand
  extract_lets x
  refine Keeps.ite_snd (fun _ => State.answer_keeps h) (fun _ => ?_)
  refine Keeps.ite_snd (fun _ => State.answer_keeps h) (fun _ => ?_)
  refine Keeps.ite_snd (fun _ => State.answer_keeps (State.set_keeps h)) (fun _ => ?_)
  refine Keeps.ite_snd (fun _ => secDone_keeps (Keeps.ite (fun _ => State.raise_keeps h) (fun _ => h))) (fun _ => ?_)
  refine Keeps.ite_snd (fun _ => secDone_keeps h) (fun _ => ?_)
  refine Keeps.ite_snd (fun _ => secDone_keeps h) (fun _ => ?_)
  have hr := secRun_keeps (op := op) (m := m) (d := d) (o := o) (x := x) h
  generalize secRun op m d o x s = r at hr ⊢
  split
  · exact secDone_keeps (hr.2 _ rfl)
  · exact State.answer_keeps (State.set_keeps hr.1)

theorem confTake_keeps {z : State} {p : Nat} {b : List Nat} {s : State} (h0 : Keeps z s) :
    Keeps z ((confTake p b s)) := by
  unfold confTake
  repeat' (first | with_reducible assumption | with_reducible apply takeMsg_keeps | with_reducible apply coreSend_keeps | (with_reducible apply Keeps.ite <;> intro _))

theorem ackTake_keeps {z : State} {p : Nat} {b : List Nat} {s : State} (h0 : Keeps z s) :
    Keeps z ((ackTake p b s)) := by
  unfold ackTake
  repeat' (first | with_reducible assumption | (intro u; first | (refine (fun (hu : ∀ a, Keeps z (u a)) => ?_) ?_; clear_value u; rotate_left; subst u; rotate_left) | (refine (fun (hu : Keeps z u) => ?_) ?_; clear_value u; rotate_left; subst u; rotate_left) | (refine (fun (hu : Keeps z u.2) => ?_) ?_; clear_value u; rotate_left; subst u; rotate_left) | (refine (fun (hu : Keeps z u.2.2) => ?_) ?_; clear_value u; rotate_left; subst u; rotate_left) | (refine (fun (hu : ∀ v, Keeps z v → Keeps z (u v)) => ?_) ?_; clear_value u; rotate_left; subst u; rotate_left) | (refine (fun (hu : ∀ v, Keeps z v → Keeps z (u v).2) => ?_) ?_; clear_value u; rotate_left; subst u; rotate_left) | (refine (fun (hu : ∀ a v, Keeps z v → Keeps z (u a v)) => ?_) ?_; clear_value u; rotate_left; subst u; rotate_left) | clear_value u) | with_reducible apply takeMsg_keeps | with_reducible apply propSchedule_keeps | with_reducible apply State.modSlot_keeps | (with_reducible apply Keeps.ite <;> intro _) | lift_lets | split)

theorem nakTake_keeps {z : State} {p : Nat} {b : List Nat} {s : State} (h0 : Keeps z s) :
    Keeps z ((nakTake p b s)) := by
  unfold nakTake
  repeat' (first | with_reducible assumption | with_reducible apply takeMsg_keeps | with_reducible apply State.raise_keeps | (with_reducible apply Keeps.ite <;> intro _))

theorem lingTake_keeps {z : State} {p t : Nat} {b : List Nat} {s : State} (h0 : Keeps z s) :
    Keeps z ((lingTake p t b s)) := by
  unfold lingTake
  repeat' (first | with_reducible assumption | with_reducible apply keyPropTake_keeps | with_reducible apply keyAckTake_keeps | with_reducible apply keyNakTake_keeps | with_reducible apply confTake_keeps | with_reducible apply ackTake_keeps | with_reducible apply nakTake_keeps | with_reducible apply apprConf_keeps | (with_reducible apply Keeps.ite <;> intro _))

theorem lingHear_keeps {z : State} {p t : Nat} {b : List Nat} {s : State} (h0 : Keeps z s) :
    Keeps z ((lingHear p t b s)) := by
  unfold lingHear
  repeat' (first | with_reducible assumption | with_reducible apply State.modSec_keeps | with_reducible apply lingTake_keeps | (with_reducible apply Keeps.ite <;> intro _))

theorem lingResume_keeps {z : State} {s : State} (h0 : Keeps z s) :
    Keeps z ((lingResume s)) := by
  unfold lingResume
  repeat' (first | with_reducible assumption | with_reducible apply lingTake_keeps | with_reducible apply keyResume_keeps | with_reducible apply State.modSec_keeps | (with_reducible apply Keeps.foldl; intro _ _ _))

theorem propDeadline_keeps {z : State} {k : Nat} {s : State} (h0 : Keeps z s) :
    Keeps z ((propDeadline k s)) := by
  unfold propDeadline
  repeat' (first | with_reducible assumption | with_reducible apply propClose_keeps | (with_reducible apply Keeps.ite <;> intro _))

theorem levelTick_keeps {z : State} {s : State} (h0 : Keeps z s) :
    Keeps z ((levelTick s)) := by
  unfold levelTick
  repeat' (first | with_reducible assumption | with_reducible apply countUp_keeps | (with_reducible apply Keeps.foldl; intro _ _ _) | simp (zeta := false) only [Keeps.parts])

theorem snapPos_keeps {z : State} {pd swath : Nat} {s : State} (h0 : Keeps z s) :
    Keeps z ((snapPos pd swath s)) := by
  unfold snapPos
  repeat' (first | with_reducible assumption | with_reducible apply State.set_keeps)

theorem snapTake_keeps {z : State} {pd swath : Nat} {s : State} (h0 : Keeps z s) :
    Keeps z ((snapTake pd swath s)) := by
  unfold snapTake
  repeat' (first | with_reducible assumption | with_reducible apply State.set_keeps | with_reducible apply snapPos_keeps | with_reducible apply State.raise_keeps | simp (zeta := false) only [Keeps.parts])

theorem presetSet_keeps {z : State} {s : State} (h0 : Keeps z s) :
    Keeps z ((presetSet s)) := by
  unfold presetSet
  repeat' (first | with_reducible assumption | simp (zeta := false) only [Keeps.parts])

theorem presetOver_keeps {z : State} {s : State} (h0 : Keeps z s) :
    Keeps z ((presetOver s)) := by
  unfold presetOver
  repeat' (first | with_reducible assumption | with_reducible apply State.raise_keeps | simp (zeta := false) only [Keeps.parts])

theorem fmnPower_keeps {z : State} {c : Nat} {s : State} (h0 : Keeps z s) :
    Keeps z ((fmnPower c s).2) := by
  unfold fmnPower
  repeat' (first | with_reducible assumption | with_reducible apply powerUp_keeps | with_reducible apply powerDown_keeps | (with_reducible apply Keeps.ite_snd <;> intro _))

theorem fmnDetect_keeps {z : State} {c : Nat} {v : Int} {s : State} (h0 : Keeps z s) :
    Keeps z ((fmnDetect c v s)) := by
  unfold fmnDetect
  repeat' (first | with_reducible assumption | with_reducible apply State.set_keeps | with_reducible apply senseSend_keeps | with_reducible apply State.raise_keeps | (with_reducible apply Keeps.ite <;> intro _))

theorem fmnOutput_keeps {z : State} {c : Nat} {s : State} (h0 : Keeps z s) :
    Keeps z ((fmnOutput c s)) := by
  unfold fmnOutput
  repeat' (first | with_reducible assumption | with_reducible apply State.set_keeps | with_reducible apply State.raise_keeps | with_reducible apply State.modChain_keeps | with_reducible apply fmnDetect_keeps | (with_reducible apply Keeps.ite <;> intro _) | simp (zeta := false) only [Keeps.parts])

theorem fmnFirst_keeps {z : State} {c : Nat} {s : State} (h0 : Keeps z s) :
    Keeps z ((fmnFirst c s)) := by
  unfold fmnFirst
  repeat' (first | with_reducible assumption | with_reducible apply State.set_keeps | (with_reducible apply Keeps.ite <;> intro _))

theorem fmnTake_keeps {z : State} {c : Nat} {q : Option Int} {s : State} (h0 : Keeps z s) :
    Keeps z ((fmnTake c q s)) := by
  unfold fmnTake
  repeat' (first | with_reducible assumption | (intro u; first | (refine (fun (hu : ∀ a, Keeps z (u a)) => ?_) ?_; clear_value u; rotate_left; subst u; rotate_left) | (refine (fun (hu : Keeps z u) => ?_) ?_; clear_value u; rotate_left; subst u; rotate_left) | (refine (fun (hu : Keeps z u.2) => ?_) ?_; clear_value u; rotate_left; subst u; rotate_left) | (refine (fun (hu : Keeps z u.2.2) => ?_) ?_; clear_value u; rotate_left; subst u; rotate_left) | (refine (fun (hu : ∀ v, Keeps z v → Keeps z (u v)) => ?_) ?_; clear_value u; rotate_left; subst u; rotate_left) | (refine (fun (hu : ∀ v, Keeps z v → Keeps z (u v).2) => ?_) ?_; clear_value u; rotate_left; subst u; rotate_left) | (refine (fun (hu : ∀ a v, Keeps z v → Keeps z (u a v)) => ?_) ?_; clear_value u; rotate_left; subst u; rotate_left) | clear_value u) | with_reducible apply State.modChain_keeps | with_reducible apply State.set_keeps | with_reducible apply fmnOutput_keeps | (with_reducible apply Keeps.ite <;> intro _) | lift_lets | split)

theorem fmnFrame_keeps {z : State} {c tm : Nat} {q : Option Int} {s : State} (h0 : Keeps z s) :
    Keeps z ((fmnFrame c tm q s)) := by
  unfold fmnFrame
  repeat' (first | with_reducible assumption | with_reducible apply fmnFirst_keeps | with_reducible apply State.modChain_keeps | with_reducible apply fmnTake_keeps | (with_reducible apply Keeps.ite <;> intro _))

theorem fmnInput_keeps {z : State} {c : Nat} {x : Int} {s : State} (h0 : Keeps z s) :
    Keeps z ((fmnInput c x s)) := by
  unfold fmnInput
  repeat' (first | with_reducible assumption | with_reducible apply fmnReset_keeps | with_reducible apply State.set_keeps | with_reducible apply fmnFrame_keeps | (with_reducible apply Keeps.ite <;> intro _))

theorem fmnChanged_keeps {z : State} {c : Nat} {old : State} {s : State} (h0 : Keeps z old) (h1 : Keeps z s) :
    Keeps z ((fmnChanged c old s).2) := by
  unfold fmnChanged
  repeat' (first | with_reducible assumption | with_reducible apply State.set_keeps | with_reducible apply fmnPower_keeps | with_reducible apply fmnReset_keeps | with_reducible apply State.modChain_keeps | with_reducible apply State.raise_keeps | (with_reducible apply Keeps.ite <;> intro _) | (with_reducible apply Keeps.ite_snd <;> intro _))

theorem State.modUnits_keeps {z : State} {s : State} {f : UnitState → UnitState} (h0 : Keeps z s) :
    Keeps z ((State.modUnits s f)) := by
  unfold State.modUnits
  repeat' (first | with_reducible assumption | simp (zeta := false) only [Keeps.parts])

theorem unitEnd_keeps {z : State} {status : Nat} {s : State} (h0 : Keeps z s) :
    Keeps z ((unitEnd status s)) := by
  unfold unitEnd
  repeat' (first | with_reducible assumption | with_reducible apply State.set_keeps)

theorem setBit_keeps {z : State} {f : Fld} {i v : Nat} {s : State} (h0 : Keeps z s) :
    Keeps z ((setBit f i v s)) := by
  unfold setBit
  repeat' (first | with_reducible assumption | with_reducible apply State.set_keeps)

theorem sliceOut_keeps {z : State} {p i sl : Nat} {s : State} (h0 : Keeps z s) :
    Keeps z ((sliceOut p i sl s)) := by
  unfold sliceOut
  repeat' (first | with_reducible assumption | with_reducible apply queueBand_keeps | with_reducible apply sweepStop_keeps | with_reducible apply spareTrim_keeps | with_reducible apply State.set_keeps | with_reducible apply setBit_keeps | (with_reducible apply Keeps.ite <;> intro _))

theorem sliceFallow_keeps {z : State} {p i sl : Nat} {s : State} (h0 : Keeps z s) :
    Keeps z ((sliceFallow p i sl s)) := by
  unfold sliceFallow
  repeat' (first | with_reducible assumption | with_reducible apply State.modUnits_keeps | with_reducible apply State.set_keeps | with_reducible apply unitEnd_keeps | with_reducible apply sliceOut_keeps | (with_reducible apply Keeps.ite <;> intro _))

theorem sliceWaiting_keeps {z : State} {p : Nat} {s : State} (h0 : Keeps z s) :
    Keeps z ((sliceWaiting p s)) := by
  unfold sliceWaiting
  repeat' (first | with_reducible assumption | (intro u; first | (refine (fun (hu : ∀ a, Keeps z (u a)) => ?_) ?_; clear_value u; rotate_left; subst u; rotate_left) | (refine (fun (hu : Keeps z u) => ?_) ?_; clear_value u; rotate_left; subst u; rotate_left) | (refine (fun (hu : Keeps z u.2) => ?_) ?_; clear_value u; rotate_left; subst u; rotate_left) | (refine (fun (hu : Keeps z u.2.2) => ?_) ?_; clear_value u; rotate_left; subst u; rotate_left) | (refine (fun (hu : ∀ v, Keeps z v → Keeps z (u v)) => ?_) ?_; clear_value u; rotate_left; subst u; rotate_left) | (refine (fun (hu : ∀ v, Keeps z v → Keeps z (u v).2) => ?_) ?_; clear_value u; rotate_left; subst u; rotate_left) | (refine (fun (hu : ∀ a v, Keeps z v → Keeps z (u a v)) => ?_) ?_; clear_value u; rotate_left; subst u; rotate_left) | clear_value u) | with_reducible apply State.modUnits_keeps | with_reducible apply unitEnd_keeps | with_reducible apply sliceOut_keeps | (with_reducible apply Keeps.ite <;> intro _) | lift_lets | split)

theorem sliceReturn_keeps {z : State} {p i : Nat} {s : State} (h0 : Keeps z s) :
    Keeps z ((sliceReturn p i s)) := by
  unfold sliceReturn
  repeat' (first | with_reducible assumption | with_reducible apply unitEnd_keeps | with_reducible apply State.modUnits_keeps)

theorem sliceCal_keeps {z : State} {p i : Nat} {tries : List Trial} {s : State} (h0 : Keeps z s) :
    Keeps z ((sliceCal p i tries s)) := by
  unfold sliceCal
  repeat' (first | with_reducible assumption | with_reducible apply State.modUnits_keeps | with_reducible apply calSlice_keeps | with_reducible apply setBit_keeps | with_reducible apply State.raise_keeps | (with_reducible apply Keeps.ite <;> intro _))

theorem sliceJoin_keeps {z : State} {p i : Nat} {s : State} (h0 : Keeps z s) :
    Keeps z ((sliceJoin p i s)) := by
  unfold sliceJoin
  repeat' (first | with_reducible assumption | with_reducible apply State.set_keeps | with_reducible apply setBit_keeps | with_reducible apply State.raise_keeps | (with_reducible apply Keeps.ite <;> intro _))

theorem tileOut_keeps {z : State} {p t : Nat} {s : State} (h0 : Keeps z s) :
    Keeps z ((tileOut p t s)) := by
  unfold tileOut
  repeat' (first | with_reducible assumption | with_reducible apply State.set_keeps | with_reducible apply State.modRxd_keeps | with_reducible apply powerDown_keeps | with_reducible apply rxTaps_keeps | (with_reducible apply Keeps.ite <;> intro _))

theorem tileFallow_keeps {z : State} {p t : Nat} {s : State} (h0 : Keeps z s) :
    Keeps z ((tileFallow p t s)) := by
  unfold tileFallow
  repeat' (first | with_reducible assumption | with_reducible apply unitEnd_keeps | with_reducible apply powerDown_keeps | with_reducible apply State.set_keeps | with_reducible apply State.modUnits_keeps | with_reducible apply tileOut_keeps | (with_reducible apply Keeps.ite <;> intro _))

theorem tilesLeave_keeps {z : State} {p : Nat} {s : State} (h0 : Keeps z s) :
    Keeps z ((tilesLeave p s)) := by
  unfold tilesLeave
  repeat' (first | with_reducible assumption | with_reducible apply unitEnd_keeps | with_reducible apply tileOut_keeps | with_reducible apply State.modUnits_keeps | (with_reducible apply Keeps.foldl; intro _ _ _) | (with_reducible apply Keeps.ite <;> intro _))

theorem tileReturn_keeps {z : State} {p t : Nat} {s : State} (h0 : Keeps z s) :
    Keeps z ((tileReturn p t s)) := by
  unfold tileReturn
  repeat' (first | with_reducible assumption | with_reducible apply unitEnd_keeps | with_reducible apply State.set_keeps | with_reducible apply State.modUnits_keeps | with_reducible apply powerUp_keeps | (with_reducible apply Keeps.ite <;> intro _))

theorem tileTested_keeps {z : State} {p t : Nat} {ok : Bool} {s : State} (h0 : Keeps z s) :
    Keeps z ((tileTested p t ok s)) := by
  unfold tileTested
  repeat' (first | with_reducible assumption | with_reducible apply State.set_keeps | with_reducible apply State.raise_keeps | (with_reducible apply Keeps.ite <;> intro _))

theorem tileShadowed_keeps {z : State} {p t : Nat} {same : Bool} {s : State} (h0 : Keeps z s) :
    Keeps z ((tileShadowed p t same s)) := by
  unfold tileShadowed
  repeat' (first | with_reducible assumption | with_reducible apply State.set_keeps | with_reducible apply State.raise_keeps | (with_reducible apply Keeps.ite <;> intro _))

theorem tileJoin_keeps {z : State} {p t : Nat} {s : State} (h0 : Keeps z s) :
    Keeps z ((tileJoin p t s)) := by
  unfold tileJoin
  repeat' (first | with_reducible assumption | with_reducible apply State.modUnits_keeps | with_reducible apply State.set_keeps | with_reducible apply State.modRxd_keeps | with_reducible apply rxTaps_keeps | with_reducible apply State.raise_keeps | (with_reducible apply Keeps.ite <;> intro _))

theorem tilesFollow_keeps {z : State} {p : Nat} {s : State} (h0 : Keeps z s) :
    Keeps z ((tilesFollow p s)) := by
  unfold tilesFollow
  repeat' (first | with_reducible assumption | with_reducible apply powerUp_keeps | with_reducible apply powerDown_keeps | (with_reducible apply Keeps.iter; intro _ _ _) | (with_reducible apply Keeps.ite <;> intro _))

theorem setProc_keeps {z : State} {c st : Nat} {s : State} (h0 : Keeps z s) :
    Keeps z ((setProc c st s)) := by
  unfold setProc
  repeat' (first | with_reducible assumption | with_reducible apply State.set_keeps)

theorem State.modHif_keeps {z : State} {s : State} {f : HifState → HifState} (h0 : Keeps z s) :
    Keeps z ((State.modHif s f)) := by
  unfold State.modHif
  repeat' (first | with_reducible assumption | simp (zeta := false) only [Keeps.parts])

theorem ringsDown_keeps {z : State} {s : State} (h0 : Keeps z s) :
    Keeps z ((ringsDown s)) := by
  unfold ringsDown
  repeat' (first | with_reducible assumption | with_reducible apply State.modSwc_keeps | with_reducible apply State.modHif_keeps | with_reducible apply State.set_keeps | with_reducible apply State.raise_keeps | (with_reducible apply Keeps.iter; intro _ _ _))

theorem gorseReset_keeps {z : State} {s : State} (h0 : Keeps z s) :
    Keeps z ((gorseReset s)) := by
  unfold gorseReset
  repeat' (first | with_reducible assumption | with_reducible apply ringsDown_keeps | with_reducible apply mceAbort_keeps | (with_reducible apply Keeps.ite <;> intro _))

theorem procOff_keeps {z : State} {c : Nat} {s : State} (h0 : Keeps z s) :
    Keeps z ((procOff c s)) := by
  unfold procOff
  repeat' (first | with_reducible assumption | with_reducible apply powerDown_keeps | with_reducible apply setProc_keeps | with_reducible apply masterAbort_keeps | with_reducible apply mceAbort_keeps | with_reducible apply gorseReset_keeps | with_reducible apply State.modUnits_keeps | (with_reducible apply Keeps.ite <;> intro _))

theorem procFallow_keeps {z : State} {c : Nat} {s : State} (h0 : Keeps z s) :
    Keeps z ((procFallow c s)) := by
  unfold procFallow
  repeat' (first | with_reducible assumption | with_reducible apply procOff_keeps | with_reducible apply setProc_keeps | (with_reducible apply Keeps.ite <;> intro _))

theorem procLoad_keeps {z : State} {c : Nat} {s : State} (h0 : Keeps z s) :
    Keeps z ((procLoad c s).2) := by
  unfold procLoad
  repeat' (first | with_reducible assumption | with_reducible apply powerUp_keeps | with_reducible apply setProc_keeps | (with_reducible apply Keeps.ite_snd <;> intro _))

theorem updateEnd_keeps {z : State} {status ev : Nat} {s : State} (h0 : Keeps z s) :
    Keeps z ((updateEnd status ev s)) := by
  unfold updateEnd
  repeat' (first | with_reducible assumption | with_reducible apply unitEnd_keeps | with_reducible apply State.modUnits_keeps | with_reducible apply State.raise_keeps)

theorem updateLoad_keeps {z : State} {c : Nat} {s : State} (h0 : Keeps z s) :
    Keeps z ((updateLoad c s)) := by
  unfold updateLoad
  repeat' (first | with_reducible assumption | with_reducible apply procLoad_keeps | with_reducible apply updateEnd_keeps | with_reducible apply setProc_keeps | with_reducible apply State.raise_keeps | (with_reducible apply Keeps.ite <;> intro _))

theorem updateNext_keeps {z : State} {s : State} (h : Keeps z s) : Keeps z (updateNext s) := by
  unfold updateNext
  split
  · exact h
  · exact updateEnd_keeps (State.modSec_keeps h)
  · next slot c r _ _ =>
    have h1 : Keeps z ((s.modUnits (fun u => { u with update := some (slot, r, c) })).set R.GCTL_UNIT_STAT_FW_CORE c) :=
      State.set_keeps (State.modUnits_keeps h)
    generalize (s.modUnits (fun u => { u with update := some (slot, r, c) })).set R.GCTL_UNIT_STAT_FW_CORE c = u at h1 ⊢
    refine Keeps.ite (fun _ => ?_) (fun _ => updateLoad_keeps h1)
    refine Keeps.ite (fun _ => ?_) (fun _ => updateEnd_keeps h1)
    exact Keeps.ite (fun _ => updateLoad_keeps (procFallow_keeps h1)) (fun _ => procFallow_keeps h1)

theorem loopsMove_keeps {z : State} {c : Nat} {s : State} (h0 : Keeps z s) :
    Keeps z ((loopsMove c s)) := by
  unfold loopsMove
  repeat' (first | with_reducible assumption | with_reducible apply State.modUnits_keeps | split)

theorem loopsBack_keeps {z : State} {c : Nat} {s : State} (h0 : Keeps z s) :
    Keeps z ((loopsBack c s)) := by
  unfold loopsBack
  repeat' (first | with_reducible assumption | with_reducible apply State.modUnits_keeps)

theorem handoverEnd_keeps {z : State} {c : Nat} {s : State} (h0 : Keeps z s) :
    Keeps z ((handoverEnd c s)) := by
  unfold handoverEnd
  repeat' (first | with_reducible assumption | with_reducible apply loopsMove_keeps | with_reducible apply procOff_keeps | with_reducible apply updateLoad_keeps | (with_reducible apply Keeps.ite <;> intro _))

theorem procTested_keeps {z : State} {c : Nat} {ok : Bool} {s : State} (h0 : Keeps z s) :
    Keeps z ((procTested c ok s)) := by
  unfold procTested
  repeat' (first | with_reducible assumption | with_reducible apply setProc_keeps | with_reducible apply State.raise_keeps | with_reducible apply State.draw_keeps | with_reducible apply updateEnd_keeps | (with_reducible apply Keeps.ite <;> intro _))

theorem procJoin_keeps {z : State} {c : Nat} {s : State} (h0 : Keeps z s) :
    Keeps z ((procJoin c s)) := by
  unfold procJoin
  repeat' (first | with_reducible assumption | with_reducible apply loopsBack_keeps | with_reducible apply setProc_keeps | with_reducible apply State.raise_keeps | with_reducible apply updateNext_keeps | (with_reducible apply Keeps.ite <;> intro _))

theorem procHalt_keeps {z : State} {c : Nat} {s : State} (h0 : Keeps z s) :
    Keeps z ((procHalt c s)) := by
  unfold procHalt
  repeat' (first | with_reducible assumption | with_reducible apply State.modUnits_keeps | with_reducible apply State.raise_keeps | (with_reducible apply Keeps.ite <;> intro _))

theorem firmwareUpdate_keeps {z : State} {slot mask : Nat} {s : State} (h0 : Keeps z s) :
    Keeps z ((firmwareUpdate slot mask s)) := by
  unfold firmwareUpdate
  repeat' (first | with_reducible assumption | with_reducible apply unitEnd_keeps | with_reducible apply updateNext_keeps | with_reducible apply State.modUnits_keeps | with_reducible apply State.set_keeps | (with_reducible apply Keeps.ite <;> intro _))

theorem unitCommand_keeps {z : State} {kind cmd p ix sub : Nat} {s : State} (h0 : Keeps z s) :
    Keeps z ((unitCommand kind cmd p ix sub s)) := by
  unfold unitCommand
  repeat' (first | with_reducible assumption | with_reducible apply State.set_keeps | with_reducible apply sliceFallow_keeps | with_reducible apply sliceReturn_keeps | with_reducible apply tileFallow_keeps | with_reducible apply tileReturn_keeps | with_reducible apply unitEnd_keeps | with_reducible apply procFallow_keeps | with_reducible apply procLoad_keeps | with_reducible apply firmwareUpdate_keeps | (with_reducible apply Keeps.ite <;> intro _))

theorem deviceBoundary_keeps {z : State} {s : State} (h0 : Keeps z s) :
    Keeps z ((deviceBoundary s)) := by
  unfold deviceBoundary
  repeat' (first | with_reducible assumption | with_reducible apply loopsMove_keeps | with_reducible apply handoverEnd_keeps | with_reducible apply procJoin_keeps | (with_reducible apply Keeps.foldl; intro _ _ _))

theorem State.modHdg_keeps {z : State} {s : State} {f : HdgState → HdgState} (h0 : Keeps z s) :
    Keeps z ((State.modHdg s f)) := by
  unfold State.modHdg
  repeat' (first | with_reducible assumption | simp (zeta := false) only [Keeps.parts])

theorem State.modSeq_keeps {z : State} {s : State} {n : Nat} {f : Sequencer → Sequencer} (h0 : Keeps z s) :
    Keeps z ((State.modSeq s n f)) := by
  unfold State.modSeq
  repeat' (first | with_reducible assumption | with_reducible apply State.modHdg_keeps)

theorem sampleAdd_keeps {z : State} {n : Nat} {s : State} (h0 : Keeps z s) :
    Keeps z ((sampleAdd n s)) := by
  unfold sampleAdd
  repeat' (first | with_reducible assumption | with_reducible apply State.raise_keeps | with_reducible apply State.modHdg_keeps | (with_reducible apply Keeps.ite <;> intro _))

theorem sampleStep_keeps {z : State} {n k : Nat} {s : State} (h0 : Keeps z s) :
    Keeps z ((sampleStep n k s)) := by
  unfold sampleStep
  repeat' (first | with_reducible assumption | with_reducible apply State.modSeq_keeps | with_reducible apply State.draw_keeps | with_reducible apply sampleAdd_keeps | (with_reducible apply Keeps.foldl; intro _ _ _) | (with_reducible apply Keeps.ite <;> intro _))

theorem sampleFlush_keeps {z : State} {n : Nat} {s : State} (h0 : Keeps z s) :
    Keeps z ((sampleFlush n s)) := by
  unfold sampleFlush
  repeat' (first | with_reducible assumption | with_reducible apply sampleAdd_keeps | with_reducible apply State.modSeq_keeps | (with_reducible apply Keeps.foldl; intro _ _ _))

theorem presetOverflow_keeps {z : State} {s : State} (h0 : Keeps z s) :
    Keeps z ((presetOverflow s)) := by
  unfold presetOverflow
  repeat' (first | with_reducible assumption | with_reducible apply sampleStep_keeps | with_reducible apply State.modSeq_keeps | with_reducible apply sampleAdd_keeps | with_reducible apply presetOver_keeps | (with_reducible apply Keeps.iter; intro _ _ _) | (with_reducible apply Keeps.ite <;> intro _))

theorem hostEvent_keeps {z : State} {n v : Nat} {s : State} (h0 : Keeps z s) :
    Keeps z ((hostEvent n v s)) := by
  unfold hostEvent
  repeat' (first | with_reducible assumption | with_reducible apply State.modHdg_keeps | with_reducible apply State.raise_keeps | (with_reducible apply Keeps.ite <;> intro _))

theorem seqHalt_keeps {z : State} {n : Nat} {s : State} (h0 : Keeps z s) :
    Keeps z ((seqHalt n s)) := by
  unfold seqHalt
  repeat' (first | with_reducible assumption | with_reducible apply sampleFlush_keeps | with_reducible apply State.modSeq_keeps | with_reducible apply State.raise_keeps)

theorem seqStart_keeps {z : State} {n : Nat} {s : State} (h0 : Keeps z s) :
    Keeps z ((seqStart n s)) := by
  unfold seqStart
  repeat' (first | with_reducible assumption | with_reducible apply sampleFlush_keeps | with_reducible apply State.modSeq_keeps | with_reducible apply seqHalt_keeps | (with_reducible apply Keeps.ite <;> intro _))

theorem seqStop_keeps {z : State} {n : Nat} {s : State} (h0 : Keeps z s) :
    Keeps z ((seqStop n s)) := by
  unfold seqStop
  repeat' (first | with_reducible assumption | with_reducible apply sampleFlush_keeps | with_reducible apply State.modSeq_keeps)

theorem runWrite_keeps {z : State} {v : Nat} {s : State} (h0 : Keeps z s) :
    Keeps z ((runWrite v s)) := by
  unfold runWrite
  repeat' (first | with_reducible assumption | with_reducible apply seqStart_keeps | with_reducible apply seqStop_keeps | with_reducible apply State.set_keeps | (with_reducible apply Keeps.iter; intro _ _ _) | (with_reducible apply Keeps.ite <;> intro _))

theorem latchCode_keeps {z : State} {n c : Nat} {s : State} (h0 : Keeps z s) :
    Keeps z ((latchCode n c s)) := by
  unfold latchCode
  repeat' (first | with_reducible assumption | with_reducible apply State.modSeq_keeps)

theorem seqSwapped_keeps {z : State} {n : Nat} {s : State} (h0 : Keeps z s) :
    Keeps z ((seqSwapped n s)) := by
  unfold seqSwapped
  repeat' (first | with_reducible assumption | with_reducible apply seqHalt_keeps | with_reducible apply State.modSeq_keeps | (with_reducible apply Keeps.ite <;> intro _))

theorem timerExpiry_keeps {z : State} {n i : Nat} {s : State} (h0 : Keeps z s) :
    Keeps z ((timerExpiry n i s)) := by
  unfold timerExpiry
  repeat' (first | with_reducible assumption | with_reducible apply State.modSeq_keeps)

theorem State.modFlc_keeps {z : State} {s : State} {f : FlashState → FlashState} (h0 : Keeps z s) :
    Keeps z ((State.modFlc s f)) := by
  unfold State.modFlc
  repeat' (first | with_reducible assumption | simp (zeta := false) only [Keeps.parts])

theorem slotTouched_keeps {z : State} {part : Nat} {s : State} (h0 : Keeps z s) :
    Keeps z ((slotTouched part s)) := by
  unfold slotTouched
  repeat' (first | with_reducible assumption | with_reducible apply State.set_keeps | with_reducible apply State.raise_keeps | (with_reducible apply Keeps.ite <;> intro _))

theorem setBlock_keeps {z : State} {b : Nat} {x : FlashBlock} {s : State} (h0 : Keeps z s) :
    Keeps z ((setBlock b x s)) := by
  unfold setBlock
  repeat' (first | with_reducible assumption | with_reducible apply State.modFlc_keeps)

theorem setMap_keeps {z : State} {part l : Nat} {b : Option Nat} {s : State} (h0 : Keeps z s) :
    Keeps z ((setMap part l b s)) := by
  unfold setMap
  repeat' (first | with_reducible assumption | with_reducible apply State.modFlc_keeps)

theorem doorbell_keeps {z : State} {r t : Nat} {s : State} (h0 : Keeps z s) :
    Keeps z ((doorbell r t s)) := by
  unfold doorbell
  repeat' (first | with_reducible assumption | with_reducible apply State.raise_keeps | with_reducible apply State.modHif_keeps | (with_reducible apply Keeps.ite <;> intro _))

theorem sqEnable_keeps {z : State} {r v : Nat} {s : State} (h0 : Keeps z s) :
    Keeps z ((sqEnable r v s)) := by
  unfold sqEnable
  repeat' (first | with_reducible assumption | with_reducible apply State.set_keeps | with_reducible apply State.modHif_keeps | (with_reducible apply Keeps.ite <;> intro _))

theorem cqEnable_keeps {z : State} {q v : Nat} {s : State} (h0 : Keeps z s) :
    Keeps z ((cqEnable q v s)) := by
  unfold cqEnable
  repeat' (first | with_reducible assumption | with_reducible apply State.set_keeps | with_reducible apply State.modHif_keeps | (with_reducible apply Keeps.ite <;> intro _))

theorem cqHead_keeps {z : State} {q v : Nat} {s : State} (h0 : Keeps z s) :
    Keeps z ((cqHead q v s)) := by
  unfold cqHead
  repeat' (first | with_reducible assumption | with_reducible apply State.modHif_keeps)

theorem writeEntry_keeps {z : State} {c : HostCpl} {s : State} (h0 : Keeps z s) :
    Keeps z ((writeEntry c s)) := by
  unfold writeEntry
  repeat' (first | with_reducible assumption | with_reducible apply State.modHif_keeps | with_reducible apply State.set_keeps | (with_reducible apply Keeps.ite <;> intro _))

theorem putCpl_keeps {z : State} {c : HostCpl} {s : State} (h0 : Keeps z s) :
    Keeps z ((putCpl c s)) := by
  unfold putCpl
  repeat' (first | with_reducible assumption | with_reducible apply writeEntry_keeps | with_reducible apply State.modHif_keeps | (with_reducible apply Keeps.ite <;> intro _))

theorem nextCpl_keeps {z : State} {q : Nat} {s : State} (h0 : Keeps z s) :
    Keeps z ((nextCpl q s)) := by
  unfold nextCpl
  repeat' (first | with_reducible assumption | with_reducible apply writeEntry_keeps | with_reducible apply State.modHif_keeps | (with_reducible apply Keeps.ite <;> intro _) | split)

theorem hostFinish_keeps {z : State} {tag status units result : Nat} {s : State} (h0 : Keeps z s) :
    Keeps z ((hostFinish tag status units result s)) := by
  unfold hostFinish
  repeat' (first | with_reducible assumption | (intro u; first | (refine (fun (hu : ∀ a, Keeps z (u a)) => ?_) ?_; clear_value u; rotate_left; subst u; rotate_left) | (refine (fun (hu : Keeps z u) => ?_) ?_; clear_value u; rotate_left; subst u; rotate_left) | (refine (fun (hu : Keeps z u.2) => ?_) ?_; clear_value u; rotate_left; subst u; rotate_left) | (refine (fun (hu : Keeps z u.2.2) => ?_) ?_; clear_value u; rotate_left; subst u; rotate_left) | (refine (fun (hu : ∀ v, Keeps z v → Keeps z (u v)) => ?_) ?_; clear_value u; rotate_left; subst u; rotate_left) | (refine (fun (hu : ∀ v, Keeps z v → Keeps z (u v).2) => ?_) ?_; clear_value u; rotate_left; subst u; rotate_left) | (refine (fun (hu : ∀ a v, Keeps z v → Keeps z (u a v)) => ?_) ?_; clear_value u; rotate_left; subst u; rotate_left) | clear_value u) | with_reducible apply State.modHif_keeps | with_reducible apply putCpl_keeps | lift_lets | split)

theorem hostFetch_keeps {z : State} {b : List Nat} {s : State} (h0 : Keeps z s) :
    Keeps z ((hostFetch b s)) := by
  unfold hostFetch
  repeat' (first | with_reducible assumption | with_reducible apply State.set_keeps | with_reducible apply State.modHif_keeps | with_reducible apply putCpl_keeps | (with_reducible apply Keeps.ite <;> intro _) | lift_lets | split)

theorem ringStart_keeps {z : State} {op tag : Nat} {f : HostCmd → State → State} {s : State} (h0 : ∀ c u, Keeps z u → Keeps z (f c u)) (h1 : Keeps z s) :
    Keeps z ((ringStart op tag f s)) := by
  unfold ringStart
  repeat' (first | with_reducible assumption | with_reducible apply h0 | with_reducible apply State.modHif_keeps | split)

theorem linkDown_keeps {z : State} {s : State} (h0 : Keeps z s) :
    Keeps z ((linkDown s)) := by
  unfold linkDown
  repeat' (first | with_reducible assumption | with_reducible apply ringsDown_keeps)

theorem linkShow_keeps {z : State} {up width speed ltssm : Nat} {s : State} (h0 : Keeps z s) :
    Keeps z ((linkShow up width speed ltssm s)) := by
  unfold linkShow
  repeat' (first | with_reducible assumption | with_reducible apply State.set_keeps)

theorem watchdog_keeps {z : State} {s : State} (h0 : Keeps z s) :
    Keeps z ((watchdog s)) := by
  unfold watchdog
  repeat' (first | with_reducible assumption | with_reducible apply latchCode_keeps | with_reducible apply State.raise_keeps | (with_reducible apply Keeps.iter; intro _ _ _) | (with_reducible apply Keeps.ite <;> intro _))

theorem bar2Write_keeps {z : State} {o be v : Nat} {s : State} (h0 : Keeps z s) :
    Keeps z ((bar2Write o be v s)) := by
  unfold bar2Write
  repeat' (first | with_reducible assumption | with_reducible apply doorbell_keeps | with_reducible apply cqHead_keeps | with_reducible apply State.modHif_keeps | (with_reducible apply Keeps.ite <;> intro _))

theorem setLogSeq_keeps {z : State} {v : Nat} {s : State} (h0 : Keeps z s) :
    Keeps z ((setLogSeq v s)) := by
  unfold setLogSeq
  repeat' (first | with_reducible assumption | with_reducible apply State.set_keeps)

theorem logAdd_keeps {z : State} {r : LogRec} {s : State} (h0 : Keeps z s) :
    Keeps z ((logAdd r s)) := by
  unfold logAdd
  repeat' (first | with_reducible assumption | with_reducible apply State.raise_keeps | with_reducible apply setLogSeq_keeps | with_reducible apply State.modFlc_keeps | (with_reducible apply Keeps.ite <;> intro _))

theorem retireBlock_keeps {z : State} {b time : Nat} {ok : Bool} {s : State} (h0 : Keeps z s) :
    Keeps z ((retireBlock b time ok s)) := by
  unfold retireBlock
  repeat' (first | with_reducible assumption | with_reducible apply setBlock_keeps | with_reducible apply State.modFlc_keeps | with_reducible apply logAdd_keeps | (with_reducible apply Keeps.ite <;> intro _))

theorem progFail_keeps {z : State} {part b page time : Nat} {s : State} (h0 : Keeps z s) :
    Keeps z ((progFail part b page time s)) := by
  unfold progFail
  repeat' (first | with_reducible assumption | with_reducible apply State.addSat_keeps | with_reducible apply State.raise_keeps | with_reducible apply logAdd_keeps)

theorem programPage_keeps {z : State} {part l page : Nat} {data : List Nat} {s : State} (h0 : Keeps z s) :
    Keeps z ((programPage part l page data s)) := by
  unfold programPage
  repeat' (first | with_reducible assumption | (intro u; first | (refine (fun (hu : ∀ a, Keeps z (u a)) => ?_) ?_; clear_value u; rotate_left; subst u; rotate_left) | (refine (fun (hu : Keeps z u) => ?_) ?_; clear_value u; rotate_left; subst u; rotate_left) | (refine (fun (hu : Keeps z u.2) => ?_) ?_; clear_value u; rotate_left; subst u; rotate_left) | (refine (fun (hu : Keeps z u.2.2) => ?_) ?_; clear_value u; rotate_left; subst u; rotate_left) | (refine (fun (hu : ∀ v, Keeps z v → Keeps z (u v)) => ?_) ?_; clear_value u; rotate_left; subst u; rotate_left) | (refine (fun (hu : ∀ v, Keeps z v → Keeps z (u v).2) => ?_) ?_; clear_value u; rotate_left; subst u; rotate_left) | (refine (fun (hu : ∀ a v, Keeps z v → Keeps z (u a v)) => ?_) ?_; clear_value u; rotate_left; subst u; rotate_left) | clear_value u) | with_reducible apply setBlock_keeps | lift_lets | split)

theorem eraseBlock_keeps {z : State} {part l : Nat} {s : State} (h0 : Keeps z s) :
    Keeps z ((eraseBlock part l s)) := by
  unfold eraseBlock
  repeat' (first | with_reducible assumption | with_reducible apply setMap_keeps | with_reducible apply setBlock_keeps | with_reducible apply State.modFlc_keeps | lift_lets | split)

theorem allocate_keeps {z : State} {part l : Nat} {s : State} (h0 : Keeps z s) :
    Keeps z ((allocate part l s)) := by
  unfold allocate
  repeat' (first | with_reducible assumption | with_reducible apply setMap_keeps | split)

theorem logPage_keeps {z : State} {time : Nat} : ∀ {n : Nat} {s : State}, Keeps z s → Keeps z (logPage time n s)
  | n, s, h => by
    unfold logPage
    split
    · exact h
    · refine Keeps.ite (fun _ => h) (fun _ => ?_)
      refine Keeps.ite (fun _ => State.raise_keeps h) (fun _ => ?_)
      extract_lets k l pg s1 s2
      have h1 : Keeps z s1 := Keeps.ite (fun _ => eraseBlock_keeps h) (fun _ => h)
      have h2 : Keeps z s2 := allocate_keeps h1
      clear_value s1 s2
      split
      · exact h2
      · split
        · exact State.modFlc_keeps (State.modFlc_keeps (programPage_keeps h2))
        · exact logPage_keeps (State.modFlc_keeps (retireBlock_keeps (progFail_keeps h2)))

theorem flashDone_keeps {z : State} {op : FlashOp} {status nbits blanks bads : Nat} {data : List Nat} {s : State} (h0 : Keeps z s) :
    Keeps z ((flashDone op status nbits blanks bads data s)) := by
  unfold flashDone
  repeat' (first | with_reducible assumption | (intro u; first | (refine (fun (hu : ∀ a, Keeps z (u a)) => ?_) ?_; clear_value u; rotate_left; subst u; rotate_left) | (refine (fun (hu : Keeps z u) => ?_) ?_; clear_value u; rotate_left; subst u; rotate_left) | (refine (fun (hu : Keeps z u.2) => ?_) ?_; clear_value u; rotate_left; subst u; rotate_left) | (refine (fun (hu : Keeps z u.2.2) => ?_) ?_; clear_value u; rotate_left; subst u; rotate_left) | (refine (fun (hu : ∀ v, Keeps z v → Keeps z (u v)) => ?_) ?_; clear_value u; rotate_left; subst u; rotate_left) | (refine (fun (hu : ∀ v, Keeps z v → Keeps z (u v).2) => ?_) ?_; clear_value u; rotate_left; subst u; rotate_left) | (refine (fun (hu : ∀ a v, Keeps z v → Keeps z (u a v)) => ?_) ?_; clear_value u; rotate_left; subst u; rotate_left) | clear_value u) | with_reducible apply State.set_keeps | with_reducible apply State.modFlc_keeps | with_reducible apply hostFinish_keeps | with_reducible apply State.answer_keeps | with_reducible apply State.raise_keeps | (with_reducible apply Keeps.ite <;> intro _) | lift_lets | split)

theorem queueMove_keeps {z : State} {b : Nat} {retire : Bool} {s : State} (h0 : Keeps z s) :
    Keeps z ((queueMove b retire s)) := by
  unfold queueMove
  repeat' (first | with_reducible assumption | with_reducible apply State.modFlc_keeps | (with_reducible apply Keeps.ite <;> intro _))

theorem pageFound_keeps {z : State} {part b i t nbits time : Nat} {bad : Bool} {s : State} (h0 : Keeps z s) :
    Keeps z ((pageFound part b i t nbits time bad s)) := by
  unfold pageFound
  repeat' (first | with_reducible assumption | with_reducible apply logAdd_keeps | with_reducible apply State.addSat_keeps | with_reducible apply State.raise_keeps | with_reducible apply queueMove_keeps | (with_reducible apply Keeps.ite <;> intro _))

theorem readPage_keeps {z : State} {part time : Nat} {x : ReadRun × State} {page : Nat} (h0 : Keeps z x.2) :
    Keeps z ((readPage part time x page).2) := by
  unfold readPage
  repeat' (first | with_reducible assumption | (intro u; first | (refine (fun (hu : ∀ a, Keeps z (u a)) => ?_) ?_; clear_value u; rotate_left; subst u; rotate_left) | (refine (fun (hu : Keeps z u) => ?_) ?_; clear_value u; rotate_left; subst u; rotate_left) | (refine (fun (hu : Keeps z u.2) => ?_) ?_; clear_value u; rotate_left; subst u; rotate_left) | (refine (fun (hu : Keeps z u.2.2) => ?_) ?_; clear_value u; rotate_left; subst u; rotate_left) | (refine (fun (hu : ∀ v, Keeps z v → Keeps z (u v)) => ?_) ?_; clear_value u; rotate_left; subst u; rotate_left) | (refine (fun (hu : ∀ v, Keeps z v → Keeps z (u v).2) => ?_) ?_; clear_value u; rotate_left; subst u; rotate_left) | (refine (fun (hu : ∀ a v, Keeps z v → Keeps z (u a v)) => ?_) ?_; clear_value u; rotate_left; subst u; rotate_left) | clear_value u) | with_reducible apply pageFound_keeps | simp (zeta := false) only [Keeps.parts] | lift_lets | split)

theorem flashIssue_keeps {z : State} {ce : Nat} {op : FlashOp} {s : State} (h0 : Keeps z s) :
    Keeps z ((flashIssue ce op s)) := by
  unfold flashIssue
  repeat' (first | with_reducible assumption | with_reducible apply State.modFlc_keeps | with_reducible apply flashDone_keeps | with_reducible apply State.raiseIf_keeps | with_reducible apply slotTouched_keeps | with_reducible apply allocate_keeps | (with_reducible apply Keeps.ite <;> intro _))

theorem flashPump_keeps {z : State} : ∀ {n : Nat} {s : State}, Keeps z s → Keeps z (flashPump n s)
  | 0, _, h => h
  | n + 1, s, h => by
    unfold flashPump
    split
    · exact h
    · split
      · exact flashPump_keeps (flashIssue_keeps h)
      · exact h

theorem flashRun_keeps {z : State} {s : State} (h0 : Keeps z s) :
    Keeps z ((flashRun s)) := by
  unfold flashRun
  repeat' (first | with_reducible assumption | with_reducible apply flashPump_keeps)

theorem flashSubmit_keeps {z : State} {op : FlashOp} {s : State} (h0 : Keeps z s) :
    Keeps z ((flashSubmit op s)) := by
  unfold flashSubmit
  repeat' (first | with_reducible assumption | with_reducible apply flashDone_keeps | with_reducible apply flashRun_keeps | with_reducible apply State.modFlc_keeps | (with_reducible apply Keeps.ite <;> intro _))

theorem flashOpDone_keeps {z : State} {ce : Nat} {r : FlashResult} {s : State} (h0 : Keeps z s) :
    Keeps z ((flashOpDone ce r s)) := by
  unfold flashOpDone
  repeat' (first | with_reducible assumption | (intro u; first | (refine (fun (hu : ∀ a, Keeps z (u a)) => ?_) ?_; clear_value u; rotate_left; subst u; rotate_left) | (refine (fun (hu : Keeps z u) => ?_) ?_; clear_value u; rotate_left; subst u; rotate_left) | (refine (fun (hu : Keeps z u.2) => ?_) ?_; clear_value u; rotate_left; subst u; rotate_left) | (refine (fun (hu : Keeps z u.2.2) => ?_) ?_; clear_value u; rotate_left; subst u; rotate_left) | (refine (fun (hu : ∀ v, Keeps z v → Keeps z (u v)) => ?_) ?_; clear_value u; rotate_left; subst u; rotate_left) | (refine (fun (hu : ∀ v, Keeps z v → Keeps z (u v).2) => ?_) ?_; clear_value u; rotate_left; subst u; rotate_left) | (refine (fun (hu : ∀ a v, Keeps z v → Keeps z (u a v)) => ?_) ?_; clear_value u; rotate_left; subst u; rotate_left) | clear_value u) | with_reducible apply State.modFlc_keeps | with_reducible apply readPage_keeps | with_reducible apply flashDone_keeps | with_reducible apply progFail_keeps | with_reducible apply programPage_keeps | with_reducible apply State.addSat_keeps | with_reducible apply State.raise_keeps | with_reducible apply logAdd_keeps | with_reducible apply eraseBlock_keeps | with_reducible apply retireBlock_keeps | with_reducible apply flashRun_keeps | (with_reducible apply Keeps.foldl_snd; intro _ _ _) | (with_reducible apply Keeps.ite <;> intro _) | simp (zeta := false) only [Keeps.parts] | lift_lets | split)

theorem moveBlock_keeps {z : State} {b : Nat} {retire : Bool} {r : FlashResult} {s : State} (h : Keeps z s) : Keeps z (moveBlock b retire r s) := by
  unfold moveBlock
  extract_lets regs drop
  have hd : ∀ u, Keeps z u → Keeps z (drop u) := fun _ hu => State.modFlc_keeps hu
  clear_value drop
  split
  · split
    · exact Keeps.ite (fun _ => flashDone_keeps (hd _ h)) (fun _ => h)
    · refine Keeps.ite (fun _ => State.raise_keeps h) (fun _ => Keeps.ite (fun _ => ?_) (fun _ => ?_))
      · exact retireBlock_keeps (progFail_keeps (slotTouched_keeps h))
      · exact Keeps.ite (fun _ => flashDone_keeps (retireBlock_keeps (logAdd_keeps (State.addSat_keeps (hd _ (setMap_keeps (setBlock_keeps (setBlock_keeps (slotTouched_keeps h)))))))))
          (fun _ => logAdd_keeps (State.addSat_keeps (hd _ (setMap_keeps (setBlock_keeps (setBlock_keeps (slotTouched_keeps h)))))))
  · exact Keeps.ite (fun _ => flashDone_keeps (retireBlock_keeps (hd _ h))) (fun _ => hd _ h)

theorem relocate_keeps {z : State} {r : FlashResult} {s : State} (h0 : Keeps z s) :
    Keeps z ((relocate r s)) := by
  unfold relocate
  repeat' (first | with_reducible assumption | with_reducible apply flashRun_keeps | with_reducible apply moveBlock_keeps | split)

theorem scrubStart_keeps {z : State} {s : State} (h0 : Keeps z s) :
    Keeps z ((scrubStart s)) := by
  unfold scrubStart
  repeat' (first | with_reducible assumption | with_reducible apply State.set_keeps | with_reducible apply State.modFlc_keeps | with_reducible apply State.raise_keeps | with_reducible apply flashRun_keeps | (with_reducible apply Keeps.ite <;> intro _))

theorem mountBlock_keeps {z : State} {x : Partition} {time : Nat} {s : State} {b : Nat} (h0 : Keeps z s) :
    Keeps z ((mountBlock x time s b)) := by
  unfold mountBlock
  repeat' (first | with_reducible assumption | (intro u; first | (refine (fun (hu : ∀ a, Keeps z (u a)) => ?_) ?_; clear_value u; rotate_left; subst u; rotate_left) | (refine (fun (hu : Keeps z u) => ?_) ?_; clear_value u; rotate_left; subst u; rotate_left) | (refine (fun (hu : Keeps z u.2) => ?_) ?_; clear_value u; rotate_left; subst u; rotate_left) | (refine (fun (hu : Keeps z u.2.2) => ?_) ?_; clear_value u; rotate_left; subst u; rotate_left) | (refine (fun (hu : ∀ v, Keeps z v → Keeps z (u v)) => ?_) ?_; clear_value u; rotate_left; subst u; rotate_left) | (refine (fun (hu : ∀ v, Keeps z v → Keeps z (u v).2) => ?_) ?_; clear_value u; rotate_left; subst u; rotate_left) | (refine (fun (hu : ∀ a v, Keeps z v → Keeps z (u a v)) => ?_) ?_; clear_value u; rotate_left; subst u; rotate_left) | clear_value u) | with_reducible apply State.modFlc_keeps | with_reducible apply pageFound_keeps | with_reducible apply setMap_keeps | with_reducible apply setBlock_keeps | (with_reducible apply Keeps.ite <;> intro _) | lift_lets | split)

theorem mountPart_keeps {z : State} {time : Nat} {s : State} {x : Partition} (h0 : Keeps z s) :
    Keeps z ((mountPart time s x)) := by
  unfold mountPart
  repeat' (first | with_reducible assumption | with_reducible apply mountBlock_keeps | (with_reducible apply Keeps.foldl; intro _ _ _))

theorem mountLog_keeps {z : State} {s : State} (h0 : Keeps z s) :
    Keeps z ((mountLog s)) := by
  unfold mountLog
  repeat' (first | with_reducible assumption | (intro u; first | (refine (fun (hu : ∀ a, Keeps z (u a)) => ?_) ?_; clear_value u; rotate_left; subst u; rotate_left) | (refine (fun (hu : Keeps z u) => ?_) ?_; clear_value u; rotate_left; subst u; rotate_left) | (refine (fun (hu : Keeps z u.2) => ?_) ?_; clear_value u; rotate_left; subst u; rotate_left) | (refine (fun (hu : Keeps z u.2.2) => ?_) ?_; clear_value u; rotate_left; subst u; rotate_left) | (refine (fun (hu : ∀ v, Keeps z v → Keeps z (u v)) => ?_) ?_; clear_value u; rotate_left; subst u; rotate_left) | (refine (fun (hu : ∀ v, Keeps z v → Keeps z (u v).2) => ?_) ?_; clear_value u; rotate_left; subst u; rotate_left) | (refine (fun (hu : ∀ a v, Keeps z v → Keeps z (u a v)) => ?_) ?_; clear_value u; rotate_left; subst u; rotate_left) | clear_value u) | with_reducible apply setLogSeq_keeps | with_reducible apply State.modFlc_keeps | lift_lets | split)

theorem flashMount_keeps {z : State} {x : FlashScan} {s : State} (h0 : Keeps z s) :
    Keeps z ((flashMount x s)) := by
  unfold flashMount
  repeat' (first | with_reducible assumption | with_reducible apply State.set_keeps | with_reducible apply setBlock_keeps | with_reducible apply State.modFlc_keeps | with_reducible apply mountLog_keeps | with_reducible apply mountPart_keeps | with_reducible apply State.raise_keeps | (with_reducible apply Keeps.foldl; intro _ _ _) | (with_reducible apply Keeps.ite <;> intro _))

theorem flcCommand_keeps {z : State} {cmd : Nat} {s : State} (h0 : Keeps z s) :
    Keeps z ((flcCommand cmd s).2) := by
  unfold flcCommand
  repeat' (first | with_reducible assumption | with_reducible apply flashSubmit_keeps | with_reducible apply State.set_keeps | with_reducible apply queueMove_keeps | with_reducible apply scrubStart_keeps | (with_reducible apply Keeps.ite_snd <;> intro _) | simp (zeta := false) only [Keeps.parts] | split)

theorem readSlot_keeps {z : State} {t k time : Nat} {flips : List (List Nat)} {s : State} (h0 : Keeps z s) :
    Keeps z ((readSlot t k time flips s).2.2) := by
  unfold readSlot
  repeat' (first | with_reducible assumption | with_reducible apply readPage_keeps | (with_reducible apply Keeps.foldl_snd; intro _ _ _))

theorem storePage_keeps {z : State} {t k i : Nat} {data : List Nat} {s : State} (h0 : Keeps z s) :
    Keeps z ((storePage t k i data s)) := by
  unfold storePage
  repeat' (first | with_reducible assumption | with_reducible apply programPage_keeps | with_reducible apply allocate_keeps)

theorem storeRun_keeps {z : State} {t k : Nat} {l : List (List Nat)} {n : Nat} {s : State} (h : Keeps z s) : Keeps z (storeRun t k l n s) := by
  cases n with
  | zero => exact h
  | succ n => exact Keeps.foldl (fun _ _ hu => storePage_keeps hu) (eraseBlock_keeps h)

theorem recCut_keeps {z : State} {t n : Nat} {payload : List Nat} {s : State} (h0 : Keeps z s) :
    Keeps z ((recCut t n payload s)) := by
  unfold recCut
  repeat' (first | with_reducible assumption | (intro u; first | (refine (fun (hu : ∀ a, Keeps z (u a)) => ?_) ?_; clear_value u; rotate_left; subst u; rotate_left) | (refine (fun (hu : Keeps z u) => ?_) ?_; clear_value u; rotate_left; subst u; rotate_left) | (refine (fun (hu : Keeps z u.2) => ?_) ?_; clear_value u; rotate_left; subst u; rotate_left) | (refine (fun (hu : Keeps z u.2.2) => ?_) ?_; clear_value u; rotate_left; subst u; rotate_left) | (refine (fun (hu : ∀ v, Keeps z v → Keeps z (u v)) => ?_) ?_; clear_value u; rotate_left; subst u; rotate_left) | (refine (fun (hu : ∀ v, Keeps z v → Keeps z (u v).2) => ?_) ?_; clear_value u; rotate_left; subst u; rotate_left) | (refine (fun (hu : ∀ a v, Keeps z v → Keeps z (u a v)) => ?_) ?_; clear_value u; rotate_left; subst u; rotate_left) | clear_value u) | with_reducible apply storeRun_keeps | with_reducible apply setBlock_keeps | with_reducible apply allocate_keeps | (with_reducible apply Keeps.ite <;> intro _) | lift_lets | split)

theorem storeFault_keeps {z : State} {t k j time : Nat} {s : State} (h0 : Keeps z s) :
    Keeps z ((storeFault t k j time s)) := by
  unfold storeFault
  repeat' (first | with_reducible assumption | with_reducible apply logAdd_keeps | with_reducible apply State.addSat_keeps | with_reducible apply State.raise_keeps | with_reducible apply progFail_keeps | with_reducible apply setMap_keeps | with_reducible apply retireBlock_keeps | (with_reducible apply Keeps.ite <;> intro _) | split)

theorem recStore_keeps {z : State} {t : Nat} {payload : List Nat} {failAt : Option Nat} {time : Nat} {s : State} (h0 : Keeps z s) :
    Keeps z ((recStore t payload failAt time s)) := by
  unfold recStore
  repeat' (first | with_reducible assumption | with_reducible apply storeRun_keeps | with_reducible apply State.raise_keeps | with_reducible apply storeFault_keeps | with_reducible apply allocate_keeps | (with_reducible apply Keeps.ite <;> intro _) | lift_lets | split)

theorem attServe_keeps {z : State} : ∀ {n : Nat} {s : State}, Keeps z s → Keeps z (attServe n s)
  | 0, _, h => h
  | n + 1, s, h => by
    unfold attServe
    split
    · exact h
    · exact Keeps.ite (fun _ => attServe_keeps (secDone_keeps (attSign_keeps (State.modSec_keeps h))))
        (fun _ => Keeps.ite (fun _ => attServe_keeps (secDone_keeps (attRefuse_keeps (State.modSec_keeps h)))) (fun _ => State.raise_keeps h))

theorem attReserved_keeps {z : State} {failAt : Option Nat} {time : Nat} {s : State} (h0 : Keeps z s) :
    Keeps z ((attReserved failAt time s)) := by
  unfold attReserved
  repeat' (first | with_reducible assumption | (intro u; first | (refine (fun (hu : ∀ a, Keeps z (u a)) => ?_) ?_; clear_value u; rotate_left; subst u; rotate_left) | (refine (fun (hu : Keeps z u) => ?_) ?_; clear_value u; rotate_left; subst u; rotate_left) | (refine (fun (hu : Keeps z u.2) => ?_) ?_; clear_value u; rotate_left; subst u; rotate_left) | (refine (fun (hu : Keeps z u.2.2) => ?_) ?_; clear_value u; rotate_left; subst u; rotate_left) | (refine (fun (hu : ∀ v, Keeps z v → Keeps z (u v)) => ?_) ?_; clear_value u; rotate_left; subst u; rotate_left) | (refine (fun (hu : ∀ v, Keeps z v → Keeps z (u v).2) => ?_) ?_; clear_value u; rotate_left; subst u; rotate_left) | (refine (fun (hu : ∀ a v, Keeps z v → Keeps z (u a v)) => ?_) ?_; clear_value u; rotate_left; subst u; rotate_left) | clear_value u) | with_reducible apply recStore_keeps | with_reducible apply attServe_keeps | with_reducible apply State.set_keeps | with_reducible apply attRefuse_keeps | with_reducible apply State.modSec_keeps | with_reducible apply secDone_keeps | (with_reducible apply Keeps.ite <;> intro _) | lift_lets | split)

theorem recordTake_keeps {z : State} {b : List Nat} {s : State} (h0 : Keeps z s) :
    Keeps z ((recordTake b s)) := by
  unfold recordTake
  repeat' (first | with_reducible assumption | with_reducible apply State.modSec_keeps)

theorem recordCommit_keeps {z : State} {failAt : Option Nat} {otpFail : Bool} {time : Nat} {s : State} (h : Keeps z s) :
    Keeps z (recordCommit failAt otpFail time s) := by
  unfold recordCommit
  split
  · exact h
  · next j r _ =>
    refine Keeps.ite (fun _ => ?_) (fun _ => ?_)
    · split
      · exact secDone_keeps (State.modSec_keeps h)
      · exact h
    · have h1 : Keeps z ((recStore 0x22 (s.storePayload j) failAt time s).modSec (fun y => { y with stores := r })) :=
        State.modSec_keeps (recStore_keeps h)
      generalize (recStore 0x22 (s.storePayload j) failAt time s).modSec (fun y => { y with stores := r }) = u at h1 ⊢
      split
      · exact h1
      · refine Keeps.ite (fun _ => secDone_keeps h1) (fun _ => ?_)
        exact secDone_keeps (propApproved_keeps (State.modSlot_keeps h1))

theorem recordsFound_keeps {z : State} {s : State} (h0 : Keeps z s) :
    Keeps z ((recordsFound s)) := by
  unfold recordsFound
  repeat' (first | with_reducible assumption | with_reducible apply State.modSec_keeps | (with_reducible apply Keeps.ite <;> intro _))

theorem storeCut_keeps {z : State} {n : Nat} {s : State} (h0 : Keeps z s) :
    Keeps z ((storeCut n s)) := by
  unfold storeCut
  repeat' (first | with_reducible assumption | with_reducible apply recCut_keeps | (with_reducible apply Keeps.ite <;> intro _))

theorem showNewest_keeps {z : State} {k seq : Nat} {s : State} (h0 : Keeps z s) :
    Keeps z ((showNewest k seq s)) := by
  unfold showNewest
  repeat' (first | with_reducible assumption | with_reducible apply State.set_keeps)

theorem jnlEnd_keeps {z : State} {st : Nat} {s : State} (h0 : Keeps z s) :
    Keeps z ((jnlEnd st s)) := by
  unfold jnlEnd
  repeat' (first | with_reducible assumption | (intro u; first | (refine (fun (hu : ∀ a, Keeps z (u a)) => ?_) ?_; clear_value u; rotate_left; subst u; rotate_left) | (refine (fun (hu : Keeps z u) => ?_) ?_; clear_value u; rotate_left; subst u; rotate_left) | (refine (fun (hu : Keeps z u.2) => ?_) ?_; clear_value u; rotate_left; subst u; rotate_left) | (refine (fun (hu : Keeps z u.2.2) => ?_) ?_; clear_value u; rotate_left; subst u; rotate_left) | (refine (fun (hu : ∀ v, Keeps z v → Keeps z (u v)) => ?_) ?_; clear_value u; rotate_left; subst u; rotate_left) | (refine (fun (hu : ∀ v, Keeps z v → Keeps z (u v).2) => ?_) ?_; clear_value u; rotate_left; subst u; rotate_left) | (refine (fun (hu : ∀ a v, Keeps z v → Keeps z (u a v)) => ?_) ?_; clear_value u; rotate_left; subst u; rotate_left) | clear_value u) | with_reducible apply State.set_keeps | simp (zeta := false) only [Keeps.parts] | lift_lets)

theorem storeFails_keeps {z : State} {st : Nat} {s : State} (h0 : Keeps z s) :
    Keeps z ((storeFails st s)) := by
  unfold storeFails
  repeat' (first | with_reducible assumption | with_reducible apply jnlEnd_keeps | with_reducible apply State.raise_keeps)

theorem jnlStoreDone_keeps {z : State} {failAt : Option Nat} {time : Nat} {s : State} (h0 : Keeps z s) :
    Keeps z ((jnlStoreDone failAt time s)) := by
  unfold jnlStoreDone
  repeat' (first | with_reducible assumption | with_reducible apply recStore_keeps | with_reducible apply showNewest_keeps | with_reducible apply jnlEnd_keeps | with_reducible apply State.raise_keeps | with_reducible apply storeFails_keeps | (with_reducible apply Keeps.ite <;> intro _))

theorem jnlCopy_keeps {z : State} {r : RecFound} {s : State} (h0 : Keeps z s) :
    Keeps z ((jnlCopy r s)) := by
  unfold jnlCopy
  repeat' (first | with_reducible assumption | with_reducible apply State.modCal_keeps | (with_reducible apply Keeps.foldl; intro _ _ _) | (with_reducible apply Keeps.ite <;> intro _))

theorem jnlLoadDone_keeps {z : State} {r : FlashResult} {s : State} (h0 : Keeps z s) :
    Keeps z ((jnlLoadDone r s)) := by
  unfold jnlLoadDone
  repeat' (first | with_reducible assumption | with_reducible apply jnlEnd_keeps | with_reducible apply readSlot_keeps | with_reducible apply State.raiseIf_keeps | with_reducible apply State.set_keeps | with_reducible apply showNewest_keeps | with_reducible apply jnlCopy_keeps | with_reducible apply State.raise_keeps | (with_reducible apply Keeps.ite <;> intro _) | lift_lets | split)

theorem readBox_keeps {z : State} {id time : Nat} {flips : List (List Nat)} {s : State} (h0 : Keeps z s) :
    Keeps z ((readBox id time flips s).2.2) := by
  unfold readBox
  repeat' (first | with_reducible assumption | with_reducible apply readPage_keeps | (with_reducible apply Keeps.foldl_snd; intro _ _ _))

theorem readSections_keeps {z : State} {k : Nat} {r : FlashResult} {xs : List Section} {s : State} (h0 : Keeps z s) :
    Keeps z ((readSections k r xs s).2) := by
  unfold readSections
  repeat' (first | with_reducible assumption | with_reducible apply readPage_keeps | (with_reducible apply Keeps.foldl_snd; intro _ _ _))

theorem bootRead_keeps {z : State} {k : Nat} {r : FlashResult} {s : State} (h0 : Keeps z s) :
    Keeps z ((bootRead k r s).2) := by
  unfold bootRead
  repeat' (first | with_reducible assumption | with_reducible apply readBox_keeps)

theorem mailCommand_keeps {z : State} {op m d : Nat} {r : FlashResult} {s : State} (h0 : Keeps z s) :
    Keeps z ((mailCommand op m d r s).2) := by
  unfold mailCommand
  repeat' (first | with_reducible assumption | with_reducible apply bootRead_keeps | with_reducible apply secCommand_keeps | (with_reducible apply Keeps.ite_snd <;> intro _))

theorem State.modImg_keeps {z : State} {s : State} {f : ImgState → ImgState} (h0 : Keeps z s) :
    Keeps z ((State.modImg s f)) := by
  unfold State.modImg
  repeat' (first | with_reducible assumption | simp (zeta := false) only [Keeps.parts])

theorem slotShow_keeps {z : State} {k st svn regions cust : Nat} {s : State} (h0 : Keeps z s) :
    Keeps z ((slotShow k st svn regions cust s)) := by
  unfold slotShow
  repeat' (first | with_reducible assumption | with_reducible apply State.set_keeps)

theorem slotVerified_keeps {z : State} {k : Nat} {i : Image} {s : State} (h0 : Keeps z s) :
    Keeps z ((slotVerified k i s)) := by
  unfold slotVerified
  repeat' (first | with_reducible assumption | with_reducible apply slotShow_keeps | with_reducible apply State.modImg_keeps)

theorem imgEnd_keeps {z : State} {st entry : Nat} {s : State} (h0 : Keeps z s) :
    Keeps z ((imgEnd st entry s)) := by
  unfold imgEnd
  repeat' (first | with_reducible assumption | with_reducible apply State.set_keeps)

theorem imgLoad_keeps {z : State} {k : Nat} {s : State} (h0 : Keeps z s) :
    Keeps z ((imgLoad k s).2) := by
  unfold imgLoad
  repeat' (first | with_reducible assumption | with_reducible apply imgEnd_keeps | with_reducible apply slotShow_keeps | with_reducible apply State.set_keeps | with_reducible apply State.modImg_keeps | (with_reducible apply Keeps.ite_snd <;> intro _))

theorem imgLoadDone_keeps {z : State} {pages : List (List Nat)} {time : Nat} {s : State} (h0 : Keeps z s) :
    Keeps z ((imgLoadDone pages time s)) := by
  unfold imgLoadDone
  repeat' (first | with_reducible assumption | with_reducible apply imgEnd_keeps | with_reducible apply State.modImg_keeps | with_reducible apply State.raise_keeps | with_reducible apply readBox_keeps | with_reducible apply slotVerified_keeps | with_reducible apply slotShow_keeps | (with_reducible apply Keeps.ite <;> intro _) | lift_lets | split)

theorem State.modThm_keeps {z : State} {s : State} {f : ThmState → ThmState} (h0 : Keeps z s) :
    Keeps z ((State.modThm s f)) := by
  unfold State.modThm
  repeat' (first | with_reducible assumption | simp (zeta := false) only [Keeps.parts])

theorem markSensor_keeps {z : State} {old : State} {s : State} {x : Nat} (h0 : Keeps z old) (h1 : Keeps z s) :
    Keeps z ((markSensor old s x)) := by
  unfold markSensor
  repeat' (first | with_reducible assumption | with_reducible apply State.modThm_keeps | with_reducible apply State.set_keeps | with_reducible apply State.raise_keeps | (with_reducible apply Keeps.ite <;> intro _))

theorem markDie_keeps {z : State} {s : State} {d : Nat × Nat × Nat} (h0 : Keeps z s) :
    Keeps z ((markDie s d)) := by
  unfold markDie
  repeat' (first | with_reducible assumption | with_reducible apply State.set_keeps | with_reducible apply State.raiseIf_keeps | (with_reducible apply Keeps.foldl; intro _ _ _))

theorem takeReadings_keeps {z : State} {temps : List Int} {opens : Nat} {s : State} (h0 : Keeps z s) :
    Keeps z ((takeReadings temps opens s)) := by
  unfold takeReadings
  repeat' (first | with_reducible assumption | with_reducible apply State.setI_keeps | with_reducible apply State.set_keeps | with_reducible apply State.raiseIf_keeps | (with_reducible apply Keeps.iter; intro _ _ _))

theorem updateMarks_keeps {z : State} {s : State} (h0 : Keeps z s) :
    Keeps z ((updateMarks s)) := by
  unfold updateMarks
  repeat' (first | with_reducible assumption | with_reducible apply markDie_keeps | with_reducible apply markSensor_keeps | with_reducible apply State.set_keeps | (with_reducible apply Keeps.foldl; intro _ _ _))

theorem warnJudge_keeps {z : State} {s : State} (h0 : Keeps z s) :
    Keeps z ((warnJudge s)) := by
  unfold warnJudge
  repeat' (first | with_reducible assumption | with_reducible apply State.set_keeps | with_reducible apply State.raise_keeps | (with_reducible apply Keeps.ite <;> intro _))

theorem rateJudge_keeps {z : State} {s : State} (h0 : Keeps z s) :
    Keeps z ((rateJudge s)) := by
  unfold rateJudge
  repeat' (first | with_reducible assumption | with_reducible apply State.modThm_keeps | with_reducible apply State.set_keeps | (with_reducible apply Keeps.ite <;> intro _))

theorem diodeJudge_keeps {z : State} {r : Nat} {s : State} (h0 : Keeps z s) :
    Keeps z ((diodeJudge r s)) := by
  unfold diodeJudge
  repeat' (first | with_reducible assumption | with_reducible apply State.modThm_keeps | with_reducible apply State.raise_keeps | (with_reducible apply Keeps.ite <;> intro _))

theorem deltaFollow_keeps {z : State} {p : Nat} {s : State} (h0 : Keeps z s) :
    Keeps z ((deltaFollow p s)) := by
  unfold deltaFollow
  repeat' (first | with_reducible assumption | (intro u; first | (refine (fun (hu : ∀ a, Keeps z (u a)) => ?_) ?_; clear_value u; rotate_left; subst u; rotate_left) | (refine (fun (hu : Keeps z u) => ?_) ?_; clear_value u; rotate_left; subst u; rotate_left) | (refine (fun (hu : Keeps z u.2) => ?_) ?_; clear_value u; rotate_left; subst u; rotate_left) | (refine (fun (hu : Keeps z u.2.2) => ?_) ?_; clear_value u; rotate_left; subst u; rotate_left) | (refine (fun (hu : ∀ v, Keeps z v → Keeps z (u v)) => ?_) ?_; clear_value u; rotate_left; subst u; rotate_left) | (refine (fun (hu : ∀ v, Keeps z v → Keeps z (u v).2) => ?_) ?_; clear_value u; rotate_left; subst u; rotate_left) | (refine (fun (hu : ∀ a v, Keeps z v → Keeps z (u a v)) => ?_) ?_; clear_value u; rotate_left; subst u; rotate_left) | clear_value u) | with_reducible apply State.set_keeps | with_reducible apply State.modCal_keeps | (with_reducible apply Keeps.ite <;> intro _) | lift_lets | split)

theorem thmCfg_keeps {z : State} {be data : Nat} {s : State} (h0 : Keeps z s) :
    Keeps z ((thmCfg be data s)) := by
  unfold thmCfg
  repeat' (first | with_reducible assumption | with_reducible apply State.set_keeps | (with_reducible apply Keeps.ite <;> intro _))

theorem allOff_keeps {z : State} {s : State} (h0 : Keeps z s) :
    Keeps z ((allOff s)) := by
  unfold allOff
  repeat' (first | with_reducible assumption | with_reducible apply State.set_keeps | with_reducible apply grpJudgeAll_keeps | with_reducible apply procOff_keeps | with_reducible apply State.modUnits_keeps | with_reducible apply unitEnd_keeps | with_reducible apply stlRxOff_keeps | with_reducible apply stlTxOff_keeps | with_reducible apply corrFollow_keeps | with_reducible apply seqStop_keeps | with_reducible apply dpOff_keeps | (with_reducible apply Keeps.iter; intro _ _ _) | (with_reducible apply Keeps.ite <;> intro _) | simp (zeta := false) only [Keeps.parts])

theorem trip_keeps {z : State} {cause now : Nat} {s : State} (h0 : Keeps z s) :
    Keeps z ((trip cause now s)) := by
  unfold trip
  repeat' (first | with_reducible assumption | with_reducible apply hwMute_keeps | with_reducible apply State.set_keeps | with_reducible apply State.addSat_keeps | with_reducible apply allOff_keeps | (with_reducible apply Keeps.iter; intro _ _ _) | (with_reducible apply Keeps.ite <;> intro _))

theorem thmSample_keeps {z : State} {temps : List Int} {opens now : Nat} {s : State} (h0 : Keeps z s) :
    Keeps z ((thmSample temps opens now s)) := by
  unfold thmSample
  repeat' (first | with_reducible assumption | with_reducible apply updateMarks_keeps | with_reducible apply takeReadings_keeps | with_reducible apply State.setI_keeps | with_reducible apply State.set_keeps | with_reducible apply diodeJudge_keeps | with_reducible apply rateJudge_keeps | with_reducible apply warnJudge_keeps | with_reducible apply State.raiseIf_keeps | with_reducible apply calTempTrigger_keeps | with_reducible apply deltaFollow_keeps | with_reducible apply trip_keeps | (with_reducible apply Keeps.iter; intro _ _ _) | (with_reducible apply Keeps.ite <;> intro _) | lift_lets | split)

theorem sdCommit_keeps {z : State} {fails time : Nat} {s : State} (h0 : Keeps z s) :
    Keeps z ((sdCommit fails time s)) := by
  unfold sdCommit
  repeat' (first | with_reducible assumption | with_reducible apply State.raise_keeps | with_reducible apply logPage_keeps | with_reducible apply logAdd_keeps | with_reducible apply State.set_keeps | (with_reducible apply Keeps.ite <;> intro _))

theorem railFault_keeps {z : State} {rails now : Nat} {s : State} (h0 : Keeps z s) :
    Keeps z ((railFault rails now s)) := by
  unfold railFault
  repeat' (first | with_reducible assumption | with_reducible apply State.set_keeps | with_reducible apply trip_keeps | with_reducible apply State.raise_keeps | (with_reducible apply Keeps.ite <;> intro _))

theorem powerDone_keeps {z : State} {d : Nat} {s : State} (h0 : Keeps z s) :
    Keeps z ((powerDone d s)) := by
  unfold powerDone
  repeat' (first | with_reducible assumption | with_reducible apply sramClear_keeps | with_reducible apply State.setDomain_keeps | with_reducible apply powerNext_keeps | with_reducible apply dieLoad_keeps | with_reducible apply corrFollow_keeps | (with_reducible apply Keeps.iter; intro _ _ _) | (with_reducible apply Keeps.ite <;> intro _) | lift_lets | split)

theorem avsStep_keeps {z : State} {fails : Nat} {s : State} (h0 : Keeps z s) :
    Keeps z ((avsStep fails s)) := by
  unfold avsStep
  repeat' (first | with_reducible assumption | with_reducible apply State.modThm_keeps | with_reducible apply State.raise_keeps | with_reducible apply State.set_keeps | (with_reducible apply Keeps.ite <;> intro _))

end Sys2Proof.Machine
end

