-- ==== Sys2Proof/Laws/KeepsAccess.lean ====
section
/-! SUPPORT. Every operation on a state keeps its queue, its part and its canonical form: views, register writes, accesses, regions, resets, settling, rings. -/
set_option linter.unusedVariables false
set_option linter.unusedSimpArgs false
namespace Sys2Proof.Machine

theorem writeField_keeps {z : State} {w : Writer} {a b be data : Nat} {v : View} {x : Nat × State} {f : FDef} (h0 : Keeps z x.2) :
    Keeps z ((writeField w a b be data v x f).2) := by
  unfold writeField
  repeat' (first | with_reducible assumption | with_reducible apply State.set_keeps | (with_reducible apply Keeps.ite <;> intro _) | (with_reducible apply Keeps.ite_snd <;> intro _) | simp (zeta := false) only [Keeps.parts] | split)

theorem writeFields_keeps {z : State} {w : Writer} {a b be data : Nat} {r : RDef} {s : State} (h0 : Keeps z s) :
    Keeps z ((writeFields w a b be data r s).2) := by
  unfold writeFields
  repeat' (first | with_reducible assumption | with_reducible apply writeField_keeps | (with_reducible apply Keeps.foldl_snd; intro _ _ _))

theorem insPut_keeps {z : State} {b d : Nat} {s : State} (h0 : Keeps z s) :
    Keeps z ((insPut b d s)) := by
  unfold insPut
  repeat' (first | with_reducible assumption | with_reducible apply State.set_keeps | (with_reducible apply Keeps.iter; intro _ _ _))

theorem insertGo_keeps {z : State} {m d : Nat} {s : State} (h0 : Keeps z s) :
    Keeps z ((insertGo m d s).2) := by
  unfold insertGo
  repeat' (first | with_reducible assumption | with_reducible apply insertAction_keeps | with_reducible apply State.set_keeps | (with_reducible apply Keeps.ite <;> intro _))

theorem removeGo_keeps {z : State} {m h : Nat} {s : State} (h0 : Keeps z s) :
    Keeps z ((removeGo m h s).2) := by
  unfold removeGo
  repeat' (first | with_reducible assumption | with_reducible apply removeAct_keeps | with_reducible apply State.set_keeps)

theorem tswLoad_keeps {z : State} {p sw : Nat} {s : State} (h0 : Keeps z s) :
    Keeps z ((tswLoad p sw s).2) := by
  unfold tswLoad
  repeat' (first | with_reducible assumption | with_reducible apply State.modPd_keeps | with_reducible apply staleBelow_keeps | (with_reducible apply Keeps.ite_snd <;> intro _))

theorem tswPut_keeps {z : State} {p sw : Nat} {s : State} (h0 : Keeps z s) :
    Keeps z ((tswPut p sw s).2) := by
  unfold tswPut
  repeat' (first | with_reducible assumption | with_reducible apply tswLoad_keeps | with_reducible apply State.set_keeps | (with_reducible apply Keeps.ite_snd <;> intro _))

theorem swcEffect_keeps {z : State} {w : Writer} {o be : Nat} {old : State} {new : State} (h0 : Keeps z old) (h1 : Keeps z new) :
    Keeps z ((swcEffect w o be old new).2) := by
  unfold swcEffect
  repeat' (first | with_reducible assumption | with_reducible apply insertGo_keeps | with_reducible apply tswLoad_keeps | (with_reducible apply Keeps.ite_snd <;> intro _))

theorem rxdCtrl_keeps {z : State} {p : Nat} {old : State} {new : State} (h0 : Keeps z old) (h1 : Keeps z new) :
    Keeps z ((rxdCtrl p old new).2) := by
  unfold rxdCtrl
  repeat' (first | with_reducible assumption | with_reducible apply State.set_keeps | with_reducible apply rxJudge_keeps | with_reducible apply rxDisable_keeps | with_reducible apply judgeAdj_keeps | with_reducible apply rxEnable_keeps | (with_reducible apply Keeps.ite_snd <;> intro _))

theorem txdCtrl_keeps {z : State} {p be data : Nat} {old : State} {new : State} (h0 : Keeps z old) (h1 : Keeps z new) :
    Keeps z ((txdCtrl p be data old new).2) := by
  unfold txdCtrl
  repeat' (first | with_reducible assumption | with_reducible apply State.set_keeps | with_reducible apply txModeWrite_keeps | (with_reducible apply Keeps.ite_snd <;> intro _))

theorem propCmd_keeps {z : State} {p be data : Nat} {s : State} (h0 : Keeps z s) :
    Keeps z ((propCmd p be data s).2) := by
  unfold propCmd
  repeat' (first | with_reducible assumption | with_reducible apply propAbort_keeps | with_reducible apply propGo_keeps | (with_reducible apply Keeps.ite <;> intro _) | (with_reducible apply Keeps.ite_snd <;> intro _))

theorem txbCtrl_keeps {z : State} {m p b be data : Nat} {r : Nat} {old : State} {new : State} (h0 : Keeps z old) (h1 : Keeps z new) :
    Keeps z ((txbCtrl m p b be data r old new).2) := by
  unfold txbCtrl
  repeat' (first | with_reducible assumption | with_reducible apply State.set_keeps | with_reducible apply setTxType_keeps | with_reducible apply armBuf_keeps | (with_reducible apply Keeps.ite <;> intro _) | (with_reducible apply Keeps.ite_snd <;> intro _))

theorem corrCtrl_keeps {z : State} {p k be data : Nat} {s : State} (h0 : Keeps z s) :
    Keeps z ((corrCtrl p k be data s).2) := by
  unfold corrCtrl
  repeat' (first | with_reducible assumption | with_reducible apply phyWrite_keeps | with_reducible apply corrWrite_keeps | with_reducible apply corrFollow_keeps)

theorem beaconRate_keeps {z : State} {p : Nat} {old : State} {new : State} (h0 : Keeps z old) (h1 : Keeps z new) :
    Keeps z ((beaconRate p old new)) := by
  unfold beaconRate
  repeat' (first | with_reducible assumption | with_reducible apply corrRestart_keeps | (with_reducible apply Keeps.ite <;> intro _))

theorem thcCommit_keeps {z : State} {p : Nat} {s : State} (h0 : Keeps z s) :
    Keeps z ((thcCommit p s)) := by
  unfold thcCommit
  repeat' (first | with_reducible assumption | with_reducible apply State.modLfr_keeps)

theorem otnClear_keeps {z : State} {p be data : Nat} {s : State} (h0 : Keeps z s) :
    Keeps z ((otnClear p be data s)) := by
  unfold otnClear
  repeat' (first | with_reducible assumption | with_reducible apply State.modLfr_keeps)

theorem cdSet_keeps {z : State} {p : Nat} {old : State} {new : State} (h0 : Keeps z old) (h1 : Keeps z new) :
    Keeps z ((cdSet p old new)) := by
  unfold cdSet
  repeat' (first | with_reducible assumption | with_reducible apply applyCd_keeps | (with_reducible apply Keeps.ite <;> intro _))

theorem eqTaps_keeps {z : State} {p : Nat} {old : State} {new : State} (h0 : Keeps z old) (h1 : Keeps z new) :
    Keeps z ((eqTaps p old new)) := by
  unfold eqTaps
  repeat' (first | with_reducible assumption | with_reducible apply State.set_keeps | (with_reducible apply Keeps.ite <;> intro _))

theorem portEffect_keeps {z : State} {w : Writer} {p o be data r : Nat} {old : State} {new : State} (h0 : Keeps z old) (h1 : Keeps z new) :
    Keeps z ((portEffect w p o be data r old new).2) := by
  unfold portEffect
  repeat' (first | with_reducible assumption | with_reducible apply agcSettle_keeps | with_reducible apply refastOff_keeps | with_reducible apply agcEnter_keeps | with_reducible apply dcMode_keeps | with_reducible apply calCommand_keeps | with_reducible apply calApply_keeps | with_reducible apply jnlCommand_keeps | with_reducible apply rxdCtrl_keeps | with_reducible apply cdSet_keeps | with_reducible apply eqTaps_keeps | with_reducible apply txdCtrl_keeps | with_reducible apply shareWrite_keeps | with_reducible apply txDelays_keeps | with_reducible apply propCmd_keeps | with_reducible apply thcCommit_keeps | with_reducible apply State.set_keeps | with_reducible apply otnClear_keeps | with_reducible apply phyWrite_keeps | with_reducible apply beaconRate_keeps | with_reducible apply corrCtrl_keeps | with_reducible apply rxqPop_keeps | with_reducible apply txbCtrl_keeps | (with_reducible apply Keeps.ite <;> intro _) | (with_reducible apply Keeps.ite_snd <;> intro _))

theorem laneCtrl_keeps {z : State} {n r : Nat} {old : State} {new : State} (h0 : Keeps z old) (h1 : Keeps z new) :
    Keeps z ((laneCtrl n r old new).2) := by
  unfold laneCtrl
  repeat' (first | with_reducible assumption | with_reducible apply laneEnable_keeps | with_reducible apply laneGroups_keeps | (with_reducible apply Keeps.ite_snd <;> intro _))

theorem cliEffect_keeps {z : State} {o r : Nat} {old : State} {new : State} (h0 : Keeps z old) (h1 : Keeps z new) :
    Keeps z ((cliEffect o r old new).2) := by
  unfold cliEffect
  repeat' (first | with_reducible assumption | with_reducible apply laneCtrl_keeps | (with_reducible apply Keeps.ite_snd <;> intro _))

theorem lcxEffect_keeps {z : State} {w : Writer} {o be data r : Nat} {old : State} {new : State} (h0 : Keeps z old) (h1 : Keeps z new) :
    Keeps z ((lcxEffect w o be data r old new).2) := by
  unfold lcxEffect
  repeat' (first | with_reducible assumption | with_reducible apply grpCommand_keeps | with_reducible apply joinWrite_keeps | with_reducible apply keyGo_keeps | (with_reducible apply Keeps.ite <;> intro _) | (with_reducible apply Keeps.ite_snd <;> intro _))

theorem fecEffect_keeps {z : State} {w : Writer} {o be data r : Nat} {old : State} {new : State} (h0 : Keeps z old) (h1 : Keeps z new) :
    Keeps z ((fecEffect w o be data r old new).2) := by
  unfold fecEffect
  repeat' (first | with_reducible assumption | with_reducible apply fecCap_keeps | with_reducible apply grpCommand_keeps | with_reducible apply joinWrite_keeps | with_reducible apply statClear_keeps | (with_reducible apply Keeps.iter; intro _ _ _) | (with_reducible apply Keeps.ite <;> intro _) | (with_reducible apply Keeps.ite_snd <;> intro _))

theorem sessRights_keeps {z : State} {be data : Nat} {s : State} (h0 : Keeps z s) :
    Keeps z ((sessRights be data s)) := by
  unfold sessRights
  repeat' (first | with_reducible assumption | with_reducible apply State.modSess_keeps)

theorem mceEffect_keeps {z : State} {w : Writer} {o be data r : Nat} {old : State} {new : State} (h0 : Keeps z old) (h1 : Keeps z new) :
    Keeps z ((mceEffect w o be data r old new).2) := by
  unfold mceEffect
  repeat' (first | with_reducible assumption | with_reducible apply sessRights_keeps | with_reducible apply keyLoadWrite_keeps | with_reducible apply mceSubmit_keeps | (with_reducible apply Keeps.ite <;> intro _) | (with_reducible apply Keeps.ite_snd <;> intro _))

theorem secEffect_keeps {z : State} {w : Writer} {o r : Nat} {old : State} {new : State} (h0 : Keeps z old) (h1 : Keeps z new) :
    Keeps z ((secEffect w o r old new).2) := by
  rw [show secEffect w o r old new = if o = 0x110 then mailCommand (cOp (old.cmdWords w.m)) w.m (old.cmdWords w.m) {} old else (r, new) from rfl]
  by_cases h : o = 0x110
  · rw [if_pos h]; exact mailCommand_keeps h0
  · rw [if_neg h]; exact h1

theorem diagRun_keeps {z : State} {m cmd : Nat} {s : State} (h0 : Keeps z s) :
    Keeps z ((diagRun m cmd s)) := by
  unfold diagRun
  repeat' (first | with_reducible assumption | with_reducible apply State.set_keeps | with_reducible apply descFollow_keeps | with_reducible apply State.sramPutRaw_keeps | (with_reducible apply Keeps.iter; intro _ _ _) | (with_reducible apply Keeps.ite <;> intro _))

theorem errClear_keeps {z : State} {s : State} (h0 : Keeps z s) :
    Keeps z ((errClear s)) := by
  unfold errClear
  repeat' (first | with_reducible assumption | with_reducible apply State.set_keeps)

theorem fabEffect_keeps {z : State} {w : Writer} {o be data r : Nat} {old : State} {new : State} (h0 : Keeps z old) (h1 : Keeps z new) :
    Keeps z ((fabEffect w o be data r old new).2) := by
  unfold fabEffect
  repeat' (first | with_reducible assumption | with_reducible apply errClear_keeps | with_reducible apply diagRun_keeps | (with_reducible apply Keeps.ite <;> intro _) | (with_reducible apply Keeps.ite_snd <;> intro _))

theorem hifEffect_keeps {z : State} {o be data r : Nat} {old : State} {new : State} (h0 : Keeps z old) (h1 : Keeps z new) :
    Keeps z ((hifEffect o be data r old new).2) := by
  unfold hifEffect
  repeat' (first | with_reducible assumption | with_reducible apply State.set_keeps | with_reducible apply sqEnable_keeps | with_reducible apply cqEnable_keeps | (with_reducible apply Keeps.ite <;> intro _) | (with_reducible apply Keeps.ite_snd <;> intro _))

theorem flcCfg_keeps {z : State} {old : State} {new : State} (h0 : Keeps z old) (h1 : Keeps z new) :
    Keeps z ((flcCfg old new)) := by
  unfold flcCfg
  repeat' (first | with_reducible assumption | with_reducible apply State.set_keeps | (with_reducible apply Keeps.ite <;> intro _))

theorem flcWindow_keeps {z : State} {old : State} {new : State} (h0 : Keeps z old) (h1 : Keeps z new) :
    Keeps z ((flcWindow old new)) := by
  unfold flcWindow
  repeat' (first | with_reducible assumption | with_reducible apply State.set_keeps | (with_reducible apply Keeps.ite <;> intro _))

theorem flcEffect_keeps {z : State} {o be data r : Nat} {old : State} {new : State} (h0 : Keeps z old) (h1 : Keeps z new) :
    Keeps z ((flcEffect o be data r old new).2) := by
  unfold flcEffect
  repeat' (first | with_reducible assumption | with_reducible apply flcCfg_keeps | with_reducible apply flcWindow_keeps | with_reducible apply flcCommand_keeps | (with_reducible apply Keeps.ite_snd <;> intro _))

theorem stlCtrl_keeps {z : State} {n r : Nat} {old : State} {new : State} (h0 : Keeps z old) (h1 : Keeps z new) :
    Keeps z ((stlCtrl n r old new).2) := by
  unfold stlCtrl
  repeat' (first | with_reducible assumption | with_reducible apply State.set_keeps | with_reducible apply stlTxOn_keeps | with_reducible apply stlTxOff_keeps | with_reducible apply stlRxOn_keeps | with_reducible apply stlRxOff_keeps | (with_reducible apply Keeps.ite_snd <;> intro _))

theorem stlEffect_keeps {z : State} {w : Writer} {o be data r : Nat} {old : State} {new : State} (h0 : Keeps z old) (h1 : Keeps z new) :
    Keeps z ((stlEffect w o be data r old new).2) := by
  unfold stlEffect
  repeat' (first | with_reducible assumption | with_reducible apply stlCtrl_keeps | with_reducible apply eyeStart_keeps | with_reducible apply stlPop_keeps | with_reducible apply stlArm_keeps | (with_reducible apply Keeps.ite <;> intro _) | (with_reducible apply Keeps.ite_snd <;> intro _))

theorem clkThr_keeps {z : State} {old : State} {new : State} (h0 : Keeps z old) (h1 : Keeps z new) :
    Keeps z ((clkThr old new)) := by
  unfold clkThr
  repeat' (first | with_reducible assumption | with_reducible apply State.set_keeps | (with_reducible apply Keeps.ite <;> intro _))

theorem clkHist_keeps {z : State} {n : Nat} {old : State} {new : State} (h0 : Keeps z old) (h1 : Keeps z new) :
    Keeps z ((clkHist n old new)) := by
  unfold clkHist
  repeat' (first | with_reducible assumption | with_reducible apply State.set_keeps | (with_reducible apply Keeps.ite <;> intro _))

theorem clkEffect_keeps {z : State} {o be data r : Nat} {old : State} {new : State} (h0 : Keeps z old) (h1 : Keeps z new) :
    Keeps z ((clkEffect o be data r old new).2) := by
  unfold clkEffect
  repeat' (first | with_reducible assumption | with_reducible apply dpJudgeAll_keeps | with_reducible apply clkFollow_keeps | with_reducible apply oscJudge_keeps | with_reducible apply driftJudge_keeps | with_reducible apply clkThr_keeps | with_reducible apply State.set_keeps | with_reducible apply dpModeSet_keeps | with_reducible apply histShow_keeps | with_reducible apply clkHist_keeps | with_reducible apply dcoSet_keeps | (with_reducible apply Keeps.iter; intro _ _ _) | (with_reducible apply Keeps.ite <;> intro _) | (with_reducible apply Keeps.ite_snd <;> intro _))

theorem hdgEffect_keeps {z : State} {o be data r : Nat} {old : State} {new : State} (h0 : Keeps z old) (h1 : Keeps z new) :
    Keeps z ((hdgEffect o be data r old new).2) := by
  unfold hdgEffect
  repeat' (first | with_reducible assumption | with_reducible apply runWrite_keeps | with_reducible apply latchCode_keeps | (with_reducible apply Keeps.ite <;> intro _) | (with_reducible apply Keeps.ite_snd <;> intro _) | simp (zeta := false) only [Keeps.parts])

theorem fmnThr_keeps {z : State} {c : Nat} {old : State} {new : State} (h0 : Keeps z old) (h1 : Keeps z new) :
    Keeps z ((fmnThr c old new)) := by
  unfold fmnThr
  repeat' (first | with_reducible assumption | with_reducible apply State.set_keeps | (with_reducible apply Keeps.ite <;> intro _))

theorem fmnEffect_keeps {z : State} {o r : Nat} {old : State} {new : State} (h0 : Keeps z old) (h1 : Keeps z new) :
    Keeps z ((fmnEffect o r old new).2) := by
  unfold fmnEffect
  repeat' (first | with_reducible assumption | with_reducible apply fmnChanged_keeps | with_reducible apply fmnThr_keeps | (with_reducible apply Keeps.ite_snd <;> intro _))

theorem lowEffect_keeps {z : State} {w : Writer} {a be data r : Nat} {old : State} {new : State} (h0 : Keeps z old) (h1 : Keeps z new) :
    Keeps z ((lowEffect w a be data r old new).2) := by
  unfold lowEffect
  repeat' (first | with_reducible assumption | with_reducible apply unitCommand_keeps | with_reducible apply State.modThm_keeps | with_reducible apply thmCfg_keeps | with_reducible apply clkEffect_keeps | with_reducible apply fabEffect_keeps | with_reducible apply hifEffect_keeps | (with_reducible apply Keeps.ite <;> intro _) | (with_reducible apply Keeps.ite_snd <;> intro _))

theorem swcAnswer_keeps {z : State} {r : Nat} {x : Nat × State} (h0 : Keeps z x.2) :
    Keeps z ((swcAnswer r x).2) := by
  unfold swcAnswer
  repeat' (first | with_reducible assumption)

theorem midEffect_keeps {z : State} {w : Writer} {a be data r : Nat} {old : State} {new : State} (h0 : Keeps z old) (h1 : Keeps z new) :
    Keeps z ((midEffect w a be data r old new).2) := by
  unfold midEffect
  repeat' (first | with_reducible assumption | with_reducible apply flcEffect_keeps | with_reducible apply stlEffect_keeps | with_reducible apply secEffect_keeps | with_reducible apply mceEffect_keeps | with_reducible apply hdgEffect_keeps | with_reducible apply removeGo_keeps | with_reducible apply swcAnswer_keeps | with_reducible apply swcEffect_keeps | (with_reducible apply Keeps.ite_snd <;> intro _))

theorem highEffect_keeps {z : State} {w : Writer} {a be data r : Nat} {old : State} {new : State} (h0 : Keeps z old) (h1 : Keeps z new) :
    Keeps z ((highEffect w a be data r old new).2) := by
  unfold highEffect
  repeat' (first | with_reducible assumption | with_reducible apply presetSet_keeps | with_reducible apply fmnEffect_keeps | with_reducible apply fecEffect_keeps | with_reducible apply portEffect_keeps | with_reducible apply cliEffect_keeps | with_reducible apply lcxEffect_keeps | (with_reducible apply Keeps.ite <;> intro _) | (with_reducible apply Keeps.ite_snd <;> intro _))

theorem regEffect_keeps {z : State} {w : Writer} {a be data r : Nat} {old : State} {new : State} (h0 : Keeps z old) (h1 : Keeps z new) :
    Keeps z ((regEffect w a be data r old new).2) := by
  unfold regEffect
  repeat' (first | with_reducible assumption | with_reducible apply lowEffect_keeps | with_reducible apply midEffect_keeps | with_reducible apply highEffect_keeps | (with_reducible apply Keeps.ite_snd <;> intro _))

theorem regPut_keeps {z : State} {w : Writer} {a be data : Nat} {r : RDef} {s : State} (h0 : Keeps z s) :
    Keeps z ((regPut w a be data r s).2) := by
  unfold regPut
  repeat' (first | with_reducible assumption | with_reducible apply writeFields_keeps | with_reducible apply regEffect_keeps | (with_reducible apply Keeps.ite_snd <;> intro _) | lift_lets | split)

theorem stagingWrite_keeps {z : State} {p key q be data : Nat} {s : State} (h0 : Keeps z s) :
    Keeps z ((stagingWrite p key q be data s)) := by
  unfold stagingWrite
  repeat' (first | with_reducible assumption | with_reducible apply State.modCal_keeps)

theorem sgpData_keeps {z : State} {m p off be data : Nat} {s : State} (h0 : Keeps z s) :
    Keeps z ((sgpData m p off be data s).2) := by
  unfold sgpData
  repeat' (first | with_reducible assumption | with_reducible apply State.modSgp_keeps | (with_reducible apply Keeps.ite_snd <;> intro _))

theorem tableWrite_keeps {z : State} {m w be v : Nat} {s : State} (h0 : Keeps z s) :
    Keeps z ((tableWrite m w be v s).2) := by
  unfold tableWrite
  repeat' (first | with_reducible assumption | with_reducible apply sramWrite_keeps | (with_reducible apply Keeps.ite_snd <;> intro _))

theorem tableRead_keeps {z : State} {m w : Nat} {s : State} (h0 : Keeps z s) :
    Keeps z ((tableRead m w s).2.2) := by
  unfold tableRead
  repeat' (first | with_reducible assumption | with_reducible apply sramRead_keeps | (with_reducible apply Keeps.ite_snd2 <;> intro _))

theorem latchLoad_keeps {z s : State} {m a : Nat} (h : Keeps z s) : Keeps z (latchLoad m a s) := by
  unfold latchLoad
  refine Keeps.foldl (fun u b hu => ?_) h
  split
  · exact Keeps.stores hu rfl rfl id (fun x => setAt_wf _ _ x) id id id
  · exact hu

theorem readTake_keeps {z : State} {m a : Nat} {s : State} (h : Keeps z s) : Keeps z (readTake m a s) := by
  unfold readTake
  extract_lets p o e
  refine Keeps.ite (fun _ => ?_) (fun _ => ?_)
  · split
    · exact State.modSwc_keeps h
    · exact h
  refine Keeps.ite (fun _ => mcePop_keeps h) (fun _ => ?_)
  refine Keeps.ite (fun _ => State.modHdg_keeps h) (fun _ => ?_)
  refine Keeps.ite (fun _ => State.modHdg_keeps h) (fun _ => ?_)
  refine Keeps.ite (fun _ => ?_) (fun _ => ?_)
  · generalize 4 * s.get R.FAB_ECC_SEL_INST + (a - 0x40214) / 4 = k
    exact Keeps.stores h rfl rfl id id id id (fun x => setAt_wf k 0 x)
  refine Keeps.ite (fun _ => State.modCtx_keeps h) (fun _ => ?_)
  exact Keeps.ite (fun _ => State.modLfr_keeps h) (fun _ => h)

theorem readClear_keeps {z : State} {a b : Nat} {r : RDef} {s : State} (h0 : Keeps z s) :
    Keeps z ((readClear a b r s)) := by
  unfold readClear
  repeat' (first | with_reducible assumption | with_reducible apply State.set_keeps | (with_reducible apply Keeps.foldl; intro _ _ _) | (with_reducible apply Keeps.ite <;> intro _))

theorem descGet_keeps {z : State} {b i : Nat} {s : State} (h0 : Keeps z s) :
    Keeps z ((descGet b i s).2.2) := by
  unfold descGet
  repeat' (first | with_reducible assumption | with_reducible apply descRead_keeps | (with_reducible apply Keeps.ite_snd2 <;> intro _) | lift_lets | split)

theorem regGet_keeps {z : State} {m a : Nat} {r : RDef} {s : State} (h0 : Keeps z s) :
    Keeps z ((regGet m a r s).2.2) := by
  unfold regGet
  repeat' (first | with_reducible assumption | with_reducible apply descGet_keeps | with_reducible apply readTake_keeps | with_reducible apply readClear_keeps | with_reducible apply latchLoad_keeps | (with_reducible apply Keeps.ite_snd2 <;> intro _) | lift_lets | split)

theorem placeGet_keeps {z : State} {m a : Nat} {x : Place} {s : State} (h0 : Keeps z s) :
    Keeps z ((placeGet m a x s).2.2) := by
  unfold placeGet
  repeat' (first | with_reducible assumption | with_reducible apply regGet_keeps | with_reducible apply tableRead_keeps | with_reducible apply sramRead_keeps | with_reducible apply State.draw_keeps | (with_reducible apply Keeps.ite_snd2 <;> intro _) | simp (zeta := false) only [Keeps.parts] | split)

theorem regRead_keeps {z : State} {m a : Nat} {s : State} (h0 : Keeps z s) :
    Keeps z ((regRead m a s).2.2) := by
  unfold regRead
  repeat' (first | with_reducible assumption | with_reducible apply placeGet_keeps | with_reducible apply fabRespond_keeps | (with_reducible apply Keeps.ite_snd2 <;> intro _))

theorem placePut_keeps {z : State} {w : Writer} {a be data : Nat} {x : Place} {s : State} (h0 : Keeps z s) :
    Keeps z ((placePut w a be data x s).2) := by
  unfold placePut
  repeat' (first | with_reducible assumption | with_reducible apply regPut_keeps | with_reducible apply stagingWrite_keeps | with_reducible apply sgpData_keeps | with_reducible apply State.modFlc_keeps | with_reducible apply stlWindowWrite_keeps | with_reducible apply State.modSec_keeps | with_reducible apply tableWrite_keeps | with_reducible apply sramWrite_keeps | (with_reducible apply Keeps.ite <;> intro _) | (with_reducible apply Keeps.ite_snd <;> intro _) | split)

theorem corePut_keeps {z : State} {w : Writer} {a be data : Nat} {s : State} (h0 : Keeps z s) :
    Keeps z ((corePut w a be data s).2) := by
  unfold corePut
  repeat' (first | with_reducible assumption | with_reducible apply placePut_keeps | (with_reducible apply Keeps.ite_snd <;> intro _))

theorem tableFollow_keeps {z : State} {t : Nat} {old : State} {s : State} (h0 : Keeps z old) (h1 : Keeps z s) :
    Keeps z ((tableFollow t old s)) := by
  unfold tableFollow
  repeat' (first | with_reducible assumption | with_reducible apply grpRedefine_keeps | with_reducible apply grpJudgeAll_keeps | with_reducible apply tribsCut_keeps | with_reducible apply seqSwapped_keeps | with_reducible apply rxJudge_keeps | with_reducible apply rxRungTaken_keeps | with_reducible apply txRungTaken_keeps | (with_reducible apply Keeps.ite <;> intro _))

theorem applySettings_keeps {z : State} {r : Nat} {l : List Setting} {s : State} (h0 : Keeps z s) :
    Keeps z ((applySettings r l s)) := by
  unfold applySettings
  repeat' (first | with_reducible assumption | with_reducible apply corePut_keeps | with_reducible apply fabRespond_keeps | (with_reducible apply Keeps.foldl; intro _ _ _))

theorem tabWipe_keeps {z s : State} {lo n : Nat} (h : Keeps z s) : Keeps z (tabWipe lo n s) :=
  Keeps.stores h rfl rfl id id (fun x => keepKeys_wf (fun k => decide (k < sramKey 1 lo) || decide (sramKey 1 (lo + n) ≤ k)) x)
    (fun x => keepKeys_wf (fun k => decide (k < sramKey 1 lo) || decide (sramKey 1 (lo + n) ≤ k)) x) id

theorem tablesStart_keeps {z : State} {r : Nat} {xs : List Section} {s : State} (h0 : Keeps z s) :
    Keeps z ((tablesStart r xs s)) := by
  unfold tablesStart
  repeat' (first | with_reducible assumption | with_reducible apply tabWipe_keeps | with_reducible apply State.setBankWords_keeps | (with_reducible apply Keeps.foldl; intro _ _ _) | simp (zeta := false) only [Keeps.parts])

theorem tablesStage_keeps {z : State} {r : Nat} {xs : List Section} {s : State} (h0 : Keeps z s) :
    Keeps z ((tablesStage r xs s)) := by
  unfold tablesStage
  repeat' (first | with_reducible assumption | with_reducible apply tabWipe_keeps | with_reducible apply State.setBankWords_keeps | (with_reducible apply Keeps.foldl; intro _ _ _))

theorem calDefault_keeps {z : State} {p : Nat} {start : Bool} {xs : List Section} {s : State} (h0 : Keeps z s) :
    Keeps z ((calDefault p start xs s)) := by
  unfold calDefault
  repeat' (first | with_reducible assumption | (intro u; first | (refine (fun (hu : ∀ a, Keeps z (u a)) => ?_) ?_; clear_value u; rotate_left; subst u; rotate_left) | (refine (fun (hu : Keeps z u) => ?_) ?_; clear_value u; rotate_left; subst u; rotate_left) | (refine (fun (hu : Keeps z u.2) => ?_) ?_; clear_value u; rotate_left; subst u; rotate_left) | (refine (fun (hu : Keeps z u.2.2) => ?_) ?_; clear_value u; rotate_left; subst u; rotate_left) | (refine (fun (hu : ∀ v, Keeps z v → Keeps z (u v)) => ?_) ?_; clear_value u; rotate_left; subst u; rotate_left) | (refine (fun (hu : ∀ v, Keeps z v → Keeps z (u v).2) => ?_) ?_; clear_value u; rotate_left; subst u; rotate_left) | (refine (fun (hu : ∀ a v, Keeps z v → Keeps z (u a v)) => ?_) ?_; clear_value u; rotate_left; subst u; rotate_left) | clear_value u) | with_reducible apply corePut_keeps | with_reducible apply State.modCal_keeps | (with_reducible apply Keeps.ite <;> intro _) | lift_lets | split)

theorem poolWindow_keeps {z : State} {xs : List Section} {s : State} (h0 : Keeps z s) :
    Keeps z ((poolWindow xs s)) := by
  unfold poolWindow
  repeat' (first | with_reducible assumption | with_reducible apply State.set_keeps | split)

theorem boardLanes_keeps {z : State} {s : State} (h0 : Keeps z s) :
    Keeps z ((boardLanes s)) := by
  unfold boardLanes
  repeat' (first | with_reducible assumption | with_reducible apply State.set_keeps | (with_reducible apply Keeps.iter; intro _ _ _))

theorem globalApply_keeps {z : State} {xs : List Section} {s : State} (h0 : Keeps z s) :
    Keeps z ((globalApply xs s)) := by
  unfold globalApply
  repeat' (first | with_reducible assumption | with_reducible apply State.modImg_keeps | with_reducible apply State.set_keeps | with_reducible apply powerUp_keeps | with_reducible apply squelchOn_keeps | with_reducible apply dpStruct_keeps | with_reducible apply phyFollow_keeps | (with_reducible apply Keeps.iter; intro _ _ _) | (with_reducible apply Keeps.foldl; intro _ _ _) | (with_reducible apply Keeps.ite <;> intro _))

theorem regionHeld_keeps {z : State} {r k : Nat} {xs : List Section} {s : State} (h0 : Keeps z s) :
    Keeps z ((regionHeld r k xs s)) := by
  unfold regionHeld
  repeat' (first | with_reducible assumption | with_reducible apply State.modImg_keeps | with_reducible apply State.set_keeps)

theorem regionStart_keeps {z : State} {r k : Nat} {xs : List Section} {s : State} (h0 : Keeps z s) :
    Keeps z ((regionStart r k xs s)) := by
  unfold regionStart
  repeat' (first | with_reducible assumption | with_reducible apply tablesStart_keeps | with_reducible apply State.modImg_keeps | with_reducible apply State.set_keeps | with_reducible apply State.raise_keeps | with_reducible apply globalApply_keeps | with_reducible apply applySettings_keeps | with_reducible apply regionHeld_keeps | with_reducible apply judgeAdj_keeps | with_reducible apply calDefault_keeps | with_reducible apply grpApply_keeps | with_reducible apply poolWindow_keeps | with_reducible apply grpJudgeAll_keeps | with_reducible apply boardLanes_keeps | (with_reducible apply Keeps.ite <;> intro _))

theorem regionsStart_keeps {z : State} {k : Nat} {i : Image} {s : State} (h0 : Keeps z s) :
    Keeps z ((regionsStart k i s)) := by
  unfold regionsStart
  repeat' (first | with_reducible assumption | with_reducible apply regionStart_keeps | (with_reducible apply Keeps.foldl; intro _ _ _) | (with_reducible apply Keeps.ite <;> intro _))

theorem stagingDone_keeps {z : State} {r : FlashResult} {s : State} (h0 : Keeps z s) :
    Keeps z ((stagingDone r s)) := by
  unfold stagingDone
  repeat' (first | with_reducible assumption | with_reducible apply readSections_keeps | with_reducible apply stageNext_keeps | with_reducible apply tablesStage_keeps | with_reducible apply State.modSwc_keeps | with_reducible apply complete_keeps | (with_reducible apply Keeps.ite <;> intro _) | simp (zeta := false) only [Keeps.parts] | lift_lets | split)

theorem regionTake_keeps {z : State} {j : RegionJob} {s : State} (h0 : Keeps z s) :
    Keeps z ((regionTake j s)) := by
  unfold regionTake
  repeat' (first | with_reducible assumption | with_reducible apply State.modSwc_keeps | with_reducible apply State.makeActive_keeps | with_reducible apply applySettings_keeps | with_reducible apply regionHeld_keeps | with_reducible apply tableFollow_keeps | with_reducible apply judgeAdj_keeps | with_reducible apply calDefault_keeps | with_reducible apply poolWindow_keeps | (with_reducible apply Keeps.foldl; intro _ _ _) | (with_reducible apply Keeps.ite <;> intro _))

theorem regionsDue_keeps {z : State} {f : RegionJob → Bool} {s : State} (h0 : Keeps z s) :
    Keeps z ((regionsDue f s)) := by
  unfold regionsDue
  repeat' (first | with_reducible assumption | with_reducible apply regionTake_keeps | (with_reducible apply Keeps.foldl; intro _ _ _))

theorem actEnd_keeps {z : State} {v : Nat} {s : State} (h0 : Keeps z s) :
    Keeps z ((actEnd v s)) := by
  unfold actEnd
  repeat' (first | with_reducible assumption | with_reducible apply imgEnd_keeps | with_reducible apply State.raise_keeps)

theorem imgActivate_keeps {z : State} {r k : Nat} {s : State} (h0 : Keeps z s) :
    Keeps z ((imgActivate r k s).2) := by
  unfold imgActivate
  repeat' (first | with_reducible assumption | with_reducible apply State.raise_keeps | with_reducible apply actEnd_keeps | with_reducible apply regionStart_keeps | (with_reducible apply Keeps.ite_snd <;> intro _) | lift_lets | split)

theorem exchangesEnd_keeps {z : State} {p : Nat} {s : State} (h0 : Keeps z s) :
    Keeps z ((exchangesEnd p s)) := by
  unfold exchangesEnd
  repeat' (first | with_reducible assumption | with_reducible apply endKey_keeps | with_reducible apply State.modEx_keeps | (with_reducible apply Keeps.iter; intro _ _ _) | (with_reducible apply Keeps.ite <;> intro _))

theorem slicesDrop_keeps {z : State} {p : Nat} {s : State} (h0 : Keeps z s) :
    Keeps z ((slicesDrop p s)) := by
  unfold slicesDrop
  repeat' (first | with_reducible assumption | (intro u; first | (refine (fun (hu : ∀ a, Keeps z (u a)) => ?_) ?_; clear_value u; rotate_left; subst u; rotate_left) | (refine (fun (hu : Keeps z u) => ?_) ?_; clear_value u; rotate_left; subst u; rotate_left) | (refine (fun (hu : Keeps z u.2) => ?_) ?_; clear_value u; rotate_left; subst u; rotate_left) | (refine (fun (hu : Keeps z u.2.2) => ?_) ?_; clear_value u; rotate_left; subst u; rotate_left) | (refine (fun (hu : ∀ v, Keeps z v → Keeps z (u v)) => ?_) ?_; clear_value u; rotate_left; subst u; rotate_left) | (refine (fun (hu : ∀ v, Keeps z v → Keeps z (u v).2) => ?_) ?_; clear_value u; rotate_left; subst u; rotate_left) | (refine (fun (hu : ∀ a v, Keeps z v → Keeps z (u a v)) => ?_) ?_; clear_value u; rotate_left; subst u; rotate_left) | clear_value u) | with_reducible apply State.set_keeps | with_reducible apply State.modUnits_keeps | with_reducible apply unitEnd_keeps | (with_reducible apply Keeps.ite <;> intro _) | lift_lets | split)

theorem lineReset_keeps {z : State} {p : Nat} {s : State} (h0 : Keeps z s) :
    Keeps z ((lineReset p s)) := by
  unfold lineReset
  repeat' (first | with_reducible assumption | with_reducible apply completeAll_keeps | with_reducible apply slicesDrop_keeps | with_reducible apply txOff_keeps | with_reducible apply rxDisable_keeps | with_reducible apply fecDiscard_keeps | with_reducible apply posStops_keeps | with_reducible apply exchangesEnd_keeps | with_reducible apply State.modSess_keeps | with_reducible apply State.clearRegs_keeps | with_reducible apply State.modPort_keeps | with_reducible apply State.set_keeps | with_reducible apply showProp_keeps | with_reducible apply State.raise_keeps | with_reducible apply corrFollow_keeps | with_reducible apply phyFollow_keeps | (with_reducible apply Keeps.iter; intro _ _ _) | (with_reducible apply Keeps.foldl; intro _ _ _) | (with_reducible apply Keeps.ite <;> intro _) | lift_lets | split)

theorem regionClear_keeps {z : State} {r : Nat} {s : State} (h0 : Keeps z s) :
    Keeps z ((regionClear r s)) := by
  unfold regionClear
  repeat' (first | with_reducible assumption | (intro u; first | (refine (fun (hu : ∀ a, Keeps z (u a)) => ?_) ?_; clear_value u; rotate_left; subst u; rotate_left) | (refine (fun (hu : Keeps z u) => ?_) ?_; clear_value u; rotate_left; subst u; rotate_left) | (refine (fun (hu : Keeps z u.2) => ?_) ?_; clear_value u; rotate_left; subst u; rotate_left) | (refine (fun (hu : Keeps z u.2.2) => ?_) ?_; clear_value u; rotate_left; subst u; rotate_left) | (refine (fun (hu : ∀ v, Keeps z v → Keeps z (u v)) => ?_) ?_; clear_value u; rotate_left; subst u; rotate_left) | (refine (fun (hu : ∀ v, Keeps z v → Keeps z (u v).2) => ?_) ?_; clear_value u; rotate_left; subst u; rotate_left) | (refine (fun (hu : ∀ a v, Keeps z v → Keeps z (u a v)) => ?_) ?_; clear_value u; rotate_left; subst u; rotate_left) | clear_value u) | with_reducible apply blockAbort_keeps | with_reducible apply lineReset_keeps | with_reducible apply State.clearRegs_keeps | with_reducible apply powerDown_keeps | with_reducible apply State.modLcx_keeps | (with_reducible apply Keeps.iter; intro _ _ _) | (with_reducible apply Keeps.ite <;> intro _) | simp (zeta := false) only [Keeps.parts] | lift_lets | split)

theorem regionReset_keeps {z : State} {r : Nat} {s : State} (h0 : Keeps z s) :
    Keeps z ((regionReset r s).2) := by
  unfold regionReset
  repeat' (first | with_reducible assumption | with_reducible apply State.raise_keeps | with_reducible apply actEnd_keeps | with_reducible apply regionStart_keeps | with_reducible apply regionClear_keeps | (with_reducible apply Keeps.ite_snd <;> intro _))

theorem imgCommand_keeps {z : State} {cmd k r : Nat} {s : State} (h0 : Keeps z s) :
    Keeps z ((imgCommand cmd k r s).2) := by
  unfold imgCommand
  repeat' (first | with_reducible assumption | with_reducible apply imgLoad_keeps | with_reducible apply imgActivate_keeps | with_reducible apply regionReset_keeps | (with_reducible apply Keeps.ite_snd <;> intro _))

theorem storesCut_keeps {z : State} {b : Boot} {s : State} (h0 : Keeps z s) :
    Keeps z ((storesCut b s)) := by
  unfold storesCut
  repeat' (first | with_reducible assumption | with_reducible apply storeCut_keeps | with_reducible apply recCut_keeps | with_reducible apply recordsFound_keeps | (with_reducible apply Keeps.ite <;> intro _) | lift_lets | split)

theorem cleared_keeps {z s : State} {por link : Bool} (h : Keeps z s) : Keeps z (cleared por link s) := by
  unfold cleared
  refine State.set_keeps (State.set_keeps (State.set_keeps ?_))
  exact Keeps.stores h rfl rfl (fun x => keepKeys_wf (keptReg por link) x) (fun _ => rfl)
    (fun x => keepKeys_wf (fun k => !por && !([0, 1, 11].contains (k / 2 ^ 22))) x)
    (fun x => keepKeys_wf (fun k => !por && !([0, 1, 11].contains (k / 2 ^ 22))) x) (fun _ => rfl)

theorem recordLoad_keeps {z : State} {s : State} (h0 : Keeps z s) :
    Keeps z ((recordLoad s)) := by
  unfold recordLoad
  repeat' (first | with_reducible assumption | (intro u; first | (refine (fun (hu : ∀ a, Keeps z (u a)) => ?_) ?_; clear_value u; rotate_left; subst u; rotate_left) | (refine (fun (hu : Keeps z u) => ?_) ?_; clear_value u; rotate_left; subst u; rotate_left) | (refine (fun (hu : Keeps z u.2) => ?_) ?_; clear_value u; rotate_left; subst u; rotate_left) | (refine (fun (hu : Keeps z u.2.2) => ?_) ?_; clear_value u; rotate_left; subst u; rotate_left) | (refine (fun (hu : ∀ v, Keeps z v → Keeps z (u v)) => ?_) ?_; clear_value u; rotate_left; subst u; rotate_left) | (refine (fun (hu : ∀ v, Keeps z v → Keeps z (u v).2) => ?_) ?_; clear_value u; rotate_left; subst u; rotate_left) | (refine (fun (hu : ∀ a v, Keeps z v → Keeps z (u a v)) => ?_) ?_; clear_value u; rotate_left; subst u; rotate_left) | clear_value u) | with_reducible apply State.set_keeps | with_reducible apply recordTake_keeps | with_reducible apply State.modSec_keeps | with_reducible apply propClose_keeps | (with_reducible apply Keeps.iter; intro _ _ _) | (with_reducible apply Keeps.ite <;> intro _) | lift_lets | split)

theorem imageStart_keeps {z : State} {keepPci : Bool} {k : Nat} {i : Image} {s : State} (h0 : Keeps z s) :
    Keeps z ((imageStart keepPci k i s)) := by
  unfold imageStart
  repeat' (first | with_reducible assumption | with_reducible apply State.set_keeps | with_reducible apply State.modSec_keeps | with_reducible apply regionsStart_keeps | with_reducible apply slotVerified_keeps | with_reducible apply State.modImg_keeps | with_reducible apply procLoad_keeps | (with_reducible apply Keeps.iter; intro _ _ _) | (with_reducible apply Keeps.ite <;> intro _))

theorem otpCatchUp_keeps {z : State} {fail : Bool} {s : State} (h0 : Keeps z s) :
    Keeps z ((otpCatchUp fail s)) := by
  unfold otpCatchUp
  repeat' (first | with_reducible assumption | with_reducible apply otpProgram_keeps | (with_reducible apply Keeps.ite <;> intro _))

theorem bootUp_keeps {z : State} {keepPci : Bool} {b : Boot} {s : State} (h0 : Keeps z s) :
    Keeps z ((bootUp keepPci b s)) := by
  unfold bootUp
  repeat' (first | with_reducible assumption | (intro u; first | (refine (fun (hu : ∀ a, Keeps z (u a)) => ?_) ?_; clear_value u; rotate_left; subst u; rotate_left) | (refine (fun (hu : Keeps z u) => ?_) ?_; clear_value u; rotate_left; subst u; rotate_left) | (refine (fun (hu : Keeps z u.2) => ?_) ?_; clear_value u; rotate_left; subst u; rotate_left) | (refine (fun (hu : Keeps z u.2.2) => ?_) ?_; clear_value u; rotate_left; subst u; rotate_left) | (refine (fun (hu : ∀ v, Keeps z v → Keeps z (u v)) => ?_) ?_; clear_value u; rotate_left; subst u; rotate_left) | (refine (fun (hu : ∀ v, Keeps z v → Keeps z (u v).2) => ?_) ?_; clear_value u; rotate_left; subst u; rotate_left) | (refine (fun (hu : ∀ a v, Keeps z v → Keeps z (u a v)) => ?_) ?_; clear_value u; rotate_left; subst u; rotate_left) | clear_value u) | with_reducible apply State.set_keeps | with_reducible apply recordLoad_keeps | with_reducible apply sramClear_keeps | with_reducible apply State.setDomain_keeps | with_reducible apply State.raise_keeps | with_reducible apply State.modSec_keeps | with_reducible apply State.raiseIf_keeps | with_reducible apply imageStart_keeps | with_reducible apply otpCatchUp_keeps | (with_reducible apply Keeps.ite <;> intro _) | lift_lets | split)

theorem porReset_keeps {z : State} {b : Boot} {s : State} (h0 : Keeps z s) :
    Keeps z ((porReset b s)) := by
  unfold porReset
  repeat' (first | with_reducible assumption | with_reducible apply storesCut_keeps | with_reducible apply cleared_keeps | with_reducible apply State.set_keeps | with_reducible apply State.modHif_keeps | with_reducible apply bootUp_keeps | (with_reducible apply Keeps.ite <;> intro _))

theorem stayDown_keeps {z : State} {s : State} (h0 : Keeps z s) :
    Keeps z ((stayDown s)) := by
  unfold stayDown
  repeat' (first | with_reducible assumption | with_reducible apply hwMute_keeps | (with_reducible apply Keeps.iter; intro _ _ _) | (with_reducible apply Keeps.ite <;> intro _))

theorem pinReset_keeps {z : State} {b : Boot} {s : State} (h0 : Keeps z s) :
    Keeps z ((pinReset b s)) := by
  unfold pinReset
  repeat' (first | with_reducible assumption | with_reducible apply storesCut_keeps | with_reducible apply cleared_keeps | with_reducible apply State.modHif_keeps | with_reducible apply stayDown_keeps | with_reducible apply bootUp_keeps | (with_reducible apply Keeps.ite <;> intro _))

theorem softReset_keeps {z : State} {b : Boot} {s : State} (h0 : Keeps z s) :
    Keeps z ((softReset b s)) := by
  unfold softReset
  repeat' (first | with_reducible assumption | with_reducible apply storesCut_keeps | with_reducible apply cleared_keeps | with_reducible apply stayDown_keeps | with_reducible apply bootUp_keeps | (with_reducible apply Keeps.ite <;> intro _))

theorem stbyLoss_keeps {z : State} {s : State} (h0 : Keeps z s) :
    Keeps z ((stbyLoss s)) := by
  unfold stbyLoss
  repeat' (first | with_reducible assumption | with_reducible apply State.clearRegs_keeps | with_reducible apply State.modHif_keeps)

theorem resume_keeps {z : State} {v : Nat} {b : Boot} {s : State} (h0 : Keeps z s) :
    Keeps z ((resume v b s)) := by
  unfold resume
  repeat' (first | with_reducible assumption | with_reducible apply State.set_keeps | with_reducible apply softReset_keeps | (with_reducible apply Keeps.ite <;> intro _))

theorem endedTake_keeps {z : State} {e : Owner × Nat} {s : State} (h0 : Keeps z s) :
    Keeps z ((endedTake e s)) := by
  unfold endedTake
  repeat' (first | with_reducible assumption | with_reducible apply propEnded_keeps | with_reducible apply apprEnded_keeps | with_reducible apply hostFinish_keeps | split)

theorem endedAll_keeps {z : State} : ∀ {n : Nat} {s : State}, Keeps z s → Keeps z (endedAll n s)
  | 0, _, h => h
  | n + 1, s, h => by
    unfold endedAll
    split
    · exact h
    · exact endedAll_keeps (Keeps.foldl (fun _ _ hu => endedTake_keeps hu) (State.modSwc_keeps h))

theorem secRings_keeps {z : State} {s : State} (h0 : Keeps z s) :
    Keeps z ((secRings s)) := by
  unfold secRings
  repeat' (first | with_reducible assumption | with_reducible apply hostFinish_keeps | (with_reducible apply Keeps.foldl; intro _ _ _))

theorem settle_keeps {z : State} {s : State} (h0 : Keeps z s) :
    Keeps z ((settle s)) := by
  unfold settle
  repeat' (first | with_reducible assumption | with_reducible apply stageNext_keeps | with_reducible apply regionsDue_keeps | with_reducible apply secRings_keeps | with_reducible apply endedAll_keeps | with_reducible apply replaceOutAll_keeps | with_reducible apply dpJudgeAll_keeps | with_reducible apply clkFollow_keeps | with_reducible apply tilesFollow_keeps | with_reducible apply tilesLeave_keeps | (with_reducible apply Keeps.iter; intro _ _ _) | (with_reducible apply Keeps.ite <;> intro _))

theorem sdCtrl_keeps {z : State} {be data : Nat} {s : State} (h0 : Keeps z s) :
    Keeps z ((sdCtrl be data s)) := by
  unfold sdCtrl
  repeat' (first | with_reducible assumption | with_reducible apply State.draw_keeps | with_reducible apply trip_keeps | with_reducible apply resume_keeps | (with_reducible apply Keeps.ite <;> intro _))

theorem wordPut_keeps {z : State} {w : Writer} {a be data : Nat} {s : State} (h0 : Keeps z s) :
    Keeps z ((wordPut w a be data s).2) := by
  unfold wordPut
  repeat' (first | with_reducible assumption | with_reducible apply sdCtrl_keeps | with_reducible apply imgCommand_keeps | with_reducible apply corePut_keeps | (with_reducible apply Keeps.ite_snd <;> intro _))

theorem regWrite_keeps {z : State} {w : Writer} {a be data : Nat} {s : State} (h0 : Keeps z s) :
    Keeps z ((regWrite w a be data s).2) := by
  unfold regWrite
  repeat' (first | with_reducible assumption | with_reducible apply wordPut_keeps | with_reducible apply fabRespond_keeps)

theorem beatPut_keeps {z : State} {w : Writer} {a be data : Nat} {s : State} (h0 : Keeps z s) :
    Keeps z ((beatPut w a be data s).2) := by
  unfold beatPut
  repeat' (first | with_reducible assumption | with_reducible apply tableWrite_keeps | with_reducible apply sramWrite_keeps | with_reducible apply wordPut_keeps | (with_reducible apply Keeps.foldl_snd; intro _ _ _) | (with_reducible apply Keeps.ite_snd <;> intro _) | lift_lets | split)

theorem beatGet_keeps {z : State} {m a : Nat} {s : State} (h0 : Keeps z s) :
    Keeps z ((beatGet m a s).2.2) := by
  unfold beatGet
  repeat' (first | with_reducible assumption | with_reducible apply placeGet_keeps | (with_reducible apply Keeps.foldl_snd2; intro _ _ _) | (with_reducible apply Keeps.ite_snd2 <;> intro _))

theorem gorseMaster_keeps {z : State} {s : State} (h0 : Keeps z s) :
    Keeps z ((gorseMaster s).2) := by
  unfold gorseMaster
  repeat' (first | with_reducible assumption | with_reducible apply State.draw_keeps | (with_reducible apply Keeps.ite_snd <;> intro _))

theorem calInsert_keeps {z : State} {tag : Nat} {c : HostCmd} {s : State} (h0 : Keeps z s) :
    Keeps z ((calInsert tag c s)) := by
  unfold calInsert
  repeat' (first | with_reducible assumption | with_reducible apply insertAction_keeps | with_reducible apply State.answer_keeps | with_reducible apply hostFinish_keeps | (with_reducible apply Keeps.ite <;> intro _))

theorem tableWriteRun_keeps {z : State} {m : Nat} : ∀ {l : List Nat} {w : Nat} {s : State}, Keeps z s → Keeps z (tableWriteRun m w l s).2
  | [], _, _, h => h
  | _ :: _, _, _, h => by
    unfold tableWriteRun
    exact tableWriteRun_keeps (tableWrite_keeps h)

theorem tableReadRun_keeps {z : State} {m : Nat} : ∀ {n w : Nat} {s : State}, Keeps z s → Keeps z (tableReadRun m w n s).2.2
  | 0, _, _, h => h
  | _ + 1, _, _, h => by
    unfold tableReadRun
    exact tableReadRun_keeps (tableRead_keeps h)

theorem secCmd_keeps {z : State} {tag : Nat} {b : List Nat} {c : HostCmd} {s : State} (h0 : Keeps z s) :
    Keeps z ((secCmd tag b c s)) := by
  unfold secCmd
  repeat' (first | with_reducible assumption | with_reducible apply gorseMaster_keeps | with_reducible apply hostFinish_keeps | with_reducible apply winWrite_keeps | with_reducible apply State.modHif_keeps | with_reducible apply mailCommand_keeps | (with_reducible apply Keeps.ite <;> intro _))

end Sys2Proof.Machine
end

