-- ==== Sys2Proof/Laws/KeepsCommand.lean ====
section
/-! SUPPORT. Every operation on a state keeps its queue, its part and its canonical form: executor, rounds, rows of lines and channels. -/
set_option linter.unusedVariables false
set_option linter.unusedSimpArgs false
namespace Sys2Proof.Machine

theorem setPhase_keeps {z : State} {f : Act → Bool} {ph : Nat} {s : State} (h0 : Keeps z s) :
    Keeps z ((setPhase f ph s)) := by
  unfold setPhase
  repeat' (first | with_reducible assumption | with_reducible apply State.modSwc_keeps)

theorem stageAt_keeps {z : State} {d n : Nat} {bad : List (Nat × Nat)} {s : State} (h0 : Keeps z s) :
    Keeps z ((stageAt d n bad s)) := by
  unfold stageAt
  repeat' (first | with_reducible assumption | with_reducible apply descRead_keeps | with_reducible apply complete_keeps | with_reducible apply setPhase_keeps | (with_reducible apply Keeps.foldl; intro _ _ _) | (with_reducible apply Keeps.ite <;> intro _))

theorem actionStage_keeps {z : State} {d : Nat} {bad : List (Nat × Nat)} {s : State} (h0 : Keeps z s) :
    Keeps z ((actionStage d bad s)) := by
  unfold actionStage
  repeat' (first | with_reducible assumption | with_reducible apply stageAt_keeps | (with_reducible apply Keeps.ite <;> intro _))

theorem sendAct_keeps {z : State} {p b : Nat} {s : State} (h0 : Keeps z s) :
    Keeps z ((sendAct p b s).2) := by
  unfold sendAct
  repeat' (first | with_reducible assumption | with_reducible apply State.raise_keeps | with_reducible apply armBuf_keeps | (with_reducible apply Keeps.ite_snd <;> intro _))

theorem snapAct_keeps {z : State} {d key n : Nat} {s : State} (h0 : Keeps z s) :
    Keeps z ((snapAct d key n s)) := by
  unfold snapAct
  repeat' (first | with_reducible assumption | with_reducible apply snapPos_keeps | with_reducible apply snapTake_keeps | with_reducible apply State.modSwc_keeps | (with_reducible apply Keeps.ite <;> intro _) | lift_lets | split)

theorem runAct_keeps {z : State} {a : Act} {n : Nat} {s : State} (h0 : Keeps z s) :
    Keeps z ((runAct a n s).2) := by
  unfold runAct
  repeat' (first | with_reducible assumption | (intro u; first | (refine (fun (hu : ∀ a, Keeps z (u a)) => ?_) ?_; clear_value u; rotate_left; subst u; rotate_left) | (refine (fun (hu : Keeps z u) => ?_) ?_; clear_value u; rotate_left; subst u; rotate_left) | (refine (fun (hu : Keeps z u.2) => ?_) ?_; clear_value u; rotate_left; subst u; rotate_left) | (refine (fun (hu : Keeps z u.2.2) => ?_) ?_; clear_value u; rotate_left; subst u; rotate_left) | (refine (fun (hu : ∀ v, Keeps z v → Keeps z (u v)) => ?_) ?_; clear_value u; rotate_left; subst u; rotate_left) | (refine (fun (hu : ∀ v, Keeps z v → Keeps z (u v).2) => ?_) ?_; clear_value u; rotate_left; subst u; rotate_left) | (refine (fun (hu : ∀ a v, Keeps z v → Keeps z (u a v)) => ?_) ?_; clear_value u; rotate_left; subst u; rotate_left) | clear_value u) | with_reducible apply regWrite_keeps | with_reducible apply tableFollow_keeps | with_reducible apply State.makeActive_keeps | with_reducible apply State.modSwc_keeps | with_reducible apply regionsDue_keeps | with_reducible apply keySwitch_keeps | with_reducible apply rateChange_keeps | with_reducible apply sendAct_keeps | with_reducible apply snapAct_keeps | with_reducible apply latchCode_keeps | with_reducible apply State.raise_keeps | (with_reducible apply Keeps.ite <;> intro _) | (with_reducible apply Keeps.ite_snd <;> intro _) | lift_lets | split)

theorem doAct_keeps {z : State} {n : Nat} {a : Act} {s : State} (h0 : Keeps z s) :
    Keeps z ((doAct n a s)) := by
  unfold doAct
  repeat' (first | with_reducible assumption | (intro u; first | (refine (fun (hu : ∀ a, Keeps z (u a)) => ?_) ?_; clear_value u; rotate_left; subst u; rotate_left) | (refine (fun (hu : Keeps z u) => ?_) ?_; clear_value u; rotate_left; subst u; rotate_left) | (refine (fun (hu : Keeps z u.2) => ?_) ?_; clear_value u; rotate_left; subst u; rotate_left) | (refine (fun (hu : Keeps z u.2.2) => ?_) ?_; clear_value u; rotate_left; subst u; rotate_left) | (refine (fun (hu : ∀ v, Keeps z v → Keeps z (u v)) => ?_) ?_; clear_value u; rotate_left; subst u; rotate_left) | (refine (fun (hu : ∀ v, Keeps z v → Keeps z (u v).2) => ?_) ?_; clear_value u; rotate_left; subst u; rotate_left) | (refine (fun (hu : ∀ a v, Keeps z v → Keeps z (u a v)) => ?_) ?_; clear_value u; rotate_left; subst u; rotate_left) | clear_value u) | with_reducible apply runAct_keeps | with_reducible apply complete_keeps | (with_reducible apply Keeps.ite <;> intro _) | lift_lets | split)

theorem adjFollow_keeps {z : State} {old : State} {s : State} (h0 : Keeps z old) (h1 : Keeps z s) :
    Keeps z ((adjFollow old s)) := by
  unfold adjFollow
  repeat' (first | with_reducible assumption | with_reducible apply judgeAdj_keeps | (with_reducible apply Keeps.iter; intro _ _ _) | (with_reducible apply Keeps.ite <;> intro _))

theorem doActs_keeps {z : State} {n : Nat} : ∀ {l : List Act} {s : State}, Keeps z s → Keeps z (doActs n l s)
  | [], _, h => h
  | _ :: _, _, h => by
    rw [doActs]
    exact doActs_keeps (doAct_keeps h)

theorem calExecute_keeps {z : State} {d : Nat} {joint : Bool} {s : State} (h0 : Keeps z s) :
    Keeps z ((calExecute d joint s)) := by
  unfold calExecute
  repeat' (first | with_reducible assumption | with_reducible apply State.modSwc_keeps | with_reducible apply regionsDue_keeps | with_reducible apply stageAt_keeps | with_reducible apply complete_keeps | with_reducible apply setPhase_keeps | with_reducible apply doActs_keeps | with_reducible apply adjFollow_keeps | (with_reducible apply Keeps.foldl; intro _ _ _) | (with_reducible apply Keeps.ite <;> intro _))

theorem cmpSource_keeps {z : State} {n w : Nat} {s : State} (h0 : Keeps z s) :
    Keeps z ((cmpSource n w s).2) := by
  unfold cmpSource
  repeat' (first | with_reducible assumption | (intro u; first | (refine (fun (hu : ∀ a, Keeps z (u a)) => ?_) ?_; clear_value u; rotate_left; subst u; rotate_left) | (refine (fun (hu : Keeps z u) => ?_) ?_; clear_value u; rotate_left; subst u; rotate_left) | (refine (fun (hu : Keeps z u.2) => ?_) ?_; clear_value u; rotate_left; subst u; rotate_left) | (refine (fun (hu : Keeps z u.2.2) => ?_) ?_; clear_value u; rotate_left; subst u; rotate_left) | (refine (fun (hu : ∀ v, Keeps z v → Keeps z (u v)) => ?_) ?_; clear_value u; rotate_left; subst u; rotate_left) | (refine (fun (hu : ∀ v, Keeps z v → Keeps z (u v).2) => ?_) ?_; clear_value u; rotate_left; subst u; rotate_left) | (refine (fun (hu : ∀ a v, Keeps z v → Keeps z (u a v)) => ?_) ?_; clear_value u; rotate_left; subst u; rotate_left) | clear_value u) | with_reducible apply regRead_keeps | with_reducible apply State.raise_keeps | (with_reducible apply Keeps.ite_snd <;> intro _) | lift_lets | split)

theorem condHolds_keeps {z : State} {n : Nat} {ws : List Nat} {c : Nat} {s : State} (h0 : Keeps z s) :
    Keeps z ((condHolds n ws c s).2) := by
  unfold condHolds
  repeat' (first | with_reducible assumption | (intro u; first | (refine (fun (hu : ∀ a, Keeps z (u a)) => ?_) ?_; clear_value u; rotate_left; subst u; rotate_left) | (refine (fun (hu : Keeps z u) => ?_) ?_; clear_value u; rotate_left; subst u; rotate_left) | (refine (fun (hu : Keeps z u.2) => ?_) ?_; clear_value u; rotate_left; subst u; rotate_left) | (refine (fun (hu : Keeps z u.2.2) => ?_) ?_; clear_value u; rotate_left; subst u; rotate_left) | (refine (fun (hu : ∀ v, Keeps z v → Keeps z (u v)) => ?_) ?_; clear_value u; rotate_left; subst u; rotate_left) | (refine (fun (hu : ∀ v, Keeps z v → Keeps z (u v).2) => ?_) ?_; clear_value u; rotate_left; subst u; rotate_left) | (refine (fun (hu : ∀ a v, Keeps z v → Keeps z (u a v)) => ?_) ?_; clear_value u; rotate_left; subst u; rotate_left) | clear_value u) | with_reducible apply cmpSource_keeps | lift_lets | split)

theorem transHolds_keeps {z : State} {n : Nat} {ws : List Nat} {t : Nat} {s : State} (h0 : Keeps z s) :
    Keeps z ((transHolds n ws t s).2) := by
  unfold transHolds
  repeat' (first | with_reducible assumption | with_reducible apply condHolds_keeps | (with_reducible apply Keeps.ite_snd <;> intro _))

theorem holding_keeps {z : State} {n : Nat} {ws : List Nat} : ∀ {l : List Nat} {s : State}, Keeps z s → Keeps z (holding n ws l s).2
  | [], _, h => h
  | _ :: _, _, h => by
    unfold holding
    exact holding_keeps (transHolds_keeps h)

theorem actFail_keeps {z : State} {n v : Nat} {s : State} (h0 : Keeps z s) :
    Keeps z ((actFail n v s)) := by
  unfold actFail
  repeat' (first | with_reducible assumption | with_reducible apply State.set_keeps | with_reducible apply State.raise_keeps)

theorem actDone_keeps {z : State} {n : Nat} {r : Nat × State} (h0 : Keeps z r.2) :
    Keeps z ((actDone n r)) := by
  unfold actDone
  repeat' (first | with_reducible assumption | with_reducible apply actFail_keeps | (with_reducible apply Keeps.ite <;> intro _))

theorem noHandle_keeps {z : State} {r : Nat × Nat × State} (h : Keeps z r.2.2) : Keeps z (noHandle r).2 := h

theorem seqAction_keeps {z : State} {n w : Nat} {s : State} (h : Keeps z s) : Keeps z (seqAction n w s) := by
  rw [seqAction]
  split
  · exact actDone_keeps (regWrite_keeps h)
  · exact actDone_keeps (noHandle_keeps (insertAction_keeps h))
  · exact actDone_keeps (Keeps.ite_snd (fun _ => armBuf_keeps h) (fun _ => h))
  · exact hostEvent_keeps h
  · exact State.modSeq_keeps h
  · exact State.modSeq_keeps h
  · exact State.modSeq_keeps h
  · exact latchCode_keeps h
  · exact h

theorem takeTrans_keeps {z : State} {n : Nat} {ws : List Nat} {t : Nat} {evs codes : List Nat} {s : State} (h0 : Keeps z s) :
    Keeps z ((takeTrans n ws t evs codes s)) := by
  unfold takeTrans
  repeat' (first | with_reducible assumption | with_reducible apply State.modSeq_keeps | with_reducible apply seqAction_keeps | with_reducible apply sampleStep_keeps | (with_reducible apply Keeps.foldl; intro _ _ _) | (with_reducible apply Keeps.ite <;> intro _))

theorem seqRound_keeps {z : State} {n : Nat} {s : State} (h0 : Keeps z s) :
    Keeps z ((seqRound n s)) := by
  unfold seqRound
  repeat' (first | with_reducible assumption | (intro u; first | (refine (fun (hu : ∀ a, Keeps z (u a)) => ?_) ?_; clear_value u; rotate_left; subst u; rotate_left) | (refine (fun (hu : Keeps z u) => ?_) ?_; clear_value u; rotate_left; subst u; rotate_left) | (refine (fun (hu : Keeps z u.2) => ?_) ?_; clear_value u; rotate_left; subst u; rotate_left) | (refine (fun (hu : Keeps z u.2.2) => ?_) ?_; clear_value u; rotate_left; subst u; rotate_left) | (refine (fun (hu : ∀ v, Keeps z v → Keeps z (u v)) => ?_) ?_; clear_value u; rotate_left; subst u; rotate_left) | (refine (fun (hu : ∀ v, Keeps z v → Keeps z (u v).2) => ?_) ?_; clear_value u; rotate_left; subst u; rotate_left) | (refine (fun (hu : ∀ a v, Keeps z v → Keeps z (u a v)) => ?_) ?_; clear_value u; rotate_left; subst u; rotate_left) | clear_value u) | with_reducible apply holding_keeps | with_reducible apply takeTrans_keeps | with_reducible apply sampleStep_keeps | (with_reducible apply Keeps.ite <;> intro _) | lift_lets | split)

theorem ftuneSend_keeps {z : State} {p : Nat} {s : State} (h0 : Keeps z s) :
    Keeps z ((ftuneSend p s)) := by
  unfold ftuneSend
  repeat' (first | with_reducible assumption | with_reducible apply stlDepart_keeps | with_reducible apply State.draw_keeps | with_reducible apply stlSend_keeps | (with_reducible apply Keeps.ite <;> intro _) | simp (zeta := false) only [Keeps.parts] | split)

theorem userByte_keeps {z : State} {t i : Nat} {s : State} (h0 : Keeps z s) :
    Keeps z ((userByte t i s).2) := by
  unfold userByte
  repeat' (first | with_reducible assumption | (intro u; first | (refine (fun (hu : ∀ a, Keeps z (u a)) => ?_) ?_; clear_value u; rotate_left; subst u; rotate_left) | (refine (fun (hu : Keeps z u) => ?_) ?_; clear_value u; rotate_left; subst u; rotate_left) | (refine (fun (hu : Keeps z u.2) => ?_) ?_; clear_value u; rotate_left; subst u; rotate_left) | (refine (fun (hu : Keeps z u.2.2) => ?_) ?_; clear_value u; rotate_left; subst u; rotate_left) | (refine (fun (hu : ∀ v, Keeps z v → Keeps z (u v)) => ?_) ?_; clear_value u; rotate_left; subst u; rotate_left) | (refine (fun (hu : ∀ v, Keeps z v → Keeps z (u v).2) => ?_) ?_; clear_value u; rotate_left; subst u; rotate_left) | (refine (fun (hu : ∀ a v, Keeps z v → Keeps z (u a v)) => ?_) ?_; clear_value u; rotate_left; subst u; rotate_left) | clear_value u) | with_reducible apply regRead_keeps | lift_lets | split)

theorem userSample_keeps {z : State} {p : Nat} {s : State} (h0 : Keeps z s) :
    Keeps z ((userSample p s).2) := by
  unfold userSample
  repeat' (first | with_reducible assumption | with_reducible apply userByte_keeps | (with_reducible apply Keeps.foldl_snd; intro _ _ _) | (with_reducible apply Keeps.ite_snd <;> intro _))

end Sys2Proof.Machine
end

