-- ==== Sys2Proof/Laws/State.lean ====
section
/-! SUPPORT. What each update of State leaves in each of its fields, and in each register field. -/
namespace Sys2Proof.Machine

variable (s : State)

/-! ### State.set -/

@[simp] theorem State.set_part (f : Fld) (v : Nat) : (s.set f v).part = s.part := rfl
@[simp] theorem State.set_latches (f : Fld) (v : Nat) : (s.set f v).latches = s.latches := rfl
@[simp] theorem State.set_port0 (f : Fld) (v : Nat) : (s.set f v).port0 = s.port0 := rfl
@[simp] theorem State.set_port1 (f : Fld) (v : Nat) : (s.set f v).port1 = s.port1 := rfl
@[simp] theorem State.set_jnl (f : Fld) (v : Nat) : (s.set f v).jnl = s.jnl := rfl
@[simp] theorem State.set_sram (f : Fld) (v : Nat) : (s.set f v).sram = s.sram := rfl
@[simp] theorem State.set_sramChk (f : Fld) (v : Nat) : (s.set f v).sramChk = s.sramChk := rfl
@[simp] theorem State.set_ecc (f : Fld) (v : Nat) : (s.set f v).ecc = s.ecc := rfl
@[simp] theorem State.set_pwr (f : Fld) (v : Nat) : (s.set f v).pwr = s.pwr := rfl
@[simp] theorem State.set_img (f : Fld) (v : Nat) : (s.set f v).img = s.img := rfl
@[simp] theorem State.set_fec (f : Fld) (v : Nat) : (s.set f v).fec = s.fec := rfl
@[simp] theorem State.set_swc (f : Fld) (v : Nat) : (s.set f v).swc = s.swc := rfl
@[simp] theorem State.set_cli (f : Fld) (v : Nat) : (s.set f v).cli = s.cli := rfl
@[simp] theorem State.set_lcx (f : Fld) (v : Nat) : (s.set f v).lcx = s.lcx := rfl
@[simp] theorem State.set_mce (f : Fld) (v : Nat) : (s.set f v).mce = s.mce := rfl
@[simp] theorem State.set_clk (f : Fld) (v : Nat) : (s.set f v).clk = s.clk := rfl
@[simp] theorem State.set_sec (f : Fld) (v : Nat) : (s.set f v).sec = s.sec := rfl
@[simp] theorem State.set_stl (f : Fld) (v : Nat) : (s.set f v).stl = s.stl := rfl
@[simp] theorem State.set_pmc (f : Fld) (v : Nat) : (s.set f v).pmc = s.pmc := rfl
@[simp] theorem State.set_fmn (f : Fld) (v : Nat) : (s.set f v).fmn = s.fmn := rfl
@[simp] theorem State.set_hif (f : Fld) (v : Nat) : (s.set f v).hif = s.hif := rfl
@[simp] theorem State.set_flc (f : Fld) (v : Nat) : (s.set f v).flc = s.flc := rfl
@[simp] theorem State.set_thm (f : Fld) (v : Nat) : (s.set f v).thm = s.thm := rfl
@[simp] theorem State.set_hdg (f : Fld) (v : Nat) : (s.set f v).hdg = s.hdg := rfl
@[simp] theorem State.set_units (f : Fld) (v : Nat) : (s.set f v).units = s.units := rfl
@[simp] theorem State.set_fab (f : Fld) (v : Nat) : (s.set f v).fab = s.fab := rfl
@[simp] theorem State.set_resp (f : Fld) (v : Nat) : (s.set f v).resp = s.resp := rfl
@[simp] theorem State.set_freeCtr (f : Fld) (v : Nat) : (s.set f v).freeCtr = s.freeCtr := rfl
@[simp] theorem State.set_pending (f : Fld) (v : Nat) : (s.set f v).pending = s.pending := rfl

/-! ### State.setI -/

@[simp] theorem State.setI_part (f : Fld) (x : Int) : (s.setI f x).part = s.part := rfl
@[simp] theorem State.setI_latches (f : Fld) (x : Int) : (s.setI f x).latches = s.latches := rfl
@[simp] theorem State.setI_port0 (f : Fld) (x : Int) : (s.setI f x).port0 = s.port0 := rfl
@[simp] theorem State.setI_port1 (f : Fld) (x : Int) : (s.setI f x).port1 = s.port1 := rfl
@[simp] theorem State.setI_jnl (f : Fld) (x : Int) : (s.setI f x).jnl = s.jnl := rfl
@[simp] theorem State.setI_sram (f : Fld) (x : Int) : (s.setI f x).sram = s.sram := rfl
@[simp] theorem State.setI_sramChk (f : Fld) (x : Int) : (s.setI f x).sramChk = s.sramChk := rfl
@[simp] theorem State.setI_ecc (f : Fld) (x : Int) : (s.setI f x).ecc = s.ecc := rfl
@[simp] theorem State.setI_pwr (f : Fld) (x : Int) : (s.setI f x).pwr = s.pwr := rfl
@[simp] theorem State.setI_img (f : Fld) (x : Int) : (s.setI f x).img = s.img := rfl
@[simp] theorem State.setI_fec (f : Fld) (x : Int) : (s.setI f x).fec = s.fec := rfl
@[simp] theorem State.setI_swc (f : Fld) (x : Int) : (s.setI f x).swc = s.swc := rfl
@[simp] theorem State.setI_cli (f : Fld) (x : Int) : (s.setI f x).cli = s.cli := rfl
@[simp] theorem State.setI_lcx (f : Fld) (x : Int) : (s.setI f x).lcx = s.lcx := rfl
@[simp] theorem State.setI_mce (f : Fld) (x : Int) : (s.setI f x).mce = s.mce := rfl
@[simp] theorem State.setI_clk (f : Fld) (x : Int) : (s.setI f x).clk = s.clk := rfl
@[simp] theorem State.setI_sec (f : Fld) (x : Int) : (s.setI f x).sec = s.sec := rfl
@[simp] theorem State.setI_stl (f : Fld) (x : Int) : (s.setI f x).stl = s.stl := rfl
@[simp] theorem State.setI_pmc (f : Fld) (x : Int) : (s.setI f x).pmc = s.pmc := rfl
@[simp] theorem State.setI_fmn (f : Fld) (x : Int) : (s.setI f x).fmn = s.fmn := rfl
@[simp] theorem State.setI_hif (f : Fld) (x : Int) : (s.setI f x).hif = s.hif := rfl
@[simp] theorem State.setI_flc (f : Fld) (x : Int) : (s.setI f x).flc = s.flc := rfl
@[simp] theorem State.setI_thm (f : Fld) (x : Int) : (s.setI f x).thm = s.thm := rfl
@[simp] theorem State.setI_hdg (f : Fld) (x : Int) : (s.setI f x).hdg = s.hdg := rfl
@[simp] theorem State.setI_units (f : Fld) (x : Int) : (s.setI f x).units = s.units := rfl
@[simp] theorem State.setI_fab (f : Fld) (x : Int) : (s.setI f x).fab = s.fab := rfl
@[simp] theorem State.setI_resp (f : Fld) (x : Int) : (s.setI f x).resp = s.resp := rfl
@[simp] theorem State.setI_freeCtr (f : Fld) (x : Int) : (s.setI f x).freeCtr = s.freeCtr := rfl
@[simp] theorem State.setI_pending (f : Fld) (x : Int) : (s.setI f x).pending = s.pending := rfl

/-! ### State.addSat -/

@[simp] theorem State.addSat_part (f : Fld) (n : Nat) : (s.addSat f n).part = s.part := rfl
@[simp] theorem State.addSat_latches (f : Fld) (n : Nat) : (s.addSat f n).latches = s.latches := rfl
@[simp] theorem State.addSat_port0 (f : Fld) (n : Nat) : (s.addSat f n).port0 = s.port0 := rfl
@[simp] theorem State.addSat_port1 (f : Fld) (n : Nat) : (s.addSat f n).port1 = s.port1 := rfl
@[simp] theorem State.addSat_jnl (f : Fld) (n : Nat) : (s.addSat f n).jnl = s.jnl := rfl
@[simp] theorem State.addSat_sram (f : Fld) (n : Nat) : (s.addSat f n).sram = s.sram := rfl
@[simp] theorem State.addSat_sramChk (f : Fld) (n : Nat) : (s.addSat f n).sramChk = s.sramChk := rfl
@[simp] theorem State.addSat_ecc (f : Fld) (n : Nat) : (s.addSat f n).ecc = s.ecc := rfl
@[simp] theorem State.addSat_pwr (f : Fld) (n : Nat) : (s.addSat f n).pwr = s.pwr := rfl
@[simp] theorem State.addSat_img (f : Fld) (n : Nat) : (s.addSat f n).img = s.img := rfl
@[simp] theorem State.addSat_fec (f : Fld) (n : Nat) : (s.addSat f n).fec = s.fec := rfl
@[simp] theorem State.addSat_swc (f : Fld) (n : Nat) : (s.addSat f n).swc = s.swc := rfl
@[simp] theorem State.addSat_cli (f : Fld) (n : Nat) : (s.addSat f n).cli = s.cli := rfl
@[simp] theorem State.addSat_lcx (f : Fld) (n : Nat) : (s.addSat f n).lcx = s.lcx := rfl
@[simp] theorem State.addSat_mce (f : Fld) (n : Nat) : (s.addSat f n).mce = s.mce := rfl
@[simp] theorem State.addSat_clk (f : Fld) (n : Nat) : (s.addSat f n).clk = s.clk := rfl
@[simp] theorem State.addSat_sec (f : Fld) (n : Nat) : (s.addSat f n).sec = s.sec := rfl
@[simp] theorem State.addSat_stl (f : Fld) (n : Nat) : (s.addSat f n).stl = s.stl := rfl
@[simp] theorem State.addSat_pmc (f : Fld) (n : Nat) : (s.addSat f n).pmc = s.pmc := rfl
@[simp] theorem State.addSat_fmn (f : Fld) (n : Nat) : (s.addSat f n).fmn = s.fmn := rfl
@[simp] theorem State.addSat_hif (f : Fld) (n : Nat) : (s.addSat f n).hif = s.hif := rfl
@[simp] theorem State.addSat_flc (f : Fld) (n : Nat) : (s.addSat f n).flc = s.flc := rfl
@[simp] theorem State.addSat_thm (f : Fld) (n : Nat) : (s.addSat f n).thm = s.thm := rfl
@[simp] theorem State.addSat_hdg (f : Fld) (n : Nat) : (s.addSat f n).hdg = s.hdg := rfl
@[simp] theorem State.addSat_units (f : Fld) (n : Nat) : (s.addSat f n).units = s.units := rfl
@[simp] theorem State.addSat_fab (f : Fld) (n : Nat) : (s.addSat f n).fab = s.fab := rfl
@[simp] theorem State.addSat_resp (f : Fld) (n : Nat) : (s.addSat f n).resp = s.resp := rfl
@[simp] theorem State.addSat_freeCtr (f : Fld) (n : Nat) : (s.addSat f n).freeCtr = s.freeCtr := rfl
@[simp] theorem State.addSat_pending (f : Fld) (n : Nat) : (s.addSat f n).pending = s.pending := rfl

/-! ### State.clearRegs -/

@[simp] theorem State.clearRegs_part (lo hi : Nat) : (s.clearRegs lo hi).part = s.part := rfl
@[simp] theorem State.clearRegs_latches (lo hi : Nat) : (s.clearRegs lo hi).latches = s.latches := rfl
@[simp] theorem State.clearRegs_port0 (lo hi : Nat) : (s.clearRegs lo hi).port0 = s.port0 := rfl
@[simp] theorem State.clearRegs_port1 (lo hi : Nat) : (s.clearRegs lo hi).port1 = s.port1 := rfl
@[simp] theorem State.clearRegs_jnl (lo hi : Nat) : (s.clearRegs lo hi).jnl = s.jnl := rfl
@[simp] theorem State.clearRegs_sram (lo hi : Nat) : (s.clearRegs lo hi).sram = s.sram := rfl
@[simp] theorem State.clearRegs_sramChk (lo hi : Nat) : (s.clearRegs lo hi).sramChk = s.sramChk := rfl
@[simp] theorem State.clearRegs_ecc (lo hi : Nat) : (s.clearRegs lo hi).ecc = s.ecc := rfl
@[simp] theorem State.clearRegs_pwr (lo hi : Nat) : (s.clearRegs lo hi).pwr = s.pwr := rfl
@[simp] theorem State.clearRegs_img (lo hi : Nat) : (s.clearRegs lo hi).img = s.img := rfl
@[simp] theorem State.clearRegs_fec (lo hi : Nat) : (s.clearRegs lo hi).fec = s.fec := rfl
@[simp] theorem State.clearRegs_swc (lo hi : Nat) : (s.clearRegs lo hi).swc = s.swc := rfl
@[simp] theorem State.clearRegs_cli (lo hi : Nat) : (s.clearRegs lo hi).cli = s.cli := rfl
@[simp] theorem State.clearRegs_lcx (lo hi : Nat) : (s.clearRegs lo hi).lcx = s.lcx := rfl
@[simp] theorem State.clearRegs_mce (lo hi : Nat) : (s.clearRegs lo hi).mce = s.mce := rfl
@[simp] theorem State.clearRegs_clk (lo hi : Nat) : (s.clearRegs lo hi).clk = s.clk := rfl
@[simp] theorem State.clearRegs_sec (lo hi : Nat) : (s.clearRegs lo hi).sec = s.sec := rfl
@[simp] theorem State.clearRegs_stl (lo hi : Nat) : (s.clearRegs lo hi).stl = s.stl := rfl
@[simp] theorem State.clearRegs_pmc (lo hi : Nat) : (s.clearRegs lo hi).pmc = s.pmc := rfl
@[simp] theorem State.clearRegs_fmn (lo hi : Nat) : (s.clearRegs lo hi).fmn = s.fmn := rfl
@[simp] theorem State.clearRegs_hif (lo hi : Nat) : (s.clearRegs lo hi).hif = s.hif := rfl
@[simp] theorem State.clearRegs_flc (lo hi : Nat) : (s.clearRegs lo hi).flc = s.flc := rfl
@[simp] theorem State.clearRegs_thm (lo hi : Nat) : (s.clearRegs lo hi).thm = s.thm := rfl
@[simp] theorem State.clearRegs_hdg (lo hi : Nat) : (s.clearRegs lo hi).hdg = s.hdg := rfl
@[simp] theorem State.clearRegs_units (lo hi : Nat) : (s.clearRegs lo hi).units = s.units := rfl
@[simp] theorem State.clearRegs_fab (lo hi : Nat) : (s.clearRegs lo hi).fab = s.fab := rfl
@[simp] theorem State.clearRegs_resp (lo hi : Nat) : (s.clearRegs lo hi).resp = s.resp := rfl
@[simp] theorem State.clearRegs_freeCtr (lo hi : Nat) : (s.clearRegs lo hi).freeCtr = s.freeCtr := rfl
@[simp] theorem State.clearRegs_pending (lo hi : Nat) : (s.clearRegs lo hi).pending = s.pending := rfl

/-! ### State.answer -/

@[simp] theorem State.answer_part (st : Nat) (d : List Nat) : (s.answer st d).part = s.part := rfl
@[simp] theorem State.answer_regs (st : Nat) (d : List Nat) : (s.answer st d).regs = s.regs := rfl
@[simp] theorem State.answer_latches (st : Nat) (d : List Nat) : (s.answer st d).latches = s.latches := rfl
@[simp] theorem State.answer_port0 (st : Nat) (d : List Nat) : (s.answer st d).port0 = s.port0 := rfl
@[simp] theorem State.answer_port1 (st : Nat) (d : List Nat) : (s.answer st d).port1 = s.port1 := rfl
@[simp] theorem State.answer_jnl (st : Nat) (d : List Nat) : (s.answer st d).jnl = s.jnl := rfl
@[simp] theorem State.answer_sram (st : Nat) (d : List Nat) : (s.answer st d).sram = s.sram := rfl
@[simp] theorem State.answer_sramChk (st : Nat) (d : List Nat) : (s.answer st d).sramChk = s.sramChk := rfl
@[simp] theorem State.answer_ecc (st : Nat) (d : List Nat) : (s.answer st d).ecc = s.ecc := rfl
@[simp] theorem State.answer_pwr (st : Nat) (d : List Nat) : (s.answer st d).pwr = s.pwr := rfl
@[simp] theorem State.answer_img (st : Nat) (d : List Nat) : (s.answer st d).img = s.img := rfl
@[simp] theorem State.answer_fec (st : Nat) (d : List Nat) : (s.answer st d).fec = s.fec := rfl
@[simp] theorem State.answer_swc (st : Nat) (d : List Nat) : (s.answer st d).swc = s.swc := rfl
@[simp] theorem State.answer_cli (st : Nat) (d : List Nat) : (s.answer st d).cli = s.cli := rfl
@[simp] theorem State.answer_lcx (st : Nat) (d : List Nat) : (s.answer st d).lcx = s.lcx := rfl
@[simp] theorem State.answer_mce (st : Nat) (d : List Nat) : (s.answer st d).mce = s.mce := rfl
@[simp] theorem State.answer_clk (st : Nat) (d : List Nat) : (s.answer st d).clk = s.clk := rfl
@[simp] theorem State.answer_sec (st : Nat) (d : List Nat) : (s.answer st d).sec = s.sec := rfl
@[simp] theorem State.answer_stl (st : Nat) (d : List Nat) : (s.answer st d).stl = s.stl := rfl
@[simp] theorem State.answer_pmc (st : Nat) (d : List Nat) : (s.answer st d).pmc = s.pmc := rfl
@[simp] theorem State.answer_fmn (st : Nat) (d : List Nat) : (s.answer st d).fmn = s.fmn := rfl
@[simp] theorem State.answer_hif (st : Nat) (d : List Nat) : (s.answer st d).hif = s.hif := rfl
@[simp] theorem State.answer_flc (st : Nat) (d : List Nat) : (s.answer st d).flc = s.flc := rfl
@[simp] theorem State.answer_thm (st : Nat) (d : List Nat) : (s.answer st d).thm = s.thm := rfl
@[simp] theorem State.answer_hdg (st : Nat) (d : List Nat) : (s.answer st d).hdg = s.hdg := rfl
@[simp] theorem State.answer_units (st : Nat) (d : List Nat) : (s.answer st d).units = s.units := rfl
@[simp] theorem State.answer_fab (st : Nat) (d : List Nat) : (s.answer st d).fab = s.fab := rfl
@[simp] theorem State.answer_freeCtr (st : Nat) (d : List Nat) : (s.answer st d).freeCtr = s.freeCtr := rfl
@[simp] theorem State.answer_pending (st : Nat) (d : List Nat) : (s.answer st d).pending = s.pending := rfl
@[simp] theorem State.answer_resp (st : Nat) (d : List Nat) : (s.answer st d).resp = ⟨st, d⟩ := rfl
@[simp] theorem State.answer_get (st : Nat) (d : List Nat) (g : Fld) : (s.answer st d).get g = s.get g := rfl

/-! ### State.modFec -/

@[simp] theorem State.modFec_part (f : FecState → FecState) : (s.modFec f).part = s.part := rfl
@[simp] theorem State.modFec_regs (f : FecState → FecState) : (s.modFec f).regs = s.regs := rfl
@[simp] theorem State.modFec_latches (f : FecState → FecState) : (s.modFec f).latches = s.latches := rfl
@[simp] theorem State.modFec_port0 (f : FecState → FecState) : (s.modFec f).port0 = s.port0 := rfl
@[simp] theorem State.modFec_port1 (f : FecState → FecState) : (s.modFec f).port1 = s.port1 := rfl
@[simp] theorem State.modFec_jnl (f : FecState → FecState) : (s.modFec f).jnl = s.jnl := rfl
@[simp] theorem State.modFec_sram (f : FecState → FecState) : (s.modFec f).sram = s.sram := rfl
@[simp] theorem State.modFec_sramChk (f : FecState → FecState) : (s.modFec f).sramChk = s.sramChk := rfl
@[simp] theorem State.modFec_ecc (f : FecState → FecState) : (s.modFec f).ecc = s.ecc := rfl
@[simp] theorem State.modFec_pwr (f : FecState → FecState) : (s.modFec f).pwr = s.pwr := rfl
@[simp] theorem State.modFec_img (f : FecState → FecState) : (s.modFec f).img = s.img := rfl
@[simp] theorem State.modFec_fec (f : FecState → FecState) : (s.modFec f).fec = f s.fec := rfl
@[simp] theorem State.modFec_swc (f : FecState → FecState) : (s.modFec f).swc = s.swc := rfl
@[simp] theorem State.modFec_cli (f : FecState → FecState) : (s.modFec f).cli = s.cli := rfl
@[simp] theorem State.modFec_lcx (f : FecState → FecState) : (s.modFec f).lcx = s.lcx := rfl
@[simp] theorem State.modFec_mce (f : FecState → FecState) : (s.modFec f).mce = s.mce := rfl
@[simp] theorem State.modFec_clk (f : FecState → FecState) : (s.modFec f).clk = s.clk := rfl
@[simp] theorem State.modFec_sec (f : FecState → FecState) : (s.modFec f).sec = s.sec := rfl
@[simp] theorem State.modFec_stl (f : FecState → FecState) : (s.modFec f).stl = s.stl := rfl
@[simp] theorem State.modFec_pmc (f : FecState → FecState) : (s.modFec f).pmc = s.pmc := rfl
@[simp] theorem State.modFec_fmn (f : FecState → FecState) : (s.modFec f).fmn = s.fmn := rfl
@[simp] theorem State.modFec_hif (f : FecState → FecState) : (s.modFec f).hif = s.hif := rfl
@[simp] theorem State.modFec_flc (f : FecState → FecState) : (s.modFec f).flc = s.flc := rfl
@[simp] theorem State.modFec_thm (f : FecState → FecState) : (s.modFec f).thm = s.thm := rfl
@[simp] theorem State.modFec_hdg (f : FecState → FecState) : (s.modFec f).hdg = s.hdg := rfl
@[simp] theorem State.modFec_units (f : FecState → FecState) : (s.modFec f).units = s.units := rfl
@[simp] theorem State.modFec_fab (f : FecState → FecState) : (s.modFec f).fab = s.fab := rfl
@[simp] theorem State.modFec_resp (f : FecState → FecState) : (s.modFec f).resp = s.resp := rfl
@[simp] theorem State.modFec_freeCtr (f : FecState → FecState) : (s.modFec f).freeCtr = s.freeCtr := rfl
@[simp] theorem State.modFec_pending (f : FecState → FecState) : (s.modFec f).pending = s.pending := rfl
@[simp] theorem State.modFec_get (f : FecState → FecState) (g : Fld) : (s.modFec f).get g = s.get g := rfl

/-! ### State.modSwc -/

@[simp] theorem State.modSwc_part (f : SwcState → SwcState) : (s.modSwc f).part = s.part := rfl
@[simp] theorem State.modSwc_regs (f : SwcState → SwcState) : (s.modSwc f).regs = s.regs := rfl
@[simp] theorem State.modSwc_latches (f : SwcState → SwcState) : (s.modSwc f).latches = s.latches := rfl
@[simp] theorem State.modSwc_port0 (f : SwcState → SwcState) : (s.modSwc f).port0 = s.port0 := rfl
@[simp] theorem State.modSwc_port1 (f : SwcState → SwcState) : (s.modSwc f).port1 = s.port1 := rfl
@[simp] theorem State.modSwc_jnl (f : SwcState → SwcState) : (s.modSwc f).jnl = s.jnl := rfl
@[simp] theorem State.modSwc_sram (f : SwcState → SwcState) : (s.modSwc f).sram = s.sram := rfl
@[simp] theorem State.modSwc_sramChk (f : SwcState → SwcState) : (s.modSwc f).sramChk = s.sramChk := rfl
@[simp] theorem State.modSwc_ecc (f : SwcState → SwcState) : (s.modSwc f).ecc = s.ecc := rfl
@[simp] theorem State.modSwc_pwr (f : SwcState → SwcState) : (s.modSwc f).pwr = s.pwr := rfl
@[simp] theorem State.modSwc_img (f : SwcState → SwcState) : (s.modSwc f).img = s.img := rfl
@[simp] theorem State.modSwc_fec (f : SwcState → SwcState) : (s.modSwc f).fec = s.fec := rfl
@[simp] theorem State.modSwc_swc (f : SwcState → SwcState) : (s.modSwc f).swc = f s.swc := rfl
@[simp] theorem State.modSwc_cli (f : SwcState → SwcState) : (s.modSwc f).cli = s.cli := rfl
@[simp] theorem State.modSwc_lcx (f : SwcState → SwcState) : (s.modSwc f).lcx = s.lcx := rfl
@[simp] theorem State.modSwc_mce (f : SwcState → SwcState) : (s.modSwc f).mce = s.mce := rfl
@[simp] theorem State.modSwc_clk (f : SwcState → SwcState) : (s.modSwc f).clk = s.clk := rfl
@[simp] theorem State.modSwc_sec (f : SwcState → SwcState) : (s.modSwc f).sec = s.sec := rfl
@[simp] theorem State.modSwc_stl (f : SwcState → SwcState) : (s.modSwc f).stl = s.stl := rfl
@[simp] theorem State.modSwc_pmc (f : SwcState → SwcState) : (s.modSwc f).pmc = s.pmc := rfl
@[simp] theorem State.modSwc_fmn (f : SwcState → SwcState) : (s.modSwc f).fmn = s.fmn := rfl
@[simp] theorem State.modSwc_hif (f : SwcState → SwcState) : (s.modSwc f).hif = s.hif := rfl
@[simp] theorem State.modSwc_flc (f : SwcState → SwcState) : (s.modSwc f).flc = s.flc := rfl
@[simp] theorem State.modSwc_thm (f : SwcState → SwcState) : (s.modSwc f).thm = s.thm := rfl
@[simp] theorem State.modSwc_hdg (f : SwcState → SwcState) : (s.modSwc f).hdg = s.hdg := rfl
@[simp] theorem State.modSwc_units (f : SwcState → SwcState) : (s.modSwc f).units = s.units := rfl
@[simp] theorem State.modSwc_fab (f : SwcState → SwcState) : (s.modSwc f).fab = s.fab := rfl
@[simp] theorem State.modSwc_resp (f : SwcState → SwcState) : (s.modSwc f).resp = s.resp := rfl
@[simp] theorem State.modSwc_freeCtr (f : SwcState → SwcState) : (s.modSwc f).freeCtr = s.freeCtr := rfl
@[simp] theorem State.modSwc_pending (f : SwcState → SwcState) : (s.modSwc f).pending = s.pending := rfl
@[simp] theorem State.modSwc_get (f : SwcState → SwcState) (g : Fld) : (s.modSwc f).get g = s.get g := rfl

/-! ### State.modLcx -/

@[simp] theorem State.modLcx_part (f : LcxState → LcxState) : (s.modLcx f).part = s.part := rfl
@[simp] theorem State.modLcx_regs (f : LcxState → LcxState) : (s.modLcx f).regs = s.regs := rfl
@[simp] theorem State.modLcx_latches (f : LcxState → LcxState) : (s.modLcx f).latches = s.latches := rfl
@[simp] theorem State.modLcx_port0 (f : LcxState → LcxState) : (s.modLcx f).port0 = s.port0 := rfl
@[simp] theorem State.modLcx_port1 (f : LcxState → LcxState) : (s.modLcx f).port1 = s.port1 := rfl
@[simp] theorem State.modLcx_jnl (f : LcxState → LcxState) : (s.modLcx f).jnl = s.jnl := rfl
@[simp] theorem State.modLcx_sram (f : LcxState → LcxState) : (s.modLcx f).sram = s.sram := rfl
@[simp] theorem State.modLcx_sramChk (f : LcxState → LcxState) : (s.modLcx f).sramChk = s.sramChk := rfl
@[simp] theorem State.modLcx_ecc (f : LcxState → LcxState) : (s.modLcx f).ecc = s.ecc := rfl
@[simp] theorem State.modLcx_pwr (f : LcxState → LcxState) : (s.modLcx f).pwr = s.pwr := rfl
@[simp] theorem State.modLcx_img (f : LcxState → LcxState) : (s.modLcx f).img = s.img := rfl
@[simp] theorem State.modLcx_fec (f : LcxState → LcxState) : (s.modLcx f).fec = s.fec := rfl
@[simp] theorem State.modLcx_swc (f : LcxState → LcxState) : (s.modLcx f).swc = s.swc := rfl
@[simp] theorem State.modLcx_cli (f : LcxState → LcxState) : (s.modLcx f).cli = s.cli := rfl
@[simp] theorem State.modLcx_lcx (f : LcxState → LcxState) : (s.modLcx f).lcx = f s.lcx := rfl
@[simp] theorem State.modLcx_mce (f : LcxState → LcxState) : (s.modLcx f).mce = s.mce := rfl
@[simp] theorem State.modLcx_clk (f : LcxState → LcxState) : (s.modLcx f).clk = s.clk := rfl
@[simp] theorem State.modLcx_sec (f : LcxState → LcxState) : (s.modLcx f).sec = s.sec := rfl
@[simp] theorem State.modLcx_stl (f : LcxState → LcxState) : (s.modLcx f).stl = s.stl := rfl
@[simp] theorem State.modLcx_pmc (f : LcxState → LcxState) : (s.modLcx f).pmc = s.pmc := rfl
@[simp] theorem State.modLcx_fmn (f : LcxState → LcxState) : (s.modLcx f).fmn = s.fmn := rfl
@[simp] theorem State.modLcx_hif (f : LcxState → LcxState) : (s.modLcx f).hif = s.hif := rfl
@[simp] theorem State.modLcx_flc (f : LcxState → LcxState) : (s.modLcx f).flc = s.flc := rfl
@[simp] theorem State.modLcx_thm (f : LcxState → LcxState) : (s.modLcx f).thm = s.thm := rfl
@[simp] theorem State.modLcx_hdg (f : LcxState → LcxState) : (s.modLcx f).hdg = s.hdg := rfl
@[simp] theorem State.modLcx_units (f : LcxState → LcxState) : (s.modLcx f).units = s.units := rfl
@[simp] theorem State.modLcx_fab (f : LcxState → LcxState) : (s.modLcx f).fab = s.fab := rfl
@[simp] theorem State.modLcx_resp (f : LcxState → LcxState) : (s.modLcx f).resp = s.resp := rfl
@[simp] theorem State.modLcx_freeCtr (f : LcxState → LcxState) : (s.modLcx f).freeCtr = s.freeCtr := rfl
@[simp] theorem State.modLcx_pending (f : LcxState → LcxState) : (s.modLcx f).pending = s.pending := rfl
@[simp] theorem State.modLcx_get (f : LcxState → LcxState) (g : Fld) : (s.modLcx f).get g = s.get g := rfl

/-! ### State.modMce -/

@[simp] theorem State.modMce_part (f : MceState → MceState) : (s.modMce f).part = s.part := rfl
@[simp] theorem State.modMce_regs (f : MceState → MceState) : (s.modMce f).regs = s.regs := rfl
@[simp] theorem State.modMce_latches (f : MceState → MceState) : (s.modMce f).latches = s.latches := rfl
@[simp] theorem State.modMce_port0 (f : MceState → MceState) : (s.modMce f).port0 = s.port0 := rfl
@[simp] theorem State.modMce_port1 (f : MceState → MceState) : (s.modMce f).port1 = s.port1 := rfl
@[simp] theorem State.modMce_jnl (f : MceState → MceState) : (s.modMce f).jnl = s.jnl := rfl
@[simp] theorem State.modMce_sram (f : MceState → MceState) : (s.modMce f).sram = s.sram := rfl
@[simp] theorem State.modMce_sramChk (f : MceState → MceState) : (s.modMce f).sramChk = s.sramChk := rfl
@[simp] theorem State.modMce_ecc (f : MceState → MceState) : (s.modMce f).ecc = s.ecc := rfl
@[simp] theorem State.modMce_pwr (f : MceState → MceState) : (s.modMce f).pwr = s.pwr := rfl
@[simp] theorem State.modMce_img (f : MceState → MceState) : (s.modMce f).img = s.img := rfl
@[simp] theorem State.modMce_fec (f : MceState → MceState) : (s.modMce f).fec = s.fec := rfl
@[simp] theorem State.modMce_swc (f : MceState → MceState) : (s.modMce f).swc = s.swc := rfl
@[simp] theorem State.modMce_cli (f : MceState → MceState) : (s.modMce f).cli = s.cli := rfl
@[simp] theorem State.modMce_lcx (f : MceState → MceState) : (s.modMce f).lcx = s.lcx := rfl
@[simp] theorem State.modMce_mce (f : MceState → MceState) : (s.modMce f).mce = f s.mce := rfl
@[simp] theorem State.modMce_clk (f : MceState → MceState) : (s.modMce f).clk = s.clk := rfl
@[simp] theorem State.modMce_sec (f : MceState → MceState) : (s.modMce f).sec = s.sec := rfl
@[simp] theorem State.modMce_stl (f : MceState → MceState) : (s.modMce f).stl = s.stl := rfl
@[simp] theorem State.modMce_pmc (f : MceState → MceState) : (s.modMce f).pmc = s.pmc := rfl
@[simp] theorem State.modMce_fmn (f : MceState → MceState) : (s.modMce f).fmn = s.fmn := rfl
@[simp] theorem State.modMce_hif (f : MceState → MceState) : (s.modMce f).hif = s.hif := rfl
@[simp] theorem State.modMce_flc (f : MceState → MceState) : (s.modMce f).flc = s.flc := rfl
@[simp] theorem State.modMce_thm (f : MceState → MceState) : (s.modMce f).thm = s.thm := rfl
@[simp] theorem State.modMce_hdg (f : MceState → MceState) : (s.modMce f).hdg = s.hdg := rfl
@[simp] theorem State.modMce_units (f : MceState → MceState) : (s.modMce f).units = s.units := rfl
@[simp] theorem State.modMce_fab (f : MceState → MceState) : (s.modMce f).fab = s.fab := rfl
@[simp] theorem State.modMce_resp (f : MceState → MceState) : (s.modMce f).resp = s.resp := rfl
@[simp] theorem State.modMce_freeCtr (f : MceState → MceState) : (s.modMce f).freeCtr = s.freeCtr := rfl
@[simp] theorem State.modMce_pending (f : MceState → MceState) : (s.modMce f).pending = s.pending := rfl
@[simp] theorem State.modMce_get (f : MceState → MceState) (g : Fld) : (s.modMce f).get g = s.get g := rfl

/-! ### State.modClk -/

@[simp] theorem State.modClk_part (f : ClkState → ClkState) : (s.modClk f).part = s.part := rfl
@[simp] theorem State.modClk_regs (f : ClkState → ClkState) : (s.modClk f).regs = s.regs := rfl
@[simp] theorem State.modClk_latches (f : ClkState → ClkState) : (s.modClk f).latches = s.latches := rfl
@[simp] theorem State.modClk_port0 (f : ClkState → ClkState) : (s.modClk f).port0 = s.port0 := rfl
@[simp] theorem State.modClk_port1 (f : ClkState → ClkState) : (s.modClk f).port1 = s.port1 := rfl
@[simp] theorem State.modClk_jnl (f : ClkState → ClkState) : (s.modClk f).jnl = s.jnl := rfl
@[simp] theorem State.modClk_sram (f : ClkState → ClkState) : (s.modClk f).sram = s.sram := rfl
@[simp] theorem State.modClk_sramChk (f : ClkState → ClkState) : (s.modClk f).sramChk = s.sramChk := rfl
@[simp] theorem State.modClk_ecc (f : ClkState → ClkState) : (s.modClk f).ecc = s.ecc := rfl
@[simp] theorem State.modClk_pwr (f : ClkState → ClkState) : (s.modClk f).pwr = s.pwr := rfl
@[simp] theorem State.modClk_img (f : ClkState → ClkState) : (s.modClk f).img = s.img := rfl
@[simp] theorem State.modClk_fec (f : ClkState → ClkState) : (s.modClk f).fec = s.fec := rfl
@[simp] theorem State.modClk_swc (f : ClkState → ClkState) : (s.modClk f).swc = s.swc := rfl
@[simp] theorem State.modClk_cli (f : ClkState → ClkState) : (s.modClk f).cli = s.cli := rfl
@[simp] theorem State.modClk_lcx (f : ClkState → ClkState) : (s.modClk f).lcx = s.lcx := rfl
@[simp] theorem State.modClk_mce (f : ClkState → ClkState) : (s.modClk f).mce = s.mce := rfl
@[simp] theorem State.modClk_clk (f : ClkState → ClkState) : (s.modClk f).clk = f s.clk := rfl
@[simp] theorem State.modClk_sec (f : ClkState → ClkState) : (s.modClk f).sec = s.sec := rfl
@[simp] theorem State.modClk_stl (f : ClkState → ClkState) : (s.modClk f).stl = s.stl := rfl
@[simp] theorem State.modClk_pmc (f : ClkState → ClkState) : (s.modClk f).pmc = s.pmc := rfl
@[simp] theorem State.modClk_fmn (f : ClkState → ClkState) : (s.modClk f).fmn = s.fmn := rfl
@[simp] theorem State.modClk_hif (f : ClkState → ClkState) : (s.modClk f).hif = s.hif := rfl
@[simp] theorem State.modClk_flc (f : ClkState → ClkState) : (s.modClk f).flc = s.flc := rfl
@[simp] theorem State.modClk_thm (f : ClkState → ClkState) : (s.modClk f).thm = s.thm := rfl
@[simp] theorem State.modClk_hdg (f : ClkState → ClkState) : (s.modClk f).hdg = s.hdg := rfl
@[simp] theorem State.modClk_units (f : ClkState → ClkState) : (s.modClk f).units = s.units := rfl
@[simp] theorem State.modClk_fab (f : ClkState → ClkState) : (s.modClk f).fab = s.fab := rfl
@[simp] theorem State.modClk_resp (f : ClkState → ClkState) : (s.modClk f).resp = s.resp := rfl
@[simp] theorem State.modClk_freeCtr (f : ClkState → ClkState) : (s.modClk f).freeCtr = s.freeCtr := rfl
@[simp] theorem State.modClk_pending (f : ClkState → ClkState) : (s.modClk f).pending = s.pending := rfl
@[simp] theorem State.modClk_get (f : ClkState → ClkState) (g : Fld) : (s.modClk f).get g = s.get g := rfl

/-! ### State.modSec -/

@[simp] theorem State.modSec_part (f : SecState → SecState) : (s.modSec f).part = s.part := rfl
@[simp] theorem State.modSec_regs (f : SecState → SecState) : (s.modSec f).regs = s.regs := rfl
@[simp] theorem State.modSec_latches (f : SecState → SecState) : (s.modSec f).latches = s.latches := rfl
@[simp] theorem State.modSec_port0 (f : SecState → SecState) : (s.modSec f).port0 = s.port0 := rfl
@[simp] theorem State.modSec_port1 (f : SecState → SecState) : (s.modSec f).port1 = s.port1 := rfl
@[simp] theorem State.modSec_jnl (f : SecState → SecState) : (s.modSec f).jnl = s.jnl := rfl
@[simp] theorem State.modSec_sram (f : SecState → SecState) : (s.modSec f).sram = s.sram := rfl
@[simp] theorem State.modSec_sramChk (f : SecState → SecState) : (s.modSec f).sramChk = s.sramChk := rfl
@[simp] theorem State.modSec_ecc (f : SecState → SecState) : (s.modSec f).ecc = s.ecc := rfl
@[simp] theorem State.modSec_pwr (f : SecState → SecState) : (s.modSec f).pwr = s.pwr := rfl
@[simp] theorem State.modSec_img (f : SecState → SecState) : (s.modSec f).img = s.img := rfl
@[simp] theorem State.modSec_fec (f : SecState → SecState) : (s.modSec f).fec = s.fec := rfl
@[simp] theorem State.modSec_swc (f : SecState → SecState) : (s.modSec f).swc = s.swc := rfl
@[simp] theorem State.modSec_cli (f : SecState → SecState) : (s.modSec f).cli = s.cli := rfl
@[simp] theorem State.modSec_lcx (f : SecState → SecState) : (s.modSec f).lcx = s.lcx := rfl
@[simp] theorem State.modSec_mce (f : SecState → SecState) : (s.modSec f).mce = s.mce := rfl
@[simp] theorem State.modSec_clk (f : SecState → SecState) : (s.modSec f).clk = s.clk := rfl
@[simp] theorem State.modSec_sec (f : SecState → SecState) : (s.modSec f).sec = f s.sec := rfl
@[simp] theorem State.modSec_stl (f : SecState → SecState) : (s.modSec f).stl = s.stl := rfl
@[simp] theorem State.modSec_pmc (f : SecState → SecState) : (s.modSec f).pmc = s.pmc := rfl
@[simp] theorem State.modSec_fmn (f : SecState → SecState) : (s.modSec f).fmn = s.fmn := rfl
@[simp] theorem State.modSec_hif (f : SecState → SecState) : (s.modSec f).hif = s.hif := rfl
@[simp] theorem State.modSec_flc (f : SecState → SecState) : (s.modSec f).flc = s.flc := rfl
@[simp] theorem State.modSec_thm (f : SecState → SecState) : (s.modSec f).thm = s.thm := rfl
@[simp] theorem State.modSec_hdg (f : SecState → SecState) : (s.modSec f).hdg = s.hdg := rfl
@[simp] theorem State.modSec_units (f : SecState → SecState) : (s.modSec f).units = s.units := rfl
@[simp] theorem State.modSec_fab (f : SecState → SecState) : (s.modSec f).fab = s.fab := rfl
@[simp] theorem State.modSec_resp (f : SecState → SecState) : (s.modSec f).resp = s.resp := rfl
@[simp] theorem State.modSec_freeCtr (f : SecState → SecState) : (s.modSec f).freeCtr = s.freeCtr := rfl
@[simp] theorem State.modSec_pending (f : SecState → SecState) : (s.modSec f).pending = s.pending := rfl
@[simp] theorem State.modSec_get (f : SecState → SecState) (g : Fld) : (s.modSec f).get g = s.get g := rfl

/-! ### State.modStl -/

@[simp] theorem State.modStl_part (f : StlState → StlState) : (s.modStl f).part = s.part := rfl
@[simp] theorem State.modStl_regs (f : StlState → StlState) : (s.modStl f).regs = s.regs := rfl
@[simp] theorem State.modStl_latches (f : StlState → StlState) : (s.modStl f).latches = s.latches := rfl
@[simp] theorem State.modStl_port0 (f : StlState → StlState) : (s.modStl f).port0 = s.port0 := rfl
@[simp] theorem State.modStl_port1 (f : StlState → StlState) : (s.modStl f).port1 = s.port1 := rfl
@[simp] theorem State.modStl_jnl (f : StlState → StlState) : (s.modStl f).jnl = s.jnl := rfl
@[simp] theorem State.modStl_sram (f : StlState → StlState) : (s.modStl f).sram = s.sram := rfl
@[simp] theorem State.modStl_sramChk (f : StlState → StlState) : (s.modStl f).sramChk = s.sramChk := rfl
@[simp] theorem State.modStl_ecc (f : StlState → StlState) : (s.modStl f).ecc = s.ecc := rfl
@[simp] theorem State.modStl_pwr (f : StlState → StlState) : (s.modStl f).pwr = s.pwr := rfl
@[simp] theorem State.modStl_img (f : StlState → StlState) : (s.modStl f).img = s.img := rfl
@[simp] theorem State.modStl_fec (f : StlState → StlState) : (s.modStl f).fec = s.fec := rfl
@[simp] theorem State.modStl_swc (f : StlState → StlState) : (s.modStl f).swc = s.swc := rfl
@[simp] theorem State.modStl_cli (f : StlState → StlState) : (s.modStl f).cli = s.cli := rfl
@[simp] theorem State.modStl_lcx (f : StlState → StlState) : (s.modStl f).lcx = s.lcx := rfl
@[simp] theorem State.modStl_mce (f : StlState → StlState) : (s.modStl f).mce = s.mce := rfl
@[simp] theorem State.modStl_clk (f : StlState → StlState) : (s.modStl f).clk = s.clk := rfl
@[simp] theorem State.modStl_sec (f : StlState → StlState) : (s.modStl f).sec = s.sec := rfl
@[simp] theorem State.modStl_stl (f : StlState → StlState) : (s.modStl f).stl = f s.stl := rfl
@[simp] theorem State.modStl_pmc (f : StlState → StlState) : (s.modStl f).pmc = s.pmc := rfl
@[simp] theorem State.modStl_fmn (f : StlState → StlState) : (s.modStl f).fmn = s.fmn := rfl
@[simp] theorem State.modStl_hif (f : StlState → StlState) : (s.modStl f).hif = s.hif := rfl
@[simp] theorem State.modStl_flc (f : StlState → StlState) : (s.modStl f).flc = s.flc := rfl
@[simp] theorem State.modStl_thm (f : StlState → StlState) : (s.modStl f).thm = s.thm := rfl
@[simp] theorem State.modStl_hdg (f : StlState → StlState) : (s.modStl f).hdg = s.hdg := rfl
@[simp] theorem State.modStl_units (f : StlState → StlState) : (s.modStl f).units = s.units := rfl
@[simp] theorem State.modStl_fab (f : StlState → StlState) : (s.modStl f).fab = s.fab := rfl
@[simp] theorem State.modStl_resp (f : StlState → StlState) : (s.modStl f).resp = s.resp := rfl
@[simp] theorem State.modStl_freeCtr (f : StlState → StlState) : (s.modStl f).freeCtr = s.freeCtr := rfl
@[simp] theorem State.modStl_pending (f : StlState → StlState) : (s.modStl f).pending = s.pending := rfl
@[simp] theorem State.modStl_get (f : StlState → StlState) (g : Fld) : (s.modStl f).get g = s.get g := rfl

/-! ### State.modHif -/

@[simp] theorem State.modHif_part (f : HifState → HifState) : (s.modHif f).part = s.part := rfl
@[simp] theorem State.modHif_regs (f : HifState → HifState) : (s.modHif f).regs = s.regs := rfl
@[simp] theorem State.modHif_latches (f : HifState → HifState) : (s.modHif f).latches = s.latches := rfl
@[simp] theorem State.modHif_port0 (f : HifState → HifState) : (s.modHif f).port0 = s.port0 := rfl
@[simp] theorem State.modHif_port1 (f : HifState → HifState) : (s.modHif f).port1 = s.port1 := rfl
@[simp] theorem State.modHif_jnl (f : HifState → HifState) : (s.modHif f).jnl = s.jnl := rfl
@[simp] theorem State.modHif_sram (f : HifState → HifState) : (s.modHif f).sram = s.sram := rfl
@[simp] theorem State.modHif_sramChk (f : HifState → HifState) : (s.modHif f).sramChk = s.sramChk := rfl
@[simp] theorem State.modHif_ecc (f : HifState → HifState) : (s.modHif f).ecc = s.ecc := rfl
@[simp] theorem State.modHif_pwr (f : HifState → HifState) : (s.modHif f).pwr = s.pwr := rfl
@[simp] theorem State.modHif_img (f : HifState → HifState) : (s.modHif f).img = s.img := rfl
@[simp] theorem State.modHif_fec (f : HifState → HifState) : (s.modHif f).fec = s.fec := rfl
@[simp] theorem State.modHif_swc (f : HifState → HifState) : (s.modHif f).swc = s.swc := rfl
@[simp] theorem State.modHif_cli (f : HifState → HifState) : (s.modHif f).cli = s.cli := rfl
@[simp] theorem State.modHif_lcx (f : HifState → HifState) : (s.modHif f).lcx = s.lcx := rfl
@[simp] theorem State.modHif_mce (f : HifState → HifState) : (s.modHif f).mce = s.mce := rfl
@[simp] theorem State.modHif_clk (f : HifState → HifState) : (s.modHif f).clk = s.clk := rfl
@[simp] theorem State.modHif_sec (f : HifState → HifState) : (s.modHif f).sec = s.sec := rfl
@[simp] theorem State.modHif_stl (f : HifState → HifState) : (s.modHif f).stl = s.stl := rfl
@[simp] theorem State.modHif_pmc (f : HifState → HifState) : (s.modHif f).pmc = s.pmc := rfl
@[simp] theorem State.modHif_fmn (f : HifState → HifState) : (s.modHif f).fmn = s.fmn := rfl
@[simp] theorem State.modHif_hif (f : HifState → HifState) : (s.modHif f).hif = f s.hif := rfl
@[simp] theorem State.modHif_flc (f : HifState → HifState) : (s.modHif f).flc = s.flc := rfl
@[simp] theorem State.modHif_thm (f : HifState → HifState) : (s.modHif f).thm = s.thm := rfl
@[simp] theorem State.modHif_hdg (f : HifState → HifState) : (s.modHif f).hdg = s.hdg := rfl
@[simp] theorem State.modHif_units (f : HifState → HifState) : (s.modHif f).units = s.units := rfl
@[simp] theorem State.modHif_fab (f : HifState → HifState) : (s.modHif f).fab = s.fab := rfl
@[simp] theorem State.modHif_resp (f : HifState → HifState) : (s.modHif f).resp = s.resp := rfl
@[simp] theorem State.modHif_freeCtr (f : HifState → HifState) : (s.modHif f).freeCtr = s.freeCtr := rfl
@[simp] theorem State.modHif_pending (f : HifState → HifState) : (s.modHif f).pending = s.pending := rfl
@[simp] theorem State.modHif_get (f : HifState → HifState) (g : Fld) : (s.modHif f).get g = s.get g := rfl

/-! ### State.modFlc -/

@[simp] theorem State.modFlc_part (f : FlashState → FlashState) : (s.modFlc f).part = s.part := rfl
@[simp] theorem State.modFlc_regs (f : FlashState → FlashState) : (s.modFlc f).regs = s.regs := rfl
@[simp] theorem State.modFlc_latches (f : FlashState → FlashState) : (s.modFlc f).latches = s.latches := rfl
@[simp] theorem State.modFlc_port0 (f : FlashState → FlashState) : (s.modFlc f).port0 = s.port0 := rfl
@[simp] theorem State.modFlc_port1 (f : FlashState → FlashState) : (s.modFlc f).port1 = s.port1 := rfl
@[simp] theorem State.modFlc_jnl (f : FlashState → FlashState) : (s.modFlc f).jnl = s.jnl := rfl
@[simp] theorem State.modFlc_sram (f : FlashState → FlashState) : (s.modFlc f).sram = s.sram := rfl
@[simp] theorem State.modFlc_sramChk (f : FlashState → FlashState) : (s.modFlc f).sramChk = s.sramChk := rfl
@[simp] theorem State.modFlc_ecc (f : FlashState → FlashState) : (s.modFlc f).ecc = s.ecc := rfl
@[simp] theorem State.modFlc_pwr (f : FlashState → FlashState) : (s.modFlc f).pwr = s.pwr := rfl
@[simp] theorem State.modFlc_img (f : FlashState → FlashState) : (s.modFlc f).img = s.img := rfl
@[simp] theorem State.modFlc_fec (f : FlashState → FlashState) : (s.modFlc f).fec = s.fec := rfl
@[simp] theorem State.modFlc_swc (f : FlashState → FlashState) : (s.modFlc f).swc = s.swc := rfl
@[simp] theorem State.modFlc_cli (f : FlashState → FlashState) : (s.modFlc f).cli = s.cli := rfl
@[simp] theorem State.modFlc_lcx (f : FlashState → FlashState) : (s.modFlc f).lcx = s.lcx := rfl
@[simp] theorem State.modFlc_mce (f : FlashState → FlashState) : (s.modFlc f).mce = s.mce := rfl
@[simp] theorem State.modFlc_clk (f : FlashState → FlashState) : (s.modFlc f).clk = s.clk := rfl
@[simp] theorem State.modFlc_sec (f : FlashState → FlashState) : (s.modFlc f).sec = s.sec := rfl
@[simp] theorem State.modFlc_stl (f : FlashState → FlashState) : (s.modFlc f).stl = s.stl := rfl
@[simp] theorem State.modFlc_pmc (f : FlashState → FlashState) : (s.modFlc f).pmc = s.pmc := rfl
@[simp] theorem State.modFlc_fmn (f : FlashState → FlashState) : (s.modFlc f).fmn = s.fmn := rfl
@[simp] theorem State.modFlc_hif (f : FlashState → FlashState) : (s.modFlc f).hif = s.hif := rfl
@[simp] theorem State.modFlc_flc (f : FlashState → FlashState) : (s.modFlc f).flc = f s.flc := rfl
@[simp] theorem State.modFlc_thm (f : FlashState → FlashState) : (s.modFlc f).thm = s.thm := rfl
@[simp] theorem State.modFlc_hdg (f : FlashState → FlashState) : (s.modFlc f).hdg = s.hdg := rfl
@[simp] theorem State.modFlc_units (f : FlashState → FlashState) : (s.modFlc f).units = s.units := rfl
@[simp] theorem State.modFlc_fab (f : FlashState → FlashState) : (s.modFlc f).fab = s.fab := rfl
@[simp] theorem State.modFlc_resp (f : FlashState → FlashState) : (s.modFlc f).resp = s.resp := rfl
@[simp] theorem State.modFlc_freeCtr (f : FlashState → FlashState) : (s.modFlc f).freeCtr = s.freeCtr := rfl
@[simp] theorem State.modFlc_pending (f : FlashState → FlashState) : (s.modFlc f).pending = s.pending := rfl
@[simp] theorem State.modFlc_get (f : FlashState → FlashState) (g : Fld) : (s.modFlc f).get g = s.get g := rfl

/-! ### State.modThm -/

@[simp] theorem State.modThm_part (f : ThmState → ThmState) : (s.modThm f).part = s.part := rfl
@[simp] theorem State.modThm_regs (f : ThmState → ThmState) : (s.modThm f).regs = s.regs := rfl
@[simp] theorem State.modThm_latches (f : ThmState → ThmState) : (s.modThm f).latches = s.latches := rfl
@[simp] theorem State.modThm_port0 (f : ThmState → ThmState) : (s.modThm f).port0 = s.port0 := rfl
@[simp] theorem State.modThm_port1 (f : ThmState → ThmState) : (s.modThm f).port1 = s.port1 := rfl
@[simp] theorem State.modThm_jnl (f : ThmState → ThmState) : (s.modThm f).jnl = s.jnl := rfl
@[simp] theorem State.modThm_sram (f : ThmState → ThmState) : (s.modThm f).sram = s.sram := rfl
@[simp] theorem State.modThm_sramChk (f : ThmState → ThmState) : (s.modThm f).sramChk = s.sramChk := rfl
@[simp] theorem State.modThm_ecc (f : ThmState → ThmState) : (s.modThm f).ecc = s.ecc := rfl
@[simp] theorem State.modThm_pwr (f : ThmState → ThmState) : (s.modThm f).pwr = s.pwr := rfl
@[simp] theorem State.modThm_img (f : ThmState → ThmState) : (s.modThm f).img = s.img := rfl
@[simp] theorem State.modThm_fec (f : ThmState → ThmState) : (s.modThm f).fec = s.fec := rfl
@[simp] theorem State.modThm_swc (f : ThmState → ThmState) : (s.modThm f).swc = s.swc := rfl
@[simp] theorem State.modThm_cli (f : ThmState → ThmState) : (s.modThm f).cli = s.cli := rfl
@[simp] theorem State.modThm_lcx (f : ThmState → ThmState) : (s.modThm f).lcx = s.lcx := rfl
@[simp] theorem State.modThm_mce (f : ThmState → ThmState) : (s.modThm f).mce = s.mce := rfl
@[simp] theorem State.modThm_clk (f : ThmState → ThmState) : (s.modThm f).clk = s.clk := rfl
@[simp] theorem State.modThm_sec (f : ThmState → ThmState) : (s.modThm f).sec = s.sec := rfl
@[simp] theorem State.modThm_stl (f : ThmState → ThmState) : (s.modThm f).stl = s.stl := rfl
@[simp] theorem State.modThm_pmc (f : ThmState → ThmState) : (s.modThm f).pmc = s.pmc := rfl
@[simp] theorem State.modThm_fmn (f : ThmState → ThmState) : (s.modThm f).fmn = s.fmn := rfl
@[simp] theorem State.modThm_hif (f : ThmState → ThmState) : (s.modThm f).hif = s.hif := rfl
@[simp] theorem State.modThm_flc (f : ThmState → ThmState) : (s.modThm f).flc = s.flc := rfl
@[simp] theorem State.modThm_thm (f : ThmState → ThmState) : (s.modThm f).thm = f s.thm := rfl
@[simp] theorem State.modThm_hdg (f : ThmState → ThmState) : (s.modThm f).hdg = s.hdg := rfl
@[simp] theorem State.modThm_units (f : ThmState → ThmState) : (s.modThm f).units = s.units := rfl
@[simp] theorem State.modThm_fab (f : ThmState → ThmState) : (s.modThm f).fab = s.fab := rfl
@[simp] theorem State.modThm_resp (f : ThmState → ThmState) : (s.modThm f).resp = s.resp := rfl
@[simp] theorem State.modThm_freeCtr (f : ThmState → ThmState) : (s.modThm f).freeCtr = s.freeCtr := rfl
@[simp] theorem State.modThm_pending (f : ThmState → ThmState) : (s.modThm f).pending = s.pending := rfl
@[simp] theorem State.modThm_get (f : ThmState → ThmState) (g : Fld) : (s.modThm f).get g = s.get g := rfl

/-! ### State.modHdg -/

@[simp] theorem State.modHdg_part (f : HdgState → HdgState) : (s.modHdg f).part = s.part := rfl
@[simp] theorem State.modHdg_regs (f : HdgState → HdgState) : (s.modHdg f).regs = s.regs := rfl
@[simp] theorem State.modHdg_latches (f : HdgState → HdgState) : (s.modHdg f).latches = s.latches := rfl
@[simp] theorem State.modHdg_port0 (f : HdgState → HdgState) : (s.modHdg f).port0 = s.port0 := rfl
@[simp] theorem State.modHdg_port1 (f : HdgState → HdgState) : (s.modHdg f).port1 = s.port1 := rfl
@[simp] theorem State.modHdg_jnl (f : HdgState → HdgState) : (s.modHdg f).jnl = s.jnl := rfl
@[simp] theorem State.modHdg_sram (f : HdgState → HdgState) : (s.modHdg f).sram = s.sram := rfl
@[simp] theorem State.modHdg_sramChk (f : HdgState → HdgState) : (s.modHdg f).sramChk = s.sramChk := rfl
@[simp] theorem State.modHdg_ecc (f : HdgState → HdgState) : (s.modHdg f).ecc = s.ecc := rfl
@[simp] theorem State.modHdg_pwr (f : HdgState → HdgState) : (s.modHdg f).pwr = s.pwr := rfl
@[simp] theorem State.modHdg_img (f : HdgState → HdgState) : (s.modHdg f).img = s.img := rfl
@[simp] theorem State.modHdg_fec (f : HdgState → HdgState) : (s.modHdg f).fec = s.fec := rfl
@[simp] theorem State.modHdg_swc (f : HdgState → HdgState) : (s.modHdg f).swc = s.swc := rfl
@[simp] theorem State.modHdg_cli (f : HdgState → HdgState) : (s.modHdg f).cli = s.cli := rfl
@[simp] theorem State.modHdg_lcx (f : HdgState → HdgState) : (s.modHdg f).lcx = s.lcx := rfl
@[simp] theorem State.modHdg_mce (f : HdgState → HdgState) : (s.modHdg f).mce = s.mce := rfl
@[simp] theorem State.modHdg_clk (f : HdgState → HdgState) : (s.modHdg f).clk = s.clk := rfl
@[simp] theorem State.modHdg_sec (f : HdgState → HdgState) : (s.modHdg f).sec = s.sec := rfl
@[simp] theorem State.modHdg_stl (f : HdgState → HdgState) : (s.modHdg f).stl = s.stl := rfl
@[simp] theorem State.modHdg_pmc (f : HdgState → HdgState) : (s.modHdg f).pmc = s.pmc := rfl
@[simp] theorem State.modHdg_fmn (f : HdgState → HdgState) : (s.modHdg f).fmn = s.fmn := rfl
@[simp] theorem State.modHdg_hif (f : HdgState → HdgState) : (s.modHdg f).hif = s.hif := rfl
@[simp] theorem State.modHdg_flc (f : HdgState → HdgState) : (s.modHdg f).flc = s.flc := rfl
@[simp] theorem State.modHdg_thm (f : HdgState → HdgState) : (s.modHdg f).thm = s.thm := rfl
@[simp] theorem State.modHdg_hdg (f : HdgState → HdgState) : (s.modHdg f).hdg = f s.hdg := rfl
@[simp] theorem State.modHdg_units (f : HdgState → HdgState) : (s.modHdg f).units = s.units := rfl
@[simp] theorem State.modHdg_fab (f : HdgState → HdgState) : (s.modHdg f).fab = s.fab := rfl
@[simp] theorem State.modHdg_resp (f : HdgState → HdgState) : (s.modHdg f).resp = s.resp := rfl
@[simp] theorem State.modHdg_freeCtr (f : HdgState → HdgState) : (s.modHdg f).freeCtr = s.freeCtr := rfl
@[simp] theorem State.modHdg_pending (f : HdgState → HdgState) : (s.modHdg f).pending = s.pending := rfl
@[simp] theorem State.modHdg_get (f : HdgState → HdgState) (g : Fld) : (s.modHdg f).get g = s.get g := rfl

/-! ### State.modUnits -/

@[simp] theorem State.modUnits_part (f : UnitState → UnitState) : (s.modUnits f).part = s.part := rfl
@[simp] theorem State.modUnits_regs (f : UnitState → UnitState) : (s.modUnits f).regs = s.regs := rfl
@[simp] theorem State.modUnits_latches (f : UnitState → UnitState) : (s.modUnits f).latches = s.latches := rfl
@[simp] theorem State.modUnits_port0 (f : UnitState → UnitState) : (s.modUnits f).port0 = s.port0 := rfl
@[simp] theorem State.modUnits_port1 (f : UnitState → UnitState) : (s.modUnits f).port1 = s.port1 := rfl
@[simp] theorem State.modUnits_jnl (f : UnitState → UnitState) : (s.modUnits f).jnl = s.jnl := rfl
@[simp] theorem State.modUnits_sram (f : UnitState → UnitState) : (s.modUnits f).sram = s.sram := rfl
@[simp] theorem State.modUnits_sramChk (f : UnitState → UnitState) : (s.modUnits f).sramChk = s.sramChk := rfl
@[simp] theorem State.modUnits_ecc (f : UnitState → UnitState) : (s.modUnits f).ecc = s.ecc := rfl
@[simp] theorem State.modUnits_pwr (f : UnitState → UnitState) : (s.modUnits f).pwr = s.pwr := rfl
@[simp] theorem State.modUnits_img (f : UnitState → UnitState) : (s.modUnits f).img = s.img := rfl
@[simp] theorem State.modUnits_fec (f : UnitState → UnitState) : (s.modUnits f).fec = s.fec := rfl
@[simp] theorem State.modUnits_swc (f : UnitState → UnitState) : (s.modUnits f).swc = s.swc := rfl
@[simp] theorem State.modUnits_cli (f : UnitState → UnitState) : (s.modUnits f).cli = s.cli := rfl
@[simp] theorem State.modUnits_lcx (f : UnitState → UnitState) : (s.modUnits f).lcx = s.lcx := rfl
@[simp] theorem State.modUnits_mce (f : UnitState → UnitState) : (s.modUnits f).mce = s.mce := rfl
@[simp] theorem State.modUnits_clk (f : UnitState → UnitState) : (s.modUnits f).clk = s.clk := rfl
@[simp] theorem State.modUnits_sec (f : UnitState → UnitState) : (s.modUnits f).sec = s.sec := rfl
@[simp] theorem State.modUnits_stl (f : UnitState → UnitState) : (s.modUnits f).stl = s.stl := rfl
@[simp] theorem State.modUnits_pmc (f : UnitState → UnitState) : (s.modUnits f).pmc = s.pmc := rfl
@[simp] theorem State.modUnits_fmn (f : UnitState → UnitState) : (s.modUnits f).fmn = s.fmn := rfl
@[simp] theorem State.modUnits_hif (f : UnitState → UnitState) : (s.modUnits f).hif = s.hif := rfl
@[simp] theorem State.modUnits_flc (f : UnitState → UnitState) : (s.modUnits f).flc = s.flc := rfl
@[simp] theorem State.modUnits_thm (f : UnitState → UnitState) : (s.modUnits f).thm = s.thm := rfl
@[simp] theorem State.modUnits_hdg (f : UnitState → UnitState) : (s.modUnits f).hdg = s.hdg := rfl
@[simp] theorem State.modUnits_units (f : UnitState → UnitState) : (s.modUnits f).units = f s.units := rfl
@[simp] theorem State.modUnits_fab (f : UnitState → UnitState) : (s.modUnits f).fab = s.fab := rfl
@[simp] theorem State.modUnits_resp (f : UnitState → UnitState) : (s.modUnits f).resp = s.resp := rfl
@[simp] theorem State.modUnits_freeCtr (f : UnitState → UnitState) : (s.modUnits f).freeCtr = s.freeCtr := rfl
@[simp] theorem State.modUnits_pending (f : UnitState → UnitState) : (s.modUnits f).pending = s.pending := rfl
@[simp] theorem State.modUnits_get (f : UnitState → UnitState) (g : Fld) : (s.modUnits f).get g = s.get g := rfl

/-! ### State.modImg -/

@[simp] theorem State.modImg_part (f : ImgState → ImgState) : (s.modImg f).part = s.part := rfl
@[simp] theorem State.modImg_regs (f : ImgState → ImgState) : (s.modImg f).regs = s.regs := rfl
@[simp] theorem State.modImg_latches (f : ImgState → ImgState) : (s.modImg f).latches = s.latches := rfl
@[simp] theorem State.modImg_port0 (f : ImgState → ImgState) : (s.modImg f).port0 = s.port0 := rfl
@[simp] theorem State.modImg_port1 (f : ImgState → ImgState) : (s.modImg f).port1 = s.port1 := rfl
@[simp] theorem State.modImg_jnl (f : ImgState → ImgState) : (s.modImg f).jnl = s.jnl := rfl
@[simp] theorem State.modImg_sram (f : ImgState → ImgState) : (s.modImg f).sram = s.sram := rfl
@[simp] theorem State.modImg_sramChk (f : ImgState → ImgState) : (s.modImg f).sramChk = s.sramChk := rfl
@[simp] theorem State.modImg_ecc (f : ImgState → ImgState) : (s.modImg f).ecc = s.ecc := rfl
@[simp] theorem State.modImg_pwr (f : ImgState → ImgState) : (s.modImg f).pwr = s.pwr := rfl
@[simp] theorem State.modImg_img (f : ImgState → ImgState) : (s.modImg f).img = f s.img := rfl
@[simp] theorem State.modImg_fec (f : ImgState → ImgState) : (s.modImg f).fec = s.fec := rfl
@[simp] theorem State.modImg_swc (f : ImgState → ImgState) : (s.modImg f).swc = s.swc := rfl
@[simp] theorem State.modImg_cli (f : ImgState → ImgState) : (s.modImg f).cli = s.cli := rfl
@[simp] theorem State.modImg_lcx (f : ImgState → ImgState) : (s.modImg f).lcx = s.lcx := rfl
@[simp] theorem State.modImg_mce (f : ImgState → ImgState) : (s.modImg f).mce = s.mce := rfl
@[simp] theorem State.modImg_clk (f : ImgState → ImgState) : (s.modImg f).clk = s.clk := rfl
@[simp] theorem State.modImg_sec (f : ImgState → ImgState) : (s.modImg f).sec = s.sec := rfl
@[simp] theorem State.modImg_stl (f : ImgState → ImgState) : (s.modImg f).stl = s.stl := rfl
@[simp] theorem State.modImg_pmc (f : ImgState → ImgState) : (s.modImg f).pmc = s.pmc := rfl
@[simp] theorem State.modImg_fmn (f : ImgState → ImgState) : (s.modImg f).fmn = s.fmn := rfl
@[simp] theorem State.modImg_hif (f : ImgState → ImgState) : (s.modImg f).hif = s.hif := rfl
@[simp] theorem State.modImg_flc (f : ImgState → ImgState) : (s.modImg f).flc = s.flc := rfl
@[simp] theorem State.modImg_thm (f : ImgState → ImgState) : (s.modImg f).thm = s.thm := rfl
@[simp] theorem State.modImg_hdg (f : ImgState → ImgState) : (s.modImg f).hdg = s.hdg := rfl
@[simp] theorem State.modImg_units (f : ImgState → ImgState) : (s.modImg f).units = s.units := rfl
@[simp] theorem State.modImg_fab (f : ImgState → ImgState) : (s.modImg f).fab = s.fab := rfl
@[simp] theorem State.modImg_resp (f : ImgState → ImgState) : (s.modImg f).resp = s.resp := rfl
@[simp] theorem State.modImg_freeCtr (f : ImgState → ImgState) : (s.modImg f).freeCtr = s.freeCtr := rfl
@[simp] theorem State.modImg_pending (f : ImgState → ImgState) : (s.modImg f).pending = s.pending := rfl
@[simp] theorem State.modImg_get (f : ImgState → ImgState) (g : Fld) : (s.modImg f).get g = s.get g := rfl

/-! ### State.modFab -/

@[simp] theorem State.modFab_part (f : FabState → FabState) : (s.modFab f).part = s.part := rfl
@[simp] theorem State.modFab_regs (f : FabState → FabState) : (s.modFab f).regs = s.regs := rfl
@[simp] theorem State.modFab_latches (f : FabState → FabState) : (s.modFab f).latches = s.latches := rfl
@[simp] theorem State.modFab_port0 (f : FabState → FabState) : (s.modFab f).port0 = s.port0 := rfl
@[simp] theorem State.modFab_port1 (f : FabState → FabState) : (s.modFab f).port1 = s.port1 := rfl
@[simp] theorem State.modFab_jnl (f : FabState → FabState) : (s.modFab f).jnl = s.jnl := rfl
@[simp] theorem State.modFab_sram (f : FabState → FabState) : (s.modFab f).sram = s.sram := rfl
@[simp] theorem State.modFab_sramChk (f : FabState → FabState) : (s.modFab f).sramChk = s.sramChk := rfl
@[simp] theorem State.modFab_ecc (f : FabState → FabState) : (s.modFab f).ecc = s.ecc := rfl
@[simp] theorem State.modFab_pwr (f : FabState → FabState) : (s.modFab f).pwr = s.pwr := rfl
@[simp] theorem State.modFab_img (f : FabState → FabState) : (s.modFab f).img = s.img := rfl
@[simp] theorem State.modFab_fec (f : FabState → FabState) : (s.modFab f).fec = s.fec := rfl
@[simp] theorem State.modFab_swc (f : FabState → FabState) : (s.modFab f).swc = s.swc := rfl
@[simp] theorem State.modFab_cli (f : FabState → FabState) : (s.modFab f).cli = s.cli := rfl
@[simp] theorem State.modFab_lcx (f : FabState → FabState) : (s.modFab f).lcx = s.lcx := rfl
@[simp] theorem State.modFab_mce (f : FabState → FabState) : (s.modFab f).mce = s.mce := rfl
@[simp] theorem State.modFab_clk (f : FabState → FabState) : (s.modFab f).clk = s.clk := rfl
@[simp] theorem State.modFab_sec (f : FabState → FabState) : (s.modFab f).sec = s.sec := rfl
@[simp] theorem State.modFab_stl (f : FabState → FabState) : (s.modFab f).stl = s.stl := rfl
@[simp] theorem State.modFab_pmc (f : FabState → FabState) : (s.modFab f).pmc = s.pmc := rfl
@[simp] theorem State.modFab_fmn (f : FabState → FabState) : (s.modFab f).fmn = s.fmn := rfl
@[simp] theorem State.modFab_hif (f : FabState → FabState) : (s.modFab f).hif = s.hif := rfl
@[simp] theorem State.modFab_flc (f : FabState → FabState) : (s.modFab f).flc = s.flc := rfl
@[simp] theorem State.modFab_thm (f : FabState → FabState) : (s.modFab f).thm = s.thm := rfl
@[simp] theorem State.modFab_hdg (f : FabState → FabState) : (s.modFab f).hdg = s.hdg := rfl
@[simp] theorem State.modFab_units (f : FabState → FabState) : (s.modFab f).units = s.units := rfl
@[simp] theorem State.modFab_fab (f : FabState → FabState) : (s.modFab f).fab = f s.fab := rfl
@[simp] theorem State.modFab_resp (f : FabState → FabState) : (s.modFab f).resp = s.resp := rfl
@[simp] theorem State.modFab_freeCtr (f : FabState → FabState) : (s.modFab f).freeCtr = s.freeCtr := rfl
@[simp] theorem State.modFab_pending (f : FabState → FabState) : (s.modFab f).pending = s.pending := rfl
@[simp] theorem State.modFab_get (f : FabState → FabState) (g : Fld) : (s.modFab f).get g = s.get g := rfl

/-! ### State.modPort -/

@[simp] theorem State.modPort_part (p : Nat) (f : PortState → PortState) : (s.modPort p f).part = s.part := by unfold State.modPort; split <;> rfl
@[simp] theorem State.modPort_regs (p : Nat) (f : PortState → PortState) : (s.modPort p f).regs = s.regs := by unfold State.modPort; split <;> rfl
@[simp] theorem State.modPort_latches (p : Nat) (f : PortState → PortState) : (s.modPort p f).latches = s.latches := by unfold State.modPort; split <;> rfl
@[simp] theorem State.modPort_jnl (p : Nat) (f : PortState → PortState) : (s.modPort p f).jnl = s.jnl := by unfold State.modPort; split <;> rfl
@[simp] theorem State.modPort_sram (p : Nat) (f : PortState → PortState) : (s.modPort p f).sram = s.sram := by unfold State.modPort; split <;> rfl
@[simp] theorem State.modPort_sramChk (p : Nat) (f : PortState → PortState) : (s.modPort p f).sramChk = s.sramChk := by unfold State.modPort; split <;> rfl
@[simp] theorem State.modPort_ecc (p : Nat) (f : PortState → PortState) : (s.modPort p f).ecc = s.ecc := by unfold State.modPort; split <;> rfl
@[simp] theorem State.modPort_pwr (p : Nat) (f : PortState → PortState) : (s.modPort p f).pwr = s.pwr := by unfold State.modPort; split <;> rfl
@[simp] theorem State.modPort_img (p : Nat) (f : PortState → PortState) : (s.modPort p f).img = s.img := by unfold State.modPort; split <;> rfl
@[simp] theorem State.modPort_fec (p : Nat) (f : PortState → PortState) : (s.modPort p f).fec = s.fec := by unfold State.modPort; split <;> rfl
@[simp] theorem State.modPort_swc (p : Nat) (f : PortState → PortState) : (s.modPort p f).swc = s.swc := by unfold State.modPort; split <;> rfl
@[simp] theorem State.modPort_cli (p : Nat) (f : PortState → PortState) : (s.modPort p f).cli = s.cli := by unfold State.modPort; split <;> rfl
@[simp] theorem State.modPort_lcx (p : Nat) (f : PortState → PortState) : (s.modPort p f).lcx = s.lcx := by unfold State.modPort; split <;> rfl
@[simp] theorem State.modPort_mce (p : Nat) (f : PortState → PortState) : (s.modPort p f).mce = s.mce := by unfold State.modPort; split <;> rfl
@[simp] theorem State.modPort_clk (p : Nat) (f : PortState → PortState) : (s.modPort p f).clk = s.clk := by unfold State.modPort; split <;> rfl
@[simp] theorem State.modPort_sec (p : Nat) (f : PortState → PortState) : (s.modPort p f).sec = s.sec := by unfold State.modPort; split <;> rfl
@[simp] theorem State.modPort_stl (p : Nat) (f : PortState → PortState) : (s.modPort p f).stl = s.stl := by unfold State.modPort; split <;> rfl
@[simp] theorem State.modPort_pmc (p : Nat) (f : PortState → PortState) : (s.modPort p f).pmc = s.pmc := by unfold State.modPort; split <;> rfl
@[simp] theorem State.modPort_fmn (p : Nat) (f : PortState → PortState) : (s.modPort p f).fmn = s.fmn := by unfold State.modPort; split <;> rfl
@[simp] theorem State.modPort_hif (p : Nat) (f : PortState → PortState) : (s.modPort p f).hif = s.hif := by unfold State.modPort; split <;> rfl
@[simp] theorem State.modPort_flc (p : Nat) (f : PortState → PortState) : (s.modPort p f).flc = s.flc := by unfold State.modPort; split <;> rfl
@[simp] theorem State.modPort_thm (p : Nat) (f : PortState → PortState) : (s.modPort p f).thm = s.thm := by unfold State.modPort; split <;> rfl
@[simp] theorem State.modPort_hdg (p : Nat) (f : PortState → PortState) : (s.modPort p f).hdg = s.hdg := by unfold State.modPort; split <;> rfl
@[simp] theorem State.modPort_units (p : Nat) (f : PortState → PortState) : (s.modPort p f).units = s.units := by unfold State.modPort; split <;> rfl
@[simp] theorem State.modPort_fab (p : Nat) (f : PortState → PortState) : (s.modPort p f).fab = s.fab := by unfold State.modPort; split <;> rfl
@[simp] theorem State.modPort_resp (p : Nat) (f : PortState → PortState) : (s.modPort p f).resp = s.resp := by unfold State.modPort; split <;> rfl
@[simp] theorem State.modPort_freeCtr (p : Nat) (f : PortState → PortState) : (s.modPort p f).freeCtr = s.freeCtr := by unfold State.modPort; split <;> rfl
@[simp] theorem State.modPort_pending (p : Nat) (f : PortState → PortState) : (s.modPort p f).pending = s.pending := by unfold State.modPort; split <;> rfl
@[simp] theorem State.modPort_get (p : Nat) (f : PortState → PortState) (g : Fld) : (s.modPort p f).get g = s.get g := by unfold State.get; simp
theorem State.modPort_port_same (p : Nat) (f : PortState → PortState) : (s.modPort p f).port p = f (s.port p) := by
  unfold State.modPort State.port; split <;> rfl
theorem State.modPort_port_other {p q : Nat} (f : PortState → PortState) (h : (p = 0) ≠ (q = 0)) : (s.modPort p f).port q = s.port q := by
  unfold State.modPort State.port
  by_cases hp : p = 0 <;> by_cases hq : q = 0 <;> simp_all

/-! ### Register fields -/

/-- A field reads what was written, modulo its width. -/
theorem State.set_get_same (f : Fld) (v : Nat) : (s.set f v).get f = v % 2 ^ f.w := by
  unfold State.get State.set
  rw [getAt_setAt, if_pos rfl, Nat.xor_assoc, Nat.xor_self, Nat.xor_zero]

/-- Every field with another key reads as before. -/
theorem State.set_get_other {f g : Fld} (v : Nat) (h : g.key ≠ f.key) : (s.set f v).get g = s.get g := by
  unfold State.get State.set
  rw [getAt_setAt, if_neg h]

/-- Outside the cleared range every field reads as before. -/
theorem State.clearRegs_get_other {lo hi : Nat} {g : Fld} (h : g.key < 32 * lo ∨ 32 * hi ≤ g.key) : (s.clearRegs lo hi).get g = s.get g := by
  have e : ∀ k, getAt 0 (s.clearRegs lo hi).regs k = if (decide (k < 32 * lo) || decide (32 * hi ≤ k)) = true then getAt 0 s.regs k else 0 :=
    fun k => getAt_keepKeys 0 (fun k => decide (k < 32 * lo) || decide (32 * hi ≤ k)) k s.regs
  unfold State.get
  rw [e, if_pos (by simpa using h)]

/-- In the cleared range every field has its reset value. -/
theorem State.clearRegs_get_same {lo hi : Nat} {g : Fld} (h : 32 * lo ≤ g.key ∧ g.key < 32 * hi) : (s.clearRegs lo hi).get g = g.rst := by
  have e : ∀ k, getAt 0 (s.clearRegs lo hi).regs k = if (decide (k < 32 * lo) || decide (32 * hi ≤ k)) = true then getAt 0 s.regs k else 0 :=
    fun k => getAt_keepKeys 0 (fun k => decide (k < 32 * lo) || decide (32 * hi ≤ k)) k s.regs
  unfold State.get
  rw [e, if_neg (by simp; omega), Nat.zero_xor]

/-! ### Events -/

/-- What latching an event changes: the sequencers' latches. -/
theorem latchEvent_foot (i : Nat) : ∃ h, latchEvent i s = { s with hdg := h } := ⟨_, rfl⟩

theorem presetCount_foot (i n : Nat) : ∃ p, presetCount i n s = { s with pmc := p } := by
  unfold presetCount; split
  · exact ⟨s.pmc, rfl⟩
  · exact ⟨_, rfl⟩

theorem addCount_foot (i n : Nat) : ∃ r p h, addCount i n s = { s with regs := r, pmc := p, hdg := h } := by
  unfold addCount
  extract_lets v u w x
  obtain ⟨p, hp⟩ := presetCount_foot x i n
  obtain ⟨h, hh⟩ := latchEvent_foot (presetCount i n x) i
  rw [hh, hp]
  by_cases c : 2 ^ 48 ≤ v
  · exact ⟨(w.set (ovfBit i) 1).regs, p, h, by simp only [x, if_pos c]; rfl⟩
  · exact ⟨w.regs, p, h, by simp only [x, if_neg c]; rfl⟩

theorem countUp_foot (i n : Nat) : ∃ r p h, countUp i n s = { s with regs := r, pmc := p, hdg := h } := by
  unfold countUp
  obtain ⟨r, p, h, e⟩ := addCount_foot s i n
  simp only [e]
  split
  · split
    · exact ⟨_, _, _, rfl⟩
    · obtain ⟨r', p', h', e'⟩ := addCount_foot (({ s with regs := r, pmc := p, hdg := h } : State).set (stickyBit Ev.PMC_OVERFLOW) 1) Ev.PMC_OVERFLOW 1
      exact ⟨r', p', h', e'⟩
  · exact ⟨r, p, h, rfl⟩

/-- What counting an event changes: register fields, the counters and the sequencers' latches, nothing else. -/
theorem countEvent_foot (i n : Nat) : ∃ r p h, countEvent i n s = { s with regs := r, pmc := p, hdg := h } := by
  unfold countEvent
  split
  · exact ⟨s.regs, s.pmc, s.hdg, rfl⟩
  · split
    · exact ⟨s.regs, _, s.hdg, rfl⟩
    · exact countUp_foot s i n

/-- What an event changes: register fields, the counters and the sequencers' latches, nothing else. -/
theorem State.raise_foot (i : Nat) : ∃ r p h, s.raise i = { s with regs := r, pmc := p, hdg := h } := by
  obtain ⟨r, p, h, e⟩ := countEvent_foot (s.set (stickyBit i) 1) i 1
  exact ⟨r, p, h, e⟩

@[simp] theorem State.raise_part (i : Nat) : (s.raise i).part = s.part := by obtain ⟨r, p, h, e⟩ := s.raise_foot i; rw [e]
@[simp] theorem State.raise_latches (i : Nat) : (s.raise i).latches = s.latches := by obtain ⟨r, p, h, e⟩ := s.raise_foot i; rw [e]
@[simp] theorem State.raise_port0 (i : Nat) : (s.raise i).port0 = s.port0 := by obtain ⟨r, p, h, e⟩ := s.raise_foot i; rw [e]
@[simp] theorem State.raise_port1 (i : Nat) : (s.raise i).port1 = s.port1 := by obtain ⟨r, p, h, e⟩ := s.raise_foot i; rw [e]
@[simp] theorem State.raise_jnl (i : Nat) : (s.raise i).jnl = s.jnl := by obtain ⟨r, p, h, e⟩ := s.raise_foot i; rw [e]
@[simp] theorem State.raise_sram (i : Nat) : (s.raise i).sram = s.sram := by obtain ⟨r, p, h, e⟩ := s.raise_foot i; rw [e]
@[simp] theorem State.raise_sramChk (i : Nat) : (s.raise i).sramChk = s.sramChk := by obtain ⟨r, p, h, e⟩ := s.raise_foot i; rw [e]
@[simp] theorem State.raise_ecc (i : Nat) : (s.raise i).ecc = s.ecc := by obtain ⟨r, p, h, e⟩ := s.raise_foot i; rw [e]
@[simp] theorem State.raise_pwr (i : Nat) : (s.raise i).pwr = s.pwr := by obtain ⟨r, p, h, e⟩ := s.raise_foot i; rw [e]
@[simp] theorem State.raise_img (i : Nat) : (s.raise i).img = s.img := by obtain ⟨r, p, h, e⟩ := s.raise_foot i; rw [e]
@[simp] theorem State.raise_fec (i : Nat) : (s.raise i).fec = s.fec := by obtain ⟨r, p, h, e⟩ := s.raise_foot i; rw [e]
@[simp] theorem State.raise_swc (i : Nat) : (s.raise i).swc = s.swc := by obtain ⟨r, p, h, e⟩ := s.raise_foot i; rw [e]
@[simp] theorem State.raise_cli (i : Nat) : (s.raise i).cli = s.cli := by obtain ⟨r, p, h, e⟩ := s.raise_foot i; rw [e]
@[simp] theorem State.raise_lcx (i : Nat) : (s.raise i).lcx = s.lcx := by obtain ⟨r, p, h, e⟩ := s.raise_foot i; rw [e]
@[simp] theorem State.raise_mce (i : Nat) : (s.raise i).mce = s.mce := by obtain ⟨r, p, h, e⟩ := s.raise_foot i; rw [e]
@[simp] theorem State.raise_clk (i : Nat) : (s.raise i).clk = s.clk := by obtain ⟨r, p, h, e⟩ := s.raise_foot i; rw [e]
@[simp] theorem State.raise_sec (i : Nat) : (s.raise i).sec = s.sec := by obtain ⟨r, p, h, e⟩ := s.raise_foot i; rw [e]
@[simp] theorem State.raise_stl (i : Nat) : (s.raise i).stl = s.stl := by obtain ⟨r, p, h, e⟩ := s.raise_foot i; rw [e]
@[simp] theorem State.raise_fmn (i : Nat) : (s.raise i).fmn = s.fmn := by obtain ⟨r, p, h, e⟩ := s.raise_foot i; rw [e]
@[simp] theorem State.raise_hif (i : Nat) : (s.raise i).hif = s.hif := by obtain ⟨r, p, h, e⟩ := s.raise_foot i; rw [e]
@[simp] theorem State.raise_flc (i : Nat) : (s.raise i).flc = s.flc := by obtain ⟨r, p, h, e⟩ := s.raise_foot i; rw [e]
@[simp] theorem State.raise_thm (i : Nat) : (s.raise i).thm = s.thm := by obtain ⟨r, p, h, e⟩ := s.raise_foot i; rw [e]
@[simp] theorem State.raise_units (i : Nat) : (s.raise i).units = s.units := by obtain ⟨r, p, h, e⟩ := s.raise_foot i; rw [e]
@[simp] theorem State.raise_fab (i : Nat) : (s.raise i).fab = s.fab := by obtain ⟨r, p, h, e⟩ := s.raise_foot i; rw [e]
@[simp] theorem State.raise_resp (i : Nat) : (s.raise i).resp = s.resp := by obtain ⟨r, p, h, e⟩ := s.raise_foot i; rw [e]
@[simp] theorem State.raise_freeCtr (i : Nat) : (s.raise i).freeCtr = s.freeCtr := by obtain ⟨r, p, h, e⟩ := s.raise_foot i; rw [e]
@[simp] theorem State.raise_pending (i : Nat) : (s.raise i).pending = s.pending := by obtain ⟨r, p, h, e⟩ := s.raise_foot i; rw [e]

end Sys2Proof.Machine
end

