-- ==== Sys2Proof/Machine/LinkMachine.lean ====
section
/-! DEFINITION. The default link state machine as the table of HQp (R356, R360): what Foene Composer puts into an image that brings no machine
of its own. No command reads it from here; an image carries it. -/
namespace Sys2Proof.Machine

/-! ### Words (R356) -/

/-- A field compared with a value under OP `op`. -/
def smCompare (f : Fld) (op v : Nat) : Nat :=
  1 + 16 * op + f.addr / 4 * 2 ^ 32 + (2 ^ f.w - 1) * 2 ^ f.lo * 2 ^ 64 + v * 2 ^ f.lo * 2 ^ 96

/-- A write of byte 0 of the register of a field. -/
def smWrite (f : Fld) (data : Nat) : Nat := 1 + 16 + f.addr / 4 * 2 ^ 32 + data * 2 ^ 64

/-- The calendar insert of a write to LFR_DOH_TX byte 0, on the transmit direction of port `p` at LEAD 1. -/
def smLinkState (p data : Nat) : Nat :=
  2 + 16 * txPd p + 2 ^ 8 + 2 ^ 32 + (2 ^ 60 + (R.LFR_DOH_TX_LINK_STATE p).addr / 4 * 2 ^ 32 + data) * 2 ^ 64

def smHostEvent (v : Nat) : Nat := 4 + v * 2 ^ 32
def smTimerStart (i us : Nat) : Nat := 5 + 16 * i + us * 2 ^ 32
def smTimerStop (i : Nat) : Nat := 6 + 16 * i

/-- Conditions: an event, a code, a timer, a compare word of the pool, and the inverse of one. -/
def smEvent (e : Nat) : Nat := 2 ^ 28 + e
def smCode (c : Nat) : Nat := 2 * 2 ^ 28 + c
def smTimer (i : Nat) : Nat := 3 * 2 ^ 28 + i
def smCmp (k : Nat) : Nat := 4 * 2 ^ 28 + k
def smNot (c : Nat) : Nat := 2 ^ 27 + c

/-- A transition: next state, first action and their count, COMB (0 A, 1 A and B, 2 A or B), the conditions. -/
def smGoes (next ptr cnt comb a b : Nat) : Nat :=
  2 ^ 127 + next * 2 ^ 116 + ptr * 2 ^ 100 + cnt * 2 ^ 96 + b * 2 ^ 64 + a * 2 ^ 32 + comb * 2 ^ 30

/-! ### The machine (R360) -/

/-- The pool: compares from 0x00 on and at 0x10, actions from 0x11 on, each entry with its calendar insert and its host event. -/
def linkPool (p : Nat) : List Nat :=
  let cmp := [smCompare (R.CAL_STATE_STATE p) 0 3, smCompare (R.RXD_ACQ_STATE p) 0 7, smCompare (R.LFR_ALIGN_STAT_SA p) 0 1,
    smCompare (R.LFR_DOH_RX_LINK_LINK_STATE p) 3 3,
    smCompare (R.TXD_PROP_STAT_STATE p 0) 2 4, smCompare (R.TXD_PROP_STAT_STATE p 0) 3 1,
    smCompare (R.TXD_PROP_STAT_STATE p 1) 2 4, smCompare (R.TXD_PROP_STAT_STATE p 1) 3 1]
  let enter := fun (state link : Nat) => [smLinkState p link, smHostEvent (256 * p + state)]
  let mode := fun (v : Nat) => smWrite (R.TXD_CTRL_MODE p) v
  let rx := fun (v : Nat) => smWrite (R.RXD_CTRL_EN p) v
  cmp ++ List.replicate 8 0 ++ [smCompare (R.SGP_NEG_STAT_AGREED p) 0 1] ++
  -- 0x11 BEACON to ACQUIRE; 0x12 to 0x14 serve every loss of lock
  mode 2 :: enter 2 2 ++ [smTimerStart 0 2000000] ++
  -- 0x15 DARK; 0x19 BEACON from DARK; 0x1D BEACON from ACQUIRE
  mode 0 :: rx 2 :: enter 0 0 ++ mode 1 :: rx 3 :: enter 1 1 ++ mode 1 :: enter 1 1 ++
  -- 0x20 ALIGNED; 0x23 CARRYING; 0x25 ADAPTING
  enter 3 3 ++ [smTimerStop 0] ++ enter 4 4 ++ enter 5 12

/-- The transitions of each state in their order. -/
def linkStates (p : Nat) : List (List Nat) :=
  let stop := smGoes 0 0x15 4 0 (smCode 2) 0
  let lost := smGoes 2 0x12 3 2 (smEvent (Ev.RXD_LOCK_LOST p)) (smNot (smCmp 2))
  let carry := fun (a b : Nat) => smGoes 4 0x23 2 1 a b
  [[smGoes 1 0x19 4 1 (smCode 1) (smCmp 0)],
   [stop, smGoes 2 0x11 4 0 (smCmp 0x10) 0],
   [stop, smGoes 3 0x20 3 1 (smCmp 1) (smCmp 2), smGoes 1 0x1D 3 0 (smTimer 0) 0],
   [stop, lost, smGoes 4 0x23 2 0 (smCmp 3) 0],
   [stop, lost, smGoes 5 0x25 2 1 (smCmp 4) (smCmp 5), smGoes 5 0x25 2 1 (smCmp 6) (smCmp 7)],
   [stop, lost, carry (smNot (smCmp 5)) (smNot (smCmp 7)), carry (smNot (smCmp 5)) (smNot (smCmp 6)),
    carry (smNot (smCmp 4)) (smNot (smCmp 7)), carry (smNot (smCmp 4)) (smNot (smCmp 6))]]

/-- The words of the table: header with 6 states and a pool of 64 words, the transitions, the pool. -/
def linkTable (p : Nat) : List Nat :=
  (2 ^ 127 + 64 * 2 ^ 32 + 6 * 2 ^ 8 + 0x20) ::
    ((linkStates p).flatMap (fun l => l ++ List.replicate (16 - l.length) 0) ++ linkPool p ++ List.replicate (64 - (linkPool p).length) 0)

end Sys2Proof.Machine
end

