-- ==== Sys2Proof/WellFormed.lean ====
section
/-! DEFINITION. Which commands are well formed: every operand in the range that the spec gives its unit, port, master, address or field.
A command out of range is answered all the same: exec leaves the state as it is where a unit does not exist, and takes a field modulo its width. -/
namespace Sys2Proof

/-- A line port (R2). -/
def isPort (p : Nat) : Bool := p < 2

/-- A master that issues commands of its own (R363). -/
def isMaster (m : Nat) : Bool := m < 14

/-- Bytes. -/
def areBytes (l : List Nat) : Bool := l.all (fun b => decide (b < 256))

/-- The address of an access: a word, or a beat of a burst within the fabric (R367); BAR2 is above 2 ^ 48 (R377). -/
def isBeat (a : Nat) (more : Option Nat) : Bool :=
  if more.isSome then a < 2 ^ 28 && a % 16 == 0 else a % 4 == 0 && (a < 2 ^ 28 || (2 ^ 48 ≤ a && a < 2 ^ 48 + 4096))

/-- A Stile frame (R430). -/
def isFrame (l : List Nat) : Bool := l.length == 64 && areBytes l

/-- Every operand is in range. -/
def Instr.wellFormed : Instr → Bool
  | .por _ | .resetN _ | .srst _ | .journalLoadDone _ | .codewordArrival _ | .codewordDeadline _ | .skewMeasure _ |
    .mceJobComplete _ _ | .i2cRead _ | .flashMount _ | .relocation _ | .relocationRetry _ | .timeSend _ | .avsStep _ => true
  | .vddStbyLoss | .journalStore | .journalLoad | .rtSwapDone | .hostEventPop | .samplePop | .scrubPass | .hostWatchdogExpiry |
    .watchdogKick | .flcRead | .flcWrite | .flcErase | .retire | .scrubNow | .flashScrubStart | .stileRxqPop | .presetOverflow |
    .counterLevelTick => true
  | .registerWrite m a be data more =>
    isMaster m && isBeat a more && (if more.isSome then be < 65536 && data < 2 ^ 128 else be < 16 && data < 2 ^ 32)
  | .latchedRead m a more => isMaster m && isBeat a more
  | .readClear m a => isMaster m && a < 2 ^ 28 && a % 4 == 0
  | .actionInsert m d | .mceGcmEncrypt m d | .mceGcmDecrypt m d | .mceKwWrap m d | .mceKwUnwrap m d | .mceKwpWrap m d |
    .mceKwpUnwrap m d | .mceSave m d | .mceRestore m d | .info m d | .ktkLoad m d | .keyGen m d | .keyInstall m d | .keyErase m d |
    .sessLoad m d | .sessErase m d | .pnonce m d | .secPropose m d | .approve m d | .withdraw m d | .enrol m d | .lock m d |
    .attest m d | .attKey m d | .epoch m d => isMaster m && d < 2 ^ 128
  | .actionRemove m h => isMaster m && h < 65536
  | .tswLoad p sw => isPort p && sw < 2 ^ 48
  | .resultPop m | .mceResultPop m | .mceKeyLoad m | .mceKeyErase m => isMaster m
  | .actionStage d _ | .calExecute d _ => d < 4
  | .sidebandTransfer p _ _ | .converterUnlock p _ _ | .cdScanEnd p _ _ => isPort p
  | .converterLock p | .muteRelease p | .agcRefastExpiry p | .foreground p | .restore p | .snapshot p | .snapshotDone p |
    .sweepStart p | .receiverEnable p | .receiverDisable p | .losDeclare p | .losClear p | .eqConverged p | .acqTimerExpiry p |
    .fecLockDeclare p | .fecLockLoss p | .ftuneSend p | .foAlarm p | .transmitterStop p | .adjMismatchSwap p | .reportMiss p |
    .codewordRelease p | .statClear p | .faLoss p | .sedgeTxDone p | .sedgeRxqPop p | .helloSend p | .peerSeenTimeout p |
    .throttleApply p => isPort p
  | .foregroundDone p _ _ _ | .restoreDone p _ _ _ => isPort p
  | .sweepStepDone p _ | .sweepEnd p _ | .freqEstimateDone p _ | .foOutOfRange p _ | .estimateLatch p _ | .sedgePacketStart p _ |
    .cipherSectionTx p _ | .payloadPresent p _ => isPort p
  | .calPeriodTrigger p band => isPort p && band < 16
  | .journalStoreDone _ _ | .mceSuspend _ _ | .attReserveDone _ _ | .imageLoadDone _ _ | .logFlush _ _ | .sdRecordCommit _ _ |
    .sdRecordRetry _ _ | .resume _ _ | .deviceSwathBoundary _ _ => true
  | .cycleSlip p j _ k => isPort p && j < 16 && k < 4
  | .eqSingular p j => isPort p && j < 16
  | .transmitterModeWrite p mode => isPort p && mode < 3
  | .reportReceive p b | .proposeReceive p b | .acceptReceive p b | .rejectReceive p b | .commitReceive p b | .abortReceive p b |
    .helloReceive p b | .keyPropReceive p b | .keyAckReceive p b | .keyNakReceive p b | .apprConfReceive p b | .apprAckReceive p b |
    .apprNakReceive p b => isPort p && areBytes b
  | .proposeGo p d _ id i => isPort p && d < 2 && id < 256 && i < 64
  | .proposeAbort p d | .responseTimeout p d => isPort p && d < 2
  | .crossingBackoffExpiry p key i | .crossingHoldExpiry p key i => isPort p && (if key then decide (i < 32) else decide (i < 2))
  | .iterationEnd _ _ _ bad => bad.all (fun w => decide (w < 288))
  | .groupFallow g | .groupReturn g | .groupDrainDone g | .groupShadowDone g => g < 16
  | .groupSelftestDone g _ | .groupShadowCompare g _ => g < 16
  | .txFrameBuild p _ lanes => isPort p && lanes.length ≤ 4
  | .fasSearchHit p pos header => isPort p && pos < 65536 && header.length == 512 && areBytes header
  | .candidateExamine p k header => isPort p && k < 4 && header.length == 512 && areBytes header
  | .frameHeaderReceive p x => isPort p && x.header.length == 512 && areBytes x.header
  | .laneLock n d | .laneWakeTimeout n d | .laneJoin n d => n < 64 && d < 2
  | .laneTestDone n d _ => n < 64 && d < 2
  | .laneLos n _ => n < 64
  | .clientGroupUp g _ wrong => g < 64 && wrong.all (fun l => decide (l < 16))
  | .sedgeArm m p b => isPort p && isMaster m && b < 16
  | .sedgePreambleDetect p k m run _ _ _ => isPort p && k < 4 && m < 256 && run < 256
  | .sedgeDelimiterFound p k | .sedgeDelimiterTimeout p k => isPort p && k < 4
  | .sedgeHeaderDecode p k h => isPort p && k < 4 && h < 2 ^ 64
  | .sedgeBodyDecode p k body crc => isPort p && k < 4 && areBytes body && crc < 2 ^ 32
  | .correlatorWrite p k be data => isPort p && be < 16 && data < 2 ^ 32 && k < 4
  | .keyRollGo p c id slot _ => isPort p && c < 32 && id < 256 && slot < 2
  | .keyTimeout p c => isPort p && c < 32
  | .cipherSectionRx p c _ _ => isPort p && c < 32
  | .cipherGroupFallow g | .cipherGroupReturn g | .cipherGroupDrainDone g => g < 8
  | .cipherGroupSelftestDone g _ | .cipherGroupShadowDone g _ => g < 8
  | .rtSwap m d _ => isMaster m && d < 2 ^ 128
  | .approvalRecordCommit _ _ _ | .thmSample _ _ _ => true
  | .apprConfSend k | .proposalDeadline k => k < 16
  | .imageLoad k => k < 8
  | .activate r k => r < 256 && k < 8
  | .regionReset r => r < 256
  | .regionStagingDone _ => true
  | .tableWindowWrite m w be v => isMaster m && w < 2 ^ 22 && be < 65536 && v < 2 ^ 128
  | .sequencerRun mask => mask < 65536
  | .hdgPost n c => n < 16 && c < 256
  | .sequencerRound n => n < 16
  | .sequencerTimerExpiry n i => n < 16 && i < 8
  | .diagRead m _ w => isMaster m && w < 2 ^ 22
  | .diagWrite m _ w v chk => isMaster m && w < 2 ^ 22 && v < 2 ^ 128 && chk < 512
  | .sqDoorbell r t => r < 16 && t < 256
  | .cqHeadWrite q h => q < 4 && h < 1024
  | .sqEnable r en => r < 16 && en < 2
  | .cqEnable q en => q < 4 && en < 2
  | .commandFetch b | .i2cWrite b => areBytes b
  | .nop tag | .calInsert tag | .calRemove tag | .tableRead tag | .flashRead tag | .flashErase tag | .logRead tag |
    .snapshotRead tag => tag < 65536
  | .tableWrite tag b | .flashWrite tag b | .gccSend tag b | .gccRecv tag b | .secCmd tag b => tag < 65536 && areBytes b
  | .completionWrite q => q < 4
  | .pcieLinkDown ltssm => ltssm < 64
  | .flashOpDone ce _ => ce < 2
  | .refMonitorUpdate i _ => i < 14
  | .refLos i | .refQualTimerExpiry i | .refActivityReturn i => i < 14
  | .refSwitchDone n | .wtrExpiry n | .dpllLock n | .dpllLockLoss n => n < 3
  | .historyRecord n _ _ => n < 3
  | .dpllModeWrite n mode => n < 3 && mode < 8
  | .dcoWrite n hi => n < 3 && hi < 2 ^ 32
  | .stileArm m n j => n < 8 && j < 2 && isMaster m
  | .stileResponse n _ b | .stileHelloReceive n _ b => n < 8 && isFrame b
  | .stileRspTimeout n j => n < 8 && j < 2
  | .stileHelloSend n | .stileSyncAcquire n | .stileTxEnable n | .stileTxSleep n | .stileRxEnable n | .stileRxSleep n |
    .stileSleepNotice n | .stileWake n | .eyeScanStart n | .loopChange n => n < 8
  | .stileFrameReceive n _ _ b => n < 8 && isFrame b
  | .stileSyncLoss n _ | .stileSelftestDone n _ => n < 8
  | .eyeScanDone n err => n < 8 && err < 2 ^ 32
  | .thmCfgWrite be data => be < 16 && data < 2 ^ 32
  | .shutdownForce key _ => key < 256
  | .railFault rails _ => rails < 1024
  | .domainPowerUpDone d => d < 248
  | .fmnInput c _ => c < 16
  | .fmnCtrlWrite c be data => c < 16 && be < 16 && data < 2 ^ 32
  | .procHalt c | .processorFallow c | .handoverDone c | .processorReturn c | .procJoin c => c < 7
  | .sliceFallow p i sl | .sliceReturn p i sl => isPort p && i < 16 && sl < 64
  | .sliceCalDone p i _ => isPort p && i < 16
  | .sliceJoin p i => isPort p && i < 16
  | .tileFallow p t | .tileReturn p t | .tileJoin p t => isPort p && t < 16
  | .tileSelftestDone p t _ | .tileShadowDone p t _ => isPort p && t < 16
  | .procSelftestDone c _ => c < 7
  | .firmwareUpdate slot mask => slot < 8 && mask < 128
  | .pcieLinkUp width speed ltssm => width < 17 && speed < 8 && ltssm < 64
  | .clientLaneLockLoss g k => g < 64 && k < 64
  | .hiSerDetect g _ => g < 64

end Sys2Proof
end

