-- ==== Sys2Proof/Tests/Slice0.lean ====
section
/-! SUPPORT. Tests: states and operands that meet the hypotheses of every statement, clause by clause and at the ends of their ranges; an
ill-formed command for each check of well-formedness; the worked examples of the spec; single steps. -/
namespace Sys2Proof.Tests
open Machine

/-- The reset state with some register fields set. -/
def up (l : List (Fld × Nat)) : State := l.foldl (fun s x => s.set x.1 x.2) State.reset
/-- The reset state of the part with one port. -/
def one : State := { State.reset with part := .lyk4801 }
/-- A descriptor of the calendar (R37). -/
def descr (swath frame pd kind arg : Nat) : Nat := swath * 2 ^ 80 + frame * 2 ^ 72 + pd * 2 ^ 68 + kind * 2 ^ 64 + arg
/-- The reset state with the calendar given. -/
def cal (acts : List Act) (res : List Res) (pd0 : PdPos) : State :=
  { State.reset with swc := { acts := acts, res := res, pds := [pd0, {}, {}, {}] } }
/-- A host event of the host at frame 1 of swath 2, in phase `ph`. -/
def act (ph : Nat) : Act := { handle := 65535, bank := M.host, seq := 0, desc := descr 2 1 0 9 7, phase := ph }
/-- A place that is a register without banks. -/
def plain : Place → Bool
  | .reg r => !r.banked
  | _ => false
/-- Words `ws` in bank 0 of table `num`, at the start of table RAM. -/
def tab (num : Nat) (ws : List Nat) (l : List (Fld × Nat)) : State :=
  { up l with
    img := { State.reset.img with struct := { State.reset.img.struct with dir := [{ num := num, words := ws.length }] } }
    sram := ws.mapIdx (fun i w => (sramKey 1 i, w + 1)) }
/-- A ladder of port 0 with one rung: 300 GBd, one subcarrier, two bits per symbol, unshaped. -/
def ladder (l : List (Fld × Nat)) : State := tab 0xF000 [2 ^ 127 + 2 ^ 32 + 2 ^ 26 + 3 * 2 ^ 24 + 1200, 128, 0, 0] l
theorem test_EmptyQueueIdles : State.reset.pending = [] := rfl
theorem test_CommandsComplete_absent : one.holds (.losDeclare 1) = false ∧ absentReg (.losDeclare 1) = none ∧ one.holds (.foreground 1) = false ∧
    absentReg (.foreground 1) = some 0x2100010 ∧ State.reset.holds (.refLos 14) = false ∧ State.reset.holds (.refLos 13) = true := by decide
theorem test_CommandsKeepQueue : ∃ t, exec .stileRxqPop { State.reset with pending := [.mceSuspend 0 []] } = .next t := ⟨_, rfl⟩
theorem test_StepKeepsCanon : (up [(R.THM_CFG_WARN, 90)]).canon = true ∧ ∃ t, step (up [(R.THM_CFG_WARN, 90)]) = .next t := ⟨by decide, _, rfl⟩
theorem test_FieldWriteLocal : (State.reset.set R.THM_CFG_WARN 0x162).get R.THM_CFG_WARN = 0x62 ∧ State.reset.canon = true := by decide
theorem test_EventRaise : State.reset.get (modeBit 3839) ≠ 1 ∧ 3839 ≠ Ev.PMC_OVERFLOW := by decide
theorem test_RefusedAccess : State.reset.accessVerdict M.host 0xFFFFFFC ≠ St.ok ∧ State.reset.accessVerdict M.host 0x80048 = St.ok := by decide
theorem test_RegisterAccess_bursts : crosses 0x7FFF0 1 = true ∧ crosses 0x7FFF0 0 = false ∧ State.reset.burstAt M.host true 0x7FFF0 1 = none ∧
    State.reset.burstAt M.host false 0x7FFF0 1 = none ∧ bar2At M.host (2 ^ 48) ≠ none ∧ bar2At M.host 0x20008 = none := by decide
theorem test_RegisterAccess_fields : State.reset.get (fieldAt 0x20008 0 ⟨8, 8, .rw, 98, [(60, 105)]⟩) < 2 ^ 8 := by decide
theorem test_RegisterAccess_write : plain (State.reset.placeOf 0x200020) = true ∧ State.reset.accessVerdict M.host 0x200020 = St.ok := by decide
theorem test_RegisterAccess_read : plain (State.reset.placeOf 0x20008) = true ∧ State.reset.accessVerdict M.host 0x20008 = St.ok ∧ zeroReg 0x20008 = false ∧
    State.reset.noUnit 0x20008 = false ∧ latched 0x20008 = false ∧ plain (State.reset.placeOf 0x20000C) = true ∧
    State.reset.accessVerdict M.host 0x20000C = St.ok ∧ latched 0x20000C = true := by decide
/-- One table of 4 words at word 8 of table RAM. -/
def tabbed : State := { State.reset with img := { State.reset.img with struct := { State.reset.img.struct with dir := [{ num := 0xF030, base := 8, words := 4 }] } } }
theorem test_MemoryCommands : 2097151 < sramSize 1 ∧ (up [(R.FAB_DIAG_CTRL_EN, 1)]).isOn R.FAB_DIAG_CTRL_EN = true ∧ 0 < sramSize 9 ∧ 32767 < sramSize 12 ∧
    tabbed.accessVerdict M.host (0x8000000 + 16 * 15) = St.ok ∧ tabbed.tableVerdict M.host 15 true = St.ok ∧ State.reset.get R.FAB_SCRUB_PERIOD ≠ 0 ∧
    (up [(R.FAB_SCRUB_PERIOD, 0)]).get R.FAB_SCRUB_PERIOD = 0 := by decide
theorem test_ThermalThresholds : (60 + 2 ≤ 62 ∧ 106 + 2 ≤ 108 ∧ 60 ≤ 105 ∧ 1 ≤ 15) ∧ bits (59 * 2 ^ 16) 23 16 < 60 := by decide
theorem test_ActionInsertion : mayInsert M.host = true ∧ State.reset.insertVerdict M.host (descr 262143 0 0 9 5) false = St.ok ∧
    State.reset.insertVerdict M.host (descr 0 2 0 9 5) false = St.stale := by decide
theorem test_InsertTestOrder : mayInsertKind 9 (descr 1 0 0 9 0) = false ∧ mayInsertKind 8 (descr 1 0 0 9 0) = true ∧
    State.reset.argVerdict (descr 0 2 0 9 0) false = St.ok ∧ dPos (descr 0 2 0 9 0) < State.reset.posN 0 + 3 ∧
    State.reset.posN 0 / 256 + 262143 < dSwath (descr 262144 0 0 9 0) ∧ dSwath (descr 262143 0 0 9 0) ≤ State.reset.posN 0 / 256 + 262143 ∧
    State.reset.posN 0 + 3 ≤ dPos (descr 0 3 0 9 0) ∧ rankOf 8 < 3 ∧ rankOf M.host = 3 ∧
    65536 - 1 ≤ (up [(R.SWC_CFG_RSV_RANK3, 65535)]).get R.SWC_CFG_RSV_RANK3 ∧ State.reset.get R.SWC_CFG_RSV_RANK3 < 65536 - 61439 ∧
    State.reset.bucketOcc (bucketOf 3) < 256 := by decide
theorem test_RemovalAndResults_remove : (cal [act 0] [] {}).findAct M.host 65535 = some (act 0) ∧ bankOf M.host ≠ 12 ∧ dKind (act 0).desc ≠ 3 ∧
    (cal [act 1] [] {}).findAct M.host 65535 = some (act 1) ∧ (act 1).phase ≠ 0 ∧ (cal [act 1] [] {}).findAct M.host 65534 = none := by decide
theorem test_RemovalAndResults_results : (State.reset.pdPos (txPd 1)).valid = false ∧ ((cal [] [] { valid := true }).pdPos (txPd 0)).valid = true ∧
    State.reset.accessVerdict M.host 0x100144 = St.ok ∧ (cal [] [⟨65535, M.host, 255, 255, 2 ^ 32 - 1⟩] {}).results (bankOf M.host) = [⟨65535, M.host, 255, 255, 2 ^ 32 - 1⟩] := by decide
theorem test_StagingAndExecution : (cal [act 0] [] { swath := 1, frame := 255, valid := true }).execRuns 0 = true ∧ State.reset.execRuns 3 = false ∧
    (cal [act 0] [] { swath := 1, frame := 255, valid := true }).nextPos 0 + 1 = dPos (act 0).desc ∧
    (cal [act 1] [] { swath := 2, frame := 0, valid := true }).nextPos 0 = dPos (act 1).desc ∧ dKind (act 1).desc = 9 ∧ dPd (act 1).desc = 0 ∧
    dPos (act 2).desc < (cal [act 2] [] { swath := 2, frame := 1, valid := true }).nextPos 0 ∧ (act 2).owner = .none ∧ (act 2).bank ≠ 12 := by decide
theorem test_StagingAndExecution_bad : (let a : Act := { act 0 with desc := descr 2 1 0 4 0 }
    let s := cal [a] [] { swath := 1, frame := 255, valid := true }
    s.hasPd 0 = true ∧ s.execRuns 0 = true ∧ s.nextPos 0 + 1 = dPos a.desc ∧ dKind a.desc ≠ 3 ∧ dKind a.desc ≠ 9 ∧ dPd a.desc = 0 ∧ a.phase = 0 ∧
    getAt 0 s.sramChk a.sram = 0) ∧
    (let s := cal [act 0] [] { swath := 1, frame := 255, valid := true }
     s.execRuns 1 = false ∧ s.swc.acts.all (fun a => dPd a.desc != 1) = true ∧ s.swc.jobs.all (fun j => j.pd != 1) = true) ∧
    (cal [act 0] [] { swath := 1, frame := 255, valid := true }).swc.acts.all (fun a => dKind a.desc != 3) = true := by decide
/-- State of port 1 set. -/
def upPort (l : List (Fld × Nat)) (f : PortState → PortState) : State := (up l).modPort 1 f
theorem test_ConvertersAndCalibration_events : ((State.reset.port 1).cnv.reapply.contains 15 = false) ∧ State.reset.cnvLocked 1 = false ∧ (true && false) = false ∧
    State.reset.isOn (R.CNV_DAC_CTRL_HW_SYN 1) = false ∧ (up [(R.CAL_STATE_STATE 1, 2)]).get (R.CAL_STATE_STATE 1) = 2 ∧
    (let s := upPort [(R.CNV_SYN_SYN_LOCK 1, 1), (R.CNV_SYN_LO_LOCK 1, 1)] (fun p => { p with cnv := { p.cnv with hold := true } })
     s.cnvLocked 1 = true ∧ (s.port 1).cnv.hold = true) ∧
    (let s := upPort [(R.CNV_AGC_STATE_STATE 1, 3)] (fun p => { p with cnv := { p.cnv with refast := true } })
     s.get (R.CNV_AGC_STATE_STATE 1) = 3 ∧ (s.port 1).cnv.refast = true) := by decide
theorem test_ConvertersAndCalibration_commands :
    (let s := up [(R.CNV_SYN_SYN_LOCK 1, 1), (R.CNV_SYN_LO_LOCK 1, 1)]
     calVerdict 1 1 s = St.ok ∧ calVerdict 1 2 s = St.ok ∧ s.isOn (R.CAL_STATE_SWEEPING 1) = false ∧ ∀ i < 16, s.bandPowered 1 i = false) ∧
    calVerdict 1 1 State.reset ≠ St.ok ∧ State.reset.jnl.op ≠ 2 ∧ (up [(R.CAL_STATE_STATE 1, 1)]).get (R.CAL_STATE_STATE 1) = 1 ∧
    (up [(R.CAL_STATE_STATE 1, 2)]).get (R.CAL_STATE_STATE 1) = 2 ∧ ((upPort [] (fun p => { p with cal := { p.cal with snapshot := true } })).port 1).cal.snapshot = true := by decide
theorem test_ConvertersAndCalibration_sweeps :
    (let s := up [(R.CAL_STATE_STATE 1, 3), (R.CAL_QUEUE_QUEUED 1, 2 ^ 15)]
     s.get (R.CAL_STATE_STATE 1) = 3 ∧ s.isOn (R.CAL_STATE_SWEEPING 1) = false ∧ s.isOn (R.CAL_TRIG_HOLD 1) = false ∧ s.get (bandSpare 1 15) = 0 ∧
     bitAt (s.get (R.CAL_QUEUE_QUEUED 1)) 15 = 1 ∧ bitAt (s.get (R.GCTL_SLICE_FLW_FALLOWED 1)) 15 = 0 ∧ ∀ j < 15, bitAt (s.get (R.CAL_QUEUE_QUEUED 1)) j = 0) ∧
    (let s := up [(R.CAL_STATE_STATE 1, 3), (R.CAL_STATE_SWEEPING 1, 1), (R.CAL_STATE_SWEEP_BAND 1, 15), (R.CAL_STATE_STEP 1, 63)]
     s.isOn (R.CAL_STATE_SWEEPING 1) = true ∧ (s.port 1).cal.sweepDone = false ∧ s.get (R.CAL_STATE_SWEEP_BAND 1) = 15 ∧ s.units.slice = none ∧
     s.get (R.CAL_STATE_STEP 1) < 64 ∧ s.get (bandSpare 1 15) = 0 ∧ ((s.modCal 1 (fun c => { c with sweepDone := true })).port 1).cal.sweepDone = true) ∧
    (let s := up [(R.CAL_STATE_STATE 1, 3), (R.CAL_TRIG_PERIOD 1, 1), (R.GCTL_PROC_STATE_STATE 0, 0), (R.GCTL_PROC_STATE_STATE 1, 0), (R.GCTL_PROC_STATE_STATE 2, 0), (R.GCTL_PROC_STATE_STATE 3, 0)]
     s.get (R.CAL_TRIG_PERIOD 1) ≠ 0 ∧ s.loopRuns (calLoops 1) = true ∧ s.sweeps 1 15 = false ∧ bitAt (s.get (R.CAL_QUEUE_QUEUED 1)) 15 = 0) := by decide
/-- A mounted flash of 64-page blocks, t = 8, block 0 of partition `part` mapped to physical block 1, which holds pages. -/
def mounted (part : Nat) (l : List (Fld × Nat)) (pages : Sparse FlashPage) : State :=
  { up ([(R.FLC_STATE_STATE, 3), (R.FLC_CFG_T, 8), (R.FLC_GEOM_SPARE, 52)] ++ l) with flc := { map := [(2 ^ 20 * part, 2)], blocks := [(1, { pages := pages })] } }
/-- The pages of a record, their blank ends left out. -/
def pagesOf (l : List (List Nat)) : Sparse FlashPage := l.mapIdx (fun i b => (i, { t := 8, data := b.take 32 }))
/-- A store of partition 0x20 whose slot 0 holds a record without ports. -/
def held : State := mounted 0x20 [] (pagesOf (recordPages 0x20 0 5 (2 ^ 16 * 0x4802) []))
theorem test_JournalCommands : State.reset.jnl.op = 0 ∧ (let s := { held with jnl := { op := 1 } }
    s.jnl.op = 1 ∧ (s.partition 0x20).isSome = true ∧ s.writeWindow = true) ∧ (up [(R.THM_SENSOR_OPEN 115, 1)]).writeWindow = false ∧
    ({ held with jnl := { op := 2 } } : State).jnl.op = 2 := by decide
theorem test_JournalCommands_none : (mounted 0x20 [] []).newestSlot 0x20 = none := by decide +kernel
theorem test_JournalCommands_newest : held.newestSlot 0x20 = some (0, { seq := 5, ports := [], payload := [] }) := by decide +kernel
theorem test_SlicesAndTiles_slices :
    (State.reset.unitVerdict 1 1 1 15 63 = St.ok ∧ State.reset.sweeps 1 15 = false) ∧
    (up [(R.GCTL_SLICE_FLW_FALLOWED 1, 2 ^ 15), (bandIdle 1 15, 63)]).unitVerdict 1 2 1 15 63 = St.ok ∧
    (State.reset.modUnits (fun u => { u with cal := [31] })).units.cal.contains (16 * 1 + 15) = true ∧
    (up [(R.GCTL_SLICE_FLW_READY 1, 2 ^ 15)]).bandReady 1 15 = true ∧ (up [(R.GCTL_UNIT_STAT_BUSY, 1)]).unitVerdict 1 1 1 15 63 = St.busy := by decide
theorem test_SlicesAndTiles_tiles :
    (let s := up ((List.range 16).map (fun t => (tileField 1 t, 0)))
     s.unitVerdict 2 1 1 15 0 = St.ok ∧ s.tileState 1 15 = 0 ∧ s.isOn (R.LFR_ALIGN_STAT_FA 1) = false) ∧
    (let s := up [(tileField 1 15, 2)]
     s.unitVerdict 2 2 1 15 0 = St.ok ∧ s.rxState 1 = 0) ∧
    (up [(tileField 1 15, 3)]).tileState 1 15 = 3 ∧ (up [(tileField 1 15, 4)]).tileState 1 15 = 4 ∧
    (let s := up [(tileField 1 15, 5), (R.RXD_ACQ_STATE 1, 7)]
     s.tileState 1 15 = 5 ∧ s.rxState 1 = 7) ∧
    (let s := (up [(tileField 1 15, 5)]).modUnits (fun u => { u with late := [(1, 15)] })
     s.tileState 1 15 = 5 ∧ s.units.late.contains (1, 15) = true ∧ s.rxState 1 ≠ 7) := by decide
/-- An image of firmware alone. -/
def fwSect : Section := { typ := 3, region := 0, offset := 0, len := 0, hash := [], hashOk := true }
/-- An image of firmware alone. -/
def fwImage : Image := ⟨0, 0, 0, 0, 0, 0, 0, 0, 0, 0, true, 0, true, [fwSect]⟩
theorem test_ProcessorService :
    (let s := up ((List.range 7).map (fun c => (R.GCTL_PROC_STATE_STATE c, 0)))
     s.unitVerdict 3 1 0 5 0 = St.ok ∧ s.procState 5 = 0 ∧ bitAt s.units.halted 6 = 0 ∧ s.procState 6 = 0 ∧ s.units.update = none) ∧
    (let s := up ((R.GCTL_PROC_STATE_STATE 0, 1) :: (List.range 6).map (fun c => (R.GCTL_PROC_STATE_STATE (c + 1), 0)))
     s.procState 0 = 1 ∧ s.units.update = none ∧ s.sibling 0 ≠ none) ∧
    (let s := up ((R.GCTL_PROC_STATE_STATE 4, 1) :: [(R.GCTL_PROC_STATE_STATE 5, 0)])
     s.procState 4 = 1 ∧ s.procState (9 - 4) ≤ 1) ∧
    (let s := up ((R.GCTL_PROC_STATE_STATE 0, 1) :: (List.range 3).map (fun c => (R.GCTL_PROC_STATE_STATE (c + 1), 2)))
     s.procState 0 = 1 ∧ s.sibling 0 = none ∧ s.loopsOf 0 ≠ 0) ∧ (up [(R.GCTL_PROC_STATE_STATE 6, 3)]).procState 6 = 3 ∧
    (let s := up ((R.PWR_ALLOW_ALLOW 6, 2 ^ 31) :: (List.range 7).map (fun c => (R.GCTL_PROC_STATE_STATE c, 2)))
     s.unitVerdict 3 2 0 6 0 = St.ok ∧ s.inShutdown = false ∧ s.mayPower (217 + 6) = true) ∧
    (let s := up ((R.GCTL_PROC_STATE_STATE 6, 5) :: (List.range 6).map (fun c => (R.GCTL_PROC_STATE_STATE c, 0)))
     s.procState 6 = 5 ∧ (∀ k < 7, k ≠ 6 → s.procState k = 0) ∧ ∀ k < 4, bitAt s.units.halted k = 0) ∧
    (let s := { up [(R.IMG_SLOT_STAT_STATE 5, 2)] with img := { State.reset.img with images := [(5, fwImage)] } }
     s.unitVerdict 4 1 0 5 128 = St.ok ∧ s.lingState ≠ 3 ∧ s.image 5 = some fwImage) := by decide
theorem test_ReceiverEnableDisable :
    (State.reset.get (R.RXD_CTRL_EN 1) = 0 ∧ State.reset.isOn R.THM_SD_STAT_PEND = false ∧ State.reset.inShutdown = false ∧ State.reset.rxState 1 = 0) ∧
    (up [(R.THM_SD_STAT_PEND, 1)]).isOn R.THM_SD_STAT_PEND = true ∧ (up [(R.THM_SD_STAT_STATE, 1)]).inShutdown = true ∧
    (let s := up [(R.RXD_CTRL_EN 1, 1), (R.RXD_ACQ_STATE 1, 7)]
     s.get (R.RXD_CTRL_EN 1) = 1 ∧ s.rxState 1 ≠ 0 ∧ s.faHolds 1 = false) := by decide
theorem test_ReceiverAcquisition_steps :
    (let s := ladder [(R.RXD_ACQ_STATE 0, 1), (R.RXD_CTRL_BEACON_REQ 0, 0)]
     s.rxState 0 = 1 ∧ s.rungOk 0 (s.rxRungIx 0) = true ∧ (s.port 0).rxd.los = false ∧ s.isOn (R.RXD_CTRL_BEACON_REQ 0) = false ∧
     ((s.modRxd 0 (fun r => { r with payload := true })).port 0).rxd.payload = true) ∧
    (let s := up [(R.RXD_ACQ_STATE 1, 2), (R.RXD_ACQ_WARM 1, 1)]
     s.rxState 1 = 2 ∧ s.isOn (R.RXD_ACQ_WARM 1) = true) ∧
    (up [(R.RXD_ACQ_STATE 1, 3)]).rxState 1 = 3 ∧ (up [(R.RXD_ACQ_STATE 1, 4)]).rxState 1 = 4 ∧
    (let s := up [(R.RXD_ACQ_STATE 1, 6), (R.LFR_ALIGN_STAT_FA 1, 1)]
     s.rxState 1 = 6 ∧ s.faHolds 1 = true) := by decide
theorem test_ReceiverAcquisition_losses : (up [(R.RXD_ACQ_STATE 1, 7)]).rxState 1 = 7 ∧ (up [(R.RXD_ACQ_STATE 1, 4)]).rxState 1 = 4 ∧ State.reset.rxState 1 = 0 := by decide
theorem test_ReceiverReports :
    4 ≤ (up [(R.RXD_ACQ_STATE 1, 4)]).rxState 1 ∧ (up [(R.RXD_ACQ_STATE 1, 3)]).rxState 1 < 4 ∧
    (up [(R.RXD_ACQ_STATE 1, 1)]).rxState 1 ≠ 0 ∧ State.reset.isOn (R.LFR_ALIGN_STAT_SA 1) = false ∧
    (let s := up [(R.STL_LANE_CTRL_TX_EN 5, 1), (R.RXD_FTUNE_EN 1, 1), (R.GCTL_PROC_STATE_STATE 1, 0)]
     s.roleLane (2 + 3 * 1) = some 5 ∧ s.isOn (R.RXD_FTUNE_EN 1) = true ∧ s.loopRuns (linkLoops 1) = true) ∧
    State.reset.roleLane (2 + 3 * 1) = none ∧
    (let s := (up [(R.RXD_ACQ_STATE 1, 7), (R.RXD_FTUNE_ALARM 1, 1)]).setI (R.RXD_FO_FO 1) (-5)
     s.rxState 1 = 7 ∧ 4 * s.get (R.RXD_FTUNE_ALARM 1) < (s.getI (R.RXD_FO_FO 1)).natAbs) := by decide
theorem test_TransmitterStates :
    State.reset.txState 1 ≠ 2 ∧ State.reset.rungOk 1 (State.reset.get (R.TXD_CTRL_RUNG_INIT 1)) = false ∧
    (let s := ladder []
     s.txState 0 ≠ 2 ∧ s.rungOk 0 (s.get (R.TXD_CTRL_RUNG_INIT 0)) = true ∧ s.swc.acts = [] ∧ s.swc.pds.length = 4) ∧
    (let s := up [(R.TXD_STATE_STATE 1, 2), (R.TXD_CTRL_MODE 1, 2)]
     s.txState 1 = 2 ∧ s.get (R.TXD_CTRL_MODE 1) = 2) ∧
    (let s := up [(R.TXD_STATE_STATE 1, 2), (R.TXD_CTRL_MODE 1, 1)]
     s.txState 1 = 2 ∧ s.get (R.TXD_CTRL_MODE 1) < 2 ∧ (s.pdPos (txPd 1)).first = false) ∧
    (up [(R.THM_SD_STAT_PEND, 1)]).isOn R.THM_SD_STAT_PEND = true ∧ (up [(R.THM_SD_STAT_STATE, 1)]).inShutdown = true ∧
    State.reset.isOn R.THM_SD_STAT_PEND = false := by decide
/-- The Sedge core runs, and register fields as given. -/
def sedgeUp (l : List (Fld × Nat)) : State := up ((R.GCTL_PROC_STATE_STATE 6, 0) :: l)
theorem test_FarEndReports :
    ((sedgeUp []).coreRuns 6 = true ∧ (List.replicate 84 255).length = 84 ∧ (sedgeUp []).authority 1 0 ≠ 3) ∧
    (({ State.reset with swc := { State.reset.swc with pds := [{}, {}, {}, { valid := true }] } } : State).pdPos (rxPd 1)).valid = true ∧
    (State.reset.pdPos (rxPd 1)).valid = false ∧
    (let s := State.reset.modProp 1 1 (fun x => { x with backoff := true, rung := true })
     (s.prop 1 1).backoff = true ∧ s.propOpen 1 1 = false ∧ (s.prop 1 1).rung = true) ∧ (State.reset.prop 1 1).backoff = false := by decide
theorem test_ProposalCommands :
    (let s := up [(R.TXD_ADAPT_RX_AUTH 1, 1)]
     s.authority 1 1 = 1 ∧ s.propOpen 1 1 = false ∧ (s.prop 1 1).hold = false) ∧ State.reset.authority 1 1 ≠ 1 ∧
    (let s := up [(R.TXD_ADAPT_RX_AUTH 1, 1), (R.TXD_PROP_STAT_STATE 1 1, 3), (R.GCTL_PROC_STATE_STATE 6, 2)]
     s.authority 1 1 = 1 ∧ s.propOpen 1 1 = true ∧ s.coreRuns 6 = false ∧ s.get (R.TXD_PROP_STAT_ROLE 1 1) = 0 ∧ (s.prop 1 1).act = none) ∧
    (let s := (up [(R.TXD_PROP_STAT_STATE 1 1, 1), (R.GCTL_PROC_STATE_STATE 6, 2)]).modProp 1 1 (fun x => { x with waiting := true })
     s.propState 1 1 = 1 ∧ (s.prop 1 1).waiting = true ∧ s.coreRuns 6 = false) := by decide
set_option maxRecDepth 4000 in
theorem test_ProposalAnswers : let d := 1 - bitAt ([255, 1, 6].getD 1 0) 0
    ((sedgeUp []).coreRuns 6 = true ∧ (sedgeUp []).propState 1 d ≠ 1 ∧ (sedgeUp []).propOpen 1 d = false ∧ (sedgeUp []).authority 1 d ≠ 2 ∧
      (sedgeUp []).authority 1 d ≠ 4) ∧
    (let s := (sedgeUp [(R.TXD_PROP_STAT_STATE 1 0, 1), (R.TXD_PROP_STAT_ID 1 0, 255)]).modProp 1 0 (fun x => { x with waiting := true })
     s.propState 1 d = 1 ∧ (s.prop 1 d).waiting = true ∧ s.get (R.TXD_PROP_STAT_ID 1 d) = [255, 1, 6].getD 0 0) ∧
    (let s := (ladder [(R.GCTL_PROC_STATE_STATE 6, 0), (R.TXD_PROP_STAT_STATE 0 0, 1), (R.TXD_PROP_STAT_ID 0 0, 255)]).modProp 0 0
        (fun x => { x with waiting := true, rung := true, brk := false, target := 256, content := [0] })
     s.propState 0 d = 1 ∧ (s.prop 0 d).waiting = true ∧ s.get (R.TXD_PROP_STAT_ID 0 d) = [255, 1, 6].getD 0 0 ∧ s.get (R.TXD_PROP_STAT_ROLE 0 d) = 0 ∧
     (s.prop 0 d).rung = true ∧ (s.prop 0 d).brk = false ∧ s.insertVerdict M.host (s.propDesc 0 d true (s.prop 0 d).target ((s.prop 0 d).content.headD 0)) false = St.ok) ∧
    (let s := sedgeUp [(R.TXD_PROP_STAT_STATE 1 0, 2), (R.TXD_PROP_STAT_ROLE 1 0, 1), (R.TXD_PROP_STAT_ID 1 0, 255)]
     s.propState 1 d = 2 ∧ s.propOpen 1 d = true ∧ s.get (R.TXD_PROP_STAT_ROLE 1 d) = 1 ∧ s.get (R.TXD_PROP_STAT_ID 1 d) = [255, 1, 6].getD 0 0 ∧
     (s.prop 1 d).act = none) := by decide
theorem test_ProposalAnswers_accept : let b := [255, 3, 0, 0, 0, 0, 8, 0, 0]
    let s := ladder [(R.GCTL_PROC_STATE_STATE 6, 0), (R.TXD_ADAPT_TX_AUTH 0, 2)]
    let w := (List.range 3).map (fun k => ofLe ((b.drop (8 + 16 * k)).take 16))
    let u := s.modSgp 0 (fun g => { g with coreIn := g.coreIn.erase (0x11, b) })
    s.coreRuns 6 = true ∧ bitAt (b.getD 1 0) 1 = 1 ∧ 1 - bitAt (b.getD 1 0) 0 = 0 ∧
    u.proposeVerdict 0 0 true (beAt b 2 6) 0 (adjOf (word w 0) (word w 1) (word w 2)) = St.ok ∧
    u.insertVerdict M.sedge (u.propDesc 0 0 true (beAt b 2 6) 0) false = St.ok := by decide +kernel
theorem test_FrameBuild : State.reset.txState 1 ≠ 2 ∧
    (let s := up [(R.TXD_STATE_STATE 1, 2)]
     s.txState 1 = 2 ∧ s.txNext 1 % 256 ≠ 0 ∧ s.portMode ≠ 1 ∧ s.swc.pds.length = 4) := by decide
/-- A received header of frame 255 of swath 2. -/
def hdr255 : List Nat := headerBytes ⟨255, 2, 0, 0, 0, 0, 0⟩ []
set_option maxRecDepth 8000 in
theorem test_FrameAlignment_header : copyIn hdr255 = some (0, ⟨255, 2, 0, 0, 0, 0, 0⟩) ∧ State.reset.fasPasses 1 hdr255 = true ∧
    copyIn (List.replicate 512 255) = none ∧ State.reset.fasPasses 1 (List.replicate 512 255) = false := by decide
set_option maxRecDepth 8000 in
theorem test_FrameAlignment :
    (let s := up [(R.RXD_ACQ_STATE 1, 5)]
     s.faHolds 1 = false ∧ s.rxState 1 = 5 ∧ 65535 < 65536 / (s.rxRung 1).subs ∧ s.fasPasses 1 hdr255 = true ∧ ∀ j < 4, s.isOn (R.LFR_CAND_VALID 1 j) = false) ∧
    (let s := up [(R.LFR_CAND_VALID 1 3, 1), (R.LFR_CAND_MFAS 1 3, 254), (R.LFR_CAND_HITS 1 3, 2)]
     s.isOn (R.LFR_CAND_VALID 1 3) = true ∧ s.faHolds 1 = false ∧ s.fasPasses 1 hdr255 = true ∧ 255 = (s.get (R.LFR_CAND_MFAS 1 3) + 1) % 256 ∧
     2 ≤ s.get (R.LFR_CAND_HITS 1 3) ∧ (s.set (R.LFR_CAND_HITS 1 3) 1).get (R.LFR_CAND_HITS 1 3) < 2) ∧
    State.reset.isOn (R.LFR_CAND_VALID 1 3) = false := by decide
set_option maxRecDepth 8000 in
theorem test_FrameReceive : State.reset.units.tiles = [] ∧ State.reset.faHolds 1 = false ∧
    4 ≤ ((State.reset.modLfr 1 (fun l => { l with fasFails := 4 })).port 1).lfr.fasFails ∧
    (let s := (up [(R.LFR_ALIGN_STAT_FA 1, 1)]).modLfr 1 (fun l => { l with fasFails := 4 })
     let x : RxFrame := { header := List.replicate 16 255 }
     (rxField 1 x (losJudge 1 (rxFrameStep 1 (frameMeasure 1 x.lanes (tilesLeave 1 s))))).1 = [] ∧ s.fasPasses 1 x.header = false) ∧
    (up [(R.LFR_ALIGN_STAT_FA 1, 1)]).faHolds 1 = true ∧ (up [(R.LFR_ALIGN_STAT_FA 1, 1)]).isOn (R.LFR_ALIGN_STAT_SA 1) = false := by decide
/-- The reset state in port mode `m`, its directory naming table `n` of one word. -/
def inMode (m n : Nat) : State :=
  { State.reset with img := { State.reset.img with struct := { State.reset.img.struct with mode := m, dir := [{ num := n, words := 1 }] } } }
theorem test_SkewAndSwap : State.reset.bonded = false ∧ (inMode 2 0).bonded = true ∧
    2 ≤ (((inMode 2 0).modLfr 0 (fun l => { l with skewBad := 2, skewGood := 2 })).port 0).lfr.skewBad ∧ 16000 < (-16001 : Int).natAbs ∧
    ((inMode 2 0).modLfr 0 (fun l => { l with skewBad := 2, skewGood := 2 })).get (R.LFR_BOND_STAT_SKEW_ALARM 0) = 0 ∧
    (State.reset.port 1).lfr.adjSwap = false ∧
    (let s := (inMode 0 0xF102).modLfr 1 (fun l => { l with adjSwap := true })
     (s.port 1).lfr.adjSwap = true ∧ (s.adjIdle 1 1).id = s.get (R.TXD_ADJ_STAT_RCVD_ID 1) ∧ s.findTab (adjTab 1 1) = some { num := 0xF102, words := 1 } ∧
     s.actBank (adjTab 1 1) false ≤ 1) := by decide
theorem test_ClientLanes : (up [(laneField 63 1, 1)]).laneState 63 1 = 1 ∧ (up [(laneField 63 0, 1)]).laneState 63 0 = 1 ∧ State.reset.laneState 63 1 ≠ 1 ∧
    (up [(laneField 63 1, 2)]).laneState 63 1 = 2 ∧ State.reset.laneState 63 1 ≠ 2 ∧ State.reset.laneState 63 1 ≠ 3 ∧
    ({ up [(laneField 63 1, 2)] with cli := { State.reset.cli with passed := [127] } } : State).cli.passed.contains (2 * 63 + 1) = true ∧
    (up [(laneField 63 1, 3)]).laneState 63 1 = 3 := by decide
/-- One group of 400GBASE-R defined in entry 0, and register fields as given. -/
def grp (l : List (Fld × Nat)) : State := tab 0xF020 [2 ^ 127 + 6] l
theorem test_ClientGroups : (up [(R.CLI_GRP_STAT_STATE 63, 2)]).grpState 63 = 2 ∧ (grp [(R.CLI_GRP_STAT_STATE 0, 2)]).grpState 0 = 2 ∧ 7 ∈ [7] ∧
    (∀ k < ifLanes (grpIf ((grp []).grpWord 0)), k ∉ [8]) ∧ State.reset.grpState 63 ≠ 2 ∧
    (grp [(R.CLI_GRP_STAT_STATE 0, 3)]).grpState 0 = 3 ∧ 7 < ifLanes (grpIf ((grp []).grpWord 0)) ∧ State.reset.grpState 63 ≠ 3 ∧
    ifLanes (grpIf ((grp []).grpWord 0)) ≤ 8 ∧ isEthernet (grpIf ((grp []).grpWord 0)) = true ∧ grpDefined ((grp []).grpWord 0) = true ∧
    isEthernet (grpIf (State.reset.grpWord 63)) = false := by decide
/-- Fields of buffer 15 of port 1: its state, TYPE, SEC and LENGTH. -/
def buf (st typ sec len : Nat) : List (Fld × Nat) :=
  [(R.SGP_TXB_CTRL_STATE 1 15, st), (R.SGP_TXB_CTRL_TYPE 1 15, typ), (R.SGP_TXB_CTRL_SEC 1 15, sec), (R.SGP_TXB_CTRL_LENGTH 1 15, len)]
/-- A packet of buffer 15 under way. -/
def pkt15 : TxPacket := ⟨15, 0x40, 0, 0, 0, 0, none, [], [], 0⟩
theorem test_SedgeSending_arm : M.host ≠ M.sedge ∧ 2 ≤ (up (buf 3 0x40 0 0)).bufState 1 15 ∧ State.reset.bufState 1 15 = 0 ∧
    (let s := up (buf 1 0x40 0 2048)
     s.bufState 1 15 = 1 ∧ s.get (R.SGP_TXB_CTRL_LENGTH 1 15) ≤ (if s.get (R.SGP_TXB_CTRL_SEC 1 15) = 0 then 2048 else 2024) ∧
     isCoreType (s.get (R.SGP_TXB_CTRL_TYPE 1 15)) = false) ∧
    (let s := up (buf 1 0x40 2 2024)
     s.get (R.SGP_TXB_CTRL_LENGTH 1 15) ≤ (if s.get (R.SGP_TXB_CTRL_SEC 1 15) = 0 then 2048 else 2024)) := by decide
theorem test_SedgeSending_start : (State.reset.port 1).sgp.queue = [] ∧
    (let s := (up (buf 2 0x40 0 1 ++ [(R.SGP_TX_CTRL_EN 1, 1), (R.TXD_STATE_STATE 1, 1), (R.PWR_ON_ON 7, 2 ^ 23)])).modSgp 1 (fun g => { g with queue := [15] })
     s.domainOn 247 = true ∧ s.isOn (R.SGP_TX_CTRL_EN 1) = true ∧ s.get (R.TXD_STATE_STATE 1) ≠ 0 ∧ (s.port 1).sgp.sending = none ∧ s.nextBuf 1 = some 15 ∧
     s.get (R.SGP_TXB_CTRL_SEC 1 15) = 0) ∧
    (let s := (up (buf 2 0x40 1 1 ++ [(R.SGP_TX_CTRL_EN 1, 1), (R.TXD_STATE_STATE 1, 1), (R.PWR_ON_ON 7, 2 ^ 23)])).modSgp 1 (fun g => { g with queue := [15] })
     s.domainOn 247 = true ∧ s.isOn (R.SGP_TX_CTRL_EN 1) = true ∧ s.get (R.TXD_STATE_STATE 1) ≠ 0 ∧ (s.port 1).sgp.sending = none ∧ s.nextBuf 1 = some 15 ∧
     s.get (R.SGP_TXB_CTRL_SEC 1 15) ≠ 0 ∧ (s.sess (s.get (R.SGP_AUTH_POL_SESSION 1))).key = none) ∧
    (State.reset.port 1).sgp.sending = none ∧
    (let s := State.reset.modSgp 1 (fun g => { g with sending := some pkt15 })
     (s.port 1).sgp.sending = some pkt15 ∧ pkt15.buf < 16 ∧ (s.port 1).sgp.coreOut = []) := by decide
theorem test_SedgeSync : State.reset.corrState 1 3 = 0 ∧ State.reset.corrState 1 3 ≠ 2 ∧
    (let s := up [(R.SGP_CORR_STAT_STATE 1 3, 1), (R.SGP_CORR_DET_THR 1 3, 255)]
     s.corrState 1 3 = 1 ∧ 254 < s.get (R.SGP_CORR_DET_THR 1 3) ∧ s.get (R.SGP_CORR_DET_THR 1 3) ≤ 255) ∧
    (let s := up [(R.SGP_CORR_STAT_STATE 1 0, 1)]
     s.corrState 1 0 = 1 ∧ s.get (R.SGP_CORR_DET_THR 1 0) ≤ 255) ∧
    (let s := up [(R.SGP_CORR_STAT_STATE 1 3, 4)]
     s.corrState 1 3 = 4 ∧ 0 < 1 + 2 * s.get (R.SGP_RX_CTRL_CAPTURE 1) ∧ 0 + 2 * s.get (R.SGP_RX_CTRL_CAPTURE 1) ≤ 255) ∧
    (up [(R.SGP_CORR_STAT_STATE 1 3, 2)]).corrState 1 3 = 2 ∧ (State.reset.port 1).sgp.corr.length = 4 := by decide
/-- A header of TYPE 0x40, no security, LENGTH 2048, SEQ 4095 and CODE 0, without and with its CRC. -/
def head0 : Nat := 0x40 * 2 ^ 56 + 2048 * 2 ^ 40 + 4095 * 2 ^ 28
def head1 : Nat := head0 + crc16 (bytesBe 6 (bits head0 63 16))
set_option maxRecDepth 8000 in
theorem test_SedgePackets_header : State.reset.corrState 1 3 ≠ 3 ∧ State.reset.corrState 1 3 ≠ 4 ∧ (up [(R.SGP_CORR_STAT_STATE 1 3, 3)]).corrState 1 3 = 3 ∧
    crc16 (bytesBe 6 (bits (head1 + 1) 63 16)) ≠ bits (head1 + 1) 15 0 ∧ crc16 (bytesBe 6 (bits head1 63 16)) = bits head1 15 0 ∧
    bits head1 51 40 ≤ 2048 ∧ bits head1 55 54 = 0 ∧ bits head1 27 17 = (up [(R.SGP_CORR_CODE 1 3, 0)]).get (R.SGP_CORR_CODE 1 3) := by decide
set_option maxRecDepth 8000 in
theorem test_SedgePackets_body :
    let s := (up [(R.SGP_CORR_STAT_STATE 1 0, 4)]).modCorr 1 0 (fun c => { c with typ := 0x7F, len := 1 })
    s.corrState 1 0 = 4 ∧ crc32 [255] ≠ crc32 [255] + 1 ∧ ((s.port 1).sgp.corr.getD 0 {}).sec = 0 ∧ ((s.port 1).sgp.corr.getD 0 {}).typ = 0x7F ∧
    [255].length = ((s.port 1).sgp.corr.getD 0 {}).len ∧ s.isOn (R.SGP_AUTH_POL_REQ_USER 1) = false ∧ (s.port 1).sgp.rxq.length < 8 ∧
    8 ≤ ((s.modSgp 1 (fun g => { g with rxq := List.replicate 8 ⟨0x40, 0, 0, 0, false, 0, []⟩ })).port 1).sgp.rxq.length := by decide
theorem test_PeerAndCodes : State.reset.get (R.TXD_STATE_STATE 1) = 0 ∧
    (let s := up [(R.SGP_NEG_CTRL_NEG_EN 1, 1), (R.TXD_STATE_STATE 1, 1)]
     s.isOn (R.SGP_NEG_CTRL_NEG_EN 1) = true ∧ s.get (R.TXD_STATE_STATE 1) = 1) ∧
    ((sedgeUp []).coreRuns 6 = true ∧ (List.replicate 36 255).length = 36 ∧ ∀ x ∈ List.replicate 36 255, x < 256) ∧
    State.reset.isOn (R.SGP_NEG_STAT_PEER_SEEN 1) = false ∧
    (let s := up [(R.SGP_NEG_STAT_PEER_SEEN 1, 1)]
     s.isOn (R.SGP_NEG_STAT_PEER_SEEN 1) = true ∧ (s.port 1).sgp.peerTx ≠ 2) ∧
    (let s := up [(R.SGP_NEG_STAT_PEER_SEEN 1, 1), (R.SGP_NEG_CTRL_HELLO_P 1, 1)]
     s.get (R.SGP_NEG_CTRL_HELLO_P 1) ≠ 0) := by decide
theorem test_PeerAndCodes_write : let data := 2 ^ 31 + 1024 * 2 ^ 16 + 160
    bits data 26 16 ≤ 1024 ∧ bitAt data 31 = 1 ∧ bits data 7 0 = 160 ∧ bitAt (data - 2 ^ 31) 31 = 0 ∧
    (let s := up [(R.PWR_ALLOW_ALLOW 7, 2 ^ 23), (R.SGP_CORR_EN 1 2, 1), (R.SGP_CORR_CODE 1 2, 1024)]
     s.get R.THM_SD_STAT_STATE ≠ 1 ∧ s.mayPower 247 = true ∧ s.isOn (R.SGP_CORR_EN 1 2) = true ∧ s.get (R.SGP_CORR_CODE 1 2) = bits data 26 16 ∧
     s.get (R.SGP_CORR_CODE 1 3) ≤ 1024) ∧
    (let s := up [(R.PWR_ALLOW_ALLOW 7, 2 ^ 23), (R.SGP_CORR_EN 1 2, 1), (R.SGP_CORR_CODE 1 2, 1023)]
     s.mayPower 247 = true ∧ ∀ j < 4, j ≠ 3 → s.isOn (R.SGP_CORR_EN 1 j) = true → s.get (R.SGP_CORR_CODE 1 j) ≠ bits data 26 16) ∧
    State.reset.isOn (R.SGP_CORR_EN 1 3) = false ∧ State.reset.mayPower 247 = false ∧ (up [(R.SGP_CORR_EN 1 3, 1)]).isOn (R.SGP_CORR_EN 1 3) = true := by decide
/-- Context 0 of port 0 with policy word `w` (valid), and register fields as given. -/
def pol (w : Nat) (l : List (Fld × Nat)) : State := tab 0xF008 [2 ^ 127 + w] l
theorem test_KeyRolls_refused : State.reset.ctxMode 1 31 ≠ 1 ∧
    (let s := (pol 1 []).modEx 0 0 (fun e => { e with waiting := true })
     s.ctxMode 0 0 = 1 ∧ (s.keyEx 0 0).waiting = true) ∧
    (let s := pol 1 [(R.LCX_KEY_SW_LO_SW_L, 0)]
     s.ctxMode 0 0 = 1 ∧ (s.keyEx 0 0).waiting = false ∧ (s.keyEx 0 0).asked = false ∧ (s.keyEx 0 0).hold = false ∧
     s.get R.LCX_KEY_SW_LO_SW_L + 2 ^ 32 * s.get R.LCX_KEY_SW_HI_SW_H < s.dirSwath 0 0 + s.get R.LCX_KEY_TMR_MIN_LEAD) := by decide
theorem test_KeyRolls_begun :
    (let s := pol 1 [(R.LCX_KEY_SW_LO_SW_L, 2 ^ 32 - 1), (R.SEC_STATE_STATE, 3)]
     s.dirSwath 0 0 + s.get R.LCX_KEY_TMR_MIN_LEAD ≤ s.get R.LCX_KEY_SW_LO_SW_L + 2 ^ 32 * s.get R.LCX_KEY_SW_HI_SW_H ∧ s.lingState = 3) ∧
    (let s := pol 1 [(R.LCX_KEY_SW_LO_SW_L, 2 ^ 32 - 1), (R.SEC_STATE_STATE, 2)]
     s.lingState ≠ 3 ∧ s.insertVerdict M.ling (descOf (s.get R.LCX_KEY_SW_LO_SW_L + 2 ^ 32 * s.get R.LCX_KEY_SW_HI_SW_H) 0 (2 * 0) 4 (0 + 256 * 1)) false ≠ St.ok) ∧
    (let s := pol 1 [(R.LCX_KEY_SW_LO_SW_L, 262143), (R.SEC_STATE_STATE, 2)]
     s.dirSwath 0 0 + s.get R.LCX_KEY_TMR_MIN_LEAD ≤ s.get R.LCX_KEY_SW_LO_SW_L + 2 ^ 32 * s.get R.LCX_KEY_SW_HI_SW_H ∧ s.ctxMode 0 0 = 1 ∧
     s.insertVerdict M.ling (descOf (s.get R.LCX_KEY_SW_LO_SW_L + 2 ^ 32 * s.get R.LCX_KEY_SW_HI_SW_H) 0 (2 * 0) 4 (0 + 256 * 1)) false = St.ok) := by decide
theorem test_KeyRolls_messages :
    (let s := (up [(R.SEC_STATE_STATE, 2), (R.GCTL_PROC_STATE_STATE 6, 0)]).modEx 1 31 (fun e => { e with waiting := true, id := 255 })
     s.lingState ≠ 3 ∧ s.coreRuns 6 = true ∧ [255, 31].getD 1 0 % 32 = 31 ∧ (s.keyEx 1 31).waiting = true ∧ (s.keyEx 1 31).id = [255, 31].getD 0 0) ∧
    (State.reset.keyEx 1 31).waiting = false ∧ State.reset.keyVerdict 1 31 0 0 false ≠ St.ok := by decide
/-- The reset state where frame 4 of swath `n` goes out next in PAYLOAD, and context 0 of port 0 has policy word `w` and slot 0 `k`. -/
def sends (w n : Nat) (k : KeySlot) : State :=
  let s := (pol w [(R.TXD_STATE_STATE 0, 2)]).modCtx 0 0 0 (fun x => { x with slot0 := k })
  { s with swc := { s.swc with pds := [{ swath := n, frame := 3, valid := true }, {}, {}, {}] } }
theorem test_CipherTransmit : State.reset.get (R.TXD_STATE_STATE 1) ≠ 2 ∧
    (let s := sends 2 7 {}
     s.get (R.TXD_STATE_STATE 0) = 2 ∧ s.txNext 0 % 4 = 0 ∧ polMode (s.policy 0 0) = 2) ∧
    polMode ((sends 0 7 {}).policy 0 31) = 0 ∧
    (let s := sends 1 7 {}
     polMode (s.policy 0 0) = 1 ∧ ((s.ctx 0 0 0).slot (s.ctx 0 0 0).cur).state ≠ 2) ∧
    (let s := sends 1 7 { state := 2, used := 1 }
     ((s.ctx 0 0 0).slot (s.ctx 0 0 0).cur).state = 2 ∧
       2 ^ min (polBudget (s.policy 0 0)) (s.get R.LCX_BUDGET_LOG) ≤ ((s.ctx 0 0 0).slot (s.ctx 0 0 0).cur).used) ∧
    (let s := sends 1 7 { state := 2, mark := some 0 }
     ((s.ctx 0 0 0).slot (s.ctx 0 0 0).cur).state = 2 ∧ s.txNext 0 % 4 = 0 ∧
       ((s.ctx 0 0 0).slot (s.ctx 0 0 0).cur).used < 2 ^ min (polBudget (s.policy 0 0)) (s.get R.LCX_BUDGET_LOG) ∧
       ((s.ctx 0 0 0).slot (s.ctx 0 0 0).cur).mark = some 0 ∧ 0 < s.txNext 0) := by decide
/-- The reset state with the receive position valid, and context 0 of port 0 with policy word `w` and previous slot `prev`. -/
def hears (w : Nat) (prev : Option (Option KeySlot)) : State :=
  let s := (pol w []).modCtx 0 1 0 (fun x => { x with prev := prev, slot0 := { state := 2, mark := some 0 } })
  { s with swc := { s.swc with pds := [{}, { swath := 7, frame := 3, valid := true }, {}, {}] } }
theorem test_CipherReceive : polMode ((hears 2 none).policy 0 0) = 2 ∧ polMode ((hears 0 none).policy 0 31) = 0 ∧
    polMode ((hears 1 none).policy 0 0) = 1 ∧ ((hears 1 none).ctx 0 1 0).prev = none ∧ ((hears 1 none).pdPos (rxPd 0)).valid = true ∧
    ((hears 1 (some none)).ctx 0 1 0).prev = some none ∧
    (let s := hears 1 (some (some { state := 2 }))
     (s.ctx 0 1 0).prev = some (some { state := 2 }) ∧ (s.ctx 0 1 0).holder { state := 2 } = some 0 ∧ ((s.ctx 0 1 0).slot 0).mark = some 0 ∧
     0 < (s.pdPos (rxPd 0)).pos / 4 * 4 - 4) := by decide
/-- A tag that is received for context 0, right or wrong. -/
theorem test_CipherReceive_tags (k iv : Nat) (b : List Nat) : look 0 [(0, Config.gcmTag k (bytesBe 12 iv) [] b)] = some (Config.gcmTag k (bytesBe 12 iv) [] b) ∧
    (0 :: Config.gcmTag k (bytesBe 12 iv) [] b) ≠ Config.gcmTag k (bytesBe 12 iv) [] b := ⟨rfl, List.cons_ne_self _ _⟩
theorem test_KeyRolls_both :
    let s := pol 1 [(R.LCX_KEY_SW_LO_SW_L, 262143), (R.SEC_STATE_STATE, 2)]
    s.dirSwath 0 0 + s.get R.LCX_KEY_TMR_MIN_LEAD ≤ s.get R.LCX_KEY_SW_LO_SW_L + 2 ^ 32 * s.get R.LCX_KEY_SW_HI_SW_H ∧ s.ctxMode 0 0 = 1 ∧ s.lingState ≠ 3 ∧
    (s.keyEx 0 0).waiting = false ∧ (s.keyEx 0 0).asked = false ∧ (s.keyEx 0 0).hold = false ∧
    s.insertVerdict M.ling (descOf 262143 0 (2 * 0) 4 (0 + 256 * 1)) false = St.ok ∧
    (insertSwitch 0 1 0 1 262143 (insertSwitch 0 0 0 1 262143 s).2.2).1 = St.ok ∧ (up [(R.SEC_STATE_STATE, 3)]).lingState = 3 := by decide +kernel
/-- The responding end of a key roll with slot 0 staged, the Sedge core running. -/
def responds : State :=
  let s := (pol 1 [(R.SEC_STATE_STATE, 2), (R.GCTL_PROC_STATE_STATE 6, 0)])
  (s.modCtx 0 1 0 (fun x => { x with slot0 := { state := 1, key := 5, salt := 7 } })).modCtx 0 0 0 (fun x => { x with slot0 := { state := 1, key := 9, salt := 7 } })
/-- KEY_PROP for context 0, slot 0, both directions, with the switch at swath `target` and the key check value `v`. -/
def keyProp (target v : Nat) : List Nat := [255, 0, 2] ++ bytesBe 6 target ++ bytesBe 4 v
theorem test_KeyRolls_receive (v : Nat) : responds.lingState ≠ 3 ∧ responds.coreRuns 6 = true ∧ (responds.keyEx 0 0).waiting = false ∧
    (let b := keyProp 262143 0
     b.getD 1 0 % 32 = 0 ∧ (bitAt (b.getD 2 0) 1 == 1) = true ∧
     (insertSwitches 0 1 0 (bitAt (b.getD 2 0) 0) (beAt b 3 6) true (takeMsg 0 0x20 b responds)).1 = St.ok) ∧
    (let b := keyProp (2 ^ 48 - 1) 0
     (insertSwitches 0 1 0 (bitAt (b.getD 2 0) 0) (beAt b 3 6) true (takeMsg 0 0x20 b responds)).1 ≠ St.ok) ∧
    (let b := [255, 32]
     b.getD 1 0 % 32 = 0 ∧ (State.reset.keyEx 0 0).waiting = false ∧ State.reset.keyVerdict 0 0 (bitAt (b.getD 2 0) 0) (beAt b 9 4) false ≠ St.ok) ∧
    (v < 2 ^ 32 → beAt (keyProp 262143 v) 9 4 = v) := by
  refine ⟨by decide, by decide, by decide, by decide +kernel, by decide +kernel, by decide, fun h => ?_⟩
  simp [beAt, keyProp, bytesBe, bytesLe, ofBe, ofLe, List.range, List.range.loop]
  omega
/-- The check of a proposal passes on the value of its key, which fits in its four bytes. -/
theorem test_KeyRolls_verdict : responds.keyVerdict 0 0 0 (kcv 5 7) true = St.ok ∧ kcv 5 7 < 2 ^ 32 := by
  refine ⟨?_, by have := (Config.aesCipher 5 (7 * 2 ^ 96)).isLt; simp only [kcv, Config.aesBlock]; omega⟩
  have h : responds.ctxMode 0 0 = 1 ∧ (responds.keyEx 0 0).waiting = false ∧ (responds.keyEx 0 0).asked = false ∧
      ((responds.ctx 0 1 0).slot 0) = { state := 1, key := 5, salt := 7 } ∧ ((responds.ctx 0 0 0).slot 0).state = 1 := by decide
  simp [State.keyVerdict, h]
theorem test_CipherOnward :
    let s := { pol (2 ^ 2 + 1) [] with img := { (pol (2 ^ 2 + 1) []).img with struct := { (pol (2 ^ 2 + 1) []).img.struct with mode := 1 } } }
    s.regenerates 0 0 = true ∧ (∀ e < 0, s.regenerates 0 e = false) ∧ s.regenerates 0 31 = false ∧ State.reset.regenerates 1 31 = false := by decide
set_option maxRecDepth 8000 in
theorem test_UnitGroups : 15 < grpCount false ∧ 7 < grpCount true ∧
    (let s := up [(grpField false 15, 0), (grpField false 0, 0), (grpField true 7, 0), (grpField true 0, 0)]
     s.unitState false 15 = 0 ∧ (s.inService false).filter (· ≠ 15) ≠ [] ∧ s.unitState true 7 = 0 ∧ (s.inService true).filter (· ≠ 7) ≠ [] ∧
     ∀ p < 2, s.cipherReq p = 0) ∧
    (let s := up [(grpField true 7, 0)]
     s.unitState true 7 = 0 ∧ (s.inService true).filter (· ≠ 7) = [] ∧ s.unitState true 6 ≠ 0 ∧ s.unitState true 6 ≠ 6 ∧ s.unitState true 7 ≠ 2) ∧
    (up [(grpField false 15, 6)]).unitState false 15 = 6 ∧
    (let s := up [(grpField false 15, 2)]
     s.unitState false 15 = 2 ∧ s.get R.THM_SD_STAT_STATE ≠ 1 ∧ (s.set (R.PWR_ALLOW_ALLOW 6) (2 ^ 32 - 1)).mayPower (grpDomain false 15) = true ∧
     (s.set (R.PWR_ALLOW_ALLOW 6) 0).mayPower (grpDomain false 15) = false) := by decide
/-- A codeword of port 1 on engine `e`. -/
def cw (e : Option Nat) : Codeword :=
  { id := 65535, port := 1, dl := 0, baud := 1200, chan := 0, word := 0, rc := 3, m := 0, tags := [], engine := e }
/-- The reset state with one codeword in the pool. -/
def pool (e : Option Nat) : State := State.reset.modFec (fun f => { f with cws := [cw e] })
theorem test_UnitGroups_tests :
    (let s := up [(grpField false 15, 1)]
     s.unitState false 15 = 1 ∧ s.grpIdle 15 = true) ∧ (pool (some 255)).grpIdle 15 = false ∧ State.reset.unitState false 15 ≠ 1 ∧ State.reset.unitState false 15 ≠ 3 ∧
    (let s := up [(grpField false 15, 3)]
     s.unitState false 15 = 3 ∧ bitAt (direct false s) 15 = 0 ∧ bitAt (direct false (setDirect false (2 ^ 15) s)) 15 = 1) := by decide
theorem test_GroupShadow : (up [(grpField false 15, 4)]).unitState false 15 = 4 ∧ getAt 0 State.reset.fec.comps 15 < 256 ∧
    256 ≤ getAt 0 (State.reset.modFec (fun f => { f with comps := [(15, 256)] })).fec.comps 15 ∧ State.reset.unitState false 15 ≠ 4 ∧
    (up [(grpField true 7, 4)]).unitState true 7 = 4 ∧ State.reset.unitState true 7 ≠ 4 := by decide
theorem test_CodewordDecoding :
    (∀ c ∈ (pool none).fec.cws, c.id = 65535 → c.engine = none) ∧
    (cw (some 255) ∈ (pool (some 255)).fec.cws ∧ (cw (some 255)).engine.isSome = true ∧ ∀ x ∈ (pool (some 255)).fec.cws, x.id = 65535 → x = cw (some 255)) ∧
    State.reset.fec.cws.find? (fun c => c.port == 1) = none ∧ (pool none).fec.cws.find? (fun c => c.port == 1) = some (cw none) := by decide
/-- A piece of the receive stream of port 1, with its codeword whole or not and with a slot or not. -/
def seg (closed noSlot : Bool) : RxSeg := { m := 2, rc := 3, baud := 1200, closed := closed, slot := if noSlot then none else some 383, noSlot := noSlot }
/-- The reset state with pieces of port 1 received and noise windows measured. -/
def received (l : List RxSeg) (noise : List Nat) : State := State.reset.modRxd 1 (fun r => { r with cwq := l, noise := noise })
set_option maxRecDepth 8000 in
theorem test_CodewordDecoding_arrival : (∀ g ∈ ((State.reset.port 1).rxd.cwq).head?, g.closed = false) ∧
    (∀ g ∈ (((received [seg false false] []).port 1).rxd.cwq).head?, g.closed = false) ∧
    ((received [seg true true] []).port 1).rxd.cwq = seg true true :: [] ∧ (seg true true).closed = true ∧ (seg true true).noSlot = true ∧
    ((received [seg true false] []).port 1).rxd.cwq = seg true false :: [] ∧ (seg true false).noSlot = false ∧
    ((received [seg true false] [4096]).port 1).rxd.noise ≠ [] ∧ slotWord (List.replicate 32 (some (-1))) 0 = some (16 ^ 32 - 1) ∧
    (State.reset.port 1).rxd.parts = [] ∧ (State.reset.port 1).lfr.otuBits = [] := by decide
/-- A descriptor of operation `op`, priority `pr` and session 63 on a buffer of 16 bytes at byte `a` of the address space. -/
def job (op pr a : Nat) : Nat := a * 2 ^ 64 + 16 * 2 ^ 16 + 2 ^ 14 + 63 * 2 ^ 8 + 16 * pr + op
/-- The reset state with a key and all rights in session 63, and the jobs given. -/
def mce (q su : List Job) (run : Option Job) : State :=
  (State.reset.modSess 63 (fun x => { x with key := some 1, rights := 6 })).modMce (fun m => { m with queue := q, susp := su, running := run })
def jobOf (pr : Nat) : Job := ⟨65535, M.host, job 1 pr 0, none⟩
theorem test_MessageVerdicts : jOp (job 9 0 0) = 9 ∧ 2 ^ 48 ≤ jAddr (job 1 0 (2 ^ 48)) ∧
    (jOp (job 8 0 0) = 8 ∧ bits (job 8 0 0) 63 40 = 0 ∧ jAddr (job 8 0 (2 ^ 48 - 1)) < 2 ^ 48) ∧
    (State.reset.sess 63).allows M.host = false ∧ jOp (job 6 0 0) = 6 ∧ M.host ≠ M.ling ∧ (targetOf (jAddr (job 6 0 0))).1 ≠ 10 ∧
    ((mce [] [] none).sess 63).allows M.host = true ∧ (State.reset.sess 63).allows M.ling = true ∧ (State.reset.sess 63).key = none ∧
    (let s := mce [] [] none
     (s.sess 63).key ≠ none ∧ jFirst (job 1 0 0) = true ∧ jAddr (job 1 0 0) + s.jobSize (job 1 0 0) ≤ (targetOf 0).2 ∧
     (targetOf (jAddr (job 1 0 0x7FFF1))).2 < jAddr (job 1 0 0x7FFF1) + s.jobSize (job 1 0 0x7FFF1)) ∧
    (let s := mce [{ jobOf 0 with desc := job 1 0 0 + 2 ^ 16 }] [] none
     jGcm (job 1 0 0 - 2 ^ 14) = true ∧ jFirst (job 1 0 0 - 2 ^ 14) = false ∧ s.lastSegment 63 % 16 ≠ 0) := by decide
theorem test_MessageSubmission : mceMaster 5 = false ∧ mceMaster M.host = true ∧ State.reset.jobVerdict M.host (withOp 1 (job 0 0 0)) ≠ St.ok ∧
    (mce [] [] none).jobVerdict M.host (withOp 1 (job 0 0 0)) = St.ok := by decide
theorem test_MessageJobs_order : State.reset.mce.running = none ∧
    (let s := mce [jobOf 3] [jobOf 0, jobOf 0, jobOf 0] (some (jobOf 2))
     s.mce.running = some (jobOf 2) ∧ nextJob s.mce.queue = some (jobOf 3) ∧ jPrio (jobOf 2).desc < jPrio (jobOf 3).desc ∧ s.mce.susp.length < 4) ∧
    (let s := mce [jobOf 3] [] (some (jobOf 3))
     nextJob s.mce.queue = some (jobOf 3) ∧ jPrio (jobOf 3).desc ≤ jPrio (jobOf 3).desc) := by decide
/-- A job at byte `a` of the address space. -/
def jobAt (op m a : Nat) : Job := ⟨1, m, job op 0 a, none⟩
theorem test_MessageJobs_reach : jobReach (jobOf 0) = St.ok ∧ jGcm (jobOf 0).desc = true ∧ jGcm (jobAt 4 M.host 0).desc = false ∧
    (targetOf (jAddr (jobAt 1 M.host 0xF0000000).desc)).1 = 11 ∧ jobReach (jobAt 1 M.host 0xF0000000) ≠ St.ok ∧
    (M.host = M.host ∧ (targetOf (jAddr (jobAt 1 M.host (2 ^ 47)).desc)).1 = 9) ∧ M.ling ≠ M.host ∧ mayAccess false M.host 10 = false := by decide
theorem test_MessageJobs_complete :
    (let s := mce [] [] (some (jobOf 0))
     s.mce.running = some (jobOf 0) ∧ s.mce.queue = [] ∧ s.mce.susp = [] ∧ jSess (jobOf 0).desc < s.mce.sess.length ∧
     (targetOf (jAddr (jobOf 0).desc)).1 ≠ 11 ∧ mayAccess false (jobOf 0).bank (targetOf (jAddr (jobOf 0).desc)).1 = true) ∧
    (let a := 0x10000000
     (targetOf (jAddr (job 1 0 a))).1 ≠ 11 ∧ mayAccess false M.host (targetOf (jAddr (job 1 0 a))).1 = false ∧ (targetOf (jAddr (job 1 0 a))).1 ≠ 9) ∧
    State.reset.mce.results.find? (·.bank == bankOf M.host) = none ∧
    (State.reset.modMce (fun m => { m with results := [⟨bankOf M.host, 65535, 255⟩] })).mce.results.find? (·.bank == bankOf M.host) =
      some ⟨bankOf M.host, 65535, 255⟩ := by decide
theorem le_sum {x : Nat} : ∀ {l : List Nat}, x ∈ l → x ≤ l.sum
  | y :: r, h => by
    rcases List.mem_cons.mp h with e | e
    · simp [e]
    · have := le_sum e; simp only [List.sum_cons]; omega
theorem xor_zero_eq {a b : Nat} (h : a ^^^ b = 0) : a = b := by
  have := congrArg (· ^^^ b) h
  simpa [Nat.xor_assoc] using this
/-- Check bits with which the zero word is uncorrectable, whatever the code. -/
def badCheck : Nat :=
  ([Config.eccCheck 0] ++ (List.range 128).map (fun i => Config.eccCheck (0 ^^^ 2 ^ i)) ++ (List.range 9).map (fun i => Config.eccCheck 0 ^^^ 2 ^ i)).sum + 1
theorem badCheck_decode : eccDecode 0 badCheck = none := by
  have h : ∀ x ∈ [Config.eccCheck 0] ++ (List.range 128).map (fun i => Config.eccCheck (0 ^^^ 2 ^ i)) ++
      (List.range 9).map (fun i => Config.eccCheck 0 ^^^ 2 ^ i), x ≠ badCheck := fun x hx e => by
    have := le_sum hx
    unfold badCheck at e; omega
  have h0 : Config.eccCheck 0 ^^^ badCheck ≠ 0 := fun e => h (Config.eccCheck 0) (by simp) (xor_zero_eq e)
  have h1 : (List.range 128).find? (fun i => Config.eccCheck (0 ^^^ 2 ^ i) ^^^ badCheck == 0) = none := by
    rw [List.find?_eq_none]
    intro i hi e
    exact h _ (by simp only [List.mem_append, List.mem_map]; exact .inl (.inr ⟨i, hi, rfl⟩)) (xor_zero_eq (by simpa using e))
  have h2 : (List.range 9).any (fun i => Config.eccCheck 0 ^^^ badCheck == 2 ^ i) = false := by
    rw [List.any_eq_false]
    intro i hi e
    refine h (Config.eccCheck 0 ^^^ 2 ^ i) (by simp only [List.mem_append, List.mem_map]; exact .inr ⟨i, hi, rfl⟩) ?_
    rw [← (by simpa using e : Config.eccCheck 0 ^^^ badCheck = 2 ^ i), ← Nat.xor_assoc, Nat.xor_self, Nat.zero_xor]
  unfold eccDecode
  simp only [if_neg h0, h1, h2]
  rfl
theorem sramRead_bad {s : State} {k c : Nat} (hc : getAt 0 s.sramChk k = c + 1) (hd : eccDecode (getAt 0 s.sram k - 1) c = none) :
    (sramRead k s).1 = 7 := by
  unfold sramRead
  simp [hc, hd]
theorem bufCheck_word {a k : Nat} {s : State} (ha : a % 16 = 0) (hk : sramAt (a / 16 * 16) = some k) : (bufCheck a 16 s).1 = (sramRead k s).1 := by
  unfold bufCheck
  simp [ha, hk, List.range_succ]
/-- A job of Ling on word 0 of shared SRAM, which is uncorrectable. -/
def badMem : State := { mce [] [] (some (jobAt 4 M.ling 0x10000000)) with sram := [(sramKey 8 0, 1)], sramChk := [(sramKey 8 0, badCheck + 1)] }
theorem test_MessageJobs_check :
    (let s := mce [] [] (some (jobOf 0))
     (bufCheck (jAddr (jobOf 0).desc) (s.jobSize (jobOf 0).desc) s).1 = St.ok) ∧
    (let j := jobAt 4 M.ling 0x10000000
     badMem.mce.running = some j ∧ jSess j.desc < badMem.mce.sess.length ∧ jobReach j = St.ok ∧
     (bufCheck (jAddr j.desc) (badMem.jobSize j.desc) badMem).1 ≠ St.ok) := by
  refine ⟨by decide, rfl, by decide, by decide, ?_⟩
  have h : badMem.jobSize (jobAt 4 M.ling 0x10000000).desc = 16 := rfl
  rw [h, bufCheck_word (k := sramKey 8 0) (by decide) (by decide)]
  have e : (sramRead (sramKey 8 0) badMem).1 = 7 := sramRead_bad (c := badCheck) rfl (show eccDecode 0 badCheck = none from badCheck_decode)
  rw [e]
  decide
theorem test_MessageKeys : M.host ≠ M.ling ∧
    (let s := (mce [] [] (some (jobOf 0))).set R.MCE_KEY_SEL_SESSION 63
     s.get R.MCE_KEY_SEL_SESSION = 63 ∧ s.sessBusy 63 = true) ∧ State.reset.sessBusy 63 = false ∧ State.reset.mce.sess.length = 64 := by decide
/-- A descriptor of a mailbox command: ARG, LENGTH, slot, context, direction and port. -/
def box (arg len slot ctx dir port : Nat) : Nat := arg * 2 ^ 32 + len * 2 ^ 16 + slot * 2 ^ 15 + ctx * 2 ^ 10 + dir * 2 ^ 9 + port * 2 ^ 8
theorem test_MailboxTests : hasMailbox 5 = false ∧ hasMailbox M.host = true ∧ (up [(R.SEC_CMD_STAT_BUSY 0, 1)]).isOn (R.SEC_CMD_STAT_BUSY 0) = true ∧
    State.reset.isOn (R.SEC_CMD_STAT_BUSY 0) = false ∧ (up [(R.THM_SD_STAT_STATE, 1)]).get R.THM_SD_STAT_STATE = 1 ∧ State.reset.get R.THM_SD_STAT_STATE ≠ 1 ∧
    (up [(R.SEC_STATE_STATE, 3)]).lingState = 3 ∧ State.reset.lingState ≠ 3 ∧ 16384 < cLen (box 0 16385 0 0 0 0) ∧
    cLen (box 0 43 1 31 1 1) < State.reset.secNeeds 4 (box 0 43 1 31 1 1) (State.reset.winBytes 0 43) := by decide
/-- A mailbox command of the host is taken. -/
def mail (op d : Nat) (s : State) : Bool :=
  decide (hasMailbox 0 = true ∧ s.isOn (R.SEC_CMD_STAT_BUSY 0) = false ∧ s.get R.THM_SD_STAT_STATE ≠ 1 ∧ s.lingState ≠ 3 ∧ cLen d ≤ 16384 ∧
    s.secNeeds op d (s.winBytes 0 (cLen d)) ≤ cLen d ∧ d < 2 ^ 128)
theorem test_mail (op d : Nat) (s : State) : mail op d s = true ↔ MailboxTakes op 0 d s := decide_eq_true_iff
/-- Every mailbox command is taken of the host at reset with a long enough input. -/
theorem test_mail_each : mail 1 0 State.reset ∧ mail 2 (box 15 40 0 0 0 0) State.reset ∧ mail 3 (box 3 0 1 31 0 1) State.reset ∧
    mail 4 (box 3 44 1 31 1 1) State.reset ∧ mail 5 (box 0 0 1 31 1 1) State.reset ∧ mail 6 (box 0x3F03 45 0 0 0 0) State.reset ∧
    mail 7 (box 0x3F00 0 0 0 0 0) State.reset ∧ mail 8 0 State.reset ∧ mail 9 (box 0 128 0 0 0 0) State.reset ∧
    mail 10 (box 0 112 0 0 0 0) State.reset ∧ mail 11 (box 15 0 0 0 0 0) State.reset ∧ mail 13 0 State.reset ∧
    mail 14 (box 0 32 0 0 0 0) State.reset ∧ mail 15 0 State.reset ∧ mail 16 (box 0 8 1 31 1 1) State.reset ∧
    mail 17 (box 1 0 0 0 0 0) State.reset := by decide
theorem test_MailboxKeys :
    (mail 2 (box 15 40 0 0 0 0) (up [(R.SEC_STATE_LIFECYCLE, 3)]) ∧ (up [(R.SEC_STATE_LIFECYCLE, 3)]).get R.SEC_STATE_LIFECYCLE ≠ 1 ∧
      mail 2 (box 15 32 0 0 0 0) (up [(R.SEC_STATE_LIFECYCLE, 1)]) ∧ (up [(R.SEC_STATE_LIFECYCLE, 1)]).get R.SEC_STATE_LIFECYCLE = 1) ∧
    (cDir (box 3 0 1 31 1 1) = 1 ∧ one.hasPort (cPort (box 3 0 1 31 0 1)) = false) ∧
    (mail 3 (box 3 0 1 0 0 0) (pol 1 []) ∧ cDir (box 3 0 1 0 0 0) = 0 ∧ (pol 1 []).hasPort 0 = true ∧ (pol 1 []).ctxMode 0 0 ≠ 0 ∧
      (((pol 1 []).ctx 0 0 0).slot 1).state ≠ 2) ∧ State.reset.ctxMode 1 31 = 0 ∧
    (mail 4 (box 3 44 1 0 1 0) (pol 1 []) ∧ cDir (box 3 44 1 0 1 0) = 1 ∧ (((pol 1 []).ctx 0 1 0).slot 1).state ≠ 2) ∧
    (let s := State.reset.modCtx 1 1 31 (fun x => { x with slot1 := { state := 2 } })
     mail 5 (box 0 0 1 31 1 1) s ∧ ((s.ctx 1 1 31).slot 1).state = 2) ∧ ((State.reset.ctx 1 1 31).slot 1).state ≠ 2 ∧
    State.reset.sessBusy 63 = false ∧ State.reset.mce.sess.length = 64 ∧
    (let s := mce [] [] (some (jobOf 0))
     mail 7 (box 0x3F00 0 0 0 0 0) s ∧ s.sessBusy 63 = true) := by decide
theorem test_MailboxKeys_epoch :
    (mail 16 (box 0 8 1 0 1 0) (pol (2 ^ 14 + 1) []) ∧ polRollReq ((pol (2 ^ 14 + 1) []).policy 0 0) = true) ∧
    (let s := State.reset.modSec (fun x => { x with win := [(0, 262143)] })
     mail 16 (box 0 8 1 31 1 1) s ∧ s.hasPort 1 = true ∧ polRollReq (s.policy 1 31) = false ∧
     s.insertVerdict M.ling (descOf (leAt (s.winBytes 0 8) 0 8) 0 (2 * 1 + 1) 4 (31 + 256 * 1)) false = St.ok) := by decide
/-- The reset state with LEAF and RESERVED of the attestation key. -/
def leaf (q r : Nat) : State := up [(R.SEC_ATT_LEAF_VALUE, q), (R.SEC_ATT_RSV_VALUE, r)]
theorem test_AttestationAndSwap :
    (mail 14 (box 0 32 0 0 0 0) (leaf 1048576 0) ∧ 1048576 ≤ (leaf 1048576 0).get R.SEC_ATT_LEAF_VALUE) ∧
    (mail 14 (box 0 32 0 0 0 0) (leaf 1048575 1048576) ∧ (leaf 1048575 1048576).get R.SEC_ATT_LEAF_VALUE < 1048576 ∧
      (leaf 1048575 1048576).get R.SEC_ATT_LEAF_VALUE < (leaf 1048575 1048576).get R.SEC_ATT_RSV_VALUE) ∧
    (mail 14 (box 0 32 0 0 0 0) (leaf 1024 1025) ∧ (leaf 1024 1025).sec.att = []) ∧
    (let s := (leaf 1024 1024).modSec (fun y => { y with att := [(0, [])] })
     mail 14 (box 0 32 0 0 0 0) s ∧ s.get R.SEC_ATT_RSV_VALUE ≤ s.get R.SEC_ATT_LEAF_VALUE ∧ s.get R.SEC_ATT_LEAF_VALUE < 1048576 ∧
     s.sec.att ≠ [] ∧ s.sec.att = [(0, [])] ∧ s.recStatus 0x21 4 none ≠ St.ok) ∧ State.reset.sec.held = [] ∧
    (let s := (mounted 0x21 [(R.SEC_ATT_LEAF_VALUE, 1048575)] []).modSec (fun y => { y with att := [(0, [])] })
     s.sec.att = [(0, [])] ∧ s.get R.SEC_ATT_LEAF_VALUE < 1048576 ∧ (s.partition 0x21).isSome = true ∧ s.writeWindow = true ∧
     s.recStatus 0x21 4 none = St.ok) ∧
    State.reset.sec.swap = none ∧
    (let s := State.reset.modSec (fun y => { y with swap := some (0, 1, {}) })
     s.sec.swap = some (0, 1, {}) ∧ ∀ i < 64, (s.keyEx (i / 32) (i % 32)).asked = false) := by decide
/-- The reset state with slot 15 in state `st`, its bytes given, and the stores under way. -/
def change (st : Nat) (b : List Nat) (w : List SecStore) : State :=
  (State.reset.modSec (fun y => { y with stores := w })).modSlot 15 (fun c => { c with state := st, bytes := b })
/-- Bytes of a proposal with a link: on port 0, for swath 0. -/
def linkBytes : List Nat := List.replicate 6 0 ++ [1, 1] ++ List.replicate 120 0
set_option maxRecDepth 8000 in
theorem test_ChangeApproval :
    (mail 11 (box 15 0 0 0 0 0) (change 4 [] []) ∧ 1 ≤ ((change 4 [] []).slotAt 15).state ∧ ((change 4 [] []).slotAt 15).state ≤ 4) ∧
    (State.reset.slotAt 15).state = 0 ∧ State.reset.sec.stores = [] ∧ (change 2 [] [.plain]).sec.stores = .plain :: [] ∧
    (let s := change 2 (List.replicate 6 0 ++ [3]) [.second 0 15 0 0]
     s.sec.stores = .second 0 15 0 0 :: [] ∧ (s.slotAt 15).state = 2 ∧ (s.slotAt 15).subject = 3 ∧ s.recStatus 0x22 4 none ≠ St.ok) ∧
    (let s := ((mounted 0x22 [] []).modSec (fun y => { y with stores := [.second 0 15 0 0] })).modSlot 15
        (fun c => { c with state := 2, bytes := List.replicate 6 0 ++ [3] })
     s.sec.stores = .second 0 15 0 0 :: [] ∧ (s.slotAt 15).state = 2 ∧ (s.slotAt 15).subject = 3 ∧ s.recStatus 0x22 4 none = St.ok) ∧
    ((change 3 [] [.second 0 15 0 0]).slotAt 15).state ≠ 2 ∧
    (let s := change 3 linkBytes []
     s.lingState ≠ 3 ∧ (s.slotAt 15).state = 3 ∧ (s.slotAt 15).link = true) ∧ (State.reset.slotAt 15).state ≠ 3 := by decide
set_option maxRecDepth 8000 in
theorem test_ChangeApproval_messages : State.reset.hasPort 1 = true ∧ (up [(R.GCTL_PROC_STATE_STATE 6, 2)]).coreRuns 6 = false ∧
    (up [(R.SEC_STATE_STATE, 3)]).lingState = 3 ∧ ((sedgeUp []).coreRuns 6 = true ∧ (sedgeUp []).lingState ≠ 3) ∧
    (∀ k < 16, (State.reset.slotAt k).state ≠ 3) ∧ (∀ k < 16, (State.reset.slotAt k).linkHash ≠ slice (List.replicate 39 255) 1 32) ∧
    (let s := change 3 linkBytes []
     let b := List.replicate 39 0
     (s.slotAt 15).state = 3 ∧ (s.slotAt 15).link = true ∧ subjectPort (s.slotAt 15).subject = 0 ∧ (∀ j < 15, (s.slotAt j).state ≠ 3) ∧
     (s.slotAt 15).subject = 1 + 0 ∧ (s.slotAt 15).linkHash = slice b 1 32 ∧ (s.slotAt 15).target = beAt b 33 6) := by decide
/-- An enrolment that names one approver twice. -/
def twice : State := (up [(R.SEC_STATE_LIFECYCLE, 1)]).modSec (fun y => { y with win := [(0, 1), (2, 1), (32, 1), (34, 1)] })
set_option maxRecDepth 8000 in
theorem test_ChangeApproval_enrol : mail 12 (box 0 1024 0 0 0 0) twice ∧ twice.get R.SEC_STATE_LIFECYCLE = 1 ∧
    twice.enrolOk (slice (twice.winBytes 0 1024) 0 1024) = false ∧ State.reset.enrolOk (zeros 1024) = true ∧
    (up [(R.SEC_STATE_LIFECYCLE, 3)]).get R.SEC_STATE_LIFECYCLE ≠ 1 := by decide
/-- The reset state with image slot 5 verified: region 3 and region 6 of one section each. -/
def imaged (l : List (Fld × Nat)) : State :=
  { up ((R.IMG_SLOT_STAT_STATE 5, 2) :: l) with
    img := { State.reset.img with images := [(5, { fwImage with sects := [{ fwSect with region := 6 }, fwSect] })], load := some 5, inforce := [(3, [fwSect])] } }
theorem test_ImageCommands_load : (up [(R.IMG_CMD_STAT_BUSY, 1)]).isOn R.IMG_CMD_STAT_BUSY = true ∧ State.reset.isOn R.IMG_CMD_STAT_BUSY = false ∧
    State.reset.img.load = none ∧ (imaged []).img.load = some 5 ∧ (imaged [(R.IMG_SLOT_STAT_STATE 5, 1)]).get (R.IMG_SLOT_STAT_STATE 5) = 1 ∧
    (imaged []).get (R.IMG_SLOT_STAT_STATE 5) ≠ 1 := by decide
theorem test_ImageCommands_activate : (imaged []).slotServes 5 6 = true ∧ ((imaged []).image 5).isSome = true ∧ State.reset.slotServes 5 6 = false ∧ getAt [] State.reset.img.inforce 7 = [] ∧
    getAt [] (imaged []).img.inforce 3 ≠ [] := by decide
/-- A staging activation of region 6 from slot 5, of the sections given; its action at frame 1 of swath 2. -/
def stagingJob (l : List Section) : RegionJob := ⟨0, 9, 6, 5, 0, 1, 0, false, l⟩
def stagingState (l : List Section) : State :=
  { imaged [] with swc := { State.reset.swc with jobs := [stagingJob l], acts := [{ handle := 9, bank := 0, seq := 0, desc := descr 2 1 0 3 7 }] } }
theorem test_ImageCommands_staging : State.reset.swc.jobs.find? (fun j => j.phase == 1) = none ∧
    (stagingState []).swc.jobs.find? (fun j => j.phase == 1) = some (stagingJob []) ∧ (readSections 5 {} [] (stagingState [])).1 ≠ St.ok ∧
    ((stagingState []).findAct 0 9).map (fun a => dKind a.desc) = some 3 := by decide
/-- An empty section whose hash is that of no bytes reads well. -/
theorem test_ImageCommands_staged : let l := [{ fwSect with region := 6, hash := Config.sha256 [] }]
    (stagingState l).swc.jobs.find? (fun j => j.phase == 1) = some (stagingJob l) ∧ (readSections 5 {} l (stagingState l)).1 = St.ok := by
  refine ⟨rfl, ?_⟩
  simp [readSections, sectPages, sectBodies, fwSect, ceilDiv]
/-- The directory entry of the worked example of R360, laid out by R344, and a STRUCT section with it. -/
def dirBytes : List Nat := [0x00, 0x20, 0x20, 7, 0, 0, 0, 0, 0xA1, 0, 0, 0, 0, 0, 8, 0]
def structBytes : List Nat := [1, 3, 9, 0, 0, 2] ++ zeros 10 ++ [0x58, 2, 1, 0] ++ List.range 16 ++ zeros 12 ++ [0x20, 3, 0, 0] ++ List.range 16 ++ zeros 12 ++
      zeros 30 ++ [0x80, 0x10] ++ [1, 0] ++ zeros 14 ++ dirBytes
theorem test_structOf : let x := structOf [] structBytes
    x.mode = 1 ∧ x.ports = 3 ∧ x.group = 9 ∧ x.dpSrc = 2 ∧ x.baudMax = [600, 800] ∧ x.bandB = [1, 0] ∧ x.perm = [List.range 16, List.range 16] ∧
    x.pwrMap = 0x1080 * 2 ^ 240 ∧ x.dir = [⟨0x2000, 0x20, 7, false, 0xA1, 0x80000⟩] := by decide
/-- The header of a container of one FW section (R338, R339). -/
def boxBytes : List Nat := [0x42, 0x4F, 0x4F, 0x54, 1, 0, 0, 1, 0x10, 0x20, 0, 0, 0xFF, 0xFF, 0xB1, 5] ++ zeros 8 ++ [1, 0, 0, 0, 0, 0x20, 0, 0] ++ zeros 32 ++
      [3, 0xF, 0, 0, 0, 0x10, 0, 0, 7, 0, 0, 0, 0, 0, 0, 0]
set_option maxRecDepth 20000 in
theorem test_boxOf : let i := boxOf boxBytes
    i.magic = 0x544F4F42 ∧ i.version = 1 ∧ i.keyClass = 0 ∧ i.keySlot = 1 ∧ i.len = 0x2010 ∧ i.part = 0xFFFF ∧ i.step = 0xB1 ∧ i.svn = 5 ∧ i.sigOff = 0x2000 ∧
    i.sects.map (fun x => (x.typ, x.region, x.offset, x.len)) = [(3, 15, 4096, 7)] := by decide
/-- Sequencer 15 runs, with the words given in its table. -/
def seqState (q : Sequencer) (ws : List Nat) : State := (tab 0x200F ws []).modSeq 15 (fun _ => q)
theorem test_Sequencers_run : State.reset.hdg.seqs.length = 16 ∧ bitAt 65535 15 = 1 ∧ bitAt 0 15 = 0 ∧ (State.reset.seq 15).run ≠ 1 ∧
    ((seqState { run := 1 } []).seq 15).run = 1 ∧
    (let s := seqState { run := 1, timers := List.replicate 8 { running := true } } []
     (s.seq 15).run = 1 ∧ (s.seq 15).timers.length = 8 ∧ ((s.seq 15).timers.getD 7 {}).running = true) ∧
    ((State.reset.seq 15).timers.getD 7 {}).running = false := by decide
theorem test_Sequencers_round : (up [(R.THM_SD_STAT_STATE, 1)]).inShutdown = true ∧
    (let s := seqState { run := 1 } []
     (s.seq 15).run = 1 ∧ s.inShutdown = false ∧ (s.seq 15).due = [] ∧ ∀ i < 16, bitAt (smTrans (s.activeWords (seqTab 15)) (s.seq 15).state i) 127 = 0) ∧
    (let s := seqState { run := 1 } [2 ^ 8, 2 ^ 127]
     let w := smTrans (s.activeWords (seqTab 15)) (s.seq 15).state 0
     (s.seq 15).run = 1 ∧ s.inShutdown = false ∧ (s.seq 15).due = [] ∧ bitAt w 127 = 1 ∧ bits w 31 30 = 0 ∧ bits w 63 60 = 0 ∧ bitAt w 59 = 0 ∧ bits w 99 96 = 0 ∧
     ∀ i < 16, i ≠ 0 → bitAt (smTrans (s.activeWords (seqTab 15)) (s.seq 15).state i) 127 = 0) := by decide
theorem test_Sequencers_preset : State.reset.presetDue = false ∧
    (let s := { up [(R.HDG_SAMP_CTRL_SEQ_MASK, 2 ^ 15)] with pmc := { period := 1, presetCnt := 1 } }
     s.presetDue = true ∧ s.get R.HDG_SAMP_CTRL_SEQ_MASK = 2 ^ 15 ∧ (s.seq 15).run ≠ 1 ∧ s.hdg.samp.length < 16 ∧
     16 ≤ ({ s with hdg := { s.hdg with samp := List.replicate 16 (0, 0) } } : State).hdg.samp.length) := by decide
/-- The reset state with the submission ring 15 enabled, holding one command, and register fields as given; Gorse 0 runs. -/
def rings (l : List (Fld × Nat)) (cmds : List HostCmd) (waits : List HostCpl) : State :=
  { up ((R.HIF_SQ_CTRL_EN 15, 1) :: (R.HIF_CQ_CTRL_EN 3, 1) :: (R.HIF_SQ_CTRL_CQ 15, 3) :: (R.GCTL_PROC_STATE_STATE 4, 0) :: (R.GCTL_PROC_STATE_STATE 5, 2) :: l) with
    hif := { State.reset.hif with tails := State.reset.hif.tails.set 15 1, cmds := cmds, waits := waits } }
/-- A completion that waits for ring 3. -/
def cpl3 : HostCpl := ⟨3, 15, 1023, 255, 0, 0, 0, true⟩
theorem test_HostRings_doorbell : (rings [] [] []).sqOn 15 = true ∧ ((rings [] [] []).sqTail 15 + 256 - (rings [] [] []).sqHead 15) % 256 = 1 ∧
    (255 % 256 + 256 - (rings [] [] []).sqTail 15) % 256 = 254 ∧ (0 % 256 + 256 - (rings [] [] []).sqTail 15) % 256 = 255 ∧ State.reset.sqOn 15 = false ∧
    State.reset.hif.tails.length = 16 := by decide
theorem test_HostRings_complete : State.reset.hif.waits.find? (fun w => w.cq == 3) = none ∧ State.reset.cqRoom 3 = false ∧
    (let s := rings [] [] [cpl3]
     s.hif.waits.find? (fun w => w.cq == 3) = some cpl3 ∧ s.cqRoom 3 = true ∧ s.get (R.HIF_CQ_CTRL_TAIL 3) ≠ 1023) ∧
    (rings [(R.HIF_CQ_CTRL_TAIL 3, 1023)] [] [cpl3]).get (R.HIF_CQ_CTRL_TAIL 3) = 1023 := by decide
theorem test_HostRings_fetch : (up [(R.GCTL_PROC_STATE_STATE 4, 2), (R.GCTL_PROC_STATE_STATE 5, 2)]).gorse = none ∧ (sedgeUp []).nextRing = none ∧
    (let s := rings [] [] []
     s.gorse.isSome = true ∧ s.hif.cmds.length < 1024 ∧ s.nextRing = some 15 ∧ s.fetchVerdict (hostCmdOf 15 ((s.sqHead 15 + 1) % 256) (List.replicate 64 0)) = St.ok) ∧
    State.reset.get R.HIF_WDOG_PERIOD = 0 ∧ (up [(R.HIF_WDOG_PERIOD, 255)]).get R.HIF_WDOG_PERIOD ≠ 0 := by decide
/-- An outstanding command of operation `op` with tag 1023 and flags `fl`, its arguments given. -/
def hc (op fl : Nat) (args : List Nat) : HostCmd := { sq := 15, tag := 1023, sqHead := 255, op := op, flags := fl, len := 2, addr := 0, args := args }
theorem test_RingCommands_start : (∀ op < 13, State.reset.startable op 1023 = none) ∧ (∀ op < 13, (rings [] [hc op 0 []] []).startable op 1023 = some (hc op 0 [])) ∧
    (let s := rings [] [hc 0 1 []] []
     s.startable 0 1023 = some (hc 0 1 []) ∧ (hc 0 1 []).done = false ∧ (∀ x ∈ s.hif.cmds, x.tag = 1023 → x = hc 0 1 []) ∧
     s.get (R.HIF_SQ_CTRL_CQ (hc 0 1 []).sq) = 3 ∧ s.cqRoom 3 = true ∧ (∀ w ∈ s.hif.waits, w.cq ≠ 3)) := by decide
/-- An argument that is a host event of swath `n`. -/
def evArg (n : Nat) : List Nat := bytesLe 16 (descr n 0 0 9 5)
theorem test_RingCommands_insert :
    (let s := rings [] [hc 1 2 (evArg 262143)] []
     s.startable 1 1023 = some (hc 1 2 (evArg 262143)) ∧ s.insertVerdict 6 ((hc 1 2 (evArg 262143)).arg 16 16) false = St.ok ∧ bitAt (hc 1 2 (evArg 262143)).flags 1 = 1) ∧
    (let s := rings [] [hc 1 0 (evArg 0)] []
     s.startable 1 1023 = some (hc 1 0 (evArg 0)) ∧ s.insertVerdict 6 ((hc 1 0 (evArg 0)).arg 16 16) false ≠ St.ok ∧ bitAt (hc 1 0 (evArg 0)).flags 1 = 0) := by decide
theorem test_RingCommands_rest : (rings [] [] []).coreRuns 4 = true ∧ (rings [] [] []).coreRuns 5 = false ∧
    (rings [(R.GCTL_PROC_STATE_STATE 4, 2), (R.GCTL_PROC_STATE_STATE 5, 0)] [] []).coreRuns 4 = false ∧
    (rings [(R.GCTL_PROC_STATE_STATE 4, 2), (R.GCTL_PROC_STATE_STATE 5, 0)] [] []).coreRuns 5 = true ∧
    (rings [] [] []).gccChannel (hc 10 0 [1, 2]) = some 5 ∧ (rings [] [] []).gccChannel (hc 10 0 [1, 3]) = none ∧
    (rings [(R.SEC_CMD_STAT_BUSY 6, 1)] [] []).isOn (R.SEC_CMD_STAT_BUSY 6) = true ∧ (rings [] [] []).isOn (R.SEC_CMD_STAT_BUSY 6) = false := by decide
/-- The store READY with partition `part`, index `i` addressed, block 1 of partition 1 mapped at its last logical block, and the window of temperature open. -/
def flash (st part i : Nat) : State :=
  { up [(R.FLC_STATE_STATE, st), (R.FLC_CFG_T, 8), (R.FLC_GEOM_SPARE, 52), (R.FLC_ADDR_PART, part), (R.FLC_ADDR_INDEX, i), (R.FLC_GEOM_BLOCKS, 4096)] with
    flc := { State.reset.flc with map := [(flcKey 1 31, 2)], blocks := [] } }
/-- Partition 1 of blocks of 64 pages. -/
def part1 : Partition := ⟨1, 1, 32, 2⟩
theorem test_FlashOperations_given : (up [(R.FLC_CMD_STAT_BUSY, 1)]).isOn R.FLC_CMD_STAT_BUSY = true ∧ (flash 3 255 0).isOn R.FLC_CMD_STAT_BUSY = false ∧
    (flash 3 255 0).partition 255 = none ∧
    (let s := flash 3 1 2047
     s.partition (s.get R.FLC_ADDR_PART) = some part1 ∧ s.flc.queue = [] ∧ s.flc.busy = [] ∧ s.get R.FLC_ADDR_INDEX < part1.logical * s.flcPages ∧ ownStore 1 = false ∧
     s.mappedTo 1 (2047 / s.flcPages) = some 1 ∧ s.extent (s.flashBlock 1) ≤ 2047 % s.flcPages ∧ s.writeWindow = true) ∧
    (let s := flash 3 1 31
     s.get R.FLC_ADDR_INDEX < part1.logical ∧ s.mappedTo 1 31 = some 1 ∧ s.writeWindow = true ∧ (s.set (R.THM_SENSOR_OPEN 115) 1).writeWindow = false) := by decide +kernel
/-- An operation of the register path under way on chip enable 0. -/
def busyOp (op : FlashOp) : State := { flash 3 1 0 with flc := { (flash 3 1 0).flc with busy := [(0, op)] } }
theorem test_FlashOperations_done : look 1 State.reset.flc.busy = none ∧
    (∀ op ∈ [⟨2, 1, 2047, 1, [], .regs⟩, ⟨3, 1, 31, 1, [], .regs⟩, ⟨1, 1, 2046, 1, [], .regs⟩],
      look 0 (busyOp op).flc.busy = some op ∧ op.who = .regs ∧ (busyOp op).flc.queue = [] ∧ (busyOp op).partition op.part = some part1) ∧
    (flash 3 1 0).mappedTo 1 (2047 / (flash 3 1 0).flcPages) = some 1 ∧ (flash 3 1 0).mappedTo 1 31 = some 1 ∧
    (let s := busyOp ⟨5, 1, 1, 1, [], .regs⟩
     look 0 s.flc.busy = some ⟨5, 1, 1, 1, [], .regs⟩ ∧ s.flc.queue = []) := by decide
/-- A page with one wrong bit is corrected; one never programmed reads blank, and UNCORR with more than T zero bits. -/
theorem test_FlashOperations_reads : (pageRead { t := 8, data := [1] } 52 [5]).map (·.1) = some 1 ∧ (let s := busyOp ⟨1, 1, 2046, 1, [], .regs⟩
     (match s.readOne 1 0 [] with | .blank => true | _ => false) = true ∧ (match s.readOne 1 0 (List.range 9) with | .bad _ => true | _ => false) = true) := by
  decide +kernel
theorem test_FlashUpkeep_mount : State.reset.get R.FLC_STATE_STATE = 0 ∧ (flash 3 0 0).get R.FLC_STATE_STATE ≠ 0 ∧ scanFits { found := false } = false ∧
    scanFits { found := true, blocks := 4096, spare := 48 } = true ∧ scanFits { found := true, blocks := 32768, ppb := 0, spare := 256 } = true := by decide
/-- The store with moves of block 1 waiting. -/
def moving (r : Bool) : State := { flash 3 1 1 with flc := { (flash 3 1 1).flc with moves := [(1, r)] } }
theorem test_FlashUpkeep_moves : State.reset.flc.moves = [] ∧ (moving false).flc.moves = [(1, false)] ∧ (moving false).flc.queue = [] ∧ (moving false).flc.busy = [] ∧
    (moving false).holderOf 1 = some (flcKey 1 31) ∧ (moving false).partOf 1 = some part1 ∧ (moving false).freeBlocks part1 = (List.range 33).map (2 + ·) ∧
    (moving false).writeWindow = true ∧ ((moving false).set (R.THM_SENSOR_OPEN 115) 1).writeWindow = false := by decide
theorem test_FlashUpkeep_retire :
    (let s := flash 3 1 1
     s.get R.FLC_ADDR_INDEX = 1 ∧ s.isOn R.FLC_CMD_STAT_BUSY = false ∧ s.holderOf 1 = some (flcKey 1 31) ∧ s.partOf 1 = some part1 ∧ s.freeBlocks part1 ≠ [] ∧ s.flc.moves = [] ∧
     s.partOf 0 = none ∧ ({ s with flc := { s.flc with bad := (List.range 33).map (2 + ·) } } : State).freeBlocks part1 = []) ∧
    State.reset.get R.FLC_STATE_STATE ≠ 3 ∧ State.reset.get R.FLC_SCRUB_HOURS ≠ 0 ∧ (up [(R.FLC_SCRUB_HOURS, 0)]).get R.FLC_SCRUB_HOURS = 0 ∧
    (up [(R.FLC_SCRUB_BUSY, 1)]).isOn R.FLC_SCRUB_BUSY = true ∧
    (let s := up [(R.FLC_STATE_STATE, 3)]
     s.isOn R.FLC_SCRUB_BUSY = false ∧ s.get R.FLC_STATE_STATE = 3 ∧ s.flc.map = [] ∧ s.get R.FLC_SCRUB_HOURS ≠ 0 ∧ s.isOn R.FLC_CMD_STAT_BUSY = false) := by decide
/-- The log, its partition mapped at logical block 0, with a record that waits. -/
def logs (l : List LogRec) : State :=
  { flash 3 0 0 with flc := { (flash 3 0 0).flc with map := [(flcKey 0x30 0, 3)], buf := l, logAt := 63 } }
def rec0 : LogRec := { seq := 0, time := 0, typ := 0 }
theorem test_FlashUpkeep_log : State.reset.partition 0x30 = none ∧ State.reset.flc.buf = [] ∧ (logs [rec0]).flc.buf ≠ [] ∧
    (logs [rec0]).writeWindow = true ∧ (logs [rec0]).flc.logAt % (logs [rec0]).flcPages ≠ 0 ∧
    ((logs [rec0]).partition 0x30).map (fun x => decide ((logs [rec0]).flc.logAt / (logs [rec0]).flcPages < x.logical)) = some true ∧
    (logs [rec0]).mappedTo 0x30 ((logs [rec0]).flc.logAt / (logs [rec0]).flcPages) = some 2 := by decide
/-- Reference 3 is a clock, qualified where `q`. -/
def ref3 (q : Nat) (l : List (Fld × Nat)) : State := up ((R.CLK_REF_CFG_KIND 3, 1) :: (R.CLK_REF_STAT_QUALIFIED 3, q) :: l)
theorem test_ReferenceMeasured : State.reset.refUsable 13 = false ∧ (ref3 0 [(R.CLK_REF_STAT_LOS 3, 1)]).isOn (R.CLK_REF_STAT_LOS 3) = true ∧
    (∀ q < 2, (ref3 q []).refUsable 3 = true ∧ (ref3 q []).isOn (R.CLK_REF_STAT_LOS 3) = false) ∧ (ref3 1 []).refQualified 3 = true ∧
    (ref3 0 []).refQualified 3 = false ∧ (ref3 1 []).get R.CLK_THR_DISQ_THR < (8388607 : Int).natAbs ∧ (ref3 1 []).refMedian 3 = none ∧
    ¬ (ref3 1 []).get R.CLK_THR_DISQ_THR < (10000 : Int).natAbs ∧ (7999 : Int).natAbs < (ref3 0 []).get R.CLK_THR_QUAL_THR ∧
    ¬ (8000 : Int).natAbs < (ref3 0 []).get R.CLK_THR_QUAL_THR := by decide
theorem test_ReferenceQualified : State.reset.refKind 13 = 0 ∧ (ref3 1 [(R.CLK_DP_PRIO_LO_PRIO 2 3, 7)]).refKind 3 ≠ 0 ∧
    (ref3 1 [(R.CLK_DP_PRIO_LO_PRIO 2 3, 7)]).refPrio 2 3 ≠ 0 ∧
    (let s := ref3 0 [(R.CLK_REF_STAT_LOS 3, 1)]
     s.isOn (R.CLK_REF_STAT_LOS 3) = true ∧ s.refUsable 3 = true ∧ s.refQualified 3 = false) ∧
    (let s := setRun 3 1 (ref3 0 [])
     getAt 0 s.clk.runs 3 = 1 ∧ s.isOn (R.CLK_REF_STAT_LOS 3) = false) ∧
    getAt 0 (setRun 3 2 (ref3 1 [])).clk.runs 3 = 2 ∧ getAt 0 State.reset.clk.runs 13 = 0 := by decide
/-- DPLL 2 with its domain powered, in state `st`, selected and target reference as given. -/
def dp2 (st : Nat) (sel target due : Option Nat) (l : List (Fld × Nat)) : State :=
  (up ((R.PWR_ON_ON 7, 2 ^ 22) :: (R.CLK_DP_STAT_STATE 2, st) :: l)).modDp 2 (fun d => { d with sel := sel, target := target, due := due })
theorem test_ReferenceSwitching : State.reset.clk.dps.length = 3 ∧ (State.reset.dp 2).target = none ∧
    (let s := dp2 2 none (some 15) none []
     (s.dp 2).target = some 15 ∧ (s.dp 2).due = none ∧ s.clk.dps.length = 3) ∧ State.reset.isOn (R.CLK_DP_STAT_WTR_RUN 2) = false ∧
    (let s := dp2 2 (some 13) none none [(R.CLK_DP_STAT_WTR_RUN 2, 1), (R.CLK_DP_STAT_WTR_REF 2, 3), (R.CLK_REF_STAT_QUALIFIED 3, 1), (R.CLK_DP_PRIO_LO_PRIO 2 3, 1),
       (R.CLK_DP_PRIO_HI_PRIO 2 5, 2)]
     s.isOn (R.CLK_DP_STAT_WTR_RUN 2) = true ∧ (s.dp 2).target = none ∧ (s.dp 2).sel = some 13 ∧ s.eligible 2 (s.get (R.CLK_DP_STAT_WTR_REF 2)) = true ∧
     s.prefers 2 (s.get (R.CLK_DP_STAT_WTR_REF 2)) 13 = true ∧ State.reset.eligible 2 3 = false) ∧
    (let s := dp2 2 (some 13) (some 12) none [(R.CLK_DP_STAT_WTR_RUN 2, 1), (R.CLK_DP_STAT_WTR_REF 2, 3), (R.CLK_REF_STAT_QUALIFIED 3, 1), (R.CLK_DP_PRIO_LO_PRIO 2 3, 1)]
     s.isOn (R.CLK_DP_STAT_WTR_RUN 2) = true ∧ (s.dp 2).target ≠ none ∧ s.eligible 2 (s.get (R.CLK_DP_STAT_WTR_REF 2)) = true) ∧
    (let s := dp2 1 (some 13) none none []
     s.dpOn 2 = true ∧ s.dpStateOf 2 = 1 ∧ (s.dp 2).sel ≠ none) ∧ State.reset.dpOn 2 = false ∧
    (let s := dp2 2 (some 13) none none []
     s.dpOn 2 = true ∧ s.dpStateOf 2 = 2) := by decide
theorem test_DcoAndHistory : State.reset.dpOn 2 = false ∧
    (let s := dp2 2 (some 13) none none []
     s.dpOn 2 = true ∧ s.dpStateOf 2 = 2 ∧ (s.dp 2).target = none ∧ s.dpStateOf 2 ≠ 4 ∧ s.part = .lyk4802) ∧ (dp2 2 none (some 15) none []).dpStateOf 2 = 2 ∧
    (dp2 2 none (some 15) none []).clk.dps.length = 3 ∧
    (let s := dp2 4 none none none []
     s.dpOn 2 = true ∧ s.dpStateOf 2 = 4 ∧ (s.set (R.CLK_DP_CTRL_MODE 2) 1).bestRef 2 = none ∧ s.histValid 2 = false ∧
     (s.set (R.CLK_DP_HIST_CFG_HIST_LEN 2) 0).histValid 2 = true) ∧
    (let s := dp2 4 none none none [(R.CLK_REF_STAT_QUALIFIED 13, 1), (R.CLK_DP_PRIO_HI_PRIO 2 5, 2)]
     s.dpOn 2 = true ∧ s.dpStateOf 2 = 4 ∧ (s.dp 2).sel = none ∧ (s.set (R.CLK_DP_CTRL_MODE 2) 0).bestRef 2 = some 13) := by decide
/-- Lane 7 of Stile: SYNC of its receiver, state of its link, of its transmitter and of its slots; TX_EN. -/
def lane7 (rx link tx s0 s1 : Nat) (l : List (Fld × Nat)) : State :=
  up ((R.STL_LANE_STAT_RX_STATE 7, rx) :: (R.STL_LANE_STAT_LINK 7, link) :: (R.STL_LANE_STAT_TX_STATE 7, tx) :: (R.STL_TXS_STATE 7 0, s0) :: (R.STL_TXS_STATE 7 1, s1) ::
    (R.STL_LANE_CTRL_TX_EN 7, 1) :: l)
/-- The tag of slot 1 of lane 7 is 255. -/
def tagged (s : State) : State := s.modStl (fun l => { l with slots := setAt 0 l.slots (slotKey 7 1 0) 0xFF01 })
theorem test_StileSlots : (tagged State.reset).slotByteAt 7 1 1 = 255 ∧ State.reset.slotByteAt 7 1 1 < 128 ∧ State.reset.slotByteAt 7 0 1 < 128 ∧ M.host < 2 ∧
    (let s := tagged (lane7 2 2 3 0 3 [])
     s.slotState 7 1 ≠ 0 ∧ s.slotState 7 1 = 3 ∧ s.slotState 7 0 ≠ 1 ∧ s.slotState 7 1 ≠ 1 ∧ s.stlSync 7 = true ∧ s.slotFor 7 ([0x91, 255].getD 1 0) = some 1 ∧
     s.stl.rxq.length < 16 ∧ s.slotFor 7 ([0x81, 254, 0].getD 1 0) = none) ∧
    (let s := tagged (lane7 2 1 3 0 0 [])
     s.slotState 7 1 = 0 ∧ s.get (R.STL_LANE_STAT_LINK 7) ≠ 2 ∧ s.get (R.STL_LANE_STAT_LINK 7) = 1 ∧ s.slotFor 7 254 = none ∧ s.slotState 7 0 ≠ 3) ∧
    (let s := tagged (lane7 2 2 3 0 0 [])
     s.slotState 7 1 = 0 ∧ s.get (R.STL_LANE_STAT_LINK 7) = 2 ∧ s.get (R.STL_LANE_CTRL_LOOP 7) = 0 ∧ s.isOn (R.STL_LANE_CTRL_TX_EN 7) = true) ∧
    (let s := lane7 2 2 3 3 0 []
     s.slotFor 7 ([0x91, 0].getD 1 0) = some 0) ∧ State.reset.stlSync 7 = false := by decide
set_option maxRecDepth 8000 in
theorem test_StileFrames : State.reset.slotState 7 0 ≠ 1 ∧ State.reset.stlSync 7 = false ∧ (lane7 2 2 3 0 0 []).stlSync 7 = true ∧ stlFrameOk [] = false ∧
    (∀ t ∈ [0x38, 0x40, 0x10, 0x21, 0x7F], stlFrameOk (stlFrame [t, 255, 0, 56]) = true ∧ (stlFrame [t, 255, 0, 56]).getD 0 0 = t) ∧
    (lane7 2 2 3 0 0 []).stl.rxq.length < 16 ∧ getAt 0 ((lane7 2 2 3 0 0 []).modStl (fun l => { l with loops := [(7, 3)] })).stl.loops 7 ≠ 0 ∧
    getAt 0 (lane7 2 2 3 0 0 []).stl.loops 7 = 0 ∧
    ((lane7 2 2 3 0 0 []).modStl (fun l => { l with rxq := List.replicate 16 ⟨7, false, 0, []⟩ })).stl.rxq.length = 16 ∧
    [1, 255, 0, 56].getD 3 0 % 256 ≤ 56 ∧ (lane7 2 1 3 0 0 []).get (R.STL_LANE_STAT_TX_STATE 7) = 3 ∧ (lane7 2 1 3 0 0 []).get (R.STL_LANE_STAT_LINK 7) ≠ 2 ∧
    State.reset.get (R.STL_LANE_STAT_TX_STATE 7) ≠ 3 ∧ (up [(R.STL_CFG_TIME_PERIOD, 0)]).get R.STL_CFG_TIME_PERIOD = 0 ∧ State.reset.get R.STL_CFG_TIME_PERIOD ≠ 0 ∧
    (∀ k < 8, ∀ j < 2, State.reset.slotState k j ≠ 1) ∧ (lane7 2 2 3 0 0 []).get (R.STL_LANE_STAT_LINK 7) = 2 := by decide
theorem test_StileSync : State.reset.get (R.STL_LANE_STAT_RX_STATE 7) = 0 ∧ (lane7 1 0 2 0 0 []).get (R.STL_LANE_STAT_RX_STATE 7) = 1 ∧
    (lane7 1 0 2 0 0 []).get (R.STL_LANE_STAT_TX_STATE 7) = 2 ∧ (lane7 1 0 4 0 0 []).get (R.STL_LANE_STAT_TX_STATE 7) ≠ 2 ∧
    (let s := lane7 2 2 3 1 3 [(R.STL_EYE_CTRL_BUSY 7, 1), (R.STL_LANE_STAT_FAR_SLEEP 7, 1)]
     s.stlSync 7 = true ∧ s.slotState 7 1 ≠ 0 ∧ s.isOn (R.STL_EYE_CTRL_BUSY 7) = true ∧ s.isOn (R.STL_LANE_STAT_FAR_SLEEP 7) = true) ∧
    State.reset.stlSync 7 = false ∧ State.reset.isOn (R.STL_LANE_STAT_FAR_SLEEP 7) = false ∧ (up [(R.STL_LANE_CTRL_WAKE_SD 7, 1)]).isOn (R.STL_LANE_CTRL_WAKE_SD 7) = true ∧
    (up [(R.STL_LANE_CTRL_WAKE_SD 7, 1)]).get (R.STL_LANE_STAT_RX_STATE 7) = 0 := by decide
theorem test_StileLanes : (lane7 2 2 3 0 0 [(R.STL_LANE_CTRL_RX_EN 7, 1)]).isOn (R.STL_LANE_CTRL_RX_EN 7) = true ∧ (lane7 2 2 3 1 0 []).isOn (R.STL_LANE_CTRL_TX_EN 7) = true ∧
    (lane7 2 2 3 1 0 []).slotState 7 0 = 1 ∧ State.reset.isOn (R.STL_LANE_CTRL_TX_EN 7) = false ∧ (up [(R.THM_SD_STAT_STATE, 1)]).get R.THM_SD_STAT_STATE = 1 ∧
    State.reset.get R.THM_SD_STAT_STATE ≠ 1 ∧ State.reset.mayPower (224 + 2 * 7) = false ∧ (up [(R.PWR_ALLOW_ALLOW 7, 2 ^ 15)]).mayPower (225 + 2 * 7) = true ∧
    State.reset.get (R.STL_LANE_STAT_TX_STATE 7) ≠ 1 ∧ (lane7 0 0 1 0 0 []).get (R.STL_LANE_STAT_TX_STATE 7) = 1 ∧
    (lane7 2 2 3 0 0 [(R.STL_LANE_CTRL_LOOP 7, 3)]).get (R.STL_LANE_CTRL_LOOP 7) ≠ 0 ∧ State.reset.get (R.STL_LANE_CTRL_LOOP 7) = 0 ∧
    State.reset.slotState 7 0 ≠ 1 ∧ (lane7 2 2 3 0 0 []).stlSync 7 = true ∧ State.reset.stlSync 7 = false ∧
    (up [(R.STL_EYE_CTRL_BUSY 7, 1)]).isOn (R.STL_EYE_CTRL_BUSY 7) = true ∧ State.reset.isOn (R.STL_EYE_CTRL_BUSY 7) = false := by decide
theorem test_ResetLeaves : ({ otpBad := true } : Boot).otpBad = true ∧ ({ otpBad := true } : Boot).test = false ∧ State.reset.inShutdown = false := by decide
theorem test_ShutdownLeft : (up [(R.THM_SD_STAT_STATE, 1)]).inShutdown = true ∧ ({ boots := [] } : Boot).boots = [] ∧ ({ boots := [] } : Boot).otpBad = false ∧ State.reset.get R.FLC_STATE_STATE ≠ 3 ∧
    ({ test := true } : Boot).test = true ∧ (up [(R.THM_SD_STAT_STATE, 1), (R.THM_SD_STAT_PEND, 1)]).isOn R.THM_SD_STAT_PEND = true ∧
    (let s := (up [(R.THM_SD_STAT_STATE, 1)]).setI R.THM_STATE_TJ 900
     s.inShutdown = true ∧ s.isOn R.THM_SD_STAT_PEND = false ∧ 900 ≤ s.tj) ∧
    (let s := (up [(R.THM_SD_STAT_STATE, 1), (R.PWR_RAIL_IN_RANGE, 511)]).setI R.THM_STATE_TJ 899
     s.inShutdown = true ∧ s.isOn R.THM_SD_STAT_PEND = false ∧ s.tj < 900 ∧ bitAt (s.get R.PWR_RAIL_IN_RANGE) 9 = 0 ∧
     ∀ r < 10, bitAt ((s.set R.PWR_RAIL_IN_RANGE 1023).get R.PWR_RAIL_IN_RANGE) r = 1) := by decide
/-- A board that gives sensor 0 the neighbours 1 and 2. -/
def boarded : State := { State.reset with img := { State.reset.img with inforce := [(8, [{ fwSect with typ := 4, body := zeros 304 ++ [1, 2, 255, 255] }])] } }
theorem test_ThermalSample_marks : State.reset.sensorOn 111 = true ∧ one.sensorOn 111 = false ∧ State.reset.deviates 0 = none ∧
    boarded.deviates 0 = some false ∧ (boarded.setI (R.THM_SENSOR_TEMP 0) 80).deviates 0 = some false ∧
    (boarded.setI (R.THM_SENSOR_TEMP 0) 81).deviates 0 = some true ∧ (boarded.setI (R.THM_SENSOR_TEMP 0) 81).isOn (R.THM_SENSOR_SUSPECT 0) = false ∧
    getAt 0 boarded.thm.runs 0 < 15 ∧ State.reset.suspect 111 = false := by decide
theorem test_ThermalSample_level : State.reset.inShutdown = false ∧ State.reset.get R.THM_LEVEL_LEVEL < 256 ∧ State.reset.throttleLevel 1000 = 0 ∧
    State.reset.throttleLevel 1080 = 255 ∧ State.reset.throttleLevel 1040 = 128 ∧ State.reset.throttleLevel 1001 = 3 ∧ State.reset.get R.THM_LEVEL_LEVEL = 0 ∧
    State.reset.isOn R.THM_STATE_WARN = false := by decide
theorem test_ShutdownTrips : State.reset.inShutdown = false ∧ State.reset.get R.THM_STATE_SENSOR < 256 ∧ State.reset.get R.THM_LEVEL_LEVEL < 256 ∧
    State.reset.get R.THM_SUSPECT_CNT_COUNT < 256 ∧ bitAt 511 9 = 0 ∧ ∀ r < 10, bitAt 1023 r = 1 := by decide
theorem test_RecordPowerSupply :
    (let s := (logs []).set R.THM_SD_STAT_PEND 1
     s.isOn R.THM_SD_STAT_PEND = true ∧ (s.partition 0x30).map (fun x => decide (s.flc.logAt / s.flcPages < x.logical)) = some true ∧ s.writeWindow = true ∧ s.flc.buf = [] ∧
     s.flc.logAt % s.flcPages ≠ 0 ∧ s.mappedTo 0x30 (s.flc.logAt / s.flcPages) = some 2 ∧ (s.set (R.THM_SENSOR_OPEN 115) 1).writeWindow = false) ∧
    State.reset.isOn R.THM_SD_STAT_PEND = false ∧ 247 ∉ State.reset.pwr.going ∧
    (let s : State := { State.reset with pwr := ⟨[247, 1, 2, 3], [9]⟩ }
     247 ∈ s.pwr.going ∧ s.pwr.waiting = 9 :: [] ∧ s.pwr.going.length = 4 ∧ s.pwr.going.Nodup ∧ 247 ∉ 9 :: []) ∧ State.reset.pwr.waiting = [] ∧
    (up [(R.PWR_AVS_CTRL_EN, 0)]).isOn R.PWR_AVS_CTRL_EN = false ∧
    (let s := up [(R.PWR_AVS_CTRL_EN, 1)]
     s.isOn R.PWR_AVS_CTRL_EN = true ∧ s.thm.avsOff = false ∧ (if s.get R.PWR_AVS_ACTUAL = 0 then 750 else s.get R.PWR_AVS_ACTUAL) ≤ 1023) := by decide
theorem test_LevelCounters : sparseWf 0 State.reset.regs = true ∧
    (let s := { up [(modeBit 6143, 1)] with pmc := { cnt := [(6143, 2 ^ 48 - 1)], tick := [6143] } }
     s.get (modeBit 6143) = 1 ∧ 6143 ∈ s.pmc.tick ∧ getAt 0 s.pmc.cnt 6143 = 2 ^ 48 - 1) ∧ State.reset.get (modeBit 6143) ≠ 1 ∧
    6143 ∈ ({ State.reset with pmc := { held := [6143] } } : State).pmc.held := by decide
theorem test_MonitorInput : State.reset.fmn.chains.length = 16 ∧ State.reset.isOn (R.FMN_CTRL_EN 15) = false ∧
    (let s := (up [(R.FMN_CTRL_EN 15, 1), (R.PWR_ON_ON 7, 2 ^ 19), (R.FMN_SRC_SRC 15, 8), (R.RXD_ACQ_STATE 0, 7), (R.FMN_STAT_SETTLE_LEFT 15, 255), (R.FMN_STAT_WIDX 15, 1023),
       (R.FMN_CTRL_N 15, 255)]).modChain 15 (fun x => { x with timing := 2 })
     s.isOn (R.FMN_CTRL_EN 15) = true ∧ s.domainOn (240 + 15 / 4) = true ∧ s.get (R.FMN_SRC_SRC 15) ≠ 0 ∧ s.rxState (s.get (R.FMN_SRC_PORT 15)) ≠ 0 ∧
     s.isOn (R.FMN_STAT_STALLED 15) = false ∧ (s.chain 15).timing = s.fmnTiming 15 ∧ s.get (R.FMN_CTRL_DC_MODE 15) = 0 ∧ s.get (R.FMN_CTRL_HB 15) = 0 ∧
     s.get (R.FMN_CTRL_DM1 15) = 0 ∧ s.get (R.FMN_CTRL_N 15) ≤ 255 ∧ s.get (R.FMN_STAT_WIDX 15) < 1024 ∧ 0 < s.get (R.FMN_STAT_SETTLE_LEFT 15) ∧
     s.get (R.FMN_STAT_SETTLE_LEFT 15) < 256 ∧ s.get (R.FMN_COUNT_LO_COUNT_L 15) < 2 ^ 32 ∧ s.isOn (R.FMN_CTRL_RATE 15) = false) ∧
    (let s := up [(R.FMN_CTRL_EN 15, 1), (R.FMN_CTRL_RATE 15, 1), (R.PWR_ON_ON 7, 2 ^ 19), (R.FMN_SRC_SRC 15, 4), (R.RXD_ACQ_STATE 0, 7)]
     let a := (s.set (R.LFR_ALIGN_STAT_SA 0) 1).modPd 1 (fun q => { q with frame := 255 })
     s.isOn (R.FMN_CTRL_RATE 15) = true ∧ (s.chain 15).frames.length < 255 ∧ s.fmnTiming 15 = 2 ∧ a.fmnTiming 15 = 1 ∧
     (a.pdPos (rxPd (a.get (R.FMN_SRC_PORT 15)))).frame ≠ 0) := by decide
/-- R470: of three taps the outer two carry 2 and 1 parts in 4 of the energy. -/
theorem test_tapShare : tapShare [[⟨1, 1⟩, ⟨1, 0⟩, ⟨0, 1⟩], [], [], []] 0 = 3 * 2 ^ 22 ∧ tapShare [[⟨1, 1⟩, ⟨1, 0⟩, ⟨0, 1⟩], [], [], []] 1 = 2 ^ 23 := by decide
/-- R471, R472: frame values of a sum of 256 × 5 + 1 have the mean 5, rounded down; a frame without a valid value leaves none. -/
theorem test_swathMean : swathMean [some 1000, some 281] = some 5 ∧ swathMean [some 1000, none] = none := by decide
theorem test_MonitorControl : State.reset.get (R.FMN_CTRL_EN 15) = 0 ∧ State.reset.get (R.FMN_CTRL_N 15) < 256 ∧
    State.reset.accessVerdict M.host (0x400100 + 64 * 15) = St.ok ∧ (up [(R.THM_SD_STAT_STATE, 1)]).get R.THM_SD_STAT_STATE = 1 ∧
    State.reset.get R.THM_SD_STAT_STATE ≠ 1 ∧ State.reset.mayPower (240 + 15 / 4) = false ∧ (up [(R.PWR_ALLOW_ALLOW 7, 2 ^ 19)]).mayPower (240 + 15 / 4) = true ∧
    State.reset.rxState (State.reset.get (R.FMN_SRC_PORT 15)) = 0 := by decide
set_option maxRecDepth 40000 in
/-- Ill-formed commands, one for each check of `Instr.wellFormed`: operands of the fabric, the calendar and a line port. -/
theorem test_ill_formed_1 : ∀ c ∈ (
  [.registerWrite 14 0 15 0, .registerWrite 0 0 16 0, .registerWrite 0 0 15 (2 ^ 32), .registerWrite 0 (2 ^ 28) 15 0, .registerWrite 0 2 15 0,
   .latchedRead 14 0, .readClear 0 (2 ^ 28), .latchedRead 0 1, .actionInsert 14 0, .epoch 0 (2 ^ 128), .actionRemove 14 0, .actionRemove 0 65536,
   .tswLoad 2 0, .tswLoad 0 (2 ^ 48), .resultPop 14, .mceKeyErase 14, .actionStage 4 [], .calExecute 4 false, .sidebandTransfer 2 0 0, .registerWrite 0 8 0 0 (some 0), .latchedRead 0 (2 ^ 48 + 4096) none,
   .converterUnlock 2 false false, .converterLock 2, .throttleApply 2, .foregroundDone 2 [] [] false, .sweepEnd 2 [], .payloadPresent 2 false,
   .calPeriodTrigger 2 0, .calPeriodTrigger 0 16, .transmitterModeWrite 2 0, .transmitterModeWrite 0 3, .reportReceive 2 [], .keyNakReceive 0 [256]] : List Instr), c.wellFormed = false := by decide
set_option maxRecDepth 40000 in
/-- Proposals, groups, frames, client lanes, Sedge and ciphers. -/
theorem test_ill_formed_2 : ∀ c ∈ (
  [.proposeGo 2 0 false 0 0, .proposeGo 0 2 false 0 0, .proposeGo 0 0 false 256 0, .proposeGo 0 0 false 0 64, .proposeAbort 2 0, .responseTimeout 0 2,
   .crossingBackoffExpiry 2 true 0, .crossingHoldExpiry 0 true 32, .crossingHoldExpiry 0 false 2, .groupFallow 16, .groupShadowCompare 16 true,
   .txFrameBuild 2 [] [], .txFrameBuild 0 [] [[], [], [], [], []], .iterationEnd 0 0 0 [288], .cycleSlip 0 16 0 0, .cycleSlip 0 0 0 4, .eqSingular 2 0, .fasSearchHit 2 0 (zeros 512), .fasSearchHit 0 65536 (zeros 512), .fasSearchHit 0 0 (zeros 511),
   .fasSearchHit 0 0 (256 :: zeros 511), .candidateExamine 2 0 (zeros 512), .candidateExamine 0 4 (zeros 512), .candidateExamine 0 0 (zeros 513),
   .candidateExamine 0 0 (256 :: zeros 511), .frameHeaderReceive 2 { header := zeros 512 }, .frameHeaderReceive 0 { header := [] },
   .frameHeaderReceive 0 { header := 256 :: zeros 511 }, .laneLock 64 0, .laneJoin 0 2, .laneTestDone 64 0 true, .laneTestDone 0 2 true, .laneLos 64 true,
   .clientGroupUp 64 0 [], .clientGroupUp 0 0 [16], .hiSerDetect 64 true, .clientLaneLockLoss 64 0, .clientLaneLockLoss 0 64, .sedgeArm 0 2 0, .sedgeArm 14 0 0, .sedgeArm 0 0 16,
   .sedgePreambleDetect 2 0 0 0 0 0 false, .sedgePreambleDetect 0 4 0 0 0 0 false, .sedgePreambleDetect 0 0 256 0 0 0 true, .sedgePreambleDetect 0 0 0 256 0 0 true,
   .sedgeDelimiterFound 2 0, .sedgeDelimiterTimeout 0 4, .sedgeHeaderDecode 2 0 0, .sedgeHeaderDecode 0 4 0, .sedgeHeaderDecode 0 0 (2 ^ 64),
   .sedgeBodyDecode 2 0 [] 0, .sedgeBodyDecode 0 4 [] 0, .sedgeBodyDecode 0 0 [256] 0, .sedgeBodyDecode 0 0 [] (2 ^ 32), .correlatorWrite 2 0 0 0,
   .correlatorWrite 0 4 0 0, .correlatorWrite 0 0 16 0, .correlatorWrite 0 0 0 (2 ^ 32), .keyRollGo 2 0 0 0 true, .keyRollGo 0 32 0 0 true,
   .keyRollGo 0 0 256 0 true, .keyRollGo 0 0 0 2 true, .keyTimeout 2 0, .keyTimeout 0 32, .cipherSectionRx 2 0 [] true, .cipherSectionRx 0 32 [] true,
   .cipherGroupFallow 8, .cipherGroupShadowDone 8 true] : List Instr), c.wellFormed = false := by decide
set_option maxRecDepth 40000 in
/-- The mailbox, images, sequencers, memory, rings and flash. -/
theorem test_ill_formed_3 : ∀ c ∈ (
  [.rtSwap 14 0 {}, .rtSwap 0 (2 ^ 128) {}, .apprConfSend 16, .imageLoad 8, .activate 256 0, .activate 0 8,
   .regionReset 256, .tableWindowWrite 14 0 0 0, .tableWindowWrite 0 (2 ^ 22) 0 0, .tableWindowWrite 0 0 65536 0, .tableWindowWrite 0 0 0 (2 ^ 128),
   .sequencerRun 65536, .hdgPost 16 0, .hdgPost 0 256, .sequencerRound 16, .sequencerTimerExpiry 16 0, .sequencerTimerExpiry 0 8, .diagRead 14 0 0,
   .diagRead 0 0 (2 ^ 22), .diagWrite 14 0 0 0 0, .diagWrite 0 0 (2 ^ 22) 0 0, .diagWrite 0 0 0 (2 ^ 128) 0, .diagWrite 0 0 0 0 512, .sqDoorbell 16 0,
   .sqDoorbell 0 256, .cqHeadWrite 4 0, .cqHeadWrite 0 1024, .sqEnable 16 0, .sqEnable 0 2, .cqEnable 4 0, .cqEnable 0 2, .commandFetch [256], .i2cWrite [256],
   .nop 65536, .tableWrite 65536 [], .secCmd 0 [256], .completionWrite 4, .pcieLinkDown 64, .pcieLinkUp 17 0 0, .pcieLinkUp 0 8 0, .pcieLinkUp 0 0 64, .flashOpDone 2 {}] : List Instr), c.wellFormed = false := by decide
set_option maxRecDepth 40000 in
/-- Clocks, Stile, thermal, power, the field monitor and units in service. -/
theorem test_ill_formed_4 : ∀ c ∈ (
  [.refMonitorUpdate 14 0, .refLos 14, .refSwitchDone 3, .historyRecord 3 0 0, .dpllModeWrite 3 0, .dpllModeWrite 0 8, .dcoWrite 3 0, .dcoWrite 0 (2 ^ 32),
   .stileArm 0 8 0, .stileArm 0 0 2, .stileArm 14 0 0, .stileResponse 8 0 (zeros 64), .stileResponse 0 0 (zeros 63), .stileHelloReceive 0 0 (256 :: zeros 63),
   .stileRspTimeout 8 0, .stileRspTimeout 0 2, .loopChange 8, .stileFrameReceive 8 0 false (zeros 64), .stileFrameReceive 0 0 false [], .stileSyncLoss 8 true,
   .eyeScanDone 8 0, .eyeScanDone 0 (2 ^ 32), .thmCfgWrite 16 0, .thmCfgWrite 0 (2 ^ 32), .shutdownForce 256 0, .railFault 1024 0, .domainPowerUpDone 248,
   .fmnInput 16 0, .fmnCtrlWrite 16 0 0, .fmnCtrlWrite 0 16 0, .fmnCtrlWrite 0 0 (2 ^ 32), .procHalt 7, .procSelftestDone 7 true, .sliceFallow 2 0 0,
   .sliceFallow 0 16 0, .sliceReturn 0 0 64, .sliceCalDone 2 0 [], .sliceCalDone 0 16 [], .sliceJoin 2 0, .sliceJoin 0 16, .tileFallow 2 0, .tileJoin 0 16,
   .tileSelftestDone 2 0 true, .tileShadowDone 0 16 true, .firmwareUpdate 8 0, .firmwareUpdate 0 128] : List Instr), c.wellFormed = false := by decide
set_option maxRecDepth 40000 in
theorem test_well_formed : ∀ c ∈ [Instr.registerWrite 13 0xFFFFFFC 15 (2 ^ 32 - 1), .fasSearchHit 1 65535 (List.replicate 512 255), .crossingHoldExpiry 1 true 31,
    .stileResponse 7 0 (List.replicate 64 255)], c.wellFormed = true := by decide
/-! ### The spec's worked examples -/

/-- R38: a key epoch switch from Bracken, and Sedge sends on a receive direction with BUF 16, 3 and 9, are refused each by its first failing test. -/
theorem test_insertion_examples : State.reset.insertVerdict (M.br 0) (descr 9 1 0 4 0) false = St.denied ∧ State.reset.insertVerdict (M.br 0) (descr 9 1 1 6 16) false = St.decerr ∧
    State.reset.insertVerdict (M.br 0) (descr 9 1 1 6 3) false = St.denied ∧ State.reset.insertVerdict (M.br 0) (descr 9 1 1 6 9) false = St.conflict := by decide
/-- Calibration: the live trim word of lane YI, band B, position 17 of L0 lies at 0x0111_2910. -/
theorem test_trim_address : State.reset.placeOf 0x1112910 = .cal 0 true (sliceKey 5 17) 0 := by decide
/-- R110: the reaches at 200 GBd with four subcarriers, and at 300 GBd with 16. -/
theorem test_reach : (rungOf (2 ^ 127 + 2 * 2 ^ 16 + 800) 0 0 0).rxReach = 40500 ∧ (rungOf (2 ^ 127 + 2 * 2 ^ 16 + 800) 0 0 0).txReach = 27000 ∧
    (rungOf (2 ^ 127 + 4 * 2 ^ 16 + 1200) 0 0 0).rxReach = 60000 := by decide
/-- R138, R168: data symbols of a frame at p = 1/32, and the information length of the two codes. -/
theorem test_rung_figures : (rungOf (2 ^ 127 + 2 ^ 36 + 2 * 2 ^ 24) 0 0 0).dataSyms = 124992 ∧ (rungOf (2 ^ 127 + 2 ^ 36 + 2 * 2 ^ 24) 0 0 0).infoLen = 7680 ∧
    (rungOf (2 ^ 127 + 3 * 2 ^ 24) 0 0 0).infoLen = 8064 := by decide
/-- Client side: group word 5 and tributary word 5 of the design point. -/
theorem test_client_words : grpIf (2 ^ 127 + 0x501) = 1 ∧ grpLanes (2 ^ 127 + 0x501) = [5] ∧ tribGroup (2 ^ 127 + 0x14 * 2 ^ 32 + 0x506) = 5 ∧ tribType (2 ^ 127 + 0x14 * 2 ^ 32 + 0x506) = 6 := by decide
/-- R449: the levels of a hot decoder pool, and how they fall. -/
theorem test_throttle_levels : State.reset.throttleLevel 1042 = 134 ∧ State.reset.throttleLevel 1026 = 83 ∧
    ((up [(R.THM_LEVEL_LEVEL, 134)]).setI R.THM_STATE_TJ 1026).nextLevel = 134 ∧ ((up [(R.THM_LEVEL_LEVEL, 134)]).setI R.THM_STATE_TJ 1010).nextLevel = 96 := by decide
/-- R383: the first eight bytes of the entry of a table write with tag 0x2A5 from ring 3, on a pass with PHASE 1. -/
theorem test_ring_entry : (HostCpl.entry ⟨1, 3, 0x2A5, 0, 0, 0, 0, true⟩ 1) = 0x030082A5 := by decide
/-- Sedge: symbols of a packet without body, and of an ADJ PROPOSE of 80 bytes. -/
theorem test_packet_symbols : (packetSymbols 0 []).length = 296 ∧ (packetSymbols 0 (zeros 80)).length = 1576 := by decide +kernel
/-- R391: the partitions of a store of two 16 Gbit devices. -/
theorem test_store_layout : let s := up [(R.FLC_GEOM_BLOCKS, 8192), (R.FLC_GEOM_CES, 1), (R.FLC_GEOM_PPB, 1)]
    s.partitions = [⟨1, 1, 16, 2⟩, ⟨2, 19, 16, 2⟩, ⟨0x10, 37, 128, 4⟩, ⟨0x11, 169, 128, 4⟩, ⟨0x12, 301, 128, 4⟩, ⟨0x13, 433, 128, 4⟩, ⟨0x14, 565, 128, 4⟩,
      ⟨0x15, 697, 128, 4⟩, ⟨0x20, 829, 2, 2⟩, ⟨0x21, 833, 2, 2⟩, ⟨0x22, 837, 2, 2⟩, ⟨0x30, 841, 32, 2⟩, ⟨0x40, 875, 7088, 229⟩] := by decide
/-- R168 to R174: the zero word satisfies every check, and one with a single bit does not. -/
theorem test_parity : ldpcOk 3 0 = true ∧ ldpcOk 3 1 = false := by decide +kernel
/-- R360: the words of the worked example in the table of L0's link state machine, which passes the load check. -/
theorem test_link_table : let w := linkTable 0
    w.length = 161 ∧ word w 18 = 0x80200114000000004000001000000000 ∧ word w 113 = 0x0000008000000080005C001400000001 ∧
    word w 114 = 0x00000000000000020050000200000011 ∧ word w 115 = 0x10580014000000020000000100000102 ∧
    word w 116 = 0x00000000000000000000000200000004 ∧ word w 117 = 0x0000000000000000001E848000000005 ∧ smOk w = true := by decide +kernel
/-- R107, R111: 50,100 ps/nm at 300 GBd with 16 subcarriers spread the band by 115.18 ns. -/
theorem test_bulk_delays : (bulkDelays 50100 1550000 (rungOf (2 ^ 127 + 2 ^ 33 + 4 * 2 ^ 16 + 1200) 0 0 0)).getLast? = some 115178952 := by decide +kernel
/-- R134: the OSNR of the worked example. -/
theorem test_osnr : osnrOf [1240] 64 2000 1200 = some 2860 := by decide +kernel
/-! ### Single steps -/

/-- What a step leaves, for a test. -/
def after (c : Instr) (s : State) (f : State → Bool) : Bool :=
  match step { s with pending := [c] } with
  | .next t => f t && t.pending == []
  | _ => false
/-- R448: WARN 90 and HYST 4 are taken; START 59 is not. -/
theorem test_step_thmCfgWrite : after (.thmCfgWrite 15 (2 ^ 24 * 107 + 2 ^ 16 * 59 + 2 ^ 8 * 90 + 4)) State.reset
    (fun t => t.get R.THM_CFG_WARN == 90 && t.get R.THM_CFG_START == 100) = true := by decide +kernel
/-- R379: a doorbell on a ring that is not enabled raises EV_HIF_DB_ERR. -/
theorem test_step_sqDoorbell : after (.sqDoorbell 15 1) State.reset (fun t => t.get (stickyBit Ev.HIF_DB_ERR) == 1 && t.sqTail 15 == 0) = true := by decide +kernel
/-- R478: FMN_CTRL_2 of the worked example leaves four unsettled outputs. -/
theorem test_step_fmnCtrlWrite : after (.fmnCtrlWrite 2 15 0xFF3F0031) (up [(R.PWR_ALLOW_ALLOW 7, 2 ^ 16)])
    (fun t => t.get (R.FMN_STAT_SETTLE_LEFT 2) == 4 && t.get (R.FMN_CTRL_N 2) == 255) = true := by decide +kernel
/-- R2: a command on L1 of the LYK4801 leaves the state as it is; a command of its registers answers DECERR. -/
theorem test_step_absent : step { one with pending := [.losDeclare 1] } = .next one ∧
    after (.foreground 1) one (fun t => t.resp.status == St.decerr) = true := ⟨rfl, by decide +kernel⟩
/-- R454: the standby supply lost, COUNT of shutdowns is zero. -/
theorem test_step_vddStbyLoss : after .vddStbyLoss (up [(R.THM_SD_STAT_COUNT, 65535)]) (fun t => t.get R.THM_SD_STAT_COUNT == 0) = true := by decide +kernel
/-- R305: the Bracken masters have no bank of the message engine. -/
theorem test_step_mceGcmEncrypt : after (.mceGcmEncrypt (M.br 0) 1) State.reset (fun t => t.resp.status == St.denied) = true := by decide +kernel
/-- R360: with NEG_STAT.AGREED the link state machine of L0 goes from BEACON to ACQUIRE: LINK_STATE 2 is inserted, host event 2 posted, the timer started. -/
theorem test_step_linkMachine : after (.sequencerRound 0) ((tab 0x2000 (linkTable 0) [(R.SGP_NEG_STAT_AGREED 0, 1)]).modSeq 0 (fun q => { q with run := 1, state := 1 }))
    (fun t => (t.seq 0).state == 2 && t.hdg.hev == [(0, 2)] && t.swc.acts.length == 1 && ((t.seq 0).timers.getD 0 {}).running) = true := by decide +kernel

end Sys2Proof.Tests
end

/-! ## Every command completes

A command of the block is answered with a next state. That state keeps the queue, the part and the canonical form (`Keeps`), and where
the unit that the command names is absent it is the state `absentLeaves` gives. `Completes` says both of an outcome; it is proved once for
each form in which the meanings of the commands are written, then for every command in `exec_completes`. -/
namespace Sys2Proof.Machine

/-- What a command on a unit that the part does not have leaves: a happening leaves the state, an access to the register at `a` is
answered DECERR (log entry 5, R2, R370). -/
def absentLeaves (reg : Option Nat) (s : State) : State :=
  match reg with
  | some a => (fabRespond M.host a St.decerr s).answer St.decerr []
  | none => s

/-- The outcome of a command on `s` whose unit exists where `has` says so, and that is an access where `reg` names a register. -/
structure Completes (s : State) (has : Bool) (reg : Option Nat) (o : Out) : Prop where
  next   : ∃ t, o = .next t ∧ Keeps s t
  absent : has = false → o = .next (absentLeaves reg s)

theorem absentLeaves_keeps {reg : Option Nat} {s : State} : Keeps s (absentLeaves reg s) := by
  cases reg with
  | none => exact .refl s
  | some a => exact State.answer_keeps (fabRespond_keeps (.refl s))

/-! ### The forms of a meaning -/

section Forms
variable {s t : State} {has : Bool} {reg : Option Nat}

/-- A command that names no unit. -/
theorem Completes.always (h : Keeps s t) : Completes s true reg (.next t) := ⟨⟨t, rfl, h⟩, nofun⟩

theorem Completes.ite {a b : Out} {c : Prop} [Decidable c] (h : Completes s has reg a) (g : Completes s has reg b) :
    Completes s has reg (if c then a else b) := by
  split
  · exact h
  · exact g

/-- A command on a unit. -/
theorem Completes.guarded (h : Keeps s t) : Completes s has reg (.next (if has then t else absentLeaves reg s)) :=
  ⟨⟨_, rfl, Keeps.ite (fun _ => h) (fun _ => absentLeaves_keeps)⟩, fun e => by rw [e]; rfl⟩

theorem onPort_completes {p : Nat} (h : Keeps s t) : Completes s (s.hasPort p) none (onPort s p t) := .guarded h

theorem onUnit_completes {i n : Nat} (h : Keeps s t) : Completes s (decide (i < n)) none (onUnit s i n t) := by
  simpa only [onUnit, absentLeaves, decide_eq_true_eq] using Completes.guarded (has := decide (i < n)) (reg := none) h

theorem onPortUnit_completes {p i n : Nat} (h : Keeps s t) :
    Completes s (s.hasPort p && decide (i < n)) none (onPortUnit s p i n t) := .guarded h

theorem onPd_completes {d : Nat} (h : Keeps s t) : Completes s (s.hasPd d) none (onPd s d t) := .guarded h

theorem onSlot_completes {n j : Nat} (h : Keeps s t) : Completes s (n < 8 && j < 2) none (onSlot s n j t) := .guarded h

theorem onReg_completes {a : Nat} (h : Keeps s t) : Completes s has (some a) (onReg s has a t) := .guarded h

theorem late_completes (h : Keeps s t) : Completes s true reg (late t) := .always (settle_keeps h)

theorem latePort_completes {p : Nat} (h : Keeps s t) : Completes s (s.hasPort p) none (latePort s p t) :=
  onPort_completes (settle_keeps h)

theorem writeRow_completes {r : Nat × State} (h : Keeps s r.2) : Completes s true reg (writeRow r) :=
  .always (State.answer_keeps (settle_keeps h))

theorem portRow_completes {p o : Nat} {r : Nat × State} (h : Keeps s r.2) :
    Completes s (s.hasPort p) (some (0x1000000 * (p + 1) + o)) (portRow s p o r) :=
  onReg_completes (State.answer_keeps (settle_keeps h))

theorem mailRow_completes {op m d : Nat} {r : FlashResult} : Completes s true reg (mailRow op m d r s) :=
  .always (settle_keeps (mailCommand_keeps (.refl s)))

theorem submit_completes {op m d : Nat} : Completes s true reg (submit op m d s) :=
  .always (State.answer_keeps (mceSubmit_keeps (.refl s)))

theorem unitOut_completes {kind cmd p ix sub : Nat} : Completes s true reg (unitOut kind cmd p ix sub s) :=
  .always (State.answer_keeps (unitCommand_keeps (.refl s)))

theorem flcRow_completes {cmd : Nat} : Completes s true reg (flcRow cmd s) :=
  .always (State.answer_keeps (flcCommand_keeps (.refl s)))

theorem ringStart_completes {op tag : Nat} {f : HostCmd → State → State} (hf : ∀ c u, Keeps s u → Keeps s (f c u)) :
    Completes s true reg (.next (ringStart op tag f s)) := .always (ringStart_keeps hf (.refl s))

theorem lateRing_completes {op tag : Nat} {f : HostCmd → State → State} (hf : ∀ c u, Keeps s u → Keeps s (f c u)) :
    Completes s true reg (late (ringStart op tag f s)) := late_completes (ringStart_keeps hf (.refl s))

theorem ringRun_completes {op tag : Nat} {f : HostCmd → State → Nat × Nat × Nat × List Nat × State}
    (hf : ∀ c u, Keeps s u → Keeps s (f c u).2.2.2.2) : Completes s true reg (ringRun op tag f s) :=
  lateRing_completes (fun c u hu => State.answer_keeps (hostFinish_keeps (hf c u hu)))

theorem readRow_completes {m a : Nat} : Completes s true reg (readRow m a s) :=
  .always (State.answer_keeps (regRead_keeps (.refl s)))

theorem beatWrite_completes {m a be data n : Nat} : Completes s true reg (beatWrite m a be data n s) :=
  .ite (.always (State.answer_keeps (fabRespond_keeps (.refl s))))
    (.always (State.answer_keeps (settle_keeps (.ite
      (fun _ => fabRespond_keeps (beatEnd_keeps (beatPut_keeps (.refl s)))) (fun _ => beatEnd_keeps (beatPut_keeps (.refl s)))))))

theorem beatRead_completes {m a n : Nat} : Completes s true reg (beatRead m a n s) :=
  .ite (.always (State.answer_keeps (fabRespond_keeps (.refl s))))
    (.always (State.answer_keeps (fabRespond_keeps (beatEnd_keeps (beatGet_keeps (.refl s))))))

end Forms

/-! ### The meanings that have a form of their own -/

section Meanings
variable {s : State} {reg : Option Nat}

theorem execRegisterWrite_completes {m a be data : Nat} {more : Option Nat} :
    Completes s true reg (execRegisterWrite m a be data s more) := by
  cases more with
  | some n => exact beatWrite_completes
  | none =>
    simp only [execRegisterWrite]
    split
    · exact .always (State.answer_keeps (bar2Write_keeps (.refl s)))
    · exact .always (State.answer_keeps (settle_keeps (regWrite_keeps (.refl s))))

theorem execLatchedRead_completes {m a : Nat} {more : Option Nat} : Completes s true reg (execLatchedRead m a s more) := by
  cases more with
  | some n => exact beatRead_completes
  | none =>
    simp only [execLatchedRead]
    split
    · exact .always (State.answer_keeps (.refl s))
    · exact readRow_completes

theorem execTxFrameBuild_completes {p : Nat} {clients : List (List ClientSig)} {lanes : List (List Int)} :
    Completes s (s.hasPort p) none (execTxFrameBuild p clients lanes s) :=
  latePort_completes (.ite (fun _ => .refl s) (fun _ => predistort_keeps (frameSend_keeps
    (.ite_snd (fun _ => userSample_keeps (.refl s)) (fun _ => .refl s)))))

theorem execMceResultPop_completes {m : Nat} : Completes s true reg (execMceResultPop m s) :=
  .ite (.always (State.answer_keeps (mcePop_keeps (.refl s)))) (.always (State.answer_keeps (fabRespond_keeps (.refl s))))

theorem execMceKeyLoad_completes {m : Nat} : Completes s true reg (execMceKeyLoad m s) :=
  .ite (.always (State.answer_keeps (keyLoadWrite_keeps (.refl s)))) (.always (State.answer_keeps (fabRespond_keeps (.refl s))))

theorem execMceKeyErase_completes {m : Nat} : Completes s true reg (execMceKeyErase m s) :=
  .ite (.always (State.answer_keeps (keyLoadWrite_keeps (.refl s)))) (.always (State.answer_keeps (fabRespond_keeps (.refl s))))

theorem execScrubPass_completes : Completes s true reg (execScrubPass s) :=
  .ite (.always (.refl s)) (.always (State.raise_keeps (.foldl (fun _ _ hu => sramRead_keeps hu) (.refl s))))

theorem execDiagWrite_completes {m inst w v chk : Nat} : Completes s true reg (execDiagWrite m inst w v chk s) :=
  .always (State.answer_keeps (diagRun_keeps (.iter (fun _ _ hu => State.set_keeps hu)
    (State.set_keeps (State.set_keeps (State.set_keeps (.refl s)))))))

theorem execTableWindowWrite_completes {m w be v : Nat} : Completes s true reg (execTableWindowWrite m w be v s) :=
  writeRow_completes (fabRespond_keeps (.ite_snd (fun _ => .refl s) (fun _ => tableWrite_keeps (.refl s))))

theorem execGccSend_completes {tag : Nat} {b : List Nat} : Completes s true reg (execGccSend tag b s) :=
  ringRun_completes (fun c u hu => by
    split
    · dsimp only
      exact State.modHif_keeps hu
    · exact hu)

theorem execGccRecv_completes {tag : Nat} {b : List Nat} : Completes s true reg (execGccRecv tag b s) :=
  ringRun_completes (fun c u hu => by
    split
    · exact hu
    · exact hu)

theorem execI2cWrite_completes {b : List Nat} : Completes s true reg (execI2cWrite b s) := by
  cases b with
  | nil => exact .always (State.answer_keeps (.refl s))
  | cons p r => exact .always (State.answer_keeps (State.modHif_keeps (.refl s)))

theorem execStileResponse_completes {n time : Nat} {b : List Nat} :
    Completes s (decide (n < 8)) none (execStileResponse n time b s) :=
  onUnit_completes (.ite (fun _ => .refl s) (fun _ => .ite (fun _ => stlLooped_keeps (stlDepart_keeps (.refl s)))
    (fun _ => stlResponse_keeps (stlDepart_keeps (.refl s)))))

theorem execStileRspTimeout_completes {n j : Nat} : Completes s (n < 8 && j < 2) none (execStileRspTimeout n j s) :=
  onSlot_completes (.ite (fun _ => State.raise_keeps (State.addSat_keeps (slotEnd_keeps (stlDepart_keeps (.refl s)))))
    (fun _ => stlDepart_keeps (.refl s)))

theorem execStileSyncAcquire_completes {n : Nat} : Completes s (decide (n < 8)) none (execStileSyncAcquire n s) :=
  onUnit_completes (.ite (fun _ => stlActive_keeps (State.set_keeps (State.set_keeps (State.set_keeps (.refl s))))) (fun _ => .refl s))

theorem execStileSelftestDone_completes {n : Nat} {bad : Bool} :
    Completes s (decide (n < 8)) none (execStileSelftestDone n bad s) :=
  onUnit_completes (.ite (fun _ => .refl s) (fun _ => .ite (fun _ => State.raise_keeps (State.set_keeps (.refl s)))
    (fun _ => stlActive_keeps (State.set_keeps (.refl s)))))

theorem execLoopChange_completes {n : Nat} : Completes s (decide (n < 8)) none (execLoopChange n s) :=
  have h : Keeps s ((stlDepart n s).modStl (fun l => { l with loops := setAt 0 l.loops n (s.get (R.STL_LANE_CTRL_LOOP n)) })) :=
    State.modStl_keeps (stlDepart_keeps (.refl s))
  onUnit_completes (.ite (fun _ => setLink_keeps h) (fun _ => stlHello_keeps h))

theorem execSedgeArm_completes {m p b : Nat} :
    Completes s (decide (b < 16) && s.hasPort p) (some (0x1700200 + 0x1000000 * p + 4 * b)) (execSedgeArm m p b s) := by
  rw [Bool.and_comm]
  exact onReg_completes (State.answer_keeps (settle_keeps (.ite_snd (fun _ => armBuf_keeps (.refl s)) (fun _ => .refl s))))

theorem execDeviceSwathBoundary_completes {lanes : List PrbsMeasure} {groups : List GroupMeasure} :
    Completes s true reg (execDeviceSwathBoundary lanes groups s) :=
  .always (deviceBoundary_keeps (.foldl (fun _ _ hu => groupTake_keeps hu) (.foldl (fun _ _ hu => prbsTake_keeps hu) (.refl s))))

end Meanings

/-! ### Every command -/

/-- Every command completes, on the unit that `State.holds` and `absentReg` name (R2, R29, R30, R53). -/
theorem exec_completes (c : Instr) (s : State) : Completes s (s.holds c) (absentReg c) (exec c s) :=
  match c with
  | .por _ => .always (porReset_keeps (.refl s))
  | .resetN _ => .always (pinReset_keeps (.refl s))
  | .srst _ => .always (softReset_keeps (.refl s))
  | .vddStbyLoss => .always (stbyLoss_keeps (.refl s))
  | .registerWrite _ _ _ _ _ => execRegisterWrite_completes
  | .latchedRead _ _ _ => execLatchedRead_completes
  | .readClear _ _ => readRow_completes
  | .actionInsert _ _ => writeRow_completes (.ite_snd (fun _ => insertGo_keeps (insPut_keeps (.refl s))) (fun _ => .refl s))
  | .actionRemove _ _ => writeRow_completes (.ite_snd (fun _ => removeGo_keeps (.refl s)) (fun _ => .refl s))
  | .tswLoad _ _ => onReg_completes (State.answer_keeps (settle_keeps (tswPut_keeps (.refl s))))
  | .resultPop _ => .always (State.answer_keeps (regRead_keeps (regRead_keeps (.refl s))))
  | .actionStage _ _ => onPd_completes (settle_keeps (actionStage_keeps (.refl s)))
  | .calExecute _ _ => onPd_completes (settle_keeps (calExecute_keeps (.refl s)))
  | .sidebandTransfer _ _ _ => onPort_completes (sideband_keeps (.refl s))
  | .converterUnlock _ _ _ => onPort_completes (.ite (fun _ => .refl s) (fun _ => cnvUnlock_keeps (.refl s)))
  | .converterLock _ => onPort_completes (.ite (fun _ => .refl s) (fun _ => State.modCnv_keeps (State.set_keeps (State.set_keeps (.refl s)))))
  | .muteRelease _ => onPort_completes (muteOff_keeps (.refl s))
  | .agcRefastExpiry _ => onPort_completes (agcRefast_keeps (.refl s))
  | .foreground _ => onReg_completes (calForeground_keeps (.refl s))
  | .restore _ => onReg_completes (calRestore_keeps (.refl s))
  | .snapshot _ => onReg_completes (calSnapshot_keeps (.refl s))
  | .foregroundDone _ _ _ _ => onPort_completes (calForegroundDone_keeps (.refl s))
  | .restoreDone _ _ _ _ => onPort_completes (calRestoreDone_keeps (.refl s))
  | .snapshotDone _ => onPort_completes (calSnapshotDone_keeps (.refl s))
  | .sweepStart _ => onPort_completes (sweepBegin_keeps (.refl s))
  | .sweepStepDone _ _ => onPort_completes (sliceWaiting_keeps (sweepStep_keeps (.refl s)))
  | .sweepEnd _ _ => onPort_completes (sweepFinish_keeps (.refl s))
  | .calPeriodTrigger _ _ => onPortUnit_completes (calPeriod_keeps (.refl s))
  | .journalStore => .always (State.answer_keeps (jnlCommand_keeps (.refl s)))
  | .journalLoad => .always (State.answer_keeps (jnlCommand_keeps (.refl s)))
  | .journalStoreDone _ _ => .always (jnlStoreDone_keeps (.refl s))
  | .journalLoadDone _ => .always (jnlLoadDone_keeps (.refl s))
  | .receiverEnable _ => portRow_completes (rxdCtrl_keeps (.refl s) (State.set_keeps (.refl s)))
  | .receiverDisable _ => portRow_completes (rxdCtrl_keeps (.refl s) (State.set_keeps (.refl s)))
  | .losDeclare _ => latePort_completes (losDeclare_keeps (.refl s))
  | .losClear _ => latePort_completes (losClear_keeps (.refl s))
  | .freqEstimateDone _ _ => latePort_completes (freqDone_keeps (.refl s))
  | .cdScanEnd _ _ _ => latePort_completes (scanEnd_keeps (.refl s))
  | .eqConverged _ => latePort_completes (eqDone_keeps (.refl s))
  | .acqTimerExpiry _ => latePort_completes (acqExpiry_keeps (.refl s))
  | .fecLockDeclare _ => latePort_completes (fecLock_keeps (.refl s))
  | .fecLockLoss _ => latePort_completes (fecUnlock_keeps (.refl s))
  | .foOutOfRange _ _ => latePort_completes (foUpdate_keeps (.refl s))
  | .cycleSlip _ _ _ _ => onPort_completes (cycleSlip_keeps (.refl s))
  | .eqSingular _ _ => onPort_completes (eqSingular_keeps (.refl s))
  | .estimateLatch _ _ => onPort_completes (.ite (fun _ => afterLatch_keeps (estLatch_keeps (.refl s))) (fun _ => .refl s))
  | .ftuneSend _ => onPort_completes (ftuneSend_keeps (.refl s))
  | .foAlarm _ => onPort_completes (State.raiseIf_keeps (.refl s))
  | .transmitterModeWrite _ _ => portRow_completes (txModeWrite_keeps (.refl s))
  | .transmitterStop _ => latePort_completes (txStop_keeps (.refl s))
  | .adjMismatchSwap _ => onPort_completes (adjSwap_keeps (.refl s))
  | .reportReceive _ _ => onPort_completes (reportTake_keeps (.refl s))
  | .reportMiss _ => onPort_completes (reportMissed_keeps (.refl s))
  | .proposeGo _ _ _ _ _ => portRow_completes (propGo_keeps (.refl s))
  | .proposeAbort _ _ => portRow_completes (propAbort_keeps (.refl s))
  | .proposeReceive _ _ => latePort_completes (proposeTake_keeps (.refl s))
  | .acceptReceive _ _ => latePort_completes (acceptTake_keeps (.refl s))
  | .rejectReceive _ _ => latePort_completes (rejectTake_keeps (.refl s))
  | .commitReceive _ _ => latePort_completes (commitTake_keeps (.refl s))
  | .abortReceive _ _ => latePort_completes (abortTake_keeps (.refl s))
  | .responseTimeout _ _ => latePort_completes (propTimeout_keeps (.refl s))
  | .crossingBackoffExpiry _ _ _ => latePort_completes (backoffEnd_keeps (.refl s))
  | .crossingHoldExpiry _ _ _ => onPort_completes (holdEnd_keeps (.refl s))
  | .codewordArrival _ => onPort_completes (cwArrive_keeps (.refl s))
  | .iterationEnd _ _ _ _ => .always (iterEnd_keeps (.refl s))
  | .codewordDeadline _ => .always (cwDeadline_keeps (.refl s))
  | .codewordRelease _ => onPort_completes (payFollow_keeps (cwRelease_keeps (.refl s)))
  | .groupFallow _ => onUnit_completes (State.answer_keeps (grpCommand_keeps (.refl s)))
  | .groupReturn _ => onUnit_completes (State.answer_keeps (grpCommand_keeps (.refl s)))
  | .groupDrainDone _ => onUnit_completes (grpDrained_keeps (.refl s))
  | .groupSelftestDone _ _ => onUnit_completes (grpSelftest_keeps (.refl s))
  | .groupShadowCompare _ _ => onUnit_completes (grpCompare_keeps (.refl s))
  | .groupShadowDone _ => onUnit_completes (grpShadowDone_keeps (.refl s))
  | .statClear _ => onPort_completes (statClear_keeps (.refl s))
  | .txFrameBuild _ _ _ => execTxFrameBuild_completes
  | .fasSearchHit _ _ _ => onPort_completes (searchHit_keeps (.refl s))
  | .candidateExamine _ _ _ => onPortUnit_completes (settle_keeps (candExamine_keeps (.refl s)))
  | .frameHeaderReceive _ _ => latePort_completes (frameReceive_keeps (tilesLeave_keeps (.refl s)))
  | .faLoss _ => latePort_completes (faLost_keeps (.refl s))
  | .skewMeasure _ => late_completes (skewMeasure_keeps (.refl s))
  | .laneLock _ _ => onUnit_completes (settle_keeps (laneLock_keeps (.refl s)))
  | .laneWakeTimeout _ _ => onUnit_completes (settle_keeps (laneWakeTimeout_keeps (.refl s)))
  | .laneTestDone _ _ _ => onUnit_completes (settle_keeps (laneTestDone_keeps (.refl s)))
  | .laneJoin _ _ => onUnit_completes (settle_keeps (laneJoin_keeps (.refl s)))
  | .laneLos _ _ => onUnit_completes (settle_keeps (laneLos_keeps (.refl s)))
  | .clientGroupUp _ _ _ => onUnit_completes (settle_keeps (groupUp_keeps (.refl s)))
  | .sedgeArm _ _ _ => execSedgeArm_completes
  | .sedgePacketStart _ _ => onPort_completes (packetStart_keeps (.refl s))
  | .sedgeTxDone _ => onPort_completes (txDone_keeps (.refl s))
  | .sedgePreambleDetect _ _ _ _ _ _ _ => onPortUnit_completes (settle_keeps (preamble_keeps (.refl s)))
  | .sedgeDelimiterFound _ _ => onPortUnit_completes (delimiter_keeps (.refl s))
  | .sedgeDelimiterTimeout _ _ => onPortUnit_completes (delimTimeout_keeps (.refl s))
  | .sedgeHeaderDecode _ _ _ => onPortUnit_completes (headerDecode_keeps (.refl s))
  | .sedgeBodyDecode _ _ _ _ => onPortUnit_completes (bodyDecode_keeps (.refl s))
  | .correlatorWrite _ _ _ _ => onReg_completes (State.answer_keeps (settle_keeps (corrCtrl_keeps (.refl s))))
  | .sedgeRxqPop _ => portRow_completes (rxqPop_keeps (.refl s))
  | .helloSend _ => onPort_completes (helloSend_keeps (.refl s))
  | .helloReceive _ _ => onPort_completes (helloReceive_keeps (.refl s))
  | .peerSeenTimeout _ => onPort_completes (peerTimeout_keeps (.refl s))
  | .keyRollGo _ _ _ _ _ => onReg_completes (State.answer_keeps (settle_keeps (keyGo_keeps (.refl s))))
  | .keyPropReceive _ _ => latePort_completes (lingHear_keeps (.refl s))
  | .keyAckReceive _ _ => latePort_completes (lingHear_keeps (.refl s))
  | .keyNakReceive _ _ => latePort_completes (lingHear_keeps (.refl s))
  | .keyTimeout _ _ => latePort_completes (keyTimeoutEnd_keeps (.refl s))
  | .cipherSectionTx _ _ => onPort_completes (cipherSectionTx_keeps (.refl s))
  | .cipherSectionRx _ _ _ _ => onPortUnit_completes (cipherOnward_keeps (cipherRx_keeps (.refl s)))
  | .cipherGroupFallow _ => onUnit_completes (State.answer_keeps (grpCommand_keeps (.refl s)))
  | .cipherGroupReturn _ => onUnit_completes (State.answer_keeps (grpCommand_keeps (.refl s)))
  | .cipherGroupDrainDone _ => onUnit_completes (grpDrained_keeps (.refl s))
  | .cipherGroupSelftestDone _ _ => onUnit_completes (grpSelftest_keeps (.refl s))
  | .cipherGroupShadowDone _ _ => onUnit_completes (grpShadowDone_keeps (.refl s))
  | .mceGcmEncrypt _ _ => submit_completes
  | .mceGcmDecrypt _ _ => submit_completes
  | .mceKwWrap _ _ => submit_completes
  | .mceKwUnwrap _ _ => submit_completes
  | .mceKwpWrap _ _ => submit_completes
  | .mceKwpUnwrap _ _ => submit_completes
  | .mceSave _ _ => submit_completes
  | .mceRestore _ _ => submit_completes
  | .mceSuspend _ _ => .always (mceSuspend_keeps (.refl s))
  | .mceJobComplete _ _ => .always (mceComplete_keeps (.refl s))
  | .mceResultPop _ => execMceResultPop_completes
  | .mceKeyLoad _ => execMceKeyLoad_completes
  | .mceKeyErase _ => execMceKeyErase_completes
  | .info _ _ => mailRow_completes
  | .ktkLoad _ _ => mailRow_completes
  | .keyGen _ _ => mailRow_completes
  | .keyInstall _ _ => mailRow_completes
  | .keyErase _ _ => mailRow_completes
  | .sessLoad _ _ => mailRow_completes
  | .sessErase _ _ => mailRow_completes
  | .pnonce _ _ => mailRow_completes
  | .secPropose _ _ => mailRow_completes
  | .approve _ _ => mailRow_completes
  | .withdraw _ _ => mailRow_completes
  | .enrol _ _ => mailRow_completes
  | .lock _ _ => mailRow_completes
  | .attest _ _ => mailRow_completes
  | .attKey _ _ => mailRow_completes
  | .epoch _ _ => mailRow_completes
  | .rtSwap _ _ _ => mailRow_completes
  | .rtSwapDone => late_completes (.ite (fun _ => .refl s) (fun _ => lingResume_keeps (rtSwapDone_keeps (.refl s))))
  | .approvalRecordCommit _ _ _ => late_completes (recordCommit_keeps (.refl s))
  | .attReserveDone _ _ => late_completes (attReserved_keeps (.refl s))
  | .apprConfSend _ => onUnit_completes (lingHear_keeps (.refl s))
  | .apprConfReceive _ _ => onPort_completes (lingHear_keeps (.refl s))
  | .apprAckReceive _ _ => latePort_completes (lingHear_keeps (.refl s))
  | .apprNakReceive _ _ => onPort_completes (lingHear_keeps (.refl s))
  | .proposalDeadline _ => onUnit_completes (settle_keeps (propDeadline_keeps (.refl s)))
  | .imageLoad _ => .always (State.answer_keeps (imgLoad_keeps (.refl s)))
  | .imageLoadDone _ _ => .always (imgLoadDone_keeps (.refl s))
  | .activate _ _ => writeRow_completes (imgActivate_keeps (.refl s))
  | .regionReset _ => writeRow_completes (regionReset_keeps (.refl s))
  | .regionStagingDone _ => late_completes (stagingDone_keeps (.refl s))
  | .tableWindowWrite _ _ _ _ => execTableWindowWrite_completes
  | .sequencerRun _ => .always (State.answer_keeps (runWrite_keeps (.refl s)))
  | .hdgPost _ _ => onUnit_completes (State.answer_keeps (latchCode_keeps (.refl s)))
  | .sequencerRound _ => onUnit_completes (settle_keeps (seqRound_keeps (.refl s)))
  | .sequencerTimerExpiry _ _ => onUnit_completes (timerExpiry_keeps (.refl s))
  | .hostEventPop => .always (State.answer_keeps (State.modHdg_keeps (.refl s)))
  | .samplePop => .always (State.answer_keeps (State.modHdg_keeps (.refl s)))
  | .scrubPass => execScrubPass_completes
  | .diagRead _ _ _ => .always (State.answer_keeps (diagRun_keeps (State.set_keeps (State.set_keeps (.refl s)))))
  | .diagWrite _ _ _ _ _ => execDiagWrite_completes
  | .sqDoorbell _ _ => onUnit_completes (State.answer_keeps (doorbell_keeps (.refl s)))
  | .cqHeadWrite _ _ => onUnit_completes (State.answer_keeps (cqHead_keeps (.refl s)))
  | .sqEnable _ _ => onUnit_completes (State.answer_keeps (sqEnable_keeps (.refl s)))
  | .cqEnable _ _ => onUnit_completes (State.answer_keeps (cqEnable_keeps (.refl s)))
  | .commandFetch _ => .always (hostFetch_keeps (.refl s))
  | .nop _ => ringRun_completes (fun _ _ hu => hu)
  | .calInsert _ => lateRing_completes (fun _ _ hu => calInsert_keeps hu)
  | .calRemove _ => ringRun_completes (fun _ _ hu => removeAct_keeps hu)
  | .tableWrite _ _ => ringRun_completes (fun _ _ hu => tableWriteRun_keeps (gorseMaster_keeps hu))
  | .tableRead _ => ringRun_completes (fun _ _ hu => tableReadRun_keeps (gorseMaster_keeps hu))
  | .flashRead _ => ringStart_completes (fun _ _ hu => flashSubmit_keeps hu)
  | .flashWrite _ _ => ringStart_completes (fun _ _ hu => flashSubmit_keeps hu)
  | .flashErase _ => ringStart_completes (fun _ _ hu => flashSubmit_keeps hu)
  | .logRead _ => ringStart_completes (fun _ _ hu => hostFinish_keeps (State.answer_keeps hu))
  | .snapshotRead _ => ringRun_completes (fun _ _ hu => hu)
  | .gccSend _ _ => execGccSend_completes
  | .gccRecv _ _ => execGccRecv_completes
  | .secCmd _ _ => lateRing_completes (fun _ _ hu => secCmd_keeps hu)
  | .completionWrite _ => onUnit_completes (nextCpl_keeps (.refl s))
  | .pcieLinkDown _ => .always (linkShow_keeps (linkDown_keeps (.refl s)))
  | .hostWatchdogExpiry => .always (watchdog_keeps (.refl s))
  | .watchdogKick => .always (State.answer_keeps (.refl s))
  | .i2cRead _ => .always (State.answer_keeps (State.modHif_keeps (.refl s)))
  | .i2cWrite _ => execI2cWrite_completes
  | .flashMount _ => .always (.ite (fun _ => recordsFound_keeps (flashMount_keeps (.refl s))) (fun _ => .refl s))
  | .flcRead => flcRow_completes
  | .flcWrite => flcRow_completes
  | .flcErase => flcRow_completes
  | .retire => flcRow_completes
  | .scrubNow => flcRow_completes
  | .flashOpDone _ _ => onUnit_completes (flashOpDone_keeps (.refl s))
  | .relocation _ => .always (relocate_keeps (.refl s))
  | .relocationRetry _ => .always (relocate_keeps (.refl s))
  | .flashScrubStart => .always (.ite (fun _ => .refl s) (fun _ => scrubStart_keeps (.refl s)))
  | .logFlush _ _ => .always (logPage_keeps (.refl s))
  | .refMonitorUpdate _ _ => onUnit_completes (refMeasure_keeps (.refl s))
  | .refLos _ => onUnit_completes (.ite (fun _ => .refl s) (fun _ => refLos_keeps (.refl s)))
  | .refQualTimerExpiry _ => onUnit_completes (qualExpiry_keeps (.refl s))
  | .refSwitchDone _ => onUnit_completes (switchDone_keeps (.refl s))
  | .wtrExpiry _ => onUnit_completes (wtrEnd_keeps (.refl s))
  | .dpllLock _ => onUnit_completes (dpLocks_keeps (.refl s))
  | .dpllLockLoss _ => onUnit_completes (dpUnlocks_keeps (.refl s))
  | .historyRecord _ _ _ => onUnit_completes (histRecord_keeps (.refl s))
  | .dpllModeWrite _ _ => onUnit_completes (State.answer_keeps (.ite (fun _ => .refl s) (fun _ => dpModeSet_keeps (.refl s))))
  | .dcoWrite _ _ => onUnit_completes (State.answer_keeps (.ite (fun _ => .refl s) (fun _ => dcoSet_keeps (.refl s))))
  | .stileArm _ _ _ => onSlot_completes (State.answer_keeps (stlArm_keeps (.refl s)))
  | .stileResponse _ _ _ => execStileResponse_completes
  | .stileRspTimeout _ _ => execStileRspTimeout_completes
  | .timeSend _ => .always (timeSend_keeps (.refl s))
  | .stileHelloSend _ => onUnit_completes (stlHello_keeps (.refl s))
  | .stileHelloReceive _ _ _ => onUnit_completes (stlReceive_keeps (.refl s))
  | .stileFrameReceive _ _ _ _ => onUnit_completes (stlReceive_keeps (.refl s))
  | .stileSyncAcquire _ => execStileSyncAcquire_completes
  | .stileSyncLoss _ _ => onUnit_completes (.ite (fun _ => State.set_keeps (syncLost_keeps (.refl s))) (fun _ => .refl s))
  | .stileTxEnable _ => onUnit_completes (State.answer_keeps (stlTxOn_keeps (.refl s)))
  | .stileSelftestDone _ _ => execStileSelftestDone_completes
  | .stileTxSleep _ => onUnit_completes (State.answer_keeps (stlTxOff_keeps (.refl s)))
  | .stileRxEnable _ => onUnit_completes (State.answer_keeps (stlRxOn_keeps (.refl s)))
  | .stileRxSleep _ => onUnit_completes (State.answer_keeps (stlRxOff_keeps (.refl s)))
  | .stileSleepNotice _ => onUnit_completes (.ite (fun _ => State.set_keeps (.refl s)) (fun _ => .refl s))
  | .stileWake _ => onUnit_completes (State.raiseIf_keeps (State.set_keeps (.refl s)))
  | .eyeScanStart _ => onUnit_completes (State.answer_keeps (eyeStart_keeps (.refl s)))
  | .eyeScanDone _ _ => onUnit_completes (eyeEnd_keeps (.refl s))
  | .loopChange _ => execLoopChange_completes
  | .stileRxqPop => .always (State.answer_keeps (stlPop_keeps (.refl s)))
  | .thmSample _ _ _ => late_completes (thmSample_keeps (.refl s))
  | .throttleApply _ => onPort_completes (throttleApply_keeps (.refl s))
  | .thmCfgWrite _ _ => .always (State.answer_keeps (thmCfg_keeps (.refl s)))
  | .shutdownForce _ _ => .always (State.answer_keeps (settle_keeps (.ite (fun _ => trip_keeps (.refl s)) (fun _ => .refl s))))
  | .railFault _ _ => late_completes (railFault_keeps (.refl s))
  | .sdRecordCommit _ _ => .always (sdCommit_keeps (.refl s))
  | .sdRecordRetry _ _ => .always (sdCommit_keeps (.refl s))
  | .resume _ _ => .always (State.answer_keeps (resume_keeps (.refl s)))
  | .domainPowerUpDone _ => onUnit_completes (settle_keeps (powerDone_keeps (.refl s)))
  | .avsStep _ => .always (avsStep_keeps (.refl s))
  | .presetOverflow => .always (presetOverflow_keeps (.refl s))
  | .fmnInput _ _ => onUnit_completes (fmnInput_keeps (.refl s))
  | .fmnCtrlWrite _ _ _ => onUnit_completes (State.answer_keeps (settle_keeps (regWrite_keeps (.refl s))))
  | .procHalt _ => onUnit_completes (procHalt_keeps (.refl s))
  | .sliceFallow _ _ _ => unitOut_completes
  | .sliceReturn _ _ _ => unitOut_completes
  | .sliceCalDone _ _ _ => onPortUnit_completes (sliceCal_keeps (.refl s))
  | .sliceJoin _ _ => onPortUnit_completes (sliceJoin_keeps (.refl s))
  | .tileFallow _ _ => unitOut_completes
  | .tileReturn _ _ => unitOut_completes
  | .tileSelftestDone _ _ _ => onPortUnit_completes (tileTested_keeps (.refl s))
  | .tileShadowDone _ _ _ => onPortUnit_completes (tileShadowed_keeps (.refl s))
  | .tileJoin _ _ => onPortUnit_completes (tileJoin_keeps (.refl s))
  | .processorFallow _ => unitOut_completes
  | .handoverDone _ => onUnit_completes (handoverEnd_keeps (.refl s))
  | .processorReturn _ => unitOut_completes
  | .procSelftestDone _ _ => onUnit_completes (procTested_keeps (.refl s))
  | .procJoin _ => onUnit_completes (procJoin_keeps (.refl s))
  | .firmwareUpdate _ _ => unitOut_completes
  | .deviceSwathBoundary _ _ => execDeviceSwathBoundary_completes
  | .payloadPresent _ _ => latePort_completes (payloadSeen_keeps (.refl s))
  | .refActivityReturn _ => onUnit_completes (refReturn_keeps (.refl s))
  | .counterLevelTick => .always (levelTick_keeps (.refl s))
  | .pcieLinkUp _ _ _ => .always (linkShow_keeps (.refl s))
  | .clientLaneLockLoss _ _ => onUnit_completes (settle_keeps (groupLockLoss_keeps (.refl s)))
  | .hiSerDetect _ _ => onUnit_completes (settle_keeps (hiSer_keeps (.refl s)))

/-! ### The statements about every command -/

/-- What a next state keeps, whichever command led there. -/
theorem exec_keeps {c : Instr} {s t : State} (h : exec c s = .next t) : Keeps s t := by
  obtain ⟨u, hu, hk⟩ := (exec_completes c s).next
  rw [hu] at h
  cases h
  exact hk

/-- Settles O8: the command at the front runs on the state with the rest of the queue, which no addressed store sees, and every command
keeps the stores canonical. -/
theorem stepKeepsCanon : Obligations.StepKeepsCanon := by
  unfold Obligations.StepKeepsCanon
  intro s t hs h
  unfold step at h
  split at h
  · cases h
    exact hs
  · exact (exec_keeps h).canon hs

/-- Settles O6: every command completes, and on an absent unit leaves what `absentLeaves` gives. -/
theorem commandsComplete : Obligations.CommandsComplete := by
  unfold Obligations.CommandsComplete
  constructor
  · intro c s
    obtain ⟨t, ht, -⟩ := (exec_completes c s).next
    exact ⟨t, ht⟩
  · intro c s h
    exact (exec_completes c s).absent h

/-- Settles O7: every command keeps the queue and the part. -/
theorem commandsKeepQueue : Obligations.CommandsKeepQueue := by
  unfold Obligations.CommandsKeepQueue
  intro c s t h
  exact ⟨(exec_keeps h).queue, (exec_keeps h).part⟩

/-! ### A register field written -/

/-- Settles O4: what a field reads after a write of it or of another, and the register store alone changes. -/
theorem fieldWriteLocal : Obligations.FieldWriteLocal := by
  unfold Obligations.FieldWriteLocal
  intro s f v
  refine ⟨State.set_get_same s f v, fun g hg => ?_, rfl, fun hc => (State.set_keeps (.refl s)).canon hc⟩
  exact State.set_get_other s v (hg f (List.mem_singleton.mpr rfl))

/-! ## Accesses to registers

What a write of one field leaves, where an access to a register comes down to its fields, and what BAR2 shows. -/

/-! ### One field, written with every byte lane enabled (R7, R8, R513) -/

/-- Such a write reaches all bits of the field. -/
theorem bits_byteMask_full {f : FDef} (h1 : 1 ≤ f.w) (h2 : f.lo + f.w ≤ 32) :
    bits (byteMask 4 15) (f.lo + f.w - 1) f.lo = 2 ^ f.w - 1 := by
  have hm : byteMask 4 15 = 2 ^ 32 - 1 := by decide
  have hw : f.lo + f.w - 1 + 1 - f.lo = f.w := by omega
  rw [hm, bits, hw]
  refine Nat.eq_of_testBit_eq fun i => ?_
  simp only [Nat.testBit_mod_two_pow, Nat.testBit_div_two_pow, Nat.testBit_two_pow_sub_one]
  by_cases hi : i < f.w
  · simp [hi, show i + f.lo < 32 by omega]
  · simp [hi]

theorem bits_lt (v : Nat) {lo w : Nat} (h : 1 ≤ w) : bits v (lo + w - 1) lo < 2 ^ w := by
  have hw : lo + w - 1 + 1 - lo = w := by omega
  rw [bits, hw]
  exact Nat.mod_lt _ (Nat.two_pow_pos w)

/-- A value all of whose bits are taken from the new one is the new one. -/
theorem mixBits_full {w old new : Nat} (hw : w ≤ 128) (ho : old < 2 ^ w) (hn : new < 2 ^ w) : mixBits (2 ^ w - 1) old new = new := by
  unfold mixBits
  refine Nat.eq_of_testBit_eq fun i => ?_
  simp only [Nat.testBit_or, Nat.testBit_and, Nat.testBit_xor, Nat.testBit_two_pow_sub_one]
  by_cases hi : i < w
  · simp [hi, show i < 128 by omega]
  · have hle : 2 ^ w ≤ 2 ^ i := Nat.pow_le_pow_right (by decide) (by omega)
    simp [hi, Nat.testBit_lt_two_pow (Nat.lt_of_lt_of_le ho hle), Nat.testBit_lt_two_pow (Nat.lt_of_lt_of_le hn hle)]

/-- A field that nothing else shows reads as it is stored, unless it is write-only. -/
theorem State.fieldValue_stored (s : State) (a b : Nat) {f : FDef} (h : f.acc ≠ .wo) : s.fieldValue a b [] f = s.get (fieldAt a b f) := by
  simp only [State.fieldValue, List.find?_nil, if_neg h]

/-- Such a write, by the access code of the field. -/
theorem writeField_full {w : Writer} {a b data : Nat} {s : State} {f : FDef} (h1 : 1 ≤ f.w) (h2 : f.lo + f.w ≤ 32) (hwo : f.acc ≠ .wo)
    (ho : s.get (fieldAt a b f) < 2 ^ f.w) :
    let wr := bits data (f.lo + f.w - 1) f.lo
    let old := s.get (fieldAt a b f)
    let put := if f.defines wr then s.set (fieldAt a b f) wr else s
    writeField w a b 15 data [] (0, s) f = match f.acc with
      | .rw => (0, put)
      | .ro | .rc | .wo => (0, s)
      | .w1c => (0, s.set (fieldAt a b f) (old &&& (old ^^^ ((2 ^ f.w - 1) &&& wr))))
      | .w1s => (0, s.set (fieldAt a b f) (old ||| ((2 ^ f.w - 1) &&& wr)))
      | .sch => if w.sch then (0, put) else if wr = old then (0, s) else (St.denied, s)
      | .own l => if l.contains w.m then (0, put) else if wr = old then (0, s) else (St.denied, s)
      | .lck => if wr = old then (0, s) else (St.approvalMissing, s) := by
  have hk : 2 ^ f.w - 1 ≠ 0 := Nat.sub_ne_zero_of_lt (Nat.one_lt_two_pow (by omega))
  have hmix : mixBits (2 ^ f.w - 1) (s.get (fieldAt a b f)) (bits data (f.lo + f.w - 1) f.lo) = bits data (f.lo + f.w - 1) f.lo :=
    mixBits_full (by omega) ho (bits_lt data h1)
  have hput : ∀ t : State, (if (!f.defines (bits data (f.lo + f.w - 1) f.lo)) = true then s else t) =
      if f.defines (bits data (f.lo + f.w - 1) f.lo) then t else s := fun t => by
    cases f.defines (bits data (f.lo + f.w - 1) f.lo) <;> rfl
  unfold writeField
  simp only [bits_byteMask_full h1 h2, s.fieldValue_stored a b hwo, hmix, if_neg hk, List.any_nil, Bool.or_false, hput]
  cases f.acc <;> rfl

/-! ### The place of a register (R29, R30) -/

theorem findReg_mem {a : Nat} {r : RDef} : ∀ {l : List RDef}, findReg a l = some r → r ∈ l
  | [], h => by cases h
  | x :: l, h => by
    unfold findReg at h
    split at h
    · cases h
      exact List.mem_cons_self
    · exact List.mem_cons_of_mem _ (findReg_mem h)

theorem calPlace_ne_reg (p o : Nat) (r : RDef) : calPlace p o ≠ .reg r := by
  unfold calPlace
  dsimp only
  split
  · split <;> nofun
  · split
    · split <;> nofun
    · nofun

/-- A register lies below the memories, in the block of its address. -/
theorem State.placeOf_reg {s : State} {a : Nat} {r : RDef} (h : s.placeOf a = .reg r) : a < 0x8000000 ∧ r ∈ blockRegs a := by
  unfold State.placeOf at h
  split at h
  · cases h
  · split at h
    · split at h <;> cases h
    · split at h
      · next x hx =>
        cases h
        exact ⟨by omega, findReg_mem hx⟩
      · dsimp only at h
        split at h
        · split at h
          · exact absurd h (calPlace_ne_reg _ _ r)
          · repeat' split at h
            all_goals cases h
        · repeat' split at h
          all_goals cases h

/-! ### Registers cleared by a read (R8) -/

/-- Every RC field of these registers has the reset value 0. -/
def rcZero (l : List RDef) : Bool := l.all (fun r => r.fs.all (fun f => f.acc != .rc || f.rst == 0))

theorem rcZero_ite {c : Prop} [Decidable c] {l k : List RDef} (hl : rcZero l = true) (hk : rcZero k = true) :
    rcZero (if c then l else k) = true := by
  split
  · exact hl
  · exact hk

/-- The register maps of the spec reset to 0 what a read clears: checked map by map. -/
theorem rcZero_blockRegs (a : Nat) : rcZero (blockRegs a) = true := by
  unfold blockRegs
  dsimp only
  repeat' apply rcZero_ite
  all_goals decide

theorem rst_of_rc {a : Nat} {r : RDef} {f : FDef} (hr : r ∈ blockRegs a) (hf : f ∈ r.fs) (h : f.acc = .rc) : f.rst = 0 := by
  have hz := List.all_eq_true.mp (List.all_eq_true.mp (rcZero_blockRegs a) r hr) f hf
  simpa [h] using hz

/-- Clearing a field whose reset value is 0 leaves at 0 every such field that is at 0, and the field itself. -/
theorem State.set_zero_get {s : State} {f g : Fld} (hf : f.rst = 0) (hg : g.rst = 0) (h : g.key = f.key ∨ s.get g = 0) :
    (s.set f 0).get g = 0 := by
  by_cases e : g.key = f.key
  · simp only [State.get, State.set, getAt_setAt, e, hf, hg, if_true, Nat.zero_mod, Nat.xor_self]
  · rw [State.set_get_other s 0 e]
    exact h.resolve_left e

/-- One field as a read of its register leaves it. -/
def clearField (a b : Nat) (s : State) (f : FDef) : State := if f.acc = .rc then s.set (fieldAt a b f) 0 else s

theorem readClear_eq (a b : Nat) (r : RDef) (s : State) : readClear a b r s = r.fs.foldl (clearField a b) s := rfl

theorem clearField_get_zero {a b : Nat} {s : State} {f : FDef} {g : Fld} (hf : f.acc = .rc → f.rst = 0) (hg : g.rst = 0)
    (h : s.get g = 0) : (clearField a b s f).get g = 0 := by
  unfold clearField
  split
  · next hacc => exact State.set_zero_get (hf hacc) hg (.inr h)
  · exact h

theorem foldl_clearField_get {a b : Nat} : ∀ {l : List FDef} {s : State}, (∀ f ∈ l, f.acc = .rc → f.rst = 0) →
    ∀ {g : Fld}, g.rst = 0 → (s.get g = 0 ∨ ∃ f ∈ l, f.acc = .rc ∧ fieldAt a b f = g) → (l.foldl (clearField a b) s).get g = 0
  | [], s, _, g, _, h => h.resolve_right (by simp)
  | f :: l, s, hl, g, hg, h => by
    have hl' : ∀ x ∈ l, x.acc = .rc → x.rst = 0 := fun x hx => hl x (List.mem_cons_of_mem _ hx)
    refine foldl_clearField_get hl' hg ?_
    obtain h | ⟨x, hx, hacc, rfl⟩ := h
    · exact .inl (clearField_get_zero (hl f List.mem_cons_self) hg h)
    · obtain rfl | hx := List.mem_cons.mp hx
      · refine .inl ?_
        rw [clearField, if_pos hacc]
        exact State.set_zero_get hg hg (.inl rfl)
      · exact .inr ⟨x, hx, hacc, rfl⟩

theorem readClear_get_rc {a b : Nat} {r : RDef} {f : FDef} {s : State} (hr : r ∈ blockRegs a) (hf : f ∈ r.fs) (h : f.acc = .rc) :
    (readClear a b r s).get (fieldAt a b f) = 0 := by
  rw [readClear_eq]
  exact foldl_clearField_get (fun x hx => rst_of_rc hr hx) (rst_of_rc hr hf h) (.inr ⟨f, hf, h, rfl⟩)

theorem readClear_sram {a b : Nat} {r : RDef} {s : State} : (readClear a b r s).sram = s.sram := by
  unfold readClear
  refine List.foldlRecOn (motive := fun t : State => t.sram = s.sram) r.fs _ rfl fun t ht f _ => ?_
  split
  · exact ht
  · exact ht

theorem latchLoad_sram {m a : Nat} {s : State} : (latchLoad m a s).sram = s.sram := by
  unfold latchLoad
  refine List.foldlRecOn (motive := fun t : State => t.sram = s.sram) (latches a) _ rfl fun t ht x _ => ?_
  split
  · exact ht
  · exact ht

/-- What a read takes away beside its register, but for the results of the message engine, is no register field and no memory word. -/
theorem readTake_regs_sram {m a : Nat} {s : State} (h : a ≠ 0x9011C) :
    (readTake m a s).regs = s.regs ∧ (readTake m a s).sram = s.sram := by
  unfold readTake
  dsimp only
  by_cases h1 : a = 0x100148
  · rw [if_pos h1]
    split
    · exact ⟨rfl, rfl⟩
    · exact ⟨rfl, rfl⟩
  · rw [if_neg h1, if_neg h]
    by_cases h2 : a = 0xB0408
    · rw [if_pos h2]
      exact ⟨rfl, rfl⟩
    · rw [if_neg h2]
      by_cases h3 : a = 0xB0418
      · rw [if_pos h3]
        exact ⟨rfl, rfl⟩
      · rw [if_neg h3]
        split
        · exact ⟨rfl, rfl⟩
        · split
          · exact ⟨rfl, rfl⟩
          · split
            · exact ⟨State.modPort_regs .., State.modPort_sram ..⟩
            · exact ⟨rfl, rfl⟩

/-! ### Accesses to a register (R370) -/

/-- A read of a register that the rights and the map let pass. -/
theorem regRead_reg {m a : Nat} {r : RDef} {s : State} (ha : a % 4 = 0) (hv : s.accessVerdict m a = St.ok) (hp : s.placeOf a = .reg r) :
    regRead m a s = ((regGet m a r s).1, if (regGet m a r s).1 = St.ok then (regGet m a r s).2.1 else 0,
      fabRespond m a (regGet m a r s).1 (regGet m a r s).2.2) := by
  have ha4 : a / 4 * 4 = a := by omega
  unfold regRead
  simp only [ha4, hv, hp, ne_eq, not_true_eq_false, if_false]
  rfl

theorem readRow_reg {m a : Nat} {r : RDef} {s : State} {v : Nat} {t : State} (ha : a % 4 = 0) (hv : s.accessVerdict m a = St.ok)
    (hp : s.placeOf a = .reg r) (hg : regGet m a r s = (0, v, t)) : readRow m a s = .next (t.answer 0 [v]) := by
  unfold readRow
  rw [regRead_reg ha hv hp, hg]
  rfl

/-- A read of a register that is not banked and shows no descriptor. -/
theorem regGet_unbanked {m a : Nat} {r : RDef} {s : State} (hb : r.banked = false) (hd : a < 0x100130 ∨ 0x100140 ≤ a)
    (hz : zeroReg a = false) (hn : s.noUnit a = false) :
    regGet m a r s = if latched a then (0, getAt 0 s.latches (latchKey m a), s)
      else (0, s.regWord m a 0 r, readTake m a (readClear a 0 r (latchLoad m a s))) := by
  have hd' : (decide (0x100130 ≤ a) && decide (a < 0x100140)) = false := by
    simp only [Bool.and_eq_false_iff, decide_eq_false_iff_not]
    omega
  unfold regGet
  simp only [hb, hd', hz, hn, Bool.or_false, Bool.false_eq_true, if_false]

/-- Clearing a register by its read: what it answers, and what stays. -/
theorem exec_readClear_reg {m a : Nat} {r : RDef} {s : State} (ha : a % 4 = 0) (hv : s.accessVerdict m a = St.ok)
    (hp : s.placeOf a = .reg r) (hb : r.banked = false) (hd : a < 0x100130 ∨ 0x100140 ≤ a) (hz : zeroReg a = false)
    (hn : s.noUnit a = false) (hl : latched a = false) (hm : a ≠ 0x9011C) :
    Answers (.readClear m a) s (fun t => t.resp = ⟨0, [s.regWord m a 0 r]⟩ ∧
      (∀ f ∈ r.fs, f.acc = .rc → t.get (fieldAt a 0 f) = 0) ∧ t.part = s.part ∧ t.sram = s.sram) := by
  have hg := regGet_unbanked (m := m) hb hd hz hn
  rw [if_neg (by simp [hl])] at hg
  obtain ⟨hregs, hsram⟩ := readTake_regs_sram (m := m) (s := readClear a 0 r (latchLoad m a s)) hm
  refine ⟨_, readRow_reg ha hv hp hg, rfl, fun f hf hrc => ?_, ?_, ?_⟩
  · have hget : (readTake m a (readClear a 0 r (latchLoad m a s))).get (fieldAt a 0 f) =
        (readClear a 0 r (latchLoad m a s)).get (fieldAt a 0 f) := by rw [State.get, hregs, State.get]
    rw [State.answer_get, hget]
    exact readClear_get_rc (State.placeOf_reg hp).2 hf hrc
  · exact (readTake_keeps (readClear_keeps (latchLoad_keeps (.refl s)))).part
  · exact hsram.trans (readClear_sram.trans latchLoad_sram)

/-- BAR2 lies above every register. -/
theorem bar2At_reg {m a : Nat} {r : RDef} {s : State} (hp : s.placeOf a = .reg r) : bar2At m a = none := by
  have ha := (State.placeOf_reg hp).1
  rw [bar2At, if_neg]
  simp only [Bool.and_eq_true, decide_eq_true_eq]
  omega

/-- A read through a latch answers what the latch holds. -/
theorem exec_latchedRead_latched {m a : Nat} {r : RDef} {s : State} (ha : a % 4 = 0) (hv : s.accessVerdict m a = St.ok)
    (hp : s.placeOf a = .reg r) (hb : r.banked = false) (hd : a < 0x100130 ∨ 0x100140 ≤ a) (hz : zeroReg a = false)
    (hn : s.noUnit a = false) (hl : latched a = true) :
    exec (.latchedRead m a) s = .next (s.answer 0 [getAt 0 s.latches (latchKey m a)]) := by
  have hg := regGet_unbanked (m := m) hb hd hz hn
  rw [if_pos hl] at hg
  change execLatchedRead m a s none = _
  unfold execLatchedRead
  rw [bar2At_reg hp]
  exact readRow_reg ha hv hp hg

/-! ### The counter registers (R480) -/

/-- Every address from 0x200000 to 0x3FFFFF is one of both parts, and none is of the bonding registers. -/
theorem counter_present {a : Nat} {s : State} (h1 : 0x200000 ≤ a) (h2 : a < 0x400000) : (zeroReg a || s.noUnit a) = false := by
  simp only [zeroReg, State.noUnit, Bool.or_eq_false_iff, Bool.and_eq_false_iff, beq_eq_false_iff_ne, decide_eq_false_iff_not]
  omega

/-- A write of a counter register judges its fields and does nothing else. -/
theorem regWrite_counter {m a be data : Nat} {r : RDef} {s : State} (ha : a % 4 = 0) (h1 : 0x200000 ≤ a) (h2 : a < 0x400000)
    (h24 : a ≠ 0x200024) (hbe : be % 16 ≠ 0) (hv : s.accessVerdict m a = St.ok) (hp : s.placeOf a = .reg r) (hb : r.banked = false) :
    regWrite { m := m } a be data s = ((writeFields { m := m } a 0 be data r s).1,
      fabRespond m a (writeFields { m := m } a 0 be data r s).1 (writeFields { m := m } a 0 be data r s).2) := by
  have ha4 : a / 4 * 4 = a := by omega
  have hcmd : (decide (a = 0xA0008) || decide (a = 0x20020)) = false := by
    simp only [Bool.or_eq_false_iff, decide_eq_false_iff_not]
    omega
  have hput : regPut { m := m } a be data r s = writeFields { m := m } a 0 be data r s := by
    unfold regPut
    simp only [hb, Bool.false_eq_true, if_false, hbe, regEffect, highEffect, h24, h2, if_true,
      if_neg (show ¬ a < 0x60000 by omega), if_neg (show ¬ a < 0x200000 by omega)]
  have hword : wordPut { m := m } a be data s = writeFields { m := m } a 0 be data r s := by
    unfold wordPut corePut
    simp only [hcmd, hv, hp, Bool.false_and, Bool.false_eq_true, if_false, ne_eq, not_true_eq_false, placePut, counter_present h1 h2, hput]
  unfold regWrite
  simp only [ha4, hword]

/-! ### Bursts (R367) -/

theorem beatWrite_crosses {m a be data n : Nat} {s : State} (ha : a % 16 = 0) (hc : crosses a n = true) (hb : s.burstAt m true a n = none) :
    beatWrite m a be data n s = .next ((fabRespond m a St.decerr s).answer St.decerr []) := by
  have ha16 : a / 16 * 16 = a := by omega
  unfold beatWrite
  simp only [ha16, hb, hc, Option.isNone_none, Bool.and_self, if_true]

theorem beatRead_crosses {m a n : Nat} {s : State} (ha : a % 16 = 0) (hc : crosses a n = true) (hb : s.burstAt m false a n = none) :
    beatRead m a n s = .next ((fabRespond m a St.decerr s).answer St.decerr []) := by
  have ha16 : a / 16 * 16 = a := by omega
  unfold beatRead
  simp only [ha16, hb, hc, Option.isNone_none, Bool.and_self, if_true]

/-! ### The doorbell aperture (R377, R378) -/

theorem bar2At_host {o : Nat} (h : o < 4096) (h4 : o % 4 = 0) : bar2At M.host (2 ^ 48 + o) = some o := by
  have hin : (decide (2 ^ 48 ≤ 2 ^ 48 + o) && decide (2 ^ 48 + o < 2 ^ 48 + 4096)) = true := by
    simp only [Bool.and_eq_true, decide_eq_true_eq]
    omega
  unfold bar2At
  rw [Bool.and_assoc, hin, if_pos (by rfl)]
  congr 1
  omega

/-- A write by the host to the aperture. -/
theorem exec_registerWrite_bar2 {o be v : Nat} {s : State} (h : o < 4096) (h4 : o % 4 = 0) :
    exec (.registerWrite M.host (2 ^ 48 + o) be v) s = .next ((bar2Write o be v s).answer St.ok []) := by
  change execRegisterWrite M.host (2 ^ 48 + o) be v s none = _
  unfold execRegisterWrite
  rw [bar2At_host h h4]

/-- A read by the host of the aperture. -/
theorem exec_latchedRead_bar2 {o : Nat} {s : State} (h : o < 4096) (h4 : o % 4 = 0) :
    exec (.latchedRead M.host (2 ^ 48 + o)) s = .next (s.answer St.ok [s.bar2Read o]) := by
  change execLatchedRead M.host (2 ^ 48 + o) s none = _
  unfold execLatchedRead
  rw [bar2At_host h h4]

theorem bar2Write_narrow {o be v : Nat} {s : State} (h : be % 16 ≠ 15) : bar2Write o be v s = s := if_pos h

theorem bar2Write_tail {r v : Nat} {s : State} (h : r < 16) : bar2Write (16 * r) 15 v s = doorbell r (v % 256) s := by
  have hr : 16 * r / 16 = r := by omega
  simp only [bar2Write, Bool.and_eq_true, decide_eq_true_eq]
  rw [if_neg (show ¬ 15 % 16 ≠ 15 by decide), if_pos (show 16 * r < 0x100 ∧ 16 * r % 16 = 0 by omega), hr]

theorem bar2Write_head {r v : Nat} {s : State} (h : r < 4) : bar2Write (0x100 + 16 * r) 15 v s = cqHead r (v % 1024) s := by
  have hr : (0x100 + 16 * r - 0x100) / 16 = r := by omega
  simp only [bar2Write, Bool.and_eq_true, decide_eq_true_eq]
  rw [if_neg (show ¬ 15 % 16 ≠ 15 by decide), if_neg (show ¬ (0x100 + 16 * r < 0x100 ∧ (0x100 + 16 * r) % 16 = 0) by omega),
    if_pos (show (0x100 ≤ 0x100 + 16 * r ∧ 0x100 + 16 * r < 0x140) ∧ (0x100 + 16 * r) % 16 = 0 by omega), hr]

theorem bar2Write_message {r v : Nat} {s : State} (h : r < 256) (hv : v < 2 ^ 32) :
    bar2Write (0x800 + 4 * r) 15 v s = s.modHif (fun x => { x with msix := setAt 0 x.msix r v }) := by
  have hr : (0x800 + 4 * r - 0x800) / 4 = r := by omega
  simp only [bar2Write, Bool.and_eq_true, decide_eq_true_eq]
  rw [if_neg (show ¬ 15 % 16 ≠ 15 by decide), if_neg (show ¬ (0x800 + 4 * r < 0x100 ∧ (0x800 + 4 * r) % 16 = 0) by omega),
    if_neg (show ¬ ((0x100 ≤ 0x800 + 4 * r ∧ 0x800 + 4 * r < 0x140) ∧ (0x800 + 4 * r) % 16 = 0) by omega),
    if_pos (show 0x800 ≤ 0x800 + 4 * r ∧ 0x800 + 4 * r < 0xC00 by omega), hr, Nat.mod_eq_of_lt hv]

theorem bar2Read_message {r : Nat} (h : r < 256) (s : State) : s.bar2Read (0x800 + 4 * r) = getAt 0 s.hif.msix r := by
  have hr : (0x800 + 4 * r - 0x800) / 4 = r := by omega
  simp only [State.bar2Read, Bool.and_eq_true, decide_eq_true_eq]
  rw [if_neg (show ¬ (0x800 + 4 * r < 0x100 ∧ (0x800 + 4 * r) % 16 = 0) by omega),
    if_neg (show ¬ ((0x100 ≤ 0x800 + 4 * r ∧ 0x800 + 4 * r < 0x140) ∧ (0x800 + 4 * r) % 16 = 0) by omega),
    if_pos (show 0x800 ≤ 0x800 + 4 * r ∧ 0x800 + 4 * r < 0xC00 by omega), hr]

/-- A full write of a word of the message table stores that word alone, and a read then shows it. -/
theorem exec_registerWrite_message {r v : Nat} {s : State} (h : r < 256) (hv : v < 2 ^ 32) :
    Answers (.registerWrite M.host (2 ^ 48 + 0x800 + 4 * r) 15 v) s (fun t => t.bar2Read (0x800 + 4 * r) = v ∧
      (∀ k < 256, k ≠ r → t.bar2Read (0x800 + 4 * k) = s.bar2Read (0x800 + 4 * k)) ∧ { t with hif := s.hif, resp := s.resp } = s ∧
      exec (.latchedRead M.host (2 ^ 48 + 0x800 + 4 * r)) t = .next (t.answer St.ok [v])) := by
  have hin : 0x800 + 4 * r < 4096 := by omega
  have h4 : (0x800 + 4 * r) % 4 = 0 := by omega
  have hex := exec_registerWrite_bar2 (be := 15) (v := v) (s := s) hin h4
  rw [bar2Write_message h hv] at hex
  have hread : (((s.modHif (fun x => { x with msix := setAt 0 x.msix r v })).answer St.ok [])).bar2Read (0x800 + 4 * r) = v := by
    rw [bar2Read_message h]
    exact (getAt_setAt 0 s.hif.msix r r v).trans (if_pos rfl)
  rw [Nat.add_assoc]
  refine ⟨_, hex, hread, fun k hk hkr => ?_, rfl, ?_⟩
  · rw [bar2Read_message hk, bar2Read_message hk]
    exact (getAt_setAt 0 s.hif.msix r k v).trans (if_neg hkr)
  · rw [exec_latchedRead_bar2 hin h4, hread]

/-- Settles O10: a field written whole, the counter registers, the reads that clear and those through a latch, bursts that cross, the
doorbell aperture. -/
theorem registerAccess : Obligations.RegisterAccess := by
  unfold Obligations.RegisterAccess
  refine ⟨fun w a b data s f h1 h2 _ hwo ho => writeField_full h1 h2 hwo ho, ⟨?_, ?_, ?_⟩, ⟨?_, ?_⟩⟩
  · intro m a be data r s ha h1 h2 h24 hbe hv hp hb
    change execRegisterWrite m a be data s none = _
    unfold execRegisterWrite
    rw [bar2At_reg hp]
    have hbe' : be % 16 % 16 ≠ 0 := by omega
    simp only [regWrite_counter ha h1 h2 h24 hbe' hv hp hb]
  · intro m a r s ha hv hp hb hd hz hn hl hm
    exact exec_readClear_reg ha hv hp hb hd hz hn hl hm
  · intro m a r s ha hv hp hb hd hz hn hl
    exact exec_latchedRead_latched ha hv hp hb hd hz hn hl
  · intro m a be data n s ha hc
    exact ⟨fun hb => beatWrite_crosses ha hc hb, fun hb => beatRead_crosses ha hc hb⟩
  · intro r v s hv
    refine ⟨fun h => ?_, fun h => ?_, fun h => exec_registerWrite_message h hv, fun h be hbe => ?_⟩
    · rw [exec_registerWrite_bar2 (by omega) (by omega), bar2Write_tail h]
    · rw [Nat.add_assoc, exec_registerWrite_bar2 (by omega) (by omega), bar2Write_head h]
    · rw [exec_registerWrite_bar2 (by omega) (by omega), bar2Write_narrow hbe]

end Sys2Proof.Machine

/-! ## The calibration journal

What an event leaves in the register fields, what the end of a journal operation shows, and what the reads of a LOAD leave of the ports. -/
namespace Sys2Proof.Machine

/-! ### Register fields and ports across an event (R463 to R465) -/

/-- The fields that counting event `i` may set: its overflow bit, and what EV_PMC_OVERFLOW brings (R465). -/
def countFlds (i : Nat) : List Fld := [ovfBit i, stickyBit Ev.PMC_OVERFLOW, ovfBit Ev.PMC_OVERFLOW]

theorem presetCount_get (i n : Nat) (s : State) (g : Fld) : (presetCount i n s).get g = s.get g := by
  obtain ⟨p, hp⟩ := presetCount_foot s i n
  rw [hp]
  rfl

theorem addCount_regsBut (i n : Nat) (s : State) : RegsBut [ovfBit i] s (addCount i n s) := by
  intro g hg
  have hovf : g.key ≠ (ovfBit i).key := hg _ (List.mem_singleton.mpr rfl)
  refine (presetCount_get i n _ g).trans ?_
  split
  · exact State.set_get_other _ 1 hovf
  · rfl

theorem countUp_regsBut (i n : Nat) (s : State) : RegsBut (countFlds i) s (countUp i n s) := by
  intro g hg
  simp only [countFlds, List.mem_cons, List.not_mem_nil, or_false, forall_eq_or_imp, forall_eq] at hg
  obtain ⟨hovf, hsticky, hover⟩ := hg
  have hadd : (addCount i n s).get g = s.get g := addCount_regsBut i n s g (by simpa using hovf)
  have hset : ((addCount i n s).set (stickyBit Ev.PMC_OVERFLOW) 1).get g = s.get g := (State.set_get_other _ 1 hsticky).trans hadd
  unfold countUp
  dsimp only
  split
  · split
    · exact hset
    · exact (addCount_regsBut _ 1 _ g (by simpa using hover)).trans hset
  · exact hadd

theorem countEvent_regsBut (i n : Nat) (s : State) : RegsBut (countFlds i) s (countEvent i n s) := by
  unfold countEvent
  split
  · exact fun g _ => rfl
  · split
    · exact fun g _ => rfl
    · exact countUp_regsBut i n s

/-- An event leaves every field but its sticky bit and those of counting it. -/
theorem State.raise_regsBut (s : State) (i : Nat) : RegsBut (stickyBit i :: countFlds i) s (s.raise i) := by
  intro g hg
  obtain ⟨hsticky, hcount⟩ := List.forall_mem_cons.mp hg
  exact (countEvent_regsBut i 1 _ g hcount).trans (State.set_get_other s 1 hsticky)

/-- An event leaves its sticky bit set. -/
theorem State.raise_get_sticky (s : State) {i : Nat} (h : ∀ f ∈ countFlds i, (stickyBit i).key ≠ f.key) :
    (s.raise i).get (stickyBit i) = 1 :=
  (countEvent_regsBut i 1 _ _ h).trans (State.set_get_same s _ 1)

@[simp] theorem State.set_port (s : State) (f : Fld) (v : Nat) : (s.set f v).port = s.port := rfl

@[simp] theorem State.raise_port (s : State) (i : Nat) : (s.raise i).port = s.port := by
  obtain ⟨r, p, h, e⟩ := s.raise_foot i
  rw [e]
  rfl

@[simp] theorem State.raiseIf_port (s : State) (c : Bool) (i : Nat) : (s.raiseIf c i).port = s.port := by
  cases c
  · rfl
  · exact s.raise_port i

/-! ### Reads of the flash leave the ports (R400, R405, R406) -/

@[simp] theorem logAdd_port (r : LogRec) (s : State) : (logAdd r s).port = s.port := by
  unfold logAdd
  split
  · exact s.raise_port _
  · rfl

@[simp] theorem queueMove_port (b : Nat) (retire : Bool) (s : State) : (queueMove b retire s).port = s.port := by
  unfold queueMove
  split
  · rfl
  · rfl

/-- A page that reads, counted and logged, and its block queued where the corrected bits call for it. -/
theorem pageFound_port (part b i t nbits time : Nat) (bad : Bool) (s : State) : (pageFound part b i t nbits time bad s).port = s.port := by
  unfold pageFound
  extract_lets r thr counted logged
  have hcounted : counted.port = s.port := by
    unfold counted
    split
    · rfl
    · rfl
  have hlogged : logged.port = s.port := by
    unfold logged
    split
    · rw [logAdd_port, State.raise_port, hcounted]
    · exact hcounted
  split
  · rw [logAdd_port, State.raise_port]
    rfl
  · split
    · rw [State.raise_port, queueMove_port, hlogged]
    · exact hlogged

theorem readPage_port (part time page : Nat) (x : ReadRun × State) : (readPage part time x page).2.port = x.2.port := by
  obtain ⟨run, s⟩ := x
  unfold readPage
  dsimp only
  split
  · rfl
  · split
    · rfl
    · exact pageFound_port ..
    · exact pageFound_port ..

theorem readSlot_port (t k time : Nat) (flips : List (List Nat)) (s : State) : (readSlot t k time flips s).2.2.port = s.port :=
  List.foldlRecOn (motive := fun x : ReadRun × State => x.2.port = s.port) _ _ rfl
    fun x hx page _ => (readPage_port t time page x).trans hx

/-! ### What the end of an operation shows (R104) -/

theorem jnlEnd_regsBut (st : Nat) (s : State) : RegsBut [R.CAL_JNL_STAT_BUSY 0, R.CAL_JNL_STAT_STATUS 0] s (jnlEnd st s) := by
  intro g hg
  obtain ⟨hbusy, hstatus⟩ := List.forall_mem_cons.mp hg
  exact (State.set_get_other _ st (hstatus _ (List.mem_singleton.mpr rfl))).trans (State.set_get_other s 0 hbusy)

theorem jnlEnd_get_status {st : Nat} (s : State) (h : st < 2 ^ 8) : (jnlEnd st s).get (R.CAL_JNL_STAT_STATUS 0) = st :=
  (State.set_get_same _ _ st).trans (Nat.mod_eq_of_lt h)

theorem jnlEnd_get_busy (st : Nat) (s : State) : (jnlEnd st s).get (R.CAL_JNL_STAT_BUSY 0) = 0 :=
  (State.set_get_other _ st (by decide)).trans (State.set_get_same s _ 0)

@[simp] theorem jnlEnd_jnl (st : Nat) (s : State) : (jnlEnd st s).jnl = {} := rfl
@[simp] theorem jnlEnd_flc (st : Nat) (s : State) : (jnlEnd st s).flc = s.flc := rfl
@[simp] theorem jnlEnd_port (st : Nat) (s : State) : (jnlEnd st s).port = s.port := rfl

theorem showNewest_regsBut (k seq : Nat) (s : State) :
    RegsBut [R.CAL_JNL_STAT_SLOT 0, R.CAL_JNL_SEQ_LO_SEQ_L 0, R.CAL_JNL_SEQ_HI_SEQ_H 0] s (showNewest k seq s) := by
  intro g hg
  simp only [List.mem_cons, List.not_mem_nil, or_false, forall_eq_or_imp, forall_eq] at hg
  obtain ⟨hslot, hlo, hhi⟩ := hg
  unfold showNewest
  rw [State.set_get_other _ _ hhi, State.set_get_other _ _ hlo, State.set_get_other _ _ hslot]

theorem showNewest_get_slot {k : Nat} (seq : Nat) (s : State) (h : k < 2) : (showNewest k seq s).get (R.CAL_JNL_STAT_SLOT 0) = k := by
  unfold showNewest
  rw [State.set_get_other _ _ (by decide), State.set_get_other _ _ (by decide), State.set_get_same]
  exact Nat.mod_eq_of_lt h

theorem showNewest_get_seqLo (k seq : Nat) (s : State) : (showNewest k seq s).get (R.CAL_JNL_SEQ_LO_SEQ_L 0) = seq % 2 ^ 32 := by
  unfold showNewest
  rw [State.set_get_other _ _ (by decide), State.set_get_same]
  exact Nat.mod_mod ..

theorem showNewest_get_seqHi (k seq : Nat) (s : State) :
    (showNewest k seq s).get (R.CAL_JNL_SEQ_HI_SEQ_H 0) = seq / 2 ^ 32 % 2 ^ 32 := State.set_get_same ..

@[simp] theorem showNewest_jnl (k seq : Nat) (s : State) : (showNewest k seq s).jnl = s.jnl := rfl
@[simp] theorem showNewest_flc (k seq : Nat) (s : State) : (showNewest k seq s).flc = s.flc := rfl
@[simp] theorem showNewest_port (k seq : Nat) (s : State) : (showNewest k seq s).port = s.port := rfl

/-! ### The newest record and the slot of the next (R101, R102) -/

theorem newest_slot_lt {a b : Option RecFound} {k : Nat} {x : RecFound} (h : newest a b = some (k, x)) : k < 2 := by
  unfold newest at h
  split at h
  · cases h
  · cases h; decide
  · cases h; decide
  · split at h
    · cases h; decide
    · cases h; decide

theorem State.storeSlot_lt (s : State) (t : Nat) : s.storeSlot t < 2 := by
  unfold State.storeSlot
  split
  · decide
  · decide

/-- The next record goes to the slot that does not hold the newest. -/
theorem State.storeSlot_of_newest {s : State} {t k : Nat} {r : RecFound} (h : s.newestSlot t = some (k, r)) : s.storeSlot t = 1 - k := by
  unfold State.storeSlot
  rw [h]
  match k, newest_slot_lt h with
  | 0, _ => rfl
  | 1, _ => rfl

theorem State.storeSeq_of_newest {s : State} {t k : Nat} {r : RecFound} (h : s.newestSlot t = some (k, r)) :
    s.storeSeq t = (r.seq + 1) % 2 ^ 64 := by
  unfold State.storeSeq
  rw [h]

theorem State.storeSlot_of_none {s : State} {t : Nat} (h : s.newestSlot t = none) : s.storeSlot t = 0 := by
  unfold State.storeSlot
  rw [h]

theorem State.storeSeq_of_none {s : State} {t : Nat} (h : s.newestSlot t = none) : s.storeSeq t = 1 := by
  unfold State.storeSeq
  rw [h]

/-! ### The end of a STORE that no operation fails (R101, R103) -/

section StoreDone
variable {s : State} (hop : s.jnl.op = 1) (hp : (s.partition 0x20).isSome = true)
include hop hp

/-- Outside the window no operation is carried out. -/
theorem jnlStoreDone_inhibited (hw : s.writeWindow = false) (time : Nat) :
    jnlStoreDone none time s = storeFails St.tempInhibit (s.raise Ev.FLC_TEMP_INHIBIT) := by
  simp [jnlStoreDone, recStore, State.recStatus, hop, Option.isNone_eq_false_iff.mpr hp, hw, St.tempInhibit, St.ok]

/-- Inside the window the record is stored and shown. -/
theorem jnlStoreDone_stored (hw : s.writeWindow = true) (time : Nat) :
    jnlStoreDone none time s = (showNewest (s.storeSlot 0x20) (s.storeSeq 0x20) (jnlEnd St.ok
      (storeRun 0x20 (s.storeSlot 0x20) (s.storePages 0x20 s.jnlPayload) ((s.storePages 0x20 s.jnlPayload).length + 1) s))).raise
        (Ev.CAL_JNL_DONE 0) := by
  simp [jnlStoreDone, recStore, State.recStatus, hop, Option.isNone_eq_false_iff.mpr hp, hw]

end StoreDone

/-! ### The end of a LOAD (R102) -/

/-- The reads of the two slots in a LOAD, slot 0 first. -/
def loadSlot0 (r : FlashResult) (s : State) : Option RecFound × Bool × State :=
  readSlot 0x20 0 r.time (r.pages.take (s.slotSpan 0x20 0)) s
def loadSlot1 (r : FlashResult) (s : State) : Option RecFound × Bool × State :=
  readSlot 0x20 1 r.time (r.pages.drop (s.slotSpan 0x20 0)) (loadSlot0 r s).2.2

/-- The state once both slots have been read: an uncorrectable slot has set EV_CAL_JNL_FAIL. -/
def loadRead (r : FlashResult) (s : State) : State :=
  ((loadSlot1 r s).2.2.raiseIf (loadSlot0 r s).2.1 (Ev.CAL_JNL_FAIL 0)).raiseIf (loadSlot1 r s).2.1 (Ev.CAL_JNL_FAIL 0)

theorem loadRead_port (r : FlashResult) (s : State) : (loadRead r s).port = s.port := by
  unfold loadRead loadSlot1 loadSlot0
  rw [State.raiseIf_port, State.raiseIf_port, readSlot_port, readSlot_port]

/-- The newest record copied and shown, where there is one. -/
def loadShow : Option (Nat × RecFound) → State → State
  | none, s => s.set (R.CAL_JNL_STAT_FOUND 0) 0
  | some (k, x), s => showNewest k x.seq ((jnlCopy x s).set (R.CAL_JNL_STAT_FOUND 0) 1)

theorem jnlLoadDone_eq {s : State} (hop : s.jnl.op = 2) (hp : (s.partition 0x20).isSome = true) (r : FlashResult) :
    jnlLoadDone r s = (jnlEnd St.ok (loadShow (newest (loadSlot0 r s).1 (loadSlot1 r s).1) (loadRead r s))).raise (Ev.CAL_JNL_DONE 0) := by
  unfold jnlLoadDone loadRead loadSlot1 loadSlot0
  simp only [hop, Option.isNone_eq_false_iff.mpr hp, ne_eq, not_true_eq_false, Bool.false_eq_true, if_false]
  congr 2
  split
  · next h => rw [h]; rfl
  · next h => rw [h]; rfl

/-- A record leaves the staging copies, and all else, of a port that it does not name. -/
theorem jnlCopy_port {x : RecFound} {p : Nat} (s : State) (hp : p < 2) (hx : p ∉ x.ports) : (jnlCopy x s).port p = s.port p := by
  refine List.foldlRecOn (motive := fun t : State => t.port p = s.port p) _ _ rfl fun t ht i hi => ?_
  have hi' : i < x.ports.length := List.mem_range.mp hi
  have hq : x.ports.getD i 0 ≠ p := by
    rw [← List.getElem_eq_getD (h := hi') 0]
    exact fun e => hx (e ▸ List.getElem_mem hi')
  dsimp only
  split
  · next hport =>
    have hq2 : x.ports.getD i 0 < 2 := by
      simp only [State.hasPort, Bool.or_eq_true, Bool.and_eq_true, beq_iff_eq] at hport
      omega
    have hport0 : (x.ports.getD i 0 = 0) ≠ (p = 0) := fun e => by
      have hiff := iff_of_eq e
      omega
    exact (State.modPort_port_other _ _ hport0).trans ht
  · exact ht

/-! ### The commands of the journal -/

/-- An operation that ends with EV_CAL_JNL_DONE shows what stood in its fields before the event. -/
theorem raise_jnlDone_get {s : State} {f : Fld} {v : Nat} (h : s.get f = v)
    (hf : ∀ e ∈ stickyBit (Ev.CAL_JNL_DONE 0) :: countFlds (Ev.CAL_JNL_DONE 0), f.key ≠ e.key) :
    (s.raise (Ev.CAL_JNL_DONE 0)).get f = v := (s.raise_regsBut _ f hf).trans h

theorem exec_journal_idle {s : State} (h : s.jnl.op = 0) :
    exec .journalStore s = .next (({ (s.set (R.CAL_JNL_STAT_BUSY 0) 1) with jnl := { s.jnl with op := 1, buf := stagingAll s } }).answer St.ok []) ∧
      exec .journalLoad s = .next (({ (s.set (R.CAL_JNL_STAT_BUSY 0) 1) with jnl := { s.jnl with op := 2 } }).answer St.ok []) := by
  change execJournalStore s = _ ∧ execJournalLoad s = _
  simp [execJournalStore, execJournalLoad, jnlCommand, h, stagingAll, State.hasPort]

theorem exec_journal_busy {s : State} (h : s.jnl.op ≠ 0) :
    exec .journalStore s = .next (s.answer St.busy []) ∧ exec .journalLoad s = .next (s.answer St.busy []) := by
  change execJournalStore s = _ ∧ execJournalLoad s = _
  simp [execJournalStore, execJournalLoad, jnlCommand, h]

theorem exec_journalStoreDone_inhibited {s : State} (hop : s.jnl.op = 1) (hp : (s.partition 0x20).isSome = true)
    (hw : s.writeWindow = false) (time : Nat) : Answers (.journalStoreDone none time) s (fun t =>
      t.get (R.CAL_JNL_STAT_STATUS 0) = St.tempInhibit ∧ t.get (R.CAL_JNL_STAT_BUSY 0) = 0 ∧ t.jnl.op = 0 ∧
      t.get (stickyBit (Ev.CAL_JNL_FAIL 0)) = 1 ∧ { t with regs := s.regs, jnl := s.jnl, pmc := s.pmc, hdg := s.hdg } = s) := by
  refine ⟨_, congrArg Host.Outcome.next (jnlStoreDone_inhibited hop hp hw time), ?_, ?_, ?_, ?_, ?_⟩
  · exact (State.raise_regsBut _ _ _ (by decide)).trans (jnlEnd_get_status _ (by decide))
  · exact (State.raise_regsBut _ _ _ (by decide)).trans (jnlEnd_get_busy ..)
  · simp [storeFails]
  · exact State.raise_get_sticky _ (by decide)
  · obtain ⟨r, p, h, e⟩ := s.raise_foot Ev.FLC_TEMP_INHIBIT
    obtain ⟨r', p', h', e'⟩ := (jnlEnd St.tempInhibit (s.raise Ev.FLC_TEMP_INHIBIT)).raise_foot (Ev.CAL_JNL_FAIL 0)
    rw [storeFails, e', e]
    rfl

theorem exec_journalStoreDone_stored {s : State} (hop : s.jnl.op = 1) (hp : (s.partition 0x20).isSome = true)
    (hw : s.writeWindow = true) (time : Nat) : Answers (.journalStoreDone none time) s (fun t =>
      t.get (R.CAL_JNL_STAT_STATUS 0) = St.ok ∧ t.get (R.CAL_JNL_STAT_BUSY 0) = 0 ∧ t.jnl.op = 0 ∧
      t.get (stickyBit (Ev.CAL_JNL_DONE 0)) = 1 ∧
      t.flc = (storeRun 0x20 (s.storeSlot 0x20) (s.storePages 0x20 s.jnlPayload) ((s.storePages 0x20 s.jnlPayload).length + 1) s).flc ∧
      t.get (R.CAL_JNL_STAT_SLOT 0) = s.storeSlot 0x20 ∧ t.get (R.CAL_JNL_SEQ_LO_SEQ_L 0) = s.storeSeq 0x20 % 2 ^ 32 ∧
      t.get (R.CAL_JNL_SEQ_HI_SEQ_H 0) = s.storeSeq 0x20 / 2 ^ 32 % 2 ^ 32) := by
  refine ⟨_, congrArg Host.Outcome.next (jnlStoreDone_stored hop hp hw time), ?_, ?_, ?_, ?_, ?_, ?_, ?_, ?_⟩
  · exact raise_jnlDone_get ((showNewest_regsBut _ _ _ _ (by decide)).trans (jnlEnd_get_status _ (by decide))) (by decide)
  · exact raise_jnlDone_get ((showNewest_regsBut _ _ _ _ (by decide)).trans (jnlEnd_get_busy ..)) (by decide)
  · simp
  · exact State.raise_get_sticky _ (by decide)
  · simp
  · exact raise_jnlDone_get (showNewest_get_slot _ _ (s.storeSlot_lt _)) (by decide)
  · exact raise_jnlDone_get (showNewest_get_seqLo ..) (by decide)
  · exact raise_jnlDone_get (showNewest_get_seqHi ..) (by decide)

/-- A LOAD ends with OK, whatever it has read, and shows the newest record where there is one. -/
theorem exec_journalLoadDone {s : State} (hop : s.jnl.op = 2) (hp : (s.partition 0x20).isSome = true) (r : FlashResult) :
    Answers (.journalLoadDone r) s (fun t =>
      t.get (R.CAL_JNL_STAT_STATUS 0) = St.ok ∧ t.jnl.op = 0 ∧ t.get (stickyBit (Ev.CAL_JNL_DONE 0)) = 1 ∧
      (∀ k x, newest (loadSlot0 r s).1 (loadSlot1 r s).1 = some (k, x) → t.get (R.CAL_JNL_STAT_FOUND 0) = 1 ∧
        t.get (R.CAL_JNL_STAT_SLOT 0) = k ∧ t.get (R.CAL_JNL_SEQ_LO_SEQ_L 0) = x.seq % 2 ^ 32 ∧
        ∀ p, p < 2 → p ∉ x.ports → t.port p = s.port p) ∧
      (newest (loadSlot0 r s).1 (loadSlot1 r s).1 = none → t.get (R.CAL_JNL_STAT_FOUND 0) = 0 ∧ t.port = s.port)) := by
  refine ⟨_, congrArg Host.Outcome.next (jnlLoadDone_eq hop hp r), ?_, ?_, ?_, fun k x h => ?_, fun h => ?_⟩
  · exact raise_jnlDone_get (jnlEnd_get_status _ (by decide)) (by decide)
  · simp
  · exact State.raise_get_sticky _ (by decide)
  · rw [h]
    refine ⟨?_, ?_, ?_, fun p hp2 hpx => ?_⟩
    · refine raise_jnlDone_get ((jnlEnd_regsBut _ _ _ (by decide)).trans ((showNewest_regsBut _ _ _ _ (by decide)).trans ?_)) (by decide)
      exact State.set_get_same ..
    · exact raise_jnlDone_get ((jnlEnd_regsBut _ _ _ (by decide)).trans (showNewest_get_slot _ _ (newest_slot_lt h))) (by decide)
    · exact raise_jnlDone_get ((jnlEnd_regsBut _ _ _ (by decide)).trans (showNewest_get_seqLo ..)) (by decide)
    · rw [loadShow, State.raise_port, jnlEnd_port, showNewest_port, State.set_port, jnlCopy_port _ hp2 hpx, loadRead_port]
  · rw [h]
    refine ⟨?_, ?_⟩
    · exact raise_jnlDone_get ((jnlEnd_regsBut _ _ _ (by decide)).trans (State.set_get_same ..)) (by decide)
    · rw [loadShow, State.raise_port, jnlEnd_port, State.set_port, loadRead_port]

/-- Settles O18: a STORE that ends inside and outside the window, a LOAD, a command during another. -/
theorem journalCommands : Obligations.JournalCommands := by
  unfold Obligations.JournalCommands
  refine fun s => ⟨exec_journal_idle, exec_journal_busy, fun hop hp time => ⟨fun hw => ?_, fun hw => ?_⟩, fun hop hp r => ?_⟩
  · exact exec_journalStoreDone_inhibited hop hp hw time
  · obtain ⟨t, ht, hst, hbusy, hjnl, hdone, hflc, hslot, hlo, hhi⟩ := exec_journalStoreDone_stored hop hp hw time
    refine ⟨t, ht, hst, hbusy, hjnl, hdone, hflc, fun k x hx => ?_, fun hx => ?_⟩
    · rw [State.storeSlot_of_newest hx] at hslot
      rw [State.storeSeq_of_newest hx, Nat.mod_mod_of_dvd _ (by decide)] at hlo
      exact ⟨hslot, hlo⟩
    · rw [State.storeSlot_of_none hx] at hslot
      rw [State.storeSeq_of_none hx] at hlo hhi
      exact ⟨hslot, hlo, hhi⟩
  · obtain ⟨t, ht, hst, hjnl, hdone, hfound, hnone⟩ := exec_journalLoadDone hop hp r
    refine ⟨t, ht, hst, hjnl, hdone, hfound, fun h => ?_⟩
    obtain ⟨hempty, hport⟩ := hnone h
    exact ⟨hempty, congrFun hport 0, congrFun hport 1⟩

end Sys2Proof.Machine

/-! ## Groups of decoder engines and of cipher pipelines

What switching a power domain leaves, what the pool shows after a change, and the states of a group: each of its functions, then its
commands. -/
namespace Sys2Proof.Machine

/-! ### Fields and bits -/

theorem State.set_regsBut (s : State) (f : Fld) (v : Nat) : RegsBut [f] s (s.set f v) :=
  fun _ hg => State.set_get_other s v (hg f (List.mem_singleton.mpr rfl))

theorem bitAt_eq_toNat_testBit (v i : Nat) : bitAt v i = (v.testBit i).toNat := (Nat.toNat_testBit v i).symm

theorem bitAt_mod_two_pow {i n : Nat} (v : Nat) (h : i < n) : bitAt (v % 2 ^ n) i = bitAt v i := by
  rw [bitAt_eq_toNat_testBit, bitAt_eq_toNat_testBit, Nat.testBit_mod_two_pow, decide_eq_true h, Bool.true_and]

/-- A bit that is 1 is 0 once its weight is taken away. -/
theorem bitAt_sub_two_pow {v i : Nat} (h : bitAt v i = 1) : bitAt (v - 2 ^ i) i = 0 := by
  have hdiv : (v - 2 ^ i) / 2 ^ i = v / 2 ^ i - 1 := by simpa using Nat.sub_mul_div v (2 ^ i) 1
  unfold bitAt at h ⊢
  omega

/-! ### Power domains (R455, R456) -/

theorem State.setDomain_foot (s : State) (d : Nat) (on : Bool) : ∃ r, s.setDomain d on = { s with regs := r } := by
  unfold State.setDomain
  dsimp only
  split
  · exact ⟨s.regs, rfl⟩
  · exact ⟨_, rfl⟩

theorem State.setDomain_regsBut (s : State) (d : Nat) (on : Bool) : RegsBut [R.PWR_ON_ON (d / 32)] s (s.setDomain d on) := by
  unfold State.setDomain
  dsimp only
  split
  · exact fun _ _ => rfl
  · exact s.set_regsBut _ _

/-- A domain switched off is off, whatever its register held. -/
theorem State.setDomain_domainOn_false (s : State) (d : Nat) : (s.setDomain d false).domainOn d = false := by
  unfold State.setDomain
  dsimp only
  split
  · next hoff => exact (beq_iff_eq.mp hoff).symm
  · next hon =>
    have hbit : bitAt (s.get (R.PWR_ON_ON (d / 32))) (d % 32) = 1 := by simpa using hon
    have hclear := (bitAt_mod_two_pow _ (Nat.mod_lt d (by decide))).trans (bitAt_sub_two_pow hbit)
    rw [State.domainOn, if_neg Bool.false_ne_true, State.set_get_same, beq_eq_false_iff_ne]
    exact fun hset => absurd (hclear.symm.trans hset) (by decide)

theorem powerDown_foot (d : Nat) (s : State) : ∃ r w, powerDown d s = { s with regs := r, pwr := w } := by
  obtain ⟨r, e⟩ := s.setDomain_foot d false
  exact ⟨r, _, by rw [powerDown, powerNext, e]⟩

theorem powerDown_regsBut (d : Nat) (s : State) : RegsBut [R.PWR_ON_ON (d / 32)] s (powerDown d s) := s.setDomain_regsBut d false

theorem powerDown_domainOn (d : Nat) (s : State) : (powerDown d s).domainOn d = false := s.setDomain_domainOn_false d

/-- Outside SHUTDOWN a domain that may be powered is taken on: on already, going up, or waiting. -/
theorem powerUp_allowed {d : Nat} {s : State} (hsd : s.get R.THM_SD_STAT_STATE ≠ 1) (h : s.mayPower d = true) :
    ∃ w, powerUp d s = (St.ok, { s with pwr := w }) := by
  simp only [powerUp, if_neg hsd, h, Bool.not_true, Bool.false_eq_true, if_false]
  split
  · exact ⟨s.pwr, rfl⟩
  · split
    · exact ⟨_, rfl⟩
    · exact ⟨_, rfl⟩

theorem powerUp_denied {d : Nat} {s : State} (hsd : s.get R.THM_SD_STAT_STATE ≠ 1) (h : s.mayPower d = false) :
    powerUp d s = (St.conflict, s.raise Ev.PWR_DENIED) := by
  simp [powerUp, hsd, h]

/-! ### Filling the engines (R185) -/

theorem dispatch_foot : ∀ (n : Nat) (s : State), ∃ f, dispatch n s = { s with fec := f }
  | 0, s => ⟨s.fec, rfl⟩
  | n + 1, s => by
    unfold dispatch
    dsimp only
    split
    · exact dispatch_foot n _
    · exact ⟨s.fec, rfl⟩

theorem fecShow_foot (s : State) : ∃ r, fecShow s = { s with regs := r } := by
  unfold fecShow
  dsimp only
  split
  · exact ⟨_, rfl⟩
  · exact ⟨_, rfl⟩

theorem fecShow_regsBut (s : State) : RegsBut [R.FEC_OCC_SLOTS, R.FEC_OCC_ENGINES, R.FEC_OCC_PEAK_SLOTS] s (fecShow s) := by
  intro g hg
  simp only [List.mem_cons, List.not_mem_nil, or_false, forall_eq_or_imp, forall_eq] at hg
  obtain ⟨hslots, hengines, hpeak⟩ := hg
  have hocc : ∀ n e, ((s.set R.FEC_OCC_SLOTS n).set R.FEC_OCC_ENGINES e).get g = s.get g :=
    fun n e => (State.set_get_other _ e hengines).trans (State.set_get_other s n hslots)
  unfold fecShow
  dsimp only
  split
  · exact (State.set_get_other _ _ hpeak).trans (hocc ..)
  · exact hocc ..

theorem fecRun_foot (s : State) : ∃ r f, fecRun s = { s with regs := r, fec := f } := by
  obtain ⟨f, hf⟩ := dispatch_foot 256 s
  obtain ⟨r, hr⟩ := fecShow_foot (dispatch 256 s)
  exact ⟨r, f, by rw [fecRun, hr, hf]⟩

theorem fecRun_regsBut (s : State) : RegsBut [R.FEC_OCC_SLOTS, R.FEC_OCC_ENGINES, R.FEC_OCC_PEAK_SLOTS] s (fecRun s) := by
  obtain ⟨f, hf⟩ := dispatch_foot 256 s
  intro g hg
  rw [fecRun, fecShow_regsBut _ g hg, hf]
  rfl

/-! ### The registers of a group -/

/-- The status that a group command shows. -/
def grpStatus (l : Bool) : Fld := if l then R.LCX_GRP_CMD_STAT_STATUS else R.FEC_GRP_CMD_STAT_STATUS

/-- The fields beside its state that the functions of a group write, the power word of the groups among them. -/
def grpBeside (l : Bool) : List Fld :=
  [grpStatus l, R.PWR_ON_ON 6, R.FEC_OCC_SLOTS, R.FEC_OCC_ENGINES, R.FEC_OCC_PEAK_SLOTS] ++
    (stickyBit (evGrpOff l) :: countFlds (evGrpOff l)) ++ stickyBit Ev.PWR_DENIED :: countFlds Ev.PWR_DENIED

/-- The state of a group stands apart from every other field that its functions write. -/
theorem grpField_key_ne {l : Bool} {g : Nat} : g < grpCount l → ∀ f ∈ grpBeside l, (grpField l g).key ≠ f.key := by
  revert l g
  decide

@[simp] theorem grpField_w (l : Bool) (g : Nat) : (grpField l g).w = 4 := by
  unfold grpField
  split
  · rfl
  · split <;> rfl

/-- The power domains of all groups lie in one power word. -/
theorem grpDomain_div {l : Bool} {g : Nat} (hg : g < grpCount l) : grpDomain l g / 32 = 6 := by
  cases l
  · have h16 : g < 16 := hg
    change (192 + g) / 32 = 6
    omega
  · have h8 : g < 8 := hg
    change (208 + g) / 32 = 6
    omega

theorem State.set_unitState (s : State) (l : Bool) (g : Nat) {v : Nat} (h : v < 16) : (s.set (grpField l g) v).unitState l g = v := by
  rw [State.unitState, State.set_get_same, grpField_w]
  exact Nat.mod_eq_of_lt h

/-- A change of fields beside the state of a group leaves that state. -/
theorem RegsBut.unitState {l : Bool} {g : Nat} {fs : List Fld} {s t : State} (h : RegsBut fs s t) (hg : g < grpCount l)
    (hfs : fs ⊆ grpBeside l) : t.unitState l g = s.unitState l g :=
  h _ fun f hf => grpField_key_ne hg f (hfs hf)

theorem setDirect_foot (l : Bool) (v : Nat) (s : State) : ∃ f x, setDirect l v s = { s with fec := f, lcx := x } := by
  cases l
  · exact ⟨_, s.lcx, rfl⟩
  · exact ⟨s.fec, _, rfl⟩

/-! ### FALLOW and the end of a drain (R192, R302) -/

/-- Where a group goes OFF: its state says so, its domain is switched off, and EV_FEC_GRP_OFF or EV_LCX_GRP_OFF is raised. -/
def grpOff (l : Bool) (g : Nat) (s : State) : State := (powerDown (grpDomain l g) (s.set (grpField l g) 2)).raise (evGrpOff l)

theorem grpOff_foot (l : Bool) (g : Nat) (s : State) :
    ∃ r p h w, grpOff l g s = { s with regs := r, pmc := p, hdg := h, pwr := w } := by
  obtain ⟨r, w, hw⟩ := powerDown_foot (grpDomain l g) (s.set (grpField l g) 2)
  obtain ⟨r', p, h, e⟩ := (powerDown (grpDomain l g) (s.set (grpField l g) 2)).raise_foot (evGrpOff l)
  exact ⟨r', p, h, w, by rw [grpOff, e, hw]; rfl⟩

theorem grpOff_get_sticky (l : Bool) (g : Nat) (s : State) : (grpOff l g s).get (stickyBit (evGrpOff l)) = 1 :=
  State.raise_get_sticky _ (by cases l <;> decide)

theorem grpOff_unitState {l : Bool} {g : Nat} (s : State) (hg : g < grpCount l) : (grpOff l g s).unitState l g = 2 := by
  have hdown := powerDown_regsBut (grpDomain l g) (s.set (grpField l g) 2)
  rw [grpDomain_div hg] at hdown
  calc (grpOff l g s).unitState l g
      = (powerDown (grpDomain l g) (s.set (grpField l g) 2)).unitState l g :=
        (State.raise_regsBut _ _).unitState hg (by cases l <;> decide)
    _ = (s.set (grpField l g) 2).unitState l g := hdown.unitState hg (by cases l <;> decide)
    _ = 2 := s.set_unitState l g (by decide)

theorem grpOff_domainOn {l : Bool} {g : Nat} (s : State) (hg : g < grpCount l) :
    (grpOff l g s).domainOn (grpDomain l g) = false := by
  have hword := (powerDown (grpDomain l g) (s.set (grpField l g) 2)).raise_regsBut (evGrpOff l) (R.PWR_ON_ON 6) (by cases l <;> decide)
  rw [← grpDomain_div hg] at hword
  have hdown := powerDown_domainOn (grpDomain l g) (s.set (grpField l g) 2)
  unfold State.domainOn at hdown ⊢
  rwa [grpOff, hword]

section States
variable {l : Bool} {g : Nat} {s : State}

/-- A group in service drains while another is in service and, for cipher pipelines, the others carry what the ports encipher. -/
theorem grpFallow_drains (h0 : s.unitState l g = 0) (hrest : (s.inService l).filter (· ≠ g) ≠ [])
    (hcap : l = false ∨ (∀ p < 2, s.hasPort p = true → s.cipherReq p = 0 ∨ s.cipherReq p ≤ s.cipherCapOf p ((s.inService l).filter (· ≠ g)))) :
    grpFallow l g s = (St.ok, s.set (grpField l g) 1) := by
  have hshort : (l && [0, 1].any fun p => s.hasPort p && decide (s.cipherCapOf p ((s.inService l).filter (· ≠ g)) < s.cipherReq p) &&
      decide (0 < s.cipherReq p)) = false := by
    rcases hcap with hl | hcap
    · rw [hl, Bool.false_and]
    · have hport : ∀ p < 2, (s.hasPort p && decide (s.cipherCapOf p ((s.inService l).filter (· ≠ g)) < s.cipherReq p) &&
          decide (0 < s.cipherReq p)) = false := fun p hp => by
        by_cases hhas : s.hasPort p = true
        · have := hcap p hp hhas
          rw [hhas, Bool.true_and, Bool.and_eq_false_iff, decide_eq_false_iff_not, decide_eq_false_iff_not]
          omega
        · rw [Bool.eq_false_iff.mpr hhas, Bool.false_and, Bool.false_and]
      rw [List.any_cons, List.any_cons, hport 0 (by decide), hport 1 (by decide), List.any_nil, Bool.or_false, Bool.or_false, Bool.and_false]
  simp only [grpFallow, if_pos h0, hrest, hshort, Bool.false_eq_true, decide_false, Bool.or_false, if_false]

/-- The last group in service does not leave it. -/
theorem grpFallow_last (h0 : s.unitState l g = 0) (hrest : (s.inService l).filter (· ≠ g) = []) : grpFallow l g s = (St.conflict, s) := by
  simp only [grpFallow, if_pos h0, hrest, decide_true, Bool.true_or, if_true]

theorem grpFallow_elsewhere (h0 : s.unitState l g ≠ 0) (h6 : s.unitState l g ≠ 6) : grpFallow l g s = (St.conflict, s) := by
  simp only [grpFallow, if_neg h0, if_neg h6]

theorem grpFallow_failed (h6 : s.unitState l g = 6) : grpFallow l g s = (St.ok, grpOff l g s) := by
  simp only [grpFallow, h6, grpOff, if_true, (by decide : (6 : Nat) ≠ 0), if_false]

theorem grpDrained_idle (h1 : s.unitState l g = 1) (hidle : l = true ∨ s.grpIdle g = true) : grpDrained l g s = grpOff l g s := by
  have hgo : (l || s.grpIdle g) = true := Bool.or_eq_true_iff.mpr hidle
  simp only [grpDrained, h1, hgo, grpOff, decide_true, Bool.and_true, if_true]

theorem grpDrained_stays (h : s.unitState l g ≠ 1 ∨ l = false ∧ s.grpIdle g = false) : grpDrained l g s = s := by
  rcases h with h1 | ⟨hl, hbusy⟩
  · simp only [grpDrained, h1, decide_false, Bool.false_and, Bool.false_eq_true, if_false]
  · simp only [grpDrained, hl, hbusy, Bool.or_false, Bool.and_false, Bool.false_eq_true, if_false]

/-! ### RETURN, the self-test and SHADOW (R192, R194, R302) -/

theorem grpReturn_elsewhere (h2 : s.unitState l g ≠ 2) : grpReturn l g s = (St.conflict, s) := if_pos h2

theorem grpReturn_powers (h2 : s.unitState l g = 2) (hsd : s.get R.THM_SD_STAT_STATE ≠ 1) (h : s.mayPower (grpDomain l g) = true) :
    ∃ w, grpReturn l g s = (St.ok, ({ s with pwr := w } : State).set (grpField l g) 3) := by
  obtain ⟨w, hw⟩ := powerUp_allowed hsd h
  exact ⟨w, by simp [grpReturn, h2, hw]⟩

theorem grpReturn_denied (h2 : s.unitState l g = 2) (hsd : s.get R.THM_SD_STAT_STATE ≠ 1) (h : s.mayPower (grpDomain l g) = false) :
    grpReturn l g s = (St.conflict, s.raise Ev.PWR_DENIED) := by
  simp [grpReturn, h2, powerUp_denied hsd h, St.conflict, St.ok]

theorem grpSelftest_elsewhere (ok : Bool) (h3 : s.unitState l g ≠ 3) : grpSelftest l g ok s = s := if_pos h3

theorem grpSelftest_fails (h3 : s.unitState l g = 3) (hd : bitAt (direct l s) g = 0) :
    grpSelftest l g false s = (s.set (grpField l g) 6).raise (evGrpFail l) := by
  simp [grpSelftest, grpFail, h3, hd]

/-- A group that passes goes to SHADOW; a decoder group counts its comparisons afresh. -/
theorem grpSelftest_shadows (h3 : s.unitState l g = 3) (hd : bitAt (direct l s) g = 0) :
    ∃ f, grpSelftest l g true s = ({ s with fec := f } : State).set (grpField l g) 4 := by
  cases l
  · exact ⟨{ s.fec with comps := setAt 0 s.fec.comps g 0 }, by simp [grpSelftest, h3, hd, State.modFec]⟩
  · exact ⟨s.fec, by simp [grpSelftest, h3, hd]⟩

/-- A group that a region named goes straight into service. -/
theorem grpSelftest_serves (h3 : s.unitState l g = 3) (hd : bitAt (direct l s) g = 1) :
    grpSelftest l g true s = fecRun ((setDirect l (direct l s - 2 ^ g) s).set (grpField l g) 0) := by
  simp [grpSelftest, h3, hd]

theorem grpShadowDone_elsewhere (ok : Bool) (h4 : s.unitState l g ≠ 4) : grpShadowDone l g ok s = s := if_pos h4

theorem grpShadowDone_fails (h4 : s.unitState l g = 4) : grpShadowDone l g false s = (s.set (grpField l g) 6).raise (evGrpFail l) := by
  simp [grpShadowDone, grpFail, h4]

/-- A comparison that has agreed makes a cipher group READY, and a decoder group once 256 have completed. -/
theorem grpShadowDone_ready (h4 : s.unitState l g = 4) (hcount : l = true ∨ 256 ≤ getAt 0 s.fec.comps g) :
    grpShadowDone l g true s = (s.set (grpField l g) 5).raise (evGrpReady l) := by
  have hgo : (!l && decide (getAt 0 s.fec.comps g < 256)) = false := by
    rcases hcount with hl | hcount
    · rw [hl, Bool.not_true, Bool.false_and]
    · rw [decide_eq_false (Nat.not_lt.mpr hcount), Bool.and_false]
  simp only [grpShadowDone, h4, hgo, ne_eq, not_true_eq_false, Bool.not_true, Bool.false_eq_true, if_false]

theorem grpShadowDone_counting (hcount : getAt 0 s.fec.comps g < 256) : grpShadowDone false g true s = s := by
  simp [grpShadowDone, hcount]

theorem grpCompare_elsewhere (same : Bool) (h4 : s.unitState false g ≠ 4) : grpCompare g same s = s := if_pos h4

theorem grpCompare_agrees (h4 : s.unitState false g = 4) :
    grpCompare g true s = s.modFec (fun f => { f with comps := modAt 0 f.comps g (· + 1) }) := by
  simp [grpCompare, h4]

theorem grpCompare_differs (h4 : s.unitState false g = 4) : grpCompare g false s = (s.set (grpField false g) 6).raise (evGrpFail false) := by
  simp [grpCompare, grpFail, h4]

end States

/-! ### The commands of a group -/

section Commands
variable {l : Bool} {g : Nat} (hg : g < grpCount l)
include hg

theorem onUnit_grp (s t : State) : onUnit s g (grpCount l) t = .next t := congrArg Host.Outcome.next (if_pos hg)

/-- A FALLOW shows and answers its status. -/
theorem exec_grpFallow {st : Nat} {s t : State} (h : grpFallow l g s = (st, t)) :
    exec (if l then .cipherGroupFallow g else .groupFallow g) s = .next ((t.set (grpStatus l) st).answer st []) := by
  have hcmd : grpCommand l 1 g s = (st, t.set (grpStatus l) st) := by simp [grpCommand, grpStatus, h]
  rw [← onUnit_grp hg s]
  cases l
  · change execGroupFallow g s = _
    rw [execGroupFallow, hcmd]
    rfl
  · change execCipherGroupFallow g s = _
    rw [execCipherGroupFallow, hcmd]
    rfl

/-- A RETURN shows and answers its status. -/
theorem exec_grpReturn {st : Nat} {s t : State} (h : grpReturn l g s = (st, t)) :
    exec (if l then .cipherGroupReturn g else .groupReturn g) s = .next ((t.set (grpStatus l) st).answer st []) := by
  have hcmd : grpCommand l 2 g s = (st, t.set (grpStatus l) st) := by simp [grpCommand, grpStatus, h]
  rw [← onUnit_grp hg s]
  cases l
  · change execGroupReturn g s = _
    rw [execGroupReturn, hcmd]
    rfl
  · change execCipherGroupReturn g s = _
    rw [execCipherGroupReturn, hcmd]
    rfl

theorem exec_grpDrained (s : State) :
    exec (if l then .cipherGroupDrainDone g else .groupDrainDone g) s = .next (grpDrained l g s) := by
  rw [← onUnit_grp hg s]
  cases l <;> rfl

theorem exec_grpSelftest (ok : Bool) (s : State) :
    exec (if l then .cipherGroupSelftestDone g ok else .groupSelftestDone g ok) s = .next (grpSelftest l g ok s) := by
  rw [← onUnit_grp hg s]
  cases l <;> rfl

end Commands

theorem exec_groupShadowCompare {g : Nat} (hg : g < 16) (same : Bool) (s : State) :
    exec (.groupShadowCompare g same) s = .next (grpCompare g same s) := onUnit_grp (l := false) hg s _

theorem exec_groupShadowDone {g : Nat} (hg : g < 16) (s : State) :
    exec (.groupShadowDone g) s = .next (grpShadowDone false g true s) := onUnit_grp (l := false) hg s _

theorem exec_cipherGroupShadowDone {g : Nat} (hg : g < 8) (ok : Bool) (s : State) :
    exec (.cipherGroupShadowDone g ok) s = .next (grpShadowDone true g ok s) := onUnit_grp (l := true) hg s _

/-! ### What the answered commands leave -/

section Answered
variable {l : Bool} {g : Nat} {s : State} (hg : g < grpCount l)
include hg

theorem exec_grpFallow_failed (h6 : s.unitState l g = 6) :
    Answers (if l then .cipherGroupFallow g else .groupFallow g) s (fun t =>
      t.unitState l g = 2 ∧ t.domainOn (grpDomain l g) = false ∧ t.get (stickyBit (evGrpOff l)) = 1 ∧
      { t with regs := s.regs, pmc := s.pmc, hdg := s.hdg, pwr := s.pwr, resp := s.resp } = s) := by
  have hstatus := (grpOff l g s).set_regsBut (grpStatus l) St.ok
  refine ⟨_, exec_grpFallow hg (grpFallow_failed h6), ?_, ?_, ?_, ?_⟩
  · exact (hstatus.unitState hg (by cases l <;> decide)).trans (grpOff_unitState s hg)
  · have hword := hstatus (R.PWR_ON_ON 6) (by cases l <;> decide)
    rw [← grpDomain_div hg] at hword
    exact (congrArg (fun v => bitAt v (grpDomain l g % 32) == 1) hword).trans (grpOff_domainOn s hg)
  · exact (hstatus _ (by cases l <;> decide)).trans (grpOff_get_sticky l g s)
  · obtain ⟨r, p, h, w, e⟩ := grpOff_foot l g s
    rw [e]
    rfl

theorem exec_grpReturn_powers (h2 : s.unitState l g = 2) (hsd : s.get R.THM_SD_STAT_STATE ≠ 1)
    (h : s.mayPower (grpDomain l g) = true) :
    Answers (if l then .cipherGroupReturn g else .groupReturn g) s (fun t =>
      t.unitState l g = 3 ∧ t.get (grpStatus l) = St.ok ∧ RegsBut [grpField l g, grpStatus l] s t ∧
      { t with regs := s.regs, pwr := s.pwr, resp := s.resp } = s) := by
  obtain ⟨w, hw⟩ := grpReturn_powers h2 hsd h
  refine ⟨_, exec_grpReturn hg hw, ?_, ?_, fun f hf => ?_, rfl⟩
  · exact ((State.set_regsBut _ (grpStatus l) St.ok).unitState hg (by cases l <;> decide)).trans (State.set_unitState _ l g (by decide))
  · exact (State.set_get_same ..).trans (Nat.zero_mod _)
  · obtain ⟨hstate, hstatus⟩ := List.forall_mem_cons.mp hf
    exact (State.set_regsBut _ _ _ f hstatus).trans (State.set_get_other _ 3 hstate)

theorem exec_grpReturn_denied (h2 : s.unitState l g = 2) (hsd : s.get R.THM_SD_STAT_STATE ≠ 1)
    (h : s.mayPower (grpDomain l g) = false) :
    Answers (if l then .cipherGroupReturn g else .groupReturn g) s (fun t =>
      t.unitState l g = 2 ∧ t.get (grpStatus l) = St.conflict ∧ t.get (stickyBit Ev.PWR_DENIED) = 1 ∧
      { t with regs := s.regs, pmc := s.pmc, hdg := s.hdg, resp := s.resp } = s) := by
  have hstatus := (s.raise Ev.PWR_DENIED).set_regsBut (grpStatus l) St.conflict
  have hraise : (s.raise Ev.PWR_DENIED).unitState l g = 2 :=
    ((s.raise_regsBut _).unitState hg (by cases l <;> decide)).trans h2
  refine ⟨_, exec_grpReturn hg (grpReturn_denied h2 hsd h), ?_, ?_, ?_, ?_⟩
  · exact (hstatus.unitState hg (by cases l <;> decide)).trans hraise
  · exact (State.set_get_same ..).trans (by cases l <;> rfl)
  · exact (hstatus _ (by cases l <;> decide)).trans (State.raise_get_sticky s (by decide))
  · obtain ⟨r, p, q, e⟩ := s.raise_foot Ev.PWR_DENIED
    rw [e]
    rfl

theorem exec_grpDrained_idle (h1 : s.unitState l g = 1) (hidle : l = true ∨ s.grpIdle g = true) :
    Answers (if l then .cipherGroupDrainDone g else .groupDrainDone g) s (fun t =>
      t.unitState l g = 2 ∧ t.domainOn (grpDomain l g) = false ∧ t.get (stickyBit (evGrpOff l)) = 1 ∧
      { t with regs := s.regs, pmc := s.pmc, hdg := s.hdg, pwr := s.pwr } = s) := by
  refine ⟨_, exec_grpDrained hg s, ?_⟩
  rw [grpDrained_idle h1 hidle]
  obtain ⟨r, p, h, w, e⟩ := grpOff_foot l g s
  exact ⟨grpOff_unitState s hg, grpOff_domainOn s hg, grpOff_get_sticky l g s, by rw [e]⟩

theorem exec_grpSelftest_shadows (h3 : s.unitState l g = 3) (hd : bitAt (direct l s) g = 0) :
    Answers (if l then .cipherGroupSelftestDone g true else .groupSelftestDone g true) s (fun t =>
      t.unitState l g = 4 ∧ RegsBut [grpField l g] s t ∧ { t with regs := s.regs, fec := s.fec } = s) := by
  obtain ⟨f, hf⟩ := grpSelftest_shadows h3 hd
  refine ⟨_, exec_grpSelftest hg true s, ?_⟩
  rw [hf]
  exact ⟨State.set_unitState _ l g (by decide), State.set_regsBut _ _ _, rfl⟩

theorem exec_grpSelftest_serves (h3 : s.unitState l g = 3) (hd : bitAt (direct l s) g = 1) :
    Answers (if l then .cipherGroupSelftestDone g true else .groupSelftestDone g true) s (fun t =>
      t.unitState l g = 0 ∧ t.swc = s.swc ∧ t.pwr = s.pwr) := by
  obtain ⟨f, x, hdirect⟩ := setDirect_foot l (direct l s - 2 ^ g) s
  obtain ⟨r, f', hrun⟩ := fecRun_foot ((setDirect l (direct l s - 2 ^ g) s).set (grpField l g) 0)
  refine ⟨_, exec_grpSelftest hg true s, ?_⟩
  rw [grpSelftest_serves h3 hd]
  refine ⟨?_, ?_, ?_⟩
  · exact ((fecRun_regsBut _).unitState hg (by cases l <;> decide)).trans (State.set_unitState _ l g (by decide))
  · rw [hrun, hdirect]
    rfl
  · rw [hrun, hdirect]
    rfl

end Answered

/-- Settles O36: the commands of a group state by state, then its comparisons in SHADOW. -/
theorem unitGroups : Obligations.UnitGroups := by
  unfold Obligations.UnitGroups
  refine ⟨fun l g s hg => ⟨?_, ?_, ?_, ?_, ?_, ?_, ?_, ?_, ?_, ?_, ?_, ?_, ?_⟩, fun g s => ⟨?_, ?_, ?_, ?_⟩⟩
  · exact fun h0 hrest hcap => exec_grpFallow hg (grpFallow_drains h0 hrest hcap)
  · exact fun h0 hrest => exec_grpFallow hg (grpFallow_last h0 hrest)
  · exact fun h0 h6 => exec_grpFallow hg (grpFallow_elsewhere h0 h6)
  · exact exec_grpFallow_failed hg
  · exact fun h2 => exec_grpReturn hg (grpReturn_elsewhere h2)
  · exact exec_grpReturn_powers hg
  · exact exec_grpReturn_denied hg
  · exact exec_grpDrained_idle hg
  · exact fun h => (exec_grpDrained hg s).trans (congrArg _ (grpDrained_stays h))
  · exact fun ok h3 => (exec_grpSelftest hg ok s).trans (congrArg _ (grpSelftest_elsewhere ok h3))
  · exact exec_grpSelftest_shadows hg
  · exact fun h3 hd => (exec_grpSelftest hg false s).trans (congrArg _ (grpSelftest_fails h3 hd))
  · exact exec_grpSelftest_serves hg
  · intro hg h4
    refine ⟨?_, ?_, fun hcount => ?_, fun hcount => ?_⟩
    · exact (exec_groupShadowCompare hg true s).trans (congrArg _ (grpCompare_agrees h4))
    · exact (exec_groupShadowCompare hg false s).trans (congrArg _ (grpCompare_differs h4))
    · exact (exec_groupShadowDone hg s).trans (congrArg _ (grpShadowDone_counting hcount))
    · exact (exec_groupShadowDone hg s).trans (congrArg _ (grpShadowDone_ready h4 (.inr hcount)))
  · intro hg h4 same
    exact ⟨(exec_groupShadowCompare hg same s).trans (congrArg _ (grpCompare_elsewhere same h4)),
      (exec_groupShadowDone hg s).trans (congrArg _ (grpShadowDone_elsewhere true h4))⟩
  · intro hg h4
    exact ⟨(exec_cipherGroupShadowDone hg true s).trans (congrArg _ (grpShadowDone_ready h4 (.inl rfl))),
      (exec_cipherGroupShadowDone hg false s).trans (congrArg _ (grpShadowDone_fails h4))⟩
  · exact fun hg h4 ok => (exec_cipherGroupShadowDone hg ok s).trans (congrArg _ (grpShadowDone_elsewhere ok h4))

end Sys2Proof.Machine

/-! ## The client side

What an event of a lane or a group leaves, then the functions of the groups and of the lane directions: what each leaves, where it leads,
and the commands on them. -/
namespace Sys2Proof.Machine

/-! ### Registers that stand, and the registers of lanes and groups (R248) -/

/-- `t` is `s` but for registers, counters and the sequencers' latches, and the fields of `K` read as before. -/
structure Leaves (K : Fld → Prop) (s t : State) : Prop where
  foot : ∃ r p h, t = { s with regs := r, pmc := p, hdg := h }
  get  : ∀ f, K f → t.get f = s.get f

namespace Leaves
variable {K : Fld → Prop} {s t u : State}

theorem refl : Leaves K s s := ⟨⟨s.regs, s.pmc, s.hdg, rfl⟩, fun _ _ => rfl⟩

theorem trans (h : Leaves K s t) (g : Leaves K t u) : Leaves K s u := by
  obtain ⟨r, p, d, rfl⟩ := h.foot
  obtain ⟨r', p', d', rfl⟩ := g.foot
  exact ⟨⟨r', p', d', rfl⟩, fun f hf => (g.get f hf).trans (h.get f hf)⟩

theorem mono {K' : Fld → Prop} (h : Leaves K s t) (hK : ∀ f, K' f → K f) : Leaves K' s t := ⟨h.foot, fun f hf => h.get f (hK f hf)⟩

theorem ite {c : Prop} [Decidable c] (ht : Leaves K s t) (hu : Leaves K s u) : Leaves K s (if c then t else u) := by
  split
  · exact ht
  · exact hu

theorem iter {n : Nat} {f : Nat → State → State} (hf : ∀ i < n, ∀ u, Leaves K u (f i u)) : Leaves K s (Machine.iter n f s) :=
  List.foldlRecOn (motive := Leaves K s) _ _ refl fun u hu i hi => hu.trans (hf i (List.mem_range.mp hi) u)

theorem rest (h : Leaves K s t) : { t with regs := s.regs, pmc := s.pmc, hdg := s.hdg } = s := by
  obtain ⟨r, p, d, rfl⟩ := h.foot
  rfl

theorem cli (h : Leaves K s t) : t.cli = s.cli := by
  obtain ⟨r, p, d, rfl⟩ := h.foot
  rfl

end Leaves

theorem State.set_leaves {K : Fld → Prop} (s : State) {f : Fld} (v : Nat) (hK : ∀ g, K g → g.key ≠ f.key) : Leaves K s (s.set f v) :=
  ⟨⟨_, s.pmc, s.hdg, rfl⟩, fun g hg => State.set_get_other s v (hK g hg)⟩

/-- The fields of the client block but those of `l`. -/
def Beside (l : List Fld) (f : Fld) : Prop := 32 * 0x3000000 ≤ f.key ∧ ∀ x ∈ l, f.key ≠ x.key

/-- The registers of the client lanes. -/
def LaneReg (f : Fld) : Prop := 32 * 0x3001000 ≤ f.key ∧ f.key < 32 * 0x3002000

theorem Beside.mono {l l' : List Fld} (h : l ⊆ l') : ∀ f, Beside l' f → Beside l f := fun _ hf => ⟨hf.1, fun x hx => hf.2 x (h hx)⟩

theorem grpState_key (g : Nat) : (R.CLI_GRP_STAT_STATE g).key = 32 * (0x3002000 + 0x20 * g) := rfl
theorem grpLaneLock_key (g : Nat) : (R.CLI_GRP_STAT_LANE_LOCK g).key = 32 * (0x3002000 + 0x20 * g) + 16 := rfl
theorem grpSkewErr_key (g : Nat) : (R.CLI_GRP_STAT_SKEW_ERR g).key = 32 * (0x3002000 + 0x20 * g) + 5 := rfl
theorem grpReplaceIn_key (g : Nat) : (R.CLI_GRP_STAT_REPLACE_IN g).key = 32 * (0x3002000 + 0x20 * g) + 7 := rfl
theorem grpSkew_key (g : Nat) : (R.CLI_GRP_SKEW_SKEW g).key = 32 * (0x3002004 + 0x20 * g) := rfl
theorem cdrLock_key (n : Nat) : (R.CLI_LANE_STAT_CDR_LOCK n).key = 32 * (0x3001004 + 0x10 * n) + 9 := rfl
theorem los_key (n : Nat) : (R.CLI_LANE_STAT_LOS n).key = 32 * (0x3001004 + 0x10 * n) + 8 := rfl

theorem laneField_key {n d : Nat} (hd : d < 2) : (laneField n d).key = 32 * (0x3001004 + 0x10 * n) + 4 * d := by
  obtain rfl | rfl : d = 0 ∨ d = 1 := by omega
  · rfl
  · rfl

/-! ### Events of lanes and groups (R463) -/

/-- Counting an event sets no field of the client block. -/
theorem countFlds_key_lt {i : Nat} (h : i < 8192) : ∀ f ∈ countFlds i, f.key < 32 * 0x3000000 := by
  have hovf : ∀ j < 8192, (ovfBit j).key < 32 * 0x3000000 := fun j hj => by
    change 32 * (0x200100 + 0x4 * (j / 32)) + 1 * (j % 32) < _
    omega
  simp only [countFlds, List.mem_cons, List.not_mem_nil, or_false, forall_eq_or_imp, forall_eq]
  exact ⟨hovf i h, by decide, hovf _ (by decide)⟩

/-- A client event and its own counter leave the fields of the client block but the event's sticky bit. -/
theorem State.raiseClient_leaves (s : State) {i own : Nat} (hi : i < 8192) (ho : own < 8192) :
    Leaves (Beside [stickyBit i]) s (s.raiseClient i own) := by
  obtain ⟨r, p, d, hraise⟩ := s.raise_foot i
  obtain ⟨r', p', d', hcount⟩ := countEvent_foot (s.raise i) own 1
  refine ⟨⟨r', p', d', by rw [State.raiseClient, hcount, hraise]⟩, fun f ⟨hblock, hsticky⟩ => ?_⟩
  have hne : ∀ j < 8192, ∀ x ∈ countFlds j, f.key ≠ x.key := fun j hj x hx =>
    Nat.ne_of_gt (Nat.lt_of_lt_of_le (countFlds_key_lt hj x hx) hblock)
  exact (countEvent_regsBut own 1 _ f (hne own ho)).trans
    (s.raise_regsBut i f (List.forall_mem_cons.mpr ⟨hsticky _ (List.mem_singleton.mpr rfl), hne i hi⟩))

theorem State.raiseClient_get_sticky (s : State) {i own : Nat} (hi : i < 8192) (ho : own < 8192)
    (hblock : 32 * 0x3000000 ≤ (stickyBit i).key) : (s.raiseClient i own).get (stickyBit i) = 1 := by
  have hne : ∀ j < 8192, ∀ x ∈ countFlds j, (stickyBit i).key ≠ x.key := fun j hj x hx =>
    Nat.ne_of_gt (Nat.lt_of_lt_of_le (countFlds_key_lt hj x hx) hblock)
  exact (countEvent_regsBut own 1 _ _ (hne own ho)).trans (s.raise_get_sticky (hne i hi))

/-! ### What the functions of a group leave (R240, R246) -/

/-- The registers of group `g` that its functions write. -/
def grpRegs (g : Nat) : List Fld :=
  [R.CLI_GRP_STAT_STATE g, R.CLI_GRP_STAT_LANE_LOCK g, R.CLI_GRP_STAT_SKEW_ERR g, R.CLI_GRP_STAT_REPLACE_IN g, R.CLI_GRP_SKEW_SKEW g]

/-- The fields that the functions of group `g` write: its registers, and the sticky bits of its events. -/
def grpFlds (g : Nat) : List Fld :=
  grpRegs g ++ [stickyBit Ev.CLI_GRP_UP, stickyBit Ev.CLI_GRP_DOWN, stickyBit Ev.CLI_SKEW, stickyBit Ev.CLI_REPLACE]

/-- The registers of a group lie above the sticky bits, in its own two words. -/
theorem grpRegs_key {g : Nat} : ∀ f ∈ grpRegs g, 32 * (0x3002000 + 0x20 * g) ≤ f.key ∧ f.key < 32 * (0x3002008 + 0x20 * g) := by
  simp only [grpRegs, List.mem_cons, List.not_mem_nil, or_false, forall_eq_or_imp, forall_eq, grpState_key, grpLaneLock_key,
    grpSkewErr_key, grpReplaceIn_key, grpSkew_key]
  omega

/-- A field above the sticky bits stands where no field of group `g` is. -/
theorem beside_grpFlds {g : Nat} {f : Fld} (hf : 32 * 0x3001000 ≤ f.key)
    (h : f.key < 32 * (0x3002000 + 0x20 * g) ∨ 32 * (0x3002008 + 0x20 * g) ≤ f.key) : Beside (grpFlds g) f := by
  have hsticky : ∀ x ∈ [stickyBit Ev.CLI_GRP_UP, stickyBit Ev.CLI_GRP_DOWN, stickyBit Ev.CLI_SKEW, stickyBit Ev.CLI_REPLACE],
      x.key < 32 * 0x3001000 := by decide
  refine ⟨by omega, fun x hx => ?_⟩
  rcases List.mem_append.mp hx with hreg | hbit
  · have := grpRegs_key x hreg
    omega
  · have := hsticky x hbit
    omega

theorem LaneReg.beside {f : Fld} (h : LaneReg f) (g : Nat) : Beside (grpFlds g) f := by
  obtain ⟨hlo, hhi⟩ := h
  exact beside_grpFlds hlo (.inl (by omega))

theorem beside_grpState {g h : Nat} (hne : h ≠ g) : Beside (grpFlds g) (R.CLI_GRP_STAT_STATE h) :=
  beside_grpFlds (by rw [grpState_key]; omega) (by rw [grpState_key]; omega)

theorem State.set_grpState (s : State) (g : Nat) {v : Nat} (h : v < 8) : (s.set (R.CLI_GRP_STAT_STATE g) v).grpState g = v :=
  (State.set_get_same ..).trans (Nat.mod_eq_of_lt h)

/-- An event of a group leaves every field of the client block but its sticky bit. -/
theorem grpEvent_leaves {g i e : Nat} (hg : g < 64) (hi : i < 8192) (he : e < 8) (s : State) :
    Leaves (Beside [stickyBit i]) s (grpEvent g i e s) := s.raiseClient_leaves hi (by omega)

theorem grpEvent_get_sticky {g i e : Nat} (hg : g < 64) (hi : i < 8192) (he : e < 8) (hblock : 32 * 0x3000000 ≤ (stickyBit i).key)
    (s : State) : (grpEvent g i e s).get (stickyBit i) = 1 := s.raiseClient_get_sticky hi (by omega) hblock

theorem replaceIn_leaves {g : Nat} (hg : g < 64) (ends : Bool) (s : State) :
    Leaves (Beside [R.CLI_GRP_STAT_REPLACE_IN g, stickyBit Ev.CLI_REPLACE]) s (replaceIn ends g s) := by
  unfold replaceIn
  extract_lets w was cause on t
  have hset : Leaves (Beside [R.CLI_GRP_STAT_REPLACE_IN g, stickyBit Ev.CLI_REPLACE]) s t :=
    s.set_leaves _ fun _ hf => hf.2 _ List.mem_cons_self
  exact .ite (hset.trans ((grpEvent_leaves hg (by decide) (by decide) t).mono (Beside.mono (List.subset_cons_self _ _)))) hset

/-- A group that is UP without a FlexO defect starts no replacement, and ends none but at a frame boundary. -/
theorem replaceIn_isOn {g : Nat} {s : State} (h3 : s.grpState g = 3) (hflexo : s.cli.flexo.contains g = false) :
    (replaceIn false g s).isOn (R.CLI_GRP_STAT_REPLACE_IN g) = s.isOn (R.CLI_GRP_STAT_REPLACE_IN g) := by
  have hstay : replaceIn false g s = s.set (R.CLI_GRP_STAT_REPLACE_IN g) (s.isOn (R.CLI_GRP_STAT_REPLACE_IN g)).toNat := by
    have hmem : g ∉ s.cli.flexo := by simpa using hflexo
    simp [replaceIn, h3, hmem]
  rw [hstay, State.isOn, State.set_get_same]
  cases s.isOn (R.CLI_GRP_STAT_REPLACE_IN g) <;> rfl

/-- Entry to a state from ALIGN up writes the state alone, beside the events. -/
theorem grpEnter_leaves_upper {g st : Nat} (hg : g < 64) (hst : 2 ≤ st) (s : State) :
    Leaves (Beside [R.CLI_GRP_STAT_STATE g, stickyBit Ev.CLI_GRP_UP, stickyBit Ev.CLI_GRP_DOWN]) s (grpEnter g st s) := by
  have hset := s.set_leaves (K := Beside [R.CLI_GRP_STAT_STATE g, stickyBit Ev.CLI_GRP_UP, stickyBit Ev.CLI_GRP_DOWN]) st
    fun _ hf => hf.2 _ List.mem_cons_self
  simp only [grpEnter, if_pos hst]
  refine .ite .refl (.ite ?_ (.ite ?_ hset))
  · exact hset.trans ((grpEvent_leaves hg (by decide) (by decide) _).mono (Beside.mono (by simp)))
  · exact hset.trans ((grpEvent_leaves hg (by decide) (by decide) _).mono (Beside.mono (by simp)))

/-- Entry to a state below ALIGN also takes the locks and the skew error away. -/
theorem grpEnter_leaves {g : Nat} (hg : g < 64) (st : Nat) (s : State) : Leaves (Beside (grpFlds g)) s (grpEnter g st s) := by
  by_cases hst : 2 ≤ st
  · exact (grpEnter_leaves_upper hg hst s).mono (Beside.mono (by simp [grpFlds, grpRegs]))
  · have hset : ∀ (u : State) (f : Fld) (v : Nat), f ∈ grpFlds g → Leaves (Beside (grpFlds g)) u (u.set f v) := fun u f v hf =>
      u.set_leaves v fun _ hx => hx.2 f hf
    have hclear : ∀ u : State, Leaves (Beside (grpFlds g)) u ((u.set (R.CLI_GRP_STAT_LANE_LOCK g) 0).set (R.CLI_GRP_STAT_SKEW_ERR g) 0) :=
      fun u => (hset u _ 0 (by simp [grpFlds, grpRegs])).trans (hset _ _ 0 (by simp [grpFlds, grpRegs]))
    have hstate := hset s (R.CLI_GRP_STAT_STATE g) st (by simp [grpFlds, grpRegs])
    have hdown := hstate.trans ((grpEvent_leaves hg (i := Ev.CLI_GRP_DOWN) (e := 1) (by decide) (by decide) _).mono
      (Beside.mono (by simp [grpFlds, grpRegs])))
    simp only [grpEnter, if_neg hst, if_neg (show st ≠ 3 by omega)]
    refine .ite .refl ?_
    split
    · exact hdown.trans (hclear _)
    · exact hstate.trans (hclear _)

/-- A change of state to UP is an event. -/
theorem grpEnter_up {g : Nat} {s : State} (h : s.grpState g ≠ 3) :
    grpEnter g 3 s = grpEvent g Ev.CLI_GRP_UP 0 (s.set (R.CLI_GRP_STAT_STATE g) 3) := by simp [grpEnter, h]

/-- A change from UP to ALIGN is an event. -/
theorem grpEnter_down {g : Nat} {s : State} (h : s.grpState g = 3) :
    grpEnter g 2 s = grpEvent g Ev.CLI_GRP_DOWN 1 (s.set (R.CLI_GRP_STAT_STATE g) 2) := by simp [grpEnter, h]

theorem grpJudge_leaves {g : Nat} (hg : g < 64) (s : State) : Leaves (Beside (grpFlds g)) s (grpJudge g s) := by
  unfold grpJudge
  extract_lets w st rx t
  have ht : Leaves (Beside (grpFlds g)) s t :=
    .ite (grpEnter_leaves hg 0 s) (.ite (.ite ((grpEnter_leaves hg 1 s).trans (grpEnter_leaves hg 2 _)) .refl) (grpEnter_leaves hg 1 s))
  exact ht.trans ((replaceIn_leaves hg false t).mono (Beside.mono (by simp [grpFlds, grpRegs])))

/-- The groups of a lane, judged, leave the registers of the lanes. -/
theorem laneGroups_leaves (n : Nat) (s : State) : Leaves LaneReg s (laneGroups n s) :=
  .iter fun g hg u => .ite ((grpJudge_leaves hg u).mono fun _ hf => hf.beside g) .refl

/-! ### A lane direction enters a state (R234) -/

theorem laneField_laneReg {n d : Nat} (hn : n < 64) (hd : d < 2) : LaneReg (laneField n d) := by
  rw [LaneReg, laneField_key hd]
  omega

theorem laneField_key_ne {n m d e : Nat} (hd : d < 2) (he : e < 2) (h : m ≠ n ∨ e ≠ d) : (laneField m e).key ≠ (laneField n d).key := by
  rw [laneField_key hd, laneField_key he]
  omega

@[simp] theorem laneField_w (n d : Nat) : (laneField n d).w = 3 := by
  unfold laneField
  split <;> rfl

/-- Direction `d` of lane `n` has gone to state `st`: the other registers of the lanes stand, and so does all beside registers, counters,
the sequencers' latches and the client state. -/
structure LaneMoved (n d st : Nat) (s t : State) : Prop where
  state : t.laneState n d = st
  get   : ∀ f, LaneReg f → f.key ≠ (laneField n d).key → t.get f = s.get f
  foot  : ∃ r p h c, t = { s with regs := r, pmc := p, hdg := h, cli := c }

theorem setLane_moved {n d st : Nat} (hn : n < 64) (hd : d < 2) (hst : st < 8) (s : State) : LaneMoved n d st s (setLane n d st s) := by
  unfold setLane
  extract_lets u c v
  have hv : LaneMoved n d st s v :=
    ⟨(State.set_get_same ..).trans (by rw [laneField_w]; exact Nat.mod_eq_of_lt hst), fun f _ hf => s.set_get_other st hf,
      ⟨_, _, _, _, rfl⟩⟩
  split
  · have hgroups := laneGroups_leaves n v
    obtain ⟨r, p, h, x, hfoot⟩ := hv.foot
    obtain ⟨r', p', h', hrest⟩ := hgroups.foot
    exact ⟨(hgroups.get _ (laneField_laneReg hn hd)).trans hv.state, fun f hf hne => (hgroups.get f hf).trans (hv.get f hf hne),
      ⟨r', p', h', x, by rw [hrest, hfoot]⟩⟩
  · exact hv

namespace LaneMoved
variable {n d st : Nat} {s t : State}

/-- An event of the lane leaves it where it is. -/
theorem event {i e : Nat} (h : LaneMoved n d st s t) (hn : n < 64) (hd : d < 2) (hi : i < 8192)
    (hsticky : (stickyBit i).key < 32 * 0x3001000) (he : e < 4) : LaneMoved n d st s (laneEvent n i e t) := by
  have hevent : Leaves (Beside [stickyBit i]) t (laneEvent n i e t) := t.raiseClient_leaves hi (by omega)
  have hlane : ∀ f, LaneReg f → (laneEvent n i e t).get f = t.get f := fun f ⟨hlo, _⟩ =>
    hevent.get f ⟨by omega, fun x hx => by rw [List.mem_singleton.mp hx]; omega⟩
  obtain ⟨r, p, l, c, hfoot⟩ := h.foot
  obtain ⟨r', p', l', hrest⟩ := hevent.foot
  exact ⟨(hlane _ (laneField_laneReg hn hd)).trans h.state, fun f hf hne => (hlane f hf).trans (h.get f hf hne),
    ⟨r', p', l', c, by rw [hrest, hfoot]⟩⟩

theorem others (h : LaneMoved n d st s t) (hd : d < 2) :
    ∀ m < 64, ∀ e < 2, m ≠ n ∨ e ≠ d → t.laneState m e = s.laneState m e := fun _ hm _ he hne =>
  h.get _ (laneField_laneReg hm he) (laneField_key_ne hd he hne)

theorem rest (h : LaneMoved n d st s t) : { t with regs := s.regs, pmc := s.pmc, hdg := s.hdg, cli := s.cli } = s := by
  obtain ⟨r, p, l, c, rfl⟩ := h.foot
  rfl

end LaneMoved

/-- The lock and the loss of signal of a receive lane, as its registers show them. -/
def signalShown (n lock los : Nat) (s : State) : State := (s.set (R.CLI_LANE_STAT_CDR_LOCK n) lock).set (R.CLI_LANE_STAT_LOS n) los

theorem signalShown_laneState {m e : Nat} (he : e < 2) (n lock los : Nat) (s : State) :
    (signalShown n lock los s).laneState m e = s.laneState m e :=
  (State.set_get_other _ los (by rw [laneField_key he, los_key]; omega)).trans
    (s.set_get_other lock (by rw [laneField_key he, cdrLock_key]; omega))

theorem signalShown_get_cdrLock {lock : Nat} (h : lock < 2) (n los : Nat) (s : State) :
    (signalShown n lock los s).get (R.CLI_LANE_STAT_CDR_LOCK n) = lock :=
  (State.set_get_other _ los (by rw [cdrLock_key, los_key]; omega)).trans ((State.set_get_same ..).trans (Nat.mod_eq_of_lt h))

theorem signalShown_get_los {los : Nat} (h : los < 2) (n lock : Nat) (s : State) :
    (signalShown n lock los s).get (R.CLI_LANE_STAT_LOS n) = los := (State.set_get_same ..).trans (Nat.mod_eq_of_lt h)

/-- A receive lane that moves once its signal is shown: the registers show it, and all else is as without it. -/
theorem LaneMoved.signal {n st lock los : Nat} {s t : State} (h : LaneMoved n 1 st (signalShown n lock los s) t) (hn : n < 64)
    (hlock : lock < 2) (hlos : los < 2) :
    t.get (R.CLI_LANE_STAT_CDR_LOCK n) = lock ∧ t.get (R.CLI_LANE_STAT_LOS n) = los ∧
      (∀ m < 64, ∀ e < 2, m ≠ n ∨ e ≠ 1 → t.laneState m e = s.laneState m e) ∧
      { t with regs := s.regs, pmc := s.pmc, hdg := s.hdg, cli := s.cli } = s := by
  refine ⟨?_, ?_, fun m hm e he hne => ?_, ?_⟩
  · refine (h.get _ ?_ ?_).trans (signalShown_get_cdrLock hlock n los s)
    · rw [LaneReg, cdrLock_key]; omega
    · rw [cdrLock_key, laneField_key (by decide)]; omega
  · refine (h.get _ ?_ ?_).trans (signalShown_get_los hlos n lock s)
    · rw [LaneReg, los_key]; omega
    · rw [los_key, laneField_key (by decide)]; omega
  · exact (h.others (by decide) m hm e he hne).trans (signalShown_laneState he n lock los s)
  · obtain ⟨r, p, l, c, rfl⟩ := h.foot
    rfl

/-! ### The happenings of a lane direction (R234) -/

section LaneHappenings
variable {n d : Nat} {s : State}

theorem laneLock_elsewhere (h : s.laneState n d ≠ 1) : laneLock n d s = s := if_pos h

theorem laneLock_receive (h : s.laneState n 1 = 1) : laneLock n 1 s = setLane n 1 2 (signalShown n 1 0 s) := if_neg (not_not_intro h)

theorem laneLock_transmit (h : s.laneState n 0 = 1) : laneLock n 0 s = setLane n 0 2 s := if_neg (not_not_intro h)

theorem laneWakeTimeout_elsewhere (h : s.laneState n d ≠ 1) : laneWakeTimeout n d s = s := if_pos h

theorem laneWakeTimeout_receive (h : s.laneState n 1 = 1) : laneWakeTimeout n 1 s = laneEvent n Ev.CLI_LANE_LOS 0 s :=
  if_neg (not_not_intro h)

theorem laneWakeTimeout_transmit (h : s.laneState n 0 = 1) :
    laneWakeTimeout n 0 s = laneEvent n Ev.CLI_LANE_FAIL 1 (setLane n 0 4 s) := if_neg (not_not_intro h)

theorem laneTestDone_elsewhere (bad : Bool) (h : s.laneState n d ≠ 2) : laneTestDone n d bad s = s := if_pos h

theorem laneTestDone_bad (h : s.laneState n d = 2) :
    laneTestDone n d true s = laneEvent n Ev.CLI_LANE_FAIL 1 (setLane n d 4 s) := if_neg (not_not_intro h)

/-- The lane directions noted as having passed their loop test, with direction `d` of lane `n` among them. -/
theorem laneTestDone_good (h : s.laneState n d = 2) : laneTestDone n d false s =
    { s with cli := { s.cli with passed := s.cli.passed.filter (· ≠ 2 * n + d) ++ [2 * n + d] } } := if_neg (not_not_intro h)

theorem laneJoin_joins (h : s.laneState n d = 2) (hpassed : s.cli.passed.contains (2 * n + d) = true) :
    laneJoin n d s = setLane n d 3 s := by
  rw [laneJoin, h, hpassed]
  rfl

theorem laneJoin_elsewhere (h : s.laneState n d ≠ 2 ∨ s.cli.passed.contains (2 * n + d) = false) : laneJoin n d s = s := by
  refine if_neg ?_
  rw [Bool.not_eq_true, Bool.and_eq_false_iff, decide_eq_false_iff_not]
  exact h

theorem laneLos_elsewhere (los : Bool) (h : s.laneState n 1 ≠ 3) : laneLos n los s = s := if_pos h

theorem laneLos_wakes (los : Bool) (h : s.laneState n 1 = 3) :
    laneLos n los s = laneEvent n Ev.CLI_LANE_LOS 0 (setLane n 1 1 (signalShown n 0 los.toNat s)) := if_neg (not_not_intro h)

end LaneHappenings

/-! ### The commands of a lane direction -/

section LaneCommands
variable {n d : Nat} {s : State} (hn : n < 64)
include hn

theorem onUnit_lane (hd : d < 2) (s t : State) : onUnit s (64 * (d / 2) + n) 64 t = .next t :=
  congrArg Host.Outcome.next (if_pos (by omega))

theorem exec_laneLock (hd : d < 2) (s : State) : exec (.laneLock n d) s = .next (settle (laneLock n d s)) := onUnit_lane hn hd s _

theorem exec_laneWakeTimeout (hd : d < 2) (s : State) : exec (.laneWakeTimeout n d) s = .next (settle (laneWakeTimeout n d s)) :=
  onUnit_lane hn hd s _

theorem exec_laneTestDone (hd : d < 2) (bad : Bool) (s : State) :
    exec (.laneTestDone n d bad) s = .next (settle (laneTestDone n d bad s)) := onUnit_lane hn hd s _

theorem exec_laneJoin (hd : d < 2) (s : State) : exec (.laneJoin n d) s = .next (settle (laneJoin n d s)) := onUnit_lane hn hd s _

theorem exec_laneLos (los : Bool) (s : State) : exec (.laneLos n los) s = .next (settle (laneLos n los s)) :=
  congrArg Host.Outcome.next (if_pos hn)

theorem exec_laneLock_wake (hd : d < 2) (h1 : s.laneState n d = 1) :
    Settles (.laneLock n d) s (fun t => t.laneState n d = 2 ∧
      (d = 1 → t.get (R.CLI_LANE_STAT_CDR_LOCK n) = 1 ∧ t.get (R.CLI_LANE_STAT_LOS n) = 0) ∧
      (∀ m < 64, ∀ e < 2, m ≠ n ∨ e ≠ d → t.laneState m e = s.laneState m e) ∧
      { t with regs := s.regs, pmc := s.pmc, hdg := s.hdg, cli := s.cli } = s) := by
  refine ⟨_, exec_laneLock hn hd s, ?_⟩
  obtain rfl | rfl : d = 0 ∨ d = 1 := by omega
  · have hmoved := setLane_moved hn hd (st := 2) (by decide) s
    rw [laneLock_transmit h1]
    exact ⟨hmoved.state, nofun, hmoved.others hd, hmoved.rest⟩
  · have hmoved := setLane_moved hn hd (st := 2) (by decide) (signalShown n 1 0 s)
    obtain ⟨hlock, hlos, hothers, hrest⟩ := hmoved.signal hn (by decide) (by decide)
    rw [laneLock_receive h1]
    exact ⟨hmoved.state, fun _ => ⟨hlock, hlos⟩, hothers, hrest⟩

/-- Where a lane direction fails: the state that a failed test and a failed synthesiser leave. -/
theorem laneFail_leaves (hd : d < 2) (s : State) :
    (laneEvent n Ev.CLI_LANE_FAIL 1 (setLane n d 4 s)).laneState n d = 4 ∧
      (laneEvent n Ev.CLI_LANE_FAIL 1 (setLane n d 4 s)).get (stickyBit Ev.CLI_LANE_FAIL) = 1 ∧
      { laneEvent n Ev.CLI_LANE_FAIL 1 (setLane n d 4 s) with regs := s.regs, pmc := s.pmc, hdg := s.hdg, cli := s.cli } = s := by
  have hmoved := (setLane_moved hn hd (st := 4) (by decide) s).event (i := Ev.CLI_LANE_FAIL) (e := 1) hn hd (by decide) (by decide) (by decide)
  exact ⟨hmoved.state, State.raiseClient_get_sticky _ (by decide) (by omega) (by decide), hmoved.rest⟩

theorem exec_laneTestDone_good (hd : d < 2) (h2 : s.laneState n d = 2) :
    Settles (.laneTestDone n d false) s (fun t => t.cli.passed.contains (2 * n + d) = true ∧
      (∀ x, x ≠ 2 * n + d → t.cli.passed.contains x = s.cli.passed.contains x) ∧ { t with cli := { t.cli with passed := s.cli.passed } } = s) := by
  refine ⟨_, exec_laneTestDone hn hd false s, ?_⟩
  rw [laneTestDone_good h2]
  refine ⟨?_, fun x hx => ?_, rfl⟩
  · simp
  · simp [hx]

theorem exec_laneJoin_tested (hd : d < 2) (h2 : s.laneState n d = 2) (hpassed : s.cli.passed.contains (2 * n + d) = true) :
    Settles (.laneJoin n d) s (fun t => t.laneState n d = 3 ∧
      (∀ m < 64, ∀ e < 2, m ≠ n ∨ e ≠ d → t.laneState m e = s.laneState m e) ∧
      { t with regs := s.regs, pmc := s.pmc, hdg := s.hdg, cli := s.cli } = s) := by
  have hmoved := setLane_moved hn hd (st := 3) (by decide) s
  refine ⟨_, exec_laneJoin hn hd s, ?_⟩
  rw [laneJoin_joins h2 hpassed]
  exact ⟨hmoved.state, hmoved.others hd, hmoved.rest⟩

theorem exec_laneLos_on (los : Bool) (h3 : s.laneState n 1 = 3) :
    Settles (.laneLos n los) s (fun t => t.laneState n 1 = 1 ∧ t.get (R.CLI_LANE_STAT_CDR_LOCK n) = 0 ∧
      t.get (R.CLI_LANE_STAT_LOS n) = los.toNat ∧ t.get (stickyBit Ev.CLI_LANE_LOS) = 1 ∧ t.laneState n 0 = s.laneState n 0 ∧
      { t with regs := s.regs, pmc := s.pmc, hdg := s.hdg, cli := s.cli } = s) := by
  have hmoved := (setLane_moved hn (d := 1) (by decide) (st := 1) (by decide) (signalShown n 0 los.toNat s)).event (i := Ev.CLI_LANE_LOS) (e := 0)
    hn (by decide) (by decide) (by decide) (by decide)
  obtain ⟨hlock, hlos, hothers, hrest⟩ := hmoved.signal hn (by decide) los.toNat_lt
  refine ⟨_, exec_laneLos hn los s, ?_⟩
  rw [laneLos_wakes los h3]
  exact ⟨hmoved.state, hlock, hlos, State.raiseClient_get_sticky _ (by decide) (by omega) (by decide),
    hothers n hn 0 (by decide) (.inr (by decide)), hrest⟩

end LaneCommands

/-! ### The lanes of a group that count as locked (R240) -/

/-- The lock bits of logical lanes 0 to `n` − 1, without those of `wrong`. -/
def lockWord (n : Nat) (wrong : List Nat) : Nat := (((List.range n).filter (fun k => !wrong.contains k)).map (2 ^ ·)).sum

/-- A further lane adds its weight where it is not wrong. -/
theorem lockWord_succ (n : Nat) (wrong : List Nat) :
    lockWord (n + 1) wrong = if n ∈ wrong then lockWord n wrong else 2 ^ n + lockWord n wrong := by
  unfold lockWord
  rw [List.range_succ, List.filter_append, List.map_append, List.sum_append_nat]
  split
  · next h => simp [h]
  · next h =>
    rw [Nat.add_comm (2 ^ n)]
    simp [h]

theorem lockWord_lt (n : Nat) (wrong : List Nat) : lockWord n wrong < 2 ^ n := by
  induction n with
  | zero => exact Nat.one_pos
  | succ n ih =>
    rw [lockWord_succ, Nat.pow_succ]
    split <;> omega

theorem testBit_lockWord (n : Nat) (wrong : List Nat) (i : Nat) : (lockWord n wrong).testBit i = decide (i < n ∧ i ∉ wrong) := by
  induction n with
  | zero => exact (Nat.zero_testBit i).trans (decide_eq_false (by omega)).symm
  | succ n ih =>
    have htop : (lockWord n wrong).testBit n = false := Nat.testBit_lt_two_pow (lockWord_lt n wrong)
    rw [lockWord_succ]
    split
    · next hwrong =>
      rw [ih]
      refine decide_eq_decide.mpr ⟨fun ⟨hlt, hi⟩ => ⟨by omega, hi⟩, fun ⟨hlt, hi⟩ => ⟨?_, hi⟩⟩
      have hne : i ≠ n := fun e => hi (e ▸ hwrong)
      omega
    · next hright =>
      rcases Nat.lt_trichotomy i n with hlt | heq | hgt
      · rw [Nat.testBit_two_pow_add_gt hlt, ih]
        exact decide_eq_decide.mpr (by simp only [hlt, Nat.lt_succ_of_lt hlt])
      · subst heq
        rw [Nat.testBit_two_pow_add_eq, htop]
        exact (decide_eq_true ⟨Nat.lt_succ_self i, hright⟩).symm
      · have hlarge : 2 ^ n + lockWord n wrong < 2 ^ i := by
          have hbound := lockWord_lt n wrong
          have hpow := Nat.pow_le_pow_right (show 0 < 2 by decide) hgt
          rw [Nat.pow_succ] at hpow
          omega
        rw [Nat.testBit_lt_two_pow hlarge]
        exact (decide_eq_false (by omega)).symm

theorem ifLanes_le (i : Nat) : ifLanes i ≤ 8 := by
  by_cases h : i < 14
  · exact (by decide : ∀ j < 14, ifLanes j ≤ 8) i h
  · rw [ifLanes, List.getD_eq_getElem?_getD, List.getElem?_eq_none (by simpa using h)]
    decide

/-- With no lane wrong, every lane of the group is locked. -/
theorem lockWord_all {n : Nat} {wrong : List Nat} (h : ∀ k < n, k ∉ wrong) : lockWord n wrong = 2 ^ n - 1 :=
  Nat.eq_of_testBit_eq fun i => by
    rw [testBit_lockWord, Nat.testBit_two_pow_sub_one]
    exact decide_eq_decide.mpr ⟨And.left, fun hi => ⟨hi, h i hi⟩⟩

theorem bitAt_lockWord {n i : Nat} {wrong : List Nat} (h : i < n) : bitAt (lockWord n wrong) i = if i ∈ wrong then 0 else 1 := by
  rw [bitAt_eq_toNat_testBit, testBit_lockWord]
  by_cases hi : i ∈ wrong
  · simp [hi]
  · simp [hi, h]

/-- A lane that is taken out of the lock bits. -/
theorem bitAt_unlock (v k : Nat) : bitAt (if bitAt v k = 1 then v - 2 ^ k else v) k = 0 := by
  split
  · next h => exact bitAt_sub_two_pow h
  · next h =>
    unfold bitAt at h ⊢
    omega

/-! ### Lock and deskew of a group (R238, R240) -/

/-- The spread and the locks of group `g`, as its registers show them. -/
def locksShown (g spread : Nat) (wrong : List Nat) (s : State) : State :=
  (s.set (R.CLI_GRP_SKEW_SKEW g) (min 65535 spread)).set (R.CLI_GRP_STAT_LANE_LOCK g) (lockWord (ifLanes (grpIf (s.grpWord g))) wrong)

section Locks
variable (g spread : Nat) (wrong : List Nat) (s : State)

theorem locksShown_leaves : Leaves (Beside [R.CLI_GRP_SKEW_SKEW g, R.CLI_GRP_STAT_LANE_LOCK g]) s (locksShown g spread wrong s) :=
  (s.set_leaves _ fun _ hf => hf.2 _ (by simp)).trans (State.set_leaves _ _ fun _ hf => hf.2 _ (by simp))

theorem locksShown_regsBut : RegsBut [R.CLI_GRP_SKEW_SKEW g, R.CLI_GRP_STAT_LANE_LOCK g] s (locksShown g spread wrong s) := fun _ hf =>
  (State.set_get_other _ _ (hf _ (by simp))).trans (s.set_get_other _ (hf _ (by simp)))

theorem locksShown_get_skew : (locksShown g spread wrong s).get (R.CLI_GRP_SKEW_SKEW g) = min 65535 spread := by
  refine (State.set_get_other _ _ (by rw [grpSkew_key, grpLaneLock_key]; omega)).trans ((State.set_get_same ..).trans ?_)
  exact Nat.mod_eq_of_lt (show min 65535 spread < 65536 by omega)

theorem locksShown_get_laneLock :
    (locksShown g spread wrong s).get (R.CLI_GRP_STAT_LANE_LOCK g) = lockWord (ifLanes (grpIf (s.grpWord g))) wrong % 2 ^ 8 :=
  State.set_get_same ..

theorem locksShown_grpState : (locksShown g spread wrong s).grpState g = s.grpState g :=
  (locksShown_regsBut g spread wrong s) _ (by
    simp only [List.mem_cons, List.not_mem_nil, or_false, forall_eq_or_imp, forall_eq, grpState_key, grpSkew_key, grpLaneLock_key]
    omega)

end Locks

section Happenings
variable {g : Nat} {s : State}

theorem groupUp_elsewhere (spread : Nat) (wrong : List Nat) (h : s.grpState g ≠ 2) : groupUp g spread wrong s = s := if_pos h

theorem any_wrong_false {n : Nat} {wrong : List Nat} (h : ∀ k < n, k ∉ wrong) : (List.range n).any wrong.contains = false := by
  simpa using h

theorem groupUp_wrong {wrong : List Nat} {k : Nat} (spread : Nat) (h2 : s.grpState g = 2) (hk : k < ifLanes (grpIf (s.grpWord g)))
    (hwrong : k ∈ wrong) : groupUp g spread wrong s = locksShown g spread wrong s := by
  have hany : (List.range (ifLanes (grpIf (s.grpWord g)))).any wrong.contains = true :=
    List.any_eq_true.mpr ⟨k, List.mem_range.mpr hk, List.contains_iff_mem.mpr hwrong⟩
  simp only [groupUp, if_neg (not_not_intro h2), hany, if_true]
  rfl

theorem groupUp_skewed {spread : Nat} {wrong : List Nat} (h2 : s.grpState g = 2)
    (hlocked : ∀ k < ifLanes (grpIf (s.grpWord g)), k ∉ wrong) (hspread : 1800 < spread) :
    groupUp g spread wrong s = grpEvent g Ev.CLI_SKEW 2 ((locksShown g spread wrong s).set (R.CLI_GRP_STAT_SKEW_ERR g) 1) := by
  simp only [groupUp, if_neg (not_not_intro h2), any_wrong_false hlocked, if_pos hspread, Bool.false_eq_true, if_false]
  rfl

/-- The group once it is UP, before its replacement is looked at. -/
def groupRisen (g spread : Nat) (wrong : List Nat) (s : State) : State :=
  grpEvent g Ev.CLI_GRP_UP 0
    (((locksShown g spread wrong s).set (R.CLI_GRP_STAT_SKEW_ERR g) 0).set (R.CLI_GRP_STAT_STATE g) 3)

theorem groupUp_rises {spread : Nat} {wrong : List Nat} (h2 : s.grpState g = 2)
    (hlocked : ∀ k < ifLanes (grpIf (s.grpWord g)), k ∉ wrong) (hspread : spread ≤ 1800) :
    groupUp g spread wrong s = replaceIn false g (groupRisen g spread wrong s) := by
  have hstate : ((locksShown g spread wrong s).set (R.CLI_GRP_STAT_SKEW_ERR g) 0).grpState g ≠ 3 := by
    rw [State.grpState, State.set_get_other _ _ (by rw [grpState_key, grpSkewErr_key]; omega), ← State.grpState, locksShown_grpState, h2]
    decide
  rw [groupRisen, ← grpEnter_up hstate]
  simp only [groupUp, if_neg (not_not_intro h2), any_wrong_false hlocked, if_neg (Nat.not_lt.mpr hspread), Bool.false_eq_true, if_false]
  rfl

theorem groupLockLoss_elsewhere {k : Nat} (h : s.grpState g ≠ 3 ∨ ifLanes (grpIf (s.grpWord g)) ≤ k) : groupLockLoss g k s = s :=
  if_pos (by simpa using h)

/-- The group back in ALIGN, before its replacement is looked at. -/
def groupFallen (g k : Nat) (s : State) : State :=
  grpEvent g Ev.CLI_GRP_DOWN 1 ((s.set (R.CLI_GRP_STAT_LANE_LOCK g) (if bitAt (s.get (R.CLI_GRP_STAT_LANE_LOCK g)) k = 1 then
    s.get (R.CLI_GRP_STAT_LANE_LOCK g) - 2 ^ k else s.get (R.CLI_GRP_STAT_LANE_LOCK g))).set (R.CLI_GRP_STAT_STATE g) 2)

theorem groupLockLoss_falls {k : Nat} (h3 : s.grpState g = 3) (hk : k < ifLanes (grpIf (s.grpWord g))) :
    groupLockLoss g k s = replaceIn false g (groupFallen g k s) := by
  have hstate : ∀ v, (s.set (R.CLI_GRP_STAT_LANE_LOCK g) v).grpState g = 3 := fun v =>
    (s.set_get_other v (by rw [grpState_key, grpLaneLock_key]; omega)).trans h3
  rw [groupFallen, ← grpEnter_down (hstate _)]
  exact if_neg (by simpa [h3] using hk)

theorem hiSer_ethernet (on : Bool) (hif : isEthernet (grpIf (s.grpWord g)) = true) (hdef : grpDefined (s.grpWord g) = true) :
    hiSer g on s = (s.set (R.CLI_GRP_STAT_HI_SER g) on.toNat).raiseClient Ev.CLI_HI_SER (4096 + 8 * g + 3) :=
  if_pos (by rw [hif, hdef]; rfl)

theorem hiSer_elsewhere (on : Bool) (h : isEthernet (grpIf (s.grpWord g)) = false ∨ grpDefined (s.grpWord g) = false) :
    hiSer g on s = s := if_neg (by rw [Bool.not_eq_true, Bool.and_eq_false_iff]; exact h)

end Happenings

/-! ### What a group shows once it has risen or fallen -/

section Reads
variable {g : Nat} (hg : g < 64)
include hg

/-- An event of a group leaves its registers. -/
theorem grpEvent_get {f : Fld} {i e : Nat} (hf : f ∈ grpRegs g) (hi : i < 8192) (he : e < 8)
    (hsticky : (stickyBit i).key < 32 * 0x3001000) (s : State) : (grpEvent g i e s).get f = s.get f := by
  have hkey := grpRegs_key f hf
  exact (grpEvent_leaves hg hi he s).get f ⟨by omega, fun x hx => by rw [List.mem_singleton.mp hx]; omega⟩

theorem replaceIn_get {f : Fld} (hf : f ∈ grpRegs g) (hne : f.key ≠ (R.CLI_GRP_STAT_REPLACE_IN g).key) (ends : Bool) (s : State) :
    (replaceIn ends g s).get f = s.get f := by
  have hkey := grpRegs_key f hf
  have hsticky : (stickyBit Ev.CLI_REPLACE).key < 32 * 0x3001000 := by decide
  exact (replaceIn_leaves hg ends s).get f ⟨by omega, List.forall_mem_cons.mpr ⟨hne, fun x hx => by rw [List.mem_singleton.mp hx]; omega⟩⟩

theorem replaceIn_grpState (ends : Bool) (s : State) : (replaceIn ends g s).grpState g = s.grpState g :=
  replaceIn_get hg (by simp [grpRegs]) (by rw [grpState_key, grpReplaceIn_key]; omega) ends s

theorem replaceIn_get_laneLock (ends : Bool) (s : State) :
    (replaceIn ends g s).get (R.CLI_GRP_STAT_LANE_LOCK g) = s.get (R.CLI_GRP_STAT_LANE_LOCK g) :=
  replaceIn_get hg (by simp [grpRegs]) (by rw [grpLaneLock_key, grpReplaceIn_key]; omega) ends s

/-- The sticky bits of a group's other events stand while its replacement is looked at. -/
theorem replaceIn_get_sticky {i : Nat} (hblock : 32 * 0x3000000 ≤ (stickyBit i).key) (hlow : (stickyBit i).key < 32 * 0x3001000)
    (hne : (stickyBit i).key ≠ (stickyBit Ev.CLI_REPLACE).key) (ends : Bool) (s : State) :
    (replaceIn ends g s).get (stickyBit i) = s.get (stickyBit i) :=
  (replaceIn_leaves hg ends s).get _ ⟨hblock, List.forall_mem_cons.mpr ⟨by rw [grpReplaceIn_key]; omega, by simpa using hne⟩⟩

section Risen
variable (spread : Nat) (wrong : List Nat) (s : State)

/-- A group that rises has its spread and locks shown. -/
theorem groupRisen_get {f : Fld} (hf : f ∈ grpRegs g) (hstate : f.key ≠ (R.CLI_GRP_STAT_STATE g).key)
    (herr : f.key ≠ (R.CLI_GRP_STAT_SKEW_ERR g).key) : (groupRisen g spread wrong s).get f = (locksShown g spread wrong s).get f :=
  (grpEvent_get hg hf (by decide) (by decide) (by decide) _).trans
    ((State.set_get_other _ 3 hstate).trans (State.set_get_other _ 0 herr))

theorem groupRisen_grpState : (groupRisen g spread wrong s).grpState g = 3 :=
  (grpEvent_get hg (by simp [grpRegs]) (by decide) (by decide) (by decide) _).trans (State.set_grpState _ g (by decide))

theorem groupRisen_get_skewErr : (groupRisen g spread wrong s).get (R.CLI_GRP_STAT_SKEW_ERR g) = 0 :=
  (grpEvent_get hg (by simp [grpRegs]) (by decide) (by decide) (by decide) _).trans
    ((State.set_get_other _ 3 (by rw [grpState_key, grpSkewErr_key]; omega)).trans (State.set_get_same ..))

theorem groupRisen_get_skew : (groupRisen g spread wrong s).get (R.CLI_GRP_SKEW_SKEW g) = min 65535 spread :=
  (groupRisen_get hg spread wrong s (by simp [grpRegs]) (by rw [grpSkew_key, grpState_key]; omega)
    (by rw [grpSkew_key, grpSkewErr_key]; omega)).trans (locksShown_get_skew g spread wrong s)

theorem groupRisen_get_laneLock :
    (groupRisen g spread wrong s).get (R.CLI_GRP_STAT_LANE_LOCK g) = lockWord (ifLanes (grpIf (s.grpWord g))) wrong % 2 ^ 8 :=
  (groupRisen_get hg spread wrong s (by simp [grpRegs]) (by rw [grpLaneLock_key, grpState_key]; omega)
    (by rw [grpLaneLock_key, grpSkewErr_key]; omega)).trans (locksShown_get_laneLock g spread wrong s)

theorem groupRisen_isOn_replaceIn :
    (groupRisen g spread wrong s).isOn (R.CLI_GRP_STAT_REPLACE_IN g) = s.isOn (R.CLI_GRP_STAT_REPLACE_IN g) := by
  have hshown : (locksShown g spread wrong s).get (R.CLI_GRP_STAT_REPLACE_IN g) = s.get (R.CLI_GRP_STAT_REPLACE_IN g) :=
    locksShown_regsBut g spread wrong s _ (by simp [grpReplaceIn_key, grpSkew_key, grpLaneLock_key]; omega)
  exact congrArg (· == 1) ((groupRisen_get hg spread wrong s (by simp [grpRegs]) (by rw [grpReplaceIn_key, grpState_key]; omega)
    (by rw [grpReplaceIn_key, grpSkewErr_key]; omega)).trans hshown)

theorem groupRisen_leaves : Leaves (Beside (grpFlds g)) s (groupRisen g spread wrong s) :=
  ((locksShown_leaves g spread wrong s).mono (Beside.mono (by simp [grpFlds, grpRegs]))).trans
    ((State.set_leaves _ 0 fun _ hf => hf.2 _ (by simp [grpFlds, grpRegs])).trans
      ((State.set_leaves _ 3 fun _ hf => hf.2 _ (by simp [grpFlds, grpRegs])).trans
        ((grpEvent_leaves hg (by decide) (by decide) _).mono (Beside.mono (by simp [grpFlds, grpRegs])))))

end Risen

theorem groupFallen_grpState (k : Nat) (s : State) : (groupFallen g k s).grpState g = 2 :=
  (grpEvent_get hg (by simp [grpRegs]) (by decide) (by decide) (by decide) _).trans (State.set_grpState _ g (by decide))

theorem groupFallen_bit {k : Nat} (hk : k < 8) (s : State) : bitAt ((groupFallen g k s).get (R.CLI_GRP_STAT_LANE_LOCK g)) k = 0 := by
  have hget : (groupFallen g k s).get (R.CLI_GRP_STAT_LANE_LOCK g) = _ :=
    (grpEvent_get hg (by simp [grpRegs]) (by decide) (by decide) (by decide) _).trans
      ((State.set_get_other _ 2 (by rw [grpState_key, grpLaneLock_key]; omega)).trans (State.set_get_same ..))
  rw [hget]
  exact (bitAt_mod_two_pow _ hk).trans (bitAt_unlock _ k)

theorem groupFallen_leaves (k : Nat) (s : State) : Leaves (Beside (grpFlds g)) s (groupFallen g k s) :=
  (State.set_leaves _ _ fun _ hf => hf.2 _ (by simp [grpFlds, grpRegs])).trans
    ((State.set_leaves _ 2 fun _ hf => hf.2 _ (by simp [grpFlds, grpRegs])).trans
      ((grpEvent_leaves hg (by decide) (by decide) _).mono (Beside.mono (by simp [grpFlds, grpRegs]))))

end Reads

/-- What a function of group `g` leaves of the other groups. -/
theorem Leaves.otherGroups {g : Nat} {s t : State} (h : Leaves (Beside (grpFlds g)) s t) :
    ∀ k < 64, k ≠ g → t.grpState k = s.grpState k := fun _ _ hne => h.get _ (beside_grpState hne)

/-! ### The commands of a group -/

section GroupCommands
variable {g : Nat} {s : State} (hg : g < 64)
include hg

theorem exec_clientGroupUp (spread : Nat) (wrong : List Nat) (s : State) :
    exec (.clientGroupUp g spread wrong) s = .next (settle (groupUp g spread wrong s)) := congrArg Host.Outcome.next (if_pos hg)

theorem exec_clientLaneLockLoss (k : Nat) (s : State) :
    exec (.clientLaneLockLoss g k) s = .next (settle (groupLockLoss g k s)) := congrArg Host.Outcome.next (if_pos hg)

theorem exec_hiSerDetect (on : Bool) (s : State) : exec (.hiSerDetect g on) s = .next (settle (hiSer g on s)) :=
  congrArg Host.Outcome.next (if_pos hg)

theorem exec_clientGroupUp_rises {spread : Nat} {wrong : List Nat} (h2 : s.grpState g = 2)
    (hlocked : ∀ k < ifLanes (grpIf (s.grpWord g)), k ∉ wrong) (hspread : spread ≤ 1800) :
    Settles (.clientGroupUp g spread wrong) s (fun t => t.grpState g = 3 ∧ t.get (R.CLI_GRP_SKEW_SKEW g) = spread ∧
      t.get (R.CLI_GRP_STAT_LANE_LOCK g) = 2 ^ ifLanes (grpIf (s.grpWord g)) - 1 ∧ t.get (R.CLI_GRP_STAT_SKEW_ERR g) = 0 ∧
      (s.cli.flexo.contains g = false → t.isOn (R.CLI_GRP_STAT_REPLACE_IN g) = s.isOn (R.CLI_GRP_STAT_REPLACE_IN g)) ∧
      t.get (stickyBit Ev.CLI_GRP_UP) = 1 ∧ (∀ h < 64, h ≠ g → t.grpState h = s.grpState h) ∧
      { t with regs := s.regs, pmc := s.pmc, hdg := s.hdg } = s) := by
  have hrisen := groupRisen_leaves hg spread wrong s
  have hall := hrisen.trans ((replaceIn_leaves hg false _).mono (Beside.mono (by simp [grpFlds, grpRegs])))
  refine ⟨_, exec_clientGroupUp hg spread wrong s, ?_⟩
  rw [groupUp_rises h2 hlocked hspread]
  refine ⟨?_, ?_, ?_, ?_, fun hflexo => ?_, ?_, hall.otherGroups, hall.rest⟩
  · rw [replaceIn_grpState hg, groupRisen_grpState hg]
  · rw [replaceIn_get hg (by simp [grpRegs]) (by rw [grpSkew_key, grpReplaceIn_key]; omega), groupRisen_get_skew hg]
    omega
  · rw [replaceIn_get_laneLock hg, groupRisen_get_laneLock hg, lockWord_all hlocked]
    have hwidth := Nat.pow_le_pow_right (show 0 < 2 by decide) (ifLanes_le (grpIf (s.grpWord g)))
    have hpos := Nat.two_pow_pos (ifLanes (grpIf (s.grpWord g)))
    exact Nat.mod_eq_of_lt (by omega)
  · rw [replaceIn_get hg (by simp [grpRegs]) (by rw [grpSkewErr_key, grpReplaceIn_key]; omega), groupRisen_get_skewErr hg]
  · rw [replaceIn_isOn (groupRisen_grpState hg spread wrong s) (hrisen.cli ▸ hflexo), groupRisen_isOn_replaceIn hg]
  · exact (replaceIn_get_sticky hg (by decide) (by decide) (by decide) false _).trans
      (grpEvent_get_sticky hg (by decide) (by decide) (by decide) _)

theorem exec_clientGroupUp_wrong {wrong : List Nat} {k : Nat} (spread : Nat) (h2 : s.grpState g = 2)
    (hk : k < ifLanes (grpIf (s.grpWord g))) (hwrong : k ∈ wrong) :
    Settles (.clientGroupUp g spread wrong) s (fun t => t.grpState g = 2 ∧ t.get (R.CLI_GRP_SKEW_SKEW g) = min 65535 spread ∧
      (∀ i < ifLanes (grpIf (s.grpWord g)), bitAt (t.get (R.CLI_GRP_STAT_LANE_LOCK g)) i = if i ∈ wrong then 0 else 1) ∧
      RegsBut [R.CLI_GRP_SKEW_SKEW g, R.CLI_GRP_STAT_LANE_LOCK g] s t ∧ { t with regs := s.regs } = s) := by
  refine ⟨_, exec_clientGroupUp hg spread wrong s, ?_⟩
  rw [groupUp_wrong spread h2 hk hwrong]
  refine ⟨(locksShown_grpState g spread wrong s).trans h2, locksShown_get_skew g spread wrong s, fun i hi => ?_,
    locksShown_regsBut g spread wrong s, rfl⟩
  rw [locksShown_get_laneLock, bitAt_mod_two_pow _ (Nat.lt_of_lt_of_le hi (ifLanes_le _)), bitAt_lockWord hi]

theorem exec_clientGroupUp_skewed {spread : Nat} {wrong : List Nat} (h2 : s.grpState g = 2)
    (hlocked : ∀ k < ifLanes (grpIf (s.grpWord g)), k ∉ wrong) (hspread : 1800 < spread) :
    Settles (.clientGroupUp g spread wrong) s (fun t => t.grpState g = 2 ∧ t.get (R.CLI_GRP_SKEW_SKEW g) = min 65535 spread ∧
      t.get (R.CLI_GRP_STAT_SKEW_ERR g) = 1 ∧ t.get (stickyBit Ev.CLI_SKEW) = 1 ∧ (∀ h < 64, h ≠ g → t.grpState h = s.grpState h) ∧
      { t with regs := s.regs, pmc := s.pmc, hdg := s.hdg } = s) := by
  have hshown := (locksShown_leaves g spread wrong s).mono (Beside.mono (show _ ⊆ grpFlds g by simp [grpFlds, grpRegs]))
  have herr := hshown.trans (State.set_leaves _ (f := R.CLI_GRP_STAT_SKEW_ERR g) 1 fun _ hf => hf.2 _ (by simp [grpFlds, grpRegs]))
  have hall := herr.trans ((grpEvent_leaves hg (i := Ev.CLI_SKEW) (e := 2) (by decide) (by decide) _).mono (Beside.mono (by simp [grpFlds, grpRegs])))
  have hget : ∀ f ∈ grpRegs g, (grpEvent g Ev.CLI_SKEW 2 ((locksShown g spread wrong s).set (R.CLI_GRP_STAT_SKEW_ERR g) 1)).get f =
      ((locksShown g spread wrong s).set (R.CLI_GRP_STAT_SKEW_ERR g) 1).get f := fun f hf =>
    grpEvent_get hg hf (by decide) (by decide) (by decide) _
  refine ⟨_, exec_clientGroupUp hg spread wrong s, ?_⟩
  rw [groupUp_skewed h2 hlocked hspread]
  refine ⟨?_, ?_, ?_, grpEvent_get_sticky hg (by decide) (by decide) (by decide) _, hall.otherGroups, hall.rest⟩
  · exact (hget _ (by simp [grpRegs])).trans ((State.set_get_other _ 1 (by rw [grpState_key, grpSkewErr_key]; omega)).trans
      ((locksShown_grpState g spread wrong s).trans h2))
  · exact (hget _ (by simp [grpRegs])).trans ((State.set_get_other _ 1 (by rw [grpSkew_key, grpSkewErr_key]; omega)).trans
      (locksShown_get_skew g spread wrong s))
  · exact (hget _ (by simp [grpRegs])).trans (State.set_get_same ..)

theorem exec_clientLaneLockLoss_falls {k : Nat} (h3 : s.grpState g = 3) (hk : k < ifLanes (grpIf (s.grpWord g))) :
    Settles (.clientLaneLockLoss g k) s (fun t => t.grpState g = 2 ∧ bitAt (t.get (R.CLI_GRP_STAT_LANE_LOCK g)) k = 0 ∧
      t.get (stickyBit Ev.CLI_GRP_DOWN) = 1 ∧ (∀ h < 64, h ≠ g → t.grpState h = s.grpState h) ∧
      { t with regs := s.regs, pmc := s.pmc, hdg := s.hdg } = s) := by
  have hall := (groupFallen_leaves hg k s).trans ((replaceIn_leaves hg false _).mono (Beside.mono (by simp [grpFlds, grpRegs])))
  refine ⟨_, exec_clientLaneLockLoss hg k s, ?_⟩
  rw [groupLockLoss_falls h3 hk]
  refine ⟨?_, ?_, ?_, hall.otherGroups, hall.rest⟩
  · rw [replaceIn_grpState hg, groupFallen_grpState hg]
  · rw [replaceIn_get_laneLock hg]
    exact groupFallen_bit hg (Nat.lt_of_lt_of_le hk (ifLanes_le _)) s
  · exact (replaceIn_get_sticky hg (by decide) (by decide) (by decide) false _).trans
      (grpEvent_get_sticky hg (by decide) (by decide) (by decide) _)

end GroupCommands

/-- Settles O31: the happenings of a lane direction state by state, then those of a group. -/
theorem clientSide : Obligations.ClientSide := by
  unfold Obligations.ClientSide
  refine ⟨fun n d s hn hd => ⟨?_, ?_, ?_, ?_, ?_, ?_, ?_, ?_, ?_, ?_, ?_⟩, fun g s hg => ⟨?_, ?_, ?_, ?_, ?_, ?_, ?_, ?_⟩⟩
  · exact exec_laneLock_wake hn hd
  · intro h1
    exact ⟨by rw [exec_laneLock hn hd, laneLock_elsewhere h1], by rw [exec_laneWakeTimeout hn hd, laneWakeTimeout_elsewhere h1]⟩
  · rintro h1 rfl
    rw [exec_laneWakeTimeout hn hd, laneWakeTimeout_receive h1]
    rfl
  · rintro h1 rfl
    exact ⟨_, by rw [exec_laneWakeTimeout hn hd, laneWakeTimeout_transmit h1], laneFail_leaves hn hd s⟩
  · exact fun h2 => ⟨_, by rw [exec_laneTestDone hn hd, laneTestDone_bad h2], laneFail_leaves hn hd s⟩
  · exact exec_laneTestDone_good hn hd
  · exact fun h2 bad => by rw [exec_laneTestDone hn hd, laneTestDone_elsewhere bad h2]
  · exact exec_laneJoin_tested hn hd
  · exact fun h => by rw [exec_laneJoin hn hd, laneJoin_elsewhere h]
  · exact exec_laneLos_on hn
  · exact fun los h3 => by rw [exec_laneLos hn, laneLos_elsewhere los h3]
  · exact fun _ _ => exec_clientGroupUp_rises hg
  · exact fun spread _ _ => exec_clientGroupUp_wrong hg spread
  · exact fun _ _ => exec_clientGroupUp_skewed hg
  · exact fun spread wrong h2 => by rw [exec_clientGroupUp hg, groupUp_elsewhere spread wrong h2]
  · exact fun _ => exec_clientLaneLockLoss_falls hg
  · exact fun _ h => by rw [exec_clientLaneLockLoss hg, groupLockLoss_elsewhere h]
  · exact fun on hif hdef => by rw [exec_hiSerDetect hg, hiSer_ethernet on hif hdef]
  · exact fun on h => by rw [exec_hiSerDetect hg, hiSer_elsewhere on h]

end Sys2Proof.Machine
